-- ==== Sys2Proof/Word.lean ====
section
/-! DEFINITION. The word types of the device, the sparse table that every array of the state is held in, and the small
enumerations that name the operands of commands. -/
namespace Sys2Proof

/-- A 64-bit word: a register, a thread register, a descriptor half. -/
abbrev Word := BitVec 64

/-- One byte. -/
abbrev Byte := BitVec 8

/-- One 64-byte line of data. -/
abbrev Line := BitVec 512

/-- A sparse table: keys with their values, keys strictly rising, no entry equal to the table's default. -/
abbrev Tab (α : Type) := List (Nat × α)

/-- The kind of a command interface: the mailbox of a logical device, or the MCTP command interface (R92). -/
inductive Cci where
  /-- The mailbox of logical device `ld`, numbered 16 × head + LD. -/
  | ld (ld : Fin 256)
  /-- The MCTP command interface, reached over I3C or SMBus. -/
  | mctp
  deriving DecidableEq, Repr

/-- Who asks for a register access (R560): a host through an LD's BAR, a Rilia thread, or the mailbox engine. -/
inductive RegSource where
  /-- A host access through the BAR of this LD. -/
  | host (ld : Fin 256)
  /-- An access of this Rilia thread, at operator or firmware level. -/
  | rilia (thread : Fin 32)
  /-- The mailbox engine, serving a command. -/
  | engine
  deriving DecidableEq, Repr

/-- What a DIMM's SPD says (R226, R227, R233, R283). -/
structure Spd where
  /-- The SPD can be read and its CRC is right. -/
  ok : Bool := true
  /-- An MRDIMM; else an RDIMM. -/
  mrdimm : Bool := false
  /-- x8 devices; else x4. -/
  x8 : Bool := false
  /-- Device density in Gb. -/
  density : Nat := 16
  /-- Logical ranks. -/
  ranks : Nat := 1
  /-- The highest data rate, in 100 MT/s. -/
  speed : Nat := 64
  serial : BitVec 32 := 0
  /-- In ps: tAA, tRCD, tRP, tRAS, tRTP, tWR, tRRD_S, tRRD_L, tFAW, tCCD_L, tWTR_S, tWTR_L, tXP and tRFC. -/
  ps : List Nat := []
  deriving DecidableEq, Repr

/-- What the receiver of a Ulilet port takes from a packet with a good CRC, beside its transaction (R407 to R411). -/
structure Header where
  /-- Payload units (LEN). -/
  len : Nat := 0
  vc : Nat := 0
  seq : BitVec 12 := 0
  ack : BitVec 12 := 0
  crVc : Nat := 0
  crCum : BitVec 12 := 0
  src : BitVec 2 := 0
  dst : BitVec 2 := 0
  /-- COLOUR: 0 green, 1 yellow, 2 red. -/
  colour : BitVec 2 := 0
  cls : BitVec 3 := 0
  /-- The GCM invocation counter of the trailer. -/
  counter : Nat := 0
  /-- The GCM tag verifies (R222). -/
  tagOk : Bool := true
  deriving DecidableEq, Repr

/-- The transaction fields of a TYPE 1 or TYPE 2 packet (R432) with its payload. -/
structure Txn where
  op : Nat
  tag : BitVec 16 := 0
  /-- INDEX: the DLPN at the home, or the guest's remote index. -/
  index : Nat := 0
  unit : Nat := 0
  status : Nat := 0
  /-- Payload lines: a line, stored units. -/
  lines : List Line := []
  /-- Payload fields of the control operations, in the order their rule gives them. -/
  words : List Nat := []
  deriving DecidableEq, Repr

/-- What a TYPE 5 packet carries between two enclaves (R216, R221, R222). -/
inductive EnclaveMsg where
  /-- A message of the SPDM handshake of the link's session (R221). -/
  | session
  /-- SPDM KEY_UPDATE (R222). -/
  | keyUpdate
  /-- A KEY_PUT for another device: where it comes from, its number there, its target, owner (none for "operator"), handle and key. -/
  | keyPut (origin tag target : Nat) (owner : Option Nat) (handle : BitVec 32) (key : BitVec 512)
  /-- The status of a KEY_PUT, for the device it came from. -/
  | keyStatus (origin tag status : Nat)
  deriving DecidableEq, Repr

end Sys2Proof
end

