-- ==== Sys2Proof/Syntax.lean ====
section
/-! DEFINITION. The commands of the block: one constructor for each row of spec/opcode_table.json, with the row's operands.
A Rilia instruction's row carries only the thread that issues it, since the word it runs stands in instruction memory. -/
namespace Sys2Proof

/-- A command: what one sender puts to the block, or an event of the block's own engines, timers and pins. -/
inductive Instr where
  /-- HOST_READ (R29). A host read request arrives at a port, takes a tracker, passes the regulator, is translated and looked up, and is queued to its channel or forwarded. -/
  | hostRead (p ld : Fin 16) (dpa : BitVec 52) (tag : BitVec 16) (own : Bool) (metaA metaB : BitVec 2)
  /-- HOST_WRITE (R31). A host write request arrives at a port and is regulated, translated, charged and stored in write gather, or forwarded. -/
  | hostWrite (p ld : Fin 16) (dpa : BitVec 52) (tag : BitVec 16) (data : BitVec 512) (mask : BitVec 64) (poison : Bool) (kind : Fin 3) (metaA metaB : BitVec 2)
  /-- POOL_ENTRY_RELEASE (R38). A pool entry is freed and handed to the next waiting requester in rotating order. -/
  | poolEntryRelease (pool : Fin 10) (x : Fin 21)
  /-- DISTRESS_REPEAT (R141). The 100 ms distress interval expires and step 2 of distress is repeated if U has not risen. -/
  | distressRepeat
  /-- HOLD_EXPIRY (R165). The HOLD time after the oldest gathered line of a packed page expires and the page is evicted. -/
  | holdExpiry (dlpn : BitVec 34)
  /-- GATHER_EVICTION (R32). Gathered lines are evicted from write gather to DRAM as the page state requires. -/
  | gatherEviction (dlpn : BitVec 34) (flips : List (Nat × List (BitVec 80)))
  /-- PACKED_EVICTION (R166). A packed page's gathered blocks are merged, re-encoded and written to a new slot run, and the descriptor is swapped. -/
  | packedEviction (dlpn : BitVec 34) (ue : BitVec 4)
  /-- ALLOCATION_RESUME (R162). A waiting eviction, first storage or evacuation move finds a free place and resumes. -/
  | allocationResume (n : BitVec 32)
  /-- DRAM_READ_DATA (R258). A DRAM line read returns, and its words and tag are decoded into clean, CE, poisoned or UE. -/
  | dramReadData (c : Fin 24) (sub : Fin 2) (flips : List (BitVec 80))
  /-- UE_RETRY_READ (R259). A line read with a UE outcome is read once more and the second outcome stands. -/
  | ueRetryRead (c : Fin 24) (sub : Fin 2) (flips : List (BitVec 80)) (lanes : BitVec 40)
  /-- RANK_RECORD_EXPIRY (R279). ROWS_WIN passes from a SUSPECT rank's first record and the rank returns to HEALTHY. -/
  | rankRecordExpiry (c : Fin 24) (r : Fin 16)
  /-- WRITE_CRC_ERROR (R276). A DIMM signals a write CRC error and the write is sent again, up to exhaustion. -/
  | writeCrcError (line : BitVec 38)
  /-- RETIREMENT_RETRY (R280). A pending retirement is retried every 1 s with a forced EVAC. -/
  | retirementRetry (c : Fin 24)
  /-- PATROL_SCRUB_READ (R272). The paced patrol scrubber reads and checks its next line or slot run. -/
  | patrolScrubRead (line : BitVec 38) (flips again : List (BitVec 80)) (lanes : BitVec 40)
  /-- SCRUB_PERIOD_END (R271). A scrub period ends, PASSES advances and OVERFLOW may clear. -/
  | scrubPeriodEnd
  /-- DESCRIPTOR_COPY_WRITTEN (R195). A descriptor copy write goes out on its DIMM bus, copy B follows A, and the change is acknowledged after copy B. -/
  | descriptorCopyWritten (k : BitVec 32)
  /-- BIRSP (R85). A host's BIRsp arrives and completes an outstanding back-invalidate snoop. -/
  | birsp (h : Fin 16) (home : BitVec 2) (dlpn : BitVec 34) (line : BitVec 6)
  /-- IDE_MAC_PASS (R90). The MAC covering requests passes and unverified writes and completions are released. -/
  | ideMacPass (h : Fin 16)
  /-- IDE_MAC_FAILURE (R90). A MAC check fails: unverified writes are discarded, IDE_STATE becomes failed and an F2 fault is raised. -/
  | ideMacFailure (h : Fin 16)
  /-- PORT_PERST_ASSERT (R111). The leader's PORT_PERST_N asserts and the head undergoes a port reset. -/
  | portPerstAssert (p : Fin 16)
  /-- PORT_PERST_RELEASE (R68). The leader's PORT_PERST_N is released and the link begins Detect within 1 ms. -/
  | portPerstRelease (p : Fin 16)
  /-- LINK_TRAINED (R68). A port link reaches L0 at its trained width and rate, with a degrade record if it is narrower or slower. -/
  | linkTrained (p : Fin 16) (width rate : BitVec 3) (flit256 : Bool)
  /-- LINK_DOWN (R111). A link leaves the data link active state and the head undergoes a port reset. -/
  | linkDown (p : Fin 16)
  /-- LINK_RETRAIN (R112). A link error that replay does not recover makes the port retrain. -/
  | linkRetrain (p : Fin 16)
  /-- DOWN_LATCHED_CLEAR (R112). A write of 1 to PORT_RETRAIN.DOWN_LATCHED clears the latch and lets the link train. -/
  | downLatchedClear (p : Fin 16)
  /-- PORT_CTL_WRITE (R563). A write to PORT_CTL sets RWL fields and locks them when COMMIT is written, or is ignored once locked. -/
  | portCtlWrite (src : RegSource) (p : Fin 16) (w : BitVec 64)
  /-- IDENTIFY (R96). Mailbox command Identify. -/
  | identify (cci : Cci) (len : BitVec 32)
  /-- BACKGROUND_OPERATION_STATUS (R96). Mailbox command Background Operation Status. -/
  | backgroundOperationStatus (cci : Cci) (len : BitVec 32)
  /-- GET_RESPONSE_MESSAGE_LIMIT (R96). MCTP command Get Response Message Limit. -/
  | getResponseMessageLimit (cci : Cci) (len : BitVec 32)
  /-- SET_RESPONSE_MESSAGE_LIMIT (R96). MCTP command Set Response Message Limit. -/
  | setResponseMessageLimit (cci : Cci) (len : BitVec 32) (limit : BitVec 8)
  /-- GET_EVENT_RECORDS (R96). Mailbox command Get Event Records. -/
  | getEventRecords (cci : Cci) (len : BitVec 32) (ld : Fin 256) (log : BitVec 8)
  /-- CLEAR_EVENT_RECORDS (R96). Mailbox command Clear Event Records. -/
  | clearEventRecords (cci : Cci) (len : BitVec 32) (ld : Fin 256) (log : BitVec 8) (all : Bool) (handles : List (BitVec 16))
  /-- GET_EVENT_INTERRUPT_POLICY (R96). Mailbox command Get Event Interrupt Policy. -/
  | getEventInterruptPolicy (cci : Cci) (len : BitVec 32) (ld : Fin 256)
  /-- SET_EVENT_INTERRUPT_POLICY (R96). Mailbox command Set Event Interrupt Policy. -/
  | setEventInterruptPolicy (cci : Cci) (len : BitVec 32) (ld : Fin 256) (policy : BitVec 40)
  /-- GET_MCTP_EVENT_INTERRUPT_POLICY (R96). MCTP command Get MCTP Event Interrupt Policy. -/
  | getMctpEventInterruptPolicy (cci : Cci) (len : BitVec 32)
  /-- SET_MCTP_EVENT_INTERRUPT_POLICY (R96). MCTP command Set MCTP Event Interrupt Policy. -/
  | setMctpEventInterruptPolicy (cci : Cci) (len : BitVec 32) (policy : BitVec 16)
  /-- GET_FW_INFO (R96). Mailbox command Get FW Info, reporting the active bank's firmware version. -/
  | getFwInfo (cci : Cci) (len : BitVec 32)
  /-- GET_TIMESTAMP (R96). Mailbox command Get Timestamp, returning the timebase plus the LD's offset. -/
  | getTimestamp (cci : Cci) (len : BitVec 32) (ld : Fin 256)
  /-- SET_TIMESTAMP (R96). Mailbox command Set Timestamp, setting the LD's timestamp offset. -/
  | setTimestamp (cci : Cci) (len : BitVec 32) (ld : Fin 256) (time : BitVec 64)
  /-- GET_SUPPORTED_LOGS (R96). Mailbox command Get Supported Logs. -/
  | getSupportedLogs (cci : Cci) (len : BitVec 32)
  /-- GET_LOG (R96). Mailbox command Get Log, for the Command Effects Log. -/
  | getLog (cci : Cci) (len : BitVec 32) (offset : BitVec 32) (length : BitVec 32)
  /-- IDENTIFY_MEMORY_DEVICE (R77). Mailbox command Identify Memory Device, reporting dynamic capacity only. -/
  | identifyMemoryDevice (cci : Cci) (len : BitVec 32) (ld : Fin 256)
  /-- GET_HEALTH_INFO (R524). Mailbox command Get Health Info, evaluated when it runs. -/
  | getHealthInfo (cci : Cci) (len : BitVec 32) (ld : Fin 256)
  /-- GET_ALERT_CONFIGURATION (R96). Mailbox command Get Alert Configuration. -/
  | getAlertConfiguration (cci : Cci) (len : BitVec 32) (ld : Fin 256)
  /-- SET_ALERT_CONFIGURATION (R96). Mailbox command Set Alert Configuration. -/
  | setAlertConfiguration (cci : Cci) (len : BitVec 32) (ld : Fin 256) (valid : BitVec 8) (warnTemp lowTemp ceThreshold : BitVec 16)
  /-- GET_POISON_LIST (R270). Mailbox command Get Poison List, translating list entries to the LD's DPAs. -/
  | getPoisonList (cci : Cci) (len : BitVec 32) (ld : Fin 256) (dpa length : BitVec 64)
  /-- INJECT_POISON (R87). Mailbox command Inject Poison, marking one line or block poisoned and listing it with source 2. -/
  | injectPoison (cci : Cci) (len : BitVec 32) (ld : Fin 256) (dpa : BitVec 64)
  /-- CLEAR_POISON (R87). Mailbox command Clear Poison, writing the supplied line and clearing the unit's poison. -/
  | clearPoison (cci : Cci) (len : BitVec 32) (ld : Fin 256) (dpa : BitVec 64) (data : BitVec 512)
  /-- GET_SCAN_MEDIA_CAPABILITIES (R96). Mailbox command Get Scan Media Capabilities. -/
  | getScanMediaCapabilities (cci : Cci) (len : BitVec 32) (ld : Fin 256) (dpa length : BitVec 64)
  /-- SCAN_MEDIA (R275). Mailbox background command Scan Media over the LD's extents in a DPA range. -/
  | scanMedia (cci : Cci) (len : BitVec 32) (ld : Fin 256) (dpa length : BitVec 64)
  /-- SCAN_MEDIA_COMPLETE (R275). A Scan Media run reaches the end of its range and its background command completes. -/
  | scanMediaComplete (ld : Fin 256) (ues : List (BitVec 38))
  /-- GET_SCAN_MEDIA_RESULTS (R275). Mailbox command Get Scan Media Results. -/
  | getScanMediaResults (cci : Cci) (len : BitVec 32) (ld : Fin 256)
  /-- GET_DYNAMIC_CAPACITY_CONFIGURATION (R96). Mailbox command Get Dynamic Capacity Configuration. -/
  | getDynamicCapacityConfiguration (cci : Cci) (len : BitVec 32) (ld : Fin 256) (first count : BitVec 8)
  /-- GET_DYNAMIC_CAPACITY_EXTENT_LIST (R96). Mailbox command Get Dynamic Capacity Extent List. -/
  | getDynamicCapacityExtentList (cci : Cci) (len : BitVec 32) (ld : Fin 256) (first count : BitVec 32)
  /-- ADD_DYNAMIC_CAPACITY_RESPONSE (R80). The host accepts offered extents, which become ACTIVE, and omitted extents of answered grants return to FREE. -/
  | addDynamicCapacityResponse (cci : Cci) (len : BitVec 32) (ld : Fin 256) (list : List (BitVec 64 × BitVec 64))
  /-- RELEASE_DYNAMIC_CAPACITY (R133). The host releases extents, removing mappings and starting crypto-erase at the last mapping. -/
  | releaseDynamicCapacity (cci : Cci) (len : BitVec 32) (ld : Fin 256) (list : List (BitVec 64 × BitVec 64))
  /-- UNSUPPORTED_COMMAND (R96). A command with an unsupported opcode completes with Unsupported and takes no action. -/
  | unsupportedCommand (cci : Cci) (len : BitVec 32) (opcode : BitVec 16)
  /-- GET_LD_INFO (R97). Fabric-manager command Get LD Info. -/
  | getLdInfo (cci : Cci) (len : BitVec 32)
  /-- GET_LD_ALLOCATIONS (R97). Fabric-manager command Get LD Allocations. -/
  | getLdAllocations (cci : Cci) (len : BitVec 32) (start : BitVec 8) (limit : BitVec 8)
  /-- GET_QOS_CONTROL (R395). Fabric-manager command Get QoS Control. -/
  | getQosControl (cci : Cci) (len : BitVec 32)
  /-- GET_QOS_STATUS (R395). Fabric-manager command Get QoS Status. -/
  | getQosStatus (cci : Cci) (len : BitVec 32) (head : Fin 16)
  /-- GET_QOS_ALLOCATED_BW (R395). Fabric-manager command Get QoS Allocated BW. -/
  | getQosAllocatedBw (cci : Cci) (len : BitVec 32) (start count : BitVec 8)
  /-- GET_QOS_BW_LIMIT (R395). Fabric-manager command Get QoS BW Limit. -/
  | getQosBwLimit (cci : Cci) (len : BitVec 32) (start count : BitVec 8)
  /-- GET_MULTI_HEADED_INFO (R97). Fabric-manager command Get Multi-Headed Info. -/
  | getMultiHeadedInfo (cci : Cci) (len : BitVec 32) (start : BitVec 8) (limit : BitVec 8)
  /-- GET_HEAD_INFO (R97). Fabric-manager command Get Head Info. -/
  | getHeadInfo (cci : Cci) (len : BitVec 32) (start : BitVec 8) (count : BitVec 8)
  /-- GET_DCD_INFO (R97). Fabric-manager command Get DCD Info. -/
  | getDcdInfo (cci : Cci) (len : BitVec 32)
  /-- GET_HOST_DC_REGION_CONFIGURATION (R97). Fabric-manager command Get Host DC Region Configuration. -/
  | getHostDcRegionConfiguration (cci : Cci) (len : BitVec 32) (ld : Fin 256) (start : BitVec 8) (count : BitVec 8)
  /-- SET_DC_REGION_CONFIGURATION (R115). Fabric-manager command Set DC Region Configuration, refusing regions that reach DPA bit 52. -/
  | setDcRegionConfiguration (cci : Cci) (len : BitVec 32) (ld : Fin 256) (region : BitVec 8) (base length : BitVec 64)
  /-- GET_DC_REGION_EXTENT_LISTS (R97). Fabric-manager command Get DC Region Extent Lists. -/
  | getDcRegionExtentLists (cci : Cci) (len : BitVec 32) (ld : Fin 256) (first count : BitVec 32)
  /-- INITIATE_DYNAMIC_CAPACITY_ADD (R78). Fabric-manager command that runs admission and, if granted, offers extents to an LD. -/
  | initiateDynamicCapacityAdd (cci : Cci) (len : BitVec 32) (ld : Fin 256) (block : BitVec 24) (count : BitVec 32) (loaned fixed packed : Bool) (fill : Option (Fin 24)) (map : Option (BitVec 18)) (slot : BitVec 12) (tag : BitVec 64)
  /-- INITIATE_DYNAMIC_CAPACITY_RELEASE (R79). Fabric-manager command that requests release, or forces it with Forced Removal. -/
  | initiateDynamicCapacityRelease (cci : Cci) (len : BitVec 32) (ld : Fin 256) (forced : Bool) (list : List (BitVec 64 × BitVec 64))
  /-- GET_ALMANAC (R62). Vendor command returning a range of the Almanac with its generation. -/
  | getAlmanac (cci : Cci) (len : BitVec 32) (offset : BitVec 32) (length : BitVec 32)
  /-- LOAD_RILIA_IMAGE (R99). Vendor command carrying one chunk of an image, verified when the last byte arrives. -/
  | loadRiliaImage (cci : Cci) (len : BitVec 32) (offset total : BitVec 32) (target head ldId : BitVec 8) (chunk : List Byte) (sigOk : Bool)
  /-- ACTIVATE_RILIA_IMAGE (R100). Vendor background command that builds a program set in the inactive bank or rolls back. -/
  | activateRiliaImage (cci : Cci) (len : BitVec 32) (target head ldId flags : BitVec 8)
  /-- GET_RILIA_STATUS (R101). Vendor command returning bank, image, thread and trap status. -/
  | getRiliaStatus (cci : Cci) (len : BitVec 32)
  /-- SLOT_POWER_CONTROL (R102). Vendor command to query, switch off, switch on or re-arm a DIMM slot. -/
  | slotPowerControl (cci : Cci) (len : BitVec 32) (slot : BitVec 8) (action : BitVec 8)
  /-- CHANNEL_EVACUATE (R103). Vendor command to start, query or cancel a channel evacuation. -/
  | channelEvacuate (cci : Cci) (len : BitVec 32) (c action flags : BitVec 8)
  /-- CHANNEL_RESTORE (R201). Vendor command that powers, trains and initialises a channel and returns it to ACTIVE. -/
  | channelRestore (cci : Cci) (len : BitVec 32) (c : BitVec 8)
  /-- GET_TALLIES (R539). Vendor command returning stored tallies from a sequence number. -/
  | getTallies (cci : Cci) (len : BitVec 32) (first : BitVec 64) (count : BitVec 32) (filter : BitVec 16)
  /-- CONFIGURE_RECORDER (R105). Vendor command setting the epoch and the pending recorder configuration. -/
  | configureRecorder (cci : Cci) (len : BitVec 32) (config : BitVec 8) (epoch : BitVec 16) (ring : BitVec 32)
  /-- GET_VIGIL_REPORT (R106). Vendor command returning a range of the Vigil report. -/
  | getVigilReport (cci : Cci) (len : BitVec 32) (offset : BitVec 32) (length : BitVec 32)
  /-- CONSTELLATION_STATUS (R107). Vendor command returning a snapshot of the constellation members. -/
  | constellationStatus (cci : Cci) (len : BitVec 32)
  /-- SET_TIMEBASE (R108). Vendor command setting the polestar's timebase, with an optional step back. -/
  | setTimebase (cci : Cci) (len : BitVec 32) (time : BitVec 64) (stepBack : Bool)
  /-- GET_COMET_SAMPLES (R109). Vendor command returning and removing comet samples. -/
  | getCometSamples (cci : Cci) (len : BitVec 32) (quadrant : BitVec 8) (count : BitVec 16)
  /-- COUNTER_ACCESS_GRANT (R110). Vendor command to query, grant or revoke an LD's counter-block access. -/
  | counterAccessGrant (cci : Cci) (len : BitVec 32) (head ldId action : BitVec 8) (mask : BitVec 64)
  /-- KEY_PUT (R214). SPDM vendor message staging a memory key for a target device. -/
  | keyPut (cci : Cci) (len : BitVec 16) (ld : BitVec 16) (target : BitVec 8) (handle : BitVec 32) (k1 k2 : BitVec 256)
  /-- KEY_QUERY (R214). SPDM vendor message reporting a key slot's state and extent count. -/
  | keyQuery (cci : Cci) (len ld slot : BitVec 16)
  /-- KEY_CLOSE (R210). SPDM vendor message that zeroizes a LOADED slot or makes a BOUND slot CLOSING. -/
  | keyClose (cci : Cci) (len ld slot : BitVec 16)
  /-- OPKEY_ENROL (R358). SPDM vendor message enrolling or replacing the operator key. -/
  | opkeyEnrol (cci : Cci) (len : BitVec 16) (counter : BitVec 64) (key : List Byte) (sigOk : Bool)
  /-- KEY_STAGING_TIMEOUT (R215). A staging entry that no KLOAD took within 10 s is zeroized. -/
  | keyStagingTimeout (handle : BitVec 32)
  /-- DOE_CDAT_TABLE_ACCESS (R82). A DOE request reads the LD's CDAT entries. -/
  | doeCdatTableAccess (ld : Fin 256)
  /-- FIXED_EXTENT_FILL_DONE (R127). The last page of a FIXED extent is zero-filled and its Add Capacity record is placed. -/
  | fixedExtentFillDone (e : BitVec 18)
  /-- ZEROING_WRITE (R218). Background zeroing of an erasing extent's storage writes its next unit at ERASE_CTL.RATE. -/
  | zeroingWrite (e : BitVec 18)
  /-- MOVER_CLAIM (R188). A queued mover operation claims its page, charges and allocates its destination, and sets MOVING. -/
  | moverClaim (q : Fin 4) (flips : List (Nat × List (BitVec 80)))
  /-- MOVER_COPY_DONE (R188). The copy of a mover operation completes and the operation checks for races. -/
  | moverCopyDone (q : Fin 4) (dlpn : BitVec 34) (ue : BitVec 64)
  /-- MOVER_FREE (R188). READERS reaches 0 after the swap, the source is freed and the operation completes. -/
  | moverFree (q : Fin 4) (dlpn : BitVec 34)
  /-- MAGNITUDE_DECAY (R183). The DECAY period expires and a halving sweep of the sketch starts. -/
  | magnitudeDecay
  /-- EVACUATION_STRUCTURE_MOVED (R198). A device structure on an evacuating channel finishes copying and its pointer is switched. -/
  | evacuationStructureMoved (c : Fin 24)
  /-- EVACUATION_END (R199). The last page of an evacuating channel is freed and the channel becomes EVACUATED or RETIRED. -/
  | evacuationEnd (c : Fin 24)
  /-- CHANNEL_INIT_DONE (R201). A restored channel finishes zero-initialisation and becomes ACTIVE. -/
  | channelInitDone (c : Fin 24)
  /-- CHANNEL_TRAINING_STEP_DONE (R230). A training step of a channel finishes, passing to the next step or stepping down in speed. -/
  | channelTrainingStepDone (c : Fin 24) (pass : BitVec 2) (spd0 spd1 : Option Spd) (t0 t1 : Option (BitVec 11)) (hardOk : Bool)
  /-- MEMORY_INIT_WRITE (R234). An ACTIVE channel writes its next lines at its frontier in unused command slots. -/
  | memoryInitWrite (c : Fin 24) (n : BitVec 24)
  /-- DRAM_COMMAND_PICK (R240). A subchannel picker chooses the next command at a command-bus slot. -/
  | dramCommandPick (c : Fin 24) (sub : Fin 2)
  /-- CHANNEL_GATE_PICK (R384). A channel gate picks a waiting request for a free command-queue entry by weighted-fair queuing. -/
  | channelGatePick (c : Fin 24)
  /-- WRITE_DRAIN_TIMEOUT (R242). A subchannel's oldest write has waited 2 µs and a write drain starts. -/
  | writeDrainTimeout (c : Fin 24) (sub : Fin 2)
  /-- ROW_IDLE_CLOSE (R243). An open row passes ROW_IDLE without access and is closed. -/
  | rowIdleClose (c : Fin 24) (bank : BitVec 12)
  /-- REFRESH_PULSE (R245). A channel's refresh pulse arrives and it precharges and issues REFab. -/
  | refreshPulse (c : Fin 24) (late : BitVec 6)
  /-- REFRESH_DONE (R244). tRFC after a REFab passes and the channel resumes scheduling. -/
  | refreshDone (c : Fin 24)
  /-- DIMM_THERMAL_POLL (R247). The 16 ms poll reads each DIMM sensor and updates the channel's hot state. -/
  | dimmThermalPoll (c : Fin 24) (t0 t1 : Option (BitVec 11))
  /-- RANK_POWER_DOWN (R248). A rank's PD_TIMER expires without commands and the rank enters power-down. -/
  | rankPowerDown (c : Fin 24) (r : Fin 32)
  /-- SELF_REFRESH_ENTRY (R249). A channel finishes its commands, precharges and issues SRE to every rank. -/
  | selfRefreshEntry (c : Fin 24)
  /-- SELF_REFRESH_EXIT (R249). A channel issues SRX, waits tXS and one REFab, and rejoins its pulses. -/
  | selfRefreshExit (c : Fin 24)
  /-- ZQ_CALIBRATION (R250). The 128 ms interval expires and one rank is ZQ-calibrated within a REFab. -/
  | zqCalibration (c : Fin 24)
  /-- DQS_OSCILLATOR_TRACKING (R250). The 32 ms interval expires and one rank's DQS interval oscillator is tracked. -/
  | dqsOscillatorTracking (c : Fin 24)
  /-- RETRAINING_WINDOW_START (R251). CH_RETRAIN.START opens a retraining window for the ranks in RANK_MASK. -/
  | retrainingWindowStart (c : Fin 24) (kind : BitVec 2) (mask : BitVec 16)
  /-- RETRAINING_WINDOW_END (R251). A retraining window finishes its ranks, applies or rejects results and resumes scheduling. -/
  | retrainingWindowEnd (c : Fin 24) (pass : Bool)
  /-- CH_CTL_WRITE (R241). A write to CH_CTL sets its fields, applies EXPRESS with its limit of 4, and locks SPEED_MAX at COMMIT. -/
  | chCtlWrite (src : RegSource) (c : Fin 24) (w : BitVec 64)
  /-- REPAIR_LIFT_FENCE (R284). CH_REPAIR START with KIND 0 lifts the held fence without repair. -/
  | repairLiftFence (c : Fin 24)
  /-- REPAIR_FENCE (R284). CH_REPAIR START with KIND 1 fences a row's frames from allocation. -/
  | repairFence (c : Fin 24) (slot : BitVec 1) (rank bg : BitVec 3) (bank : BitVec 2) (row : BitVec 17)
  /-- REPAIR_SOFT (R284). CH_REPAIR START with KIND 2 applies soft post-package repair to the fenced row. -/
  | repairSoft (c : Fin 24) (slot : BitVec 1) (rank bg : BitVec 3) (bank : BitVec 2) (row : BitVec 17) (resource : Bool)
  /-- REPAIR_HARD (R284). CH_REPAIR START with KIND 3 applies soft repair and records a pending hard repair. -/
  | repairHard (c : Fin 24) (slot : BitVec 1) (rank bg : BitVec 3) (bank : BitVec 2) (row : BitVec 17) (resource : Bool)
  /-- REPAIR_DONE (R284). A repair finishes its stall and zeroing, adds its spare-map entry and lifts the fence. -/
  | repairDone (c : Fin 24) (ok : Bool)
  /-- NOP (R322). Rilia instruction NOP. -/
  | nop (t : Fin 32)
  /-- YIELD (R322). Rilia instruction YIELD. -/
  | yield (t : Fin 32)
  /-- FENCE (R292). Rilia instruction FENCE. -/
  | fence (t : Fin 32)
  /-- HALT (R304). Rilia instruction HALT, taking the thread out of service. -/
  | halt (t : Fin 32)
  /-- TRAP (R322). Rilia instruction TRAP, raising the trap named in its c field. -/
  | trap (t : Fin 32)
  /-- TIME (R322). Rilia instruction TIME, reading the timebase or uptime. -/
  | time (t : Fin 32)
  /-- ERET (R304). Rilia instruction ERET, ending the invocation and freeing the thread. -/
  | eret (t : Fin 32)
  /-- ADD (R323). Rilia instruction ADD. -/
  | add (t : Fin 32)
  /-- SUB (R323). Rilia instruction SUB. -/
  | sub (t : Fin 32)
  /-- AND (R323). Rilia instruction AND. -/
  | and (t : Fin 32)
  /-- OR (R323). Rilia instruction OR. -/
  | or (t : Fin 32)
  /-- XOR (R323). Rilia instruction XOR. -/
  | xor (t : Fin 32)
  /-- SHL (R323). Rilia instruction SHL. -/
  | shl (t : Fin 32)
  /-- SHR (R323). Rilia instruction SHR. -/
  | shr (t : Fin 32)
  /-- SAR (R323). Rilia instruction SAR. -/
  | sar (t : Fin 32)
  /-- SLT (R323). Rilia instruction SLT. -/
  | slt (t : Fin 32)
  /-- SLTU (R323). Rilia instruction SLTU. -/
  | sltu (t : Fin 32)
  /-- SEQ (R323). Rilia instruction SEQ. -/
  | seq (t : Fin 32)
  /-- MUL (R323). Rilia instruction MUL. -/
  | mul (t : Fin 32)
  /-- MULHU (R323). Rilia instruction MULHU. -/
  | mulhu (t : Fin 32)
  /-- DIVU (R323). Rilia instruction DIVU. -/
  | divu (t : Fin 32)
  /-- REMU (R323). Rilia instruction REMU. -/
  | remu (t : Fin 32)
  /-- MIN (R323). Rilia instruction MIN. -/
  | min (t : Fin 32)
  /-- MAX (R323). Rilia instruction MAX. -/
  | max (t : Fin 32)
  /-- POPC (R323). Rilia instruction POPC. -/
  | popc (t : Fin 32)
  /-- CLZ (R323). Rilia instruction CLZ. -/
  | clz (t : Fin 32)
  /-- ADDI (R324). Rilia instruction ADDI. -/
  | addi (t : Fin 32)
  /-- ANDI (R324). Rilia instruction ANDI. -/
  | andi (t : Fin 32)
  /-- ORI (R324). Rilia instruction ORI. -/
  | ori (t : Fin 32)
  /-- XORI (R324). Rilia instruction XORI. -/
  | xori (t : Fin 32)
  /-- SHLI (R324). Rilia instruction SHLI. -/
  | shli (t : Fin 32)
  /-- SHRI (R324). Rilia instruction SHRI. -/
  | shri (t : Fin 32)
  /-- SARI (R324). Rilia instruction SARI. -/
  | sari (t : Fin 32)
  /-- SLTI (R324). Rilia instruction SLTI. -/
  | slti (t : Fin 32)
  /-- LUI (R324). Rilia instruction LUI. -/
  | lui (t : Fin 32)
  /-- LD8 (R325). Rilia instruction LD8. -/
  | ld8 (t : Fin 32)
  /-- LD16 (R325). Rilia instruction LD16. -/
  | ld16 (t : Fin 32)
  /-- LD32 (R325). Rilia instruction LD32. -/
  | ld32 (t : Fin 32)
  /-- LD64 (R325). Rilia instruction LD64. -/
  | ld64 (t : Fin 32)
  /-- ST8 (R325). Rilia instruction ST8. -/
  | st8 (t : Fin 32)
  /-- ST16 (R325). Rilia instruction ST16. -/
  | st16 (t : Fin 32)
  /-- ST32 (R325). Rilia instruction ST32. -/
  | st32 (t : Fin 32)
  /-- ST64 (R325). Rilia instruction ST64. -/
  | st64 (t : Fin 32)
  /-- CAS (R326). Rilia atomic compare-and-swap on a shared-window word. -/
  | cas (t : Fin 32)
  /-- FADD (R326). Rilia atomic fetch-and-add on a shared-window word. -/
  | fadd (t : Fin 32)
  /-- BEQ (R327). Rilia instruction BEQ. -/
  | beq (t : Fin 32)
  /-- BNE (R327). Rilia instruction BNE. -/
  | bne (t : Fin 32)
  /-- BLT (R327). Rilia instruction BLT. -/
  | blt (t : Fin 32)
  /-- BGE (R327). Rilia instruction BGE. -/
  | bge (t : Fin 32)
  /-- BLTU (R327). Rilia instruction BLTU. -/
  | bltu (t : Fin 32)
  /-- BGEU (R327). Rilia instruction BGEU. -/
  | bgeu (t : Fin 32)
  /-- J (R328). Rilia instruction J. -/
  | j (t : Fin 32)
  /-- JAL (R328). Rilia instruction JAL. -/
  | jal (t : Fin 32)
  /-- JR (R328). Rilia instruction JR. -/
  | jr (t : Fin 32)
  /-- DLD (R329). Rilia instruction reading a descriptor word, or a remote descriptor word for a FAR page. -/
  | dld (t : Fin 32) (metaA metaB : BitVec 2)
  /-- DCAS (R330). Rilia instruction comparing a descriptor and replacing its RW fields in both copies. -/
  | dcas (t : Fin 32) (metaA metaB : BitVec 2)
  /-- DREL (R329). Rilia instruction marking a range's metadata-cache lines first to replace. -/
  | drel (t : Fin 32)
  /-- DFIND (R329). Rilia instruction finding the lowest DLPN in a range whose state matches a mask. -/
  | dfind (t : Fin 32) (errors : List (BitVec 2 × BitVec 2))
  /-- MOVE (R331). Rilia instruction queueing a MOVE to a channel, a MOVE to a guest or a recall. -/
  | move (t : Fin 32) (metaA metaB : BitVec 2)
  /-- PACK (R331). Rilia instruction queueing a PACK. -/
  | pack (t : Fin 32) (metaA metaB : BitVec 2)
  /-- UNPACK (R331). Rilia instruction queueing an UNPACK. -/
  | unpack (t : Fin 32) (metaA metaB : BitVec 2)
  /-- ZERO (R175). Rilia instruction queueing a ZERO of a page. -/
  | zero (t : Fin 32) (metaA metaB : BitVec 2)
  /-- EVAC (R333). Rilia instruction starting or cancelling a channel evacuation. -/
  | evac (t : Fin 32)
  /-- MWAIT (R332). Rilia instruction waiting for a ticket's completion code. -/
  | mwait (t : Fin 32)
  /-- MAGR (R334). Rilia instruction returning one page's magnitude. -/
  | magr (t : Fin 32)
  /-- MAGSCAN (R335). Rilia instruction listing the pages of a range at or below a magnitude bound. -/
  | magscan (t : Fin 32)
  /-- MAGDECAY (R183). Rilia instruction starting a halving sweep of the sketch. -/
  | magdecay (t : Fin 32)
  /-- HALVING_SWEEP_DONE (R183). A halving sweep finishes and any queued second sweep starts. -/
  | halvingSweepDone
  /-- QSET (R337). Rilia instruction staging a QoS parameter value. -/
  | qset (t : Fin 32)
  /-- QGET (R336). Rilia instruction reading a committed QoS parameter. -/
  | qget (t : Fin 32)
  /-- QCOMMIT (R391). Rilia instruction submitting the staged QoS set to admission. -/
  | qcommit (t : Fin 32)
  /-- QOS_SET_APPLY (R376). A committed QoS set takes effect at the first 8 ns tick after the commit. -/
  | qosSetApply
  /-- WAIT (R304). Rilia instruction waiting on up to 8 queues with a timeout. -/
  | wait (t : Fin 32)
  /-- WAIT_TIMEOUT (R304). A WAIT's timeout passes without an entry and the thread resumes with g5 0xFFFF. -/
  | waitTimeout (t : Fin 32)
  /-- POST (R338). Rilia instruction placing an entry in a queue, or completing a mailbox command on queue 0. -/
  | post (t : Fin 32)
  /-- BIND (R302). Rilia instruction binding a handler and optional timer to a queue. -/
  | bind (t : Fin 32)
  /-- UNBIND (R338). Rilia instruction removing a queue's binding and timer. -/
  | unbind (t : Fin 32)
  /-- QUEUE_TIMER_EXPIRY (R302). A bound queue's period expires and a timer event is posted or its count raised. -/
  | queueTimerExpiry (q : Fin 256)
  /-- DISPATCH (R303). The dispatcher gives a queue entry to a waiting thread or starts an invocation on a free thread. -/
  | dispatch
  /-- WATCHDOG_EXPIRY (R309). An invocation's 10 ms watchdog expires and it traps WATCHDOG. -/
  | watchdogExpiry (t : Fin 32)
  /-- CTRR (R339). Rilia instruction reading a counter-block register. -/
  | ctrr (t : Fin 32)
  /-- CTRW (R339). Rilia instruction reading and writing a counter-block register in one operation. -/
  | ctrw (t : Fin 32)
  /-- TALLY (R339). Rilia instruction adding a sample to a software tally source. -/
  | tally (t : Fin 32)
  /-- RDREG (R340). Rilia instruction reading a register of the device register window. -/
  | rdreg (t : Fin 32)
  /-- WRREG (R340). Rilia instruction writing a register of the device register window. -/
  | wrreg (t : Fin 32)
  /-- EXTGRANT (R342). Rilia instruction asking admission for extents or a further shared mapping. -/
  | extgrant (t : Fin 32)
  /-- EXTRECALL (R343). Rilia instruction listing, requesting release of, or unlisting an extent. -/
  | extrecall (t : Fin 32)
  /-- CAPQ (R344). Rilia instruction writing a consistent snapshot of the capacity quantities. -/
  | capq (t : Fin 32)
  /-- KSEL (R345). Rilia instruction selecting a key slot for later grants. -/
  | ksel (t : Fin 32)
  /-- KLOAD (R345). Rilia instruction moving a staged key into an EMPTY slot. -/
  | kload (t : Fin 32)
  /-- KZERO (R345). Rilia instruction zeroizing a LOADED key slot. -/
  | kzero (t : Fin 32)
  /-- ACTIVATION_SWAP (R370). An activation's build completes and the new bank becomes active, with data, bindings and records installed. -/
  | activationSwap
  /-- GRACE_PERIOD_EXPIRY (R370). 100 ms after a swap, invocations still in the old bank trap and the bank is freed. -/
  | gracePeriodExpiry
  /-- SHAPER_RELEASE (R381). An LD's shaper credit reaches 0 or more and a waiting request is released. -/
  | shaperRelease (ld : Fin 256)
  /-- GUARANTEE_SCALE_REPORT (R393). A scale change is reported with kind 0x0003 records and queue 9, at most once per 10 ms per scope. -/
  | guaranteeScaleReport (scope : Fin 17)
  /-- ULILET_PRESENCE (R403). ULT_PRSNT_N stays low for 1 ms with ENABLE set and the port goes to DETECT. -/
  | uliletPresence (u : Fin 3)
  /-- ULILET_RECEIVER_DETECT (R403). The receiver detects the peer's lanes and training starts. -/
  | uliletReceiverDetect (u : Fin 3)
  /-- ULILET_TRAINING_DONE (R402). Equalisation, alignment and BERT end and a width is chosen, or a training failure is counted. -/
  | uliletTrainingDone (u : Fin 3) (ok : BitVec 16) (reversed : Bool)
  /-- PARAM (R404). A PARAM link-control packet arrives and sets the VC count or reveals a conflict. -/
  | param (u : Fin 3) (h : Header) (devId : BitVec 2) (role : Bool) (vcs : BitVec 8) (serial : BitVec 64)
  /-- PARAM_SEND (R404). The 10 µs, or 1 ms in DISCORD, interval expires and a PARAM packet is sent. -/
  | paramSend (u : Fin 3)
  /-- SESSION_ESTABLISHED (R221). The link's SPDM session is established and the link goes ACTIVE with fresh counters. -/
  | sessionEstablished (u : Fin 3) (ok : Bool)
  /-- SESSION_RETRY (R403). A refused link session is retried from PARAM after 1 s. -/
  | sessionRetry (u : Fin 3)
  /-- ACK_ONLY (R417). An ack-only packet arrives carrying an ACK and a credit return. -/
  | ackOnly (u : Fin 3) (h : Header)
  /-- BEACON (R423). A beacon arrives with timestamps used for timebase steering. -/
  | beacon (u : Fin 3) (h : Header) (t1 t2 t3 : BitVec 64) (hops : BitVec 8) (sync : Bool)
  /-- ENCLAVE_MESSAGE (R405). A TYPE 5 enclave message arrives on VC 0. -/
  | enclaveMessage (u : Fin 3) (h : Header) (msg : EnclaveMsg)
  /-- RETIRE_NOTICE (R426). A RETIRE notice arrives and the receiver retires its end of the link. -/
  | retireNotice (u : Fin 3) (h : Header)
  /-- ULILET_PACKET_SEND (R415). At a packet boundary the sender chooses and sends its next packet. -/
  | uliletPacketSend (u : Fin 3)
  /-- ACK_ONLY_SEND (R418). No packet has started for 64 ns and an ack-only packet is sent. -/
  | ackOnlySend (u : Fin 3)
  /-- BEACON_SLOT_START (R422). A beacon slot starts and the sender sends SYNC and a beacon, then IDLE. -/
  | beaconSlotStart (u : Fin 3)
  /-- REPLAY_TIMER_EXPIRY (R420). The replay timer expires and every unacknowledged packet is resent. -/
  | replayTimerExpiry (u : Fin 3)
  /-- RESYNC_TIMEOUT (R412). RESYNC finds no SYNC within 4.096 µs and the port retrains. -/
  | resyncTimeout (u : Fin 3)
  /-- RECEIVER_LOCK_LOSS (R425). An active Ulilet lane loses receiver lock and the port retrains. -/
  | receiverLockLoss (u : Fin 3)
  /-- ULILET_SILENCE (R424). No good packet arrives for 10 µs, or presence is lost, and the peer is declared lost. -/
  | uliletSilence (u : Fin 3) (prsntHigh : Bool)
  /-- LINK_KEY_UPDATE (R222). A link counter nears 2^40 or 24 h pass and the requester runs SPDM KEY_UPDATE. -/
  | linkKeyUpdate (u : Fin 3)
  /-- ULT_CTL_WRITE (R563). A write to ULT_CTL sets its fields and locks VCS and ENABLE at COMMIT. -/
  | ultCtlWrite (src : RegSource) (u : Fin 3) (w : BitVec 64)
  /-- ULT_RETIRE_RETIRE (R426). A write of 1 to ULT_RETIRE.RETIRE retires the link. -/
  | ultRetireRetire (src : RegSource) (u : Fin 3)
  /-- ULT_RETIRE_CLEAR (R403). A write of 1 to ULT_RETIRE.RETIRED clears retirement and the port returns to DOWN. -/
  | ultRetireClear (src : RegSource) (u : Fin 3)
  /-- FWD_RD (R434). A forwarded read arrives at the home device and is served from step 4. -/
  | fwdRd (u : Fin 3) (h : Header) (x : Txn)
  /-- FWD_WR (R435). A forwarded write arrives at the home device and is applied unless its journal sequence is already applied. -/
  | fwdWr (u : Fin 3) (h : Header) (x : Txn)
  /-- FAR_ALLOC (R440). A guest charges G and allocates storage for a far page. -/
  | farAlloc (u : Fin 3) (h : Header) (x : Txn)
  /-- FAR_RD (R440). A guest returns a stored unit of a far page. -/
  | farRd (u : Fin 3) (h : Header) (x : Txn) (ue : Bool)
  /-- FAR_WR (R440). A guest writes a stored unit of a PLAIN far run in place. -/
  | farWr (u : Fin 3) (h : Header) (x : Txn)
  /-- FAR_PUT (R440). A guest stores four units of a far run. -/
  | farPut (u : Fin 3) (h : Header) (x : Txn)
  /-- FAR_COMMIT (R440). A guest commits a far page's new state and BLOCK_LEN. -/
  | farCommit (u : Fin 3) (h : Header) (x : Txn)
  /-- FAR_FREE (R440). A guest zeroes and frees a far run and lowers G. -/
  | farFree (u : Fin 3) (h : Header) (x : Txn)
  /-- SNOOP (R438). A mapping device receives a SNOOP and answers after its own snoops and writes complete. -/
  | snoop (u : Fin 3) (h : Header) (x : Txn)
  /-- XMAP (R437). A home receives a cross-device mapping or unmapping of a shared extent. -/
  | xmap (u : Fin 3) (h : Header) (x : Txn)
  /-- ADMIT (R431). The polestar confirms a companion's grant or mapping. -/
  | admitReq (u : Fin 3) (h : Header) (x : Txn)
  /-- REACH (R446). A REACH message arrives with the mask of members its sender reaches directly. -/
  | reach (u : Fin 3) (h : Header) (x : Txn)
  /-- REACH_SEND (R446). The 8 µs interval expires and REACH is sent on each ACTIVE link. -/
  | reachSend
  /-- JOIN (R430). JOIN is exchanged with the polestar and the member becomes joined, or is refused. -/
  | join (u : Fin 3) (h : Header) (x : Txn)
  /-- RECON (R443). Indeterminate entries arrive at reconcile and the listed lines are poisoned. -/
  | recon (u : Fin 3) (h : Header) (x : Txn)
  /-- ULILET_TALLY (R541). A companion's tally copy arrives at the polestar and is stored with a new sequence number. -/
  | uliletTally (u : Fin 3) (h : Header) (x : Txn)
  /-- TXN_RESPONSE (R432). A response to a transaction request arrives and completes the request at its originator. -/
  | txnResponse (u : Fin 3) (h : Header) (x : Txn)
  /-- ORPHAN_TIMEOUT (R441). A forwarded request has no response after ORPHAN_TO and is orphaned. -/
  | orphanTimeout (write : Bool) (tag : BitVec 16)
  /-- CONST_XMAP_WRITE (R437). A write to CONST_XMAP maps a shared extent homed on another device after its checks. -/
  | constXmapWrite (src : RegSource) (w : BitVec 64)
  /-- SLOT_ON (R450). SLOT_CMD ON starts powering a slot when its channel state allows. -/
  | slotOn (n : Fin 48)
  /-- SLOT_OFF (R450). SLOT_CMD OFF switches a slot off when its channel state allows. -/
  | slotOff (n : Fin 48)
  /-- SLOT_REARM (R450). SLOT_CMD REARM returns a LATCHED slot to OFF with its retries restored. -/
  | slotRearm (n : Fin 48)
  /-- SLOT_AUX_UP_START (R457). A waiting slot enters AUX_UP once spacing and the ramp limit allow. -/
  | slotAuxUpStart (n : Fin 48)
  /-- SLOT_AUX_UP_DONE (R450). 1 ms of AUX_UP passes and the gate ramp starts. -/
  | slotAuxUpDone (n : Fin 48)
  /-- SLOT_RAMP_DONE (R450). The ramp time passes, the gate goes high and qualification starts. -/
  | slotRampDone (n : Fin 48)
  /-- SLOT_QUALIFY_DONE (R454). The qualification window completes and power-good is asserted. -/
  | slotQualifyDone (n : Fin 48)
  /-- SLOT_RETRY_RESTORE (R450). A slot has been ON for 10 s and its retry count is restored. -/
  | slotRetryRestore (n : Fin 48)
  /-- SLOT_BACKOFF_DONE (R450). 100 ms after a fault the slot re-enters AUX_UP. -/
  | slotBackoffDone (n : Fin 48)
  /-- SLOT_12V_TRIP (R452). The 12 V current reaches its armed threshold and the slot faults. -/
  | slot12vTrip (n : Fin 48) (milliamps : BitVec 32)
  /-- AUX_LIMIT_ENGAGE (R453). The aux current limit engages, the fault timer counts up and qualification restarts. -/
  | auxLimitEngage (n : Fin 48)
  /-- AUX_LIMIT_RELEASE (R453). The aux current limit releases and the fault timer counts down. -/
  | auxLimitRelease (n : Fin 48)
  /-- AUX_TIMER_EXPIRY (R453). The aux fault timer reaches AUX_TIMER and the slot faults. -/
  | auxTimerExpiry (n : Fin 48)
  /-- SLOT_PRESENCE_ASSERT (R458). SLOT_PRSNT_N stays low for 10 ms and presence is published. -/
  | slotPresenceAssert (n : Fin 48)
  /-- SLOT_PRESENCE_LOSS (R458). SLOT_PRSNT_N stays high for 100 µs and a powered slot switches off. -/
  | slotPresenceLoss (n : Fin 48)
  /-- SLOT_MEAS_WINDOW (R449). A 1 ms measurement window ends and I12 takes its mean. -/
  | slotMeasWindow (n : Fin 48) (mean : BitVec 32)
  /-- PWR_DOM_REQ_P0 (R472). PWR_DOM REQ 1 wakes a domain. -/
  | pwrDomReqP0 (dm : Fin 55)
  /-- PWR_DOM_REQ_P1 (R470). PWR_DOM REQ 2 asks a domain to enter P1. -/
  | pwrDomReqP1 (dm : Fin 55)
  /-- PWR_DOM_REQ_P2 (R470). PWR_DOM REQ 3 asks a domain to enter P2. -/
  | pwrDomReqP2 (dm : Fin 55)
  /-- PWR_DOM_REQ_P3 (R470). PWR_DOM REQ 4 asks a domain to enter P3. -/
  | pwrDomReqP3 (dm : Fin 55)
  /-- IDLE_P1_EXPIRY (R470). A domain's IDLE_P1 timer expires and entry to P1 is requested. -/
  | idleP1Expiry (dm : Fin 55)
  /-- IDLE_P2_EXPIRY (R470). A domain's IDLE_P2 timer expires and entry to P2 is requested. -/
  | idleP2Expiry (dm : Fin 55)
  /-- DOMAIN_ENTRY_STEP_DONE (R471). A step of a domain's entry ends, reaching an abort point or completing the entry. -/
  | domainEntryStepDone (dm : Fin 55)
  /-- DOMAIN_EXIT_DONE (R472). A domain's exit completes, it returns to P0, and any pending request starts. -/
  | domainExitDone (dm : Fin 55)
  /-- DOMAIN_WAKE_ACCESS (R473). An access reaches a domain that is not in P0 and waits while the domain wakes. -/
  | domainWakeAccess (dm : Fin 55)
  /-- DOZE (R475). DEV_PWR.DOZE requests D-Doze, which is entered or refused. -/
  | doze
  /-- DOZE_WAKE (R476). A wake event ends D-Doze and the domains return to P0. -/
  | dozeWake (cause : BitVec 3)
  /-- PAD_RELEASE (R469). PAD_CTL.RELEASE releases the DDR and Ulilet pads once per latching. -/
  | padRelease (src : RegSource)
  /-- REFCLK_LOSS (R482). REFCLK stops for 100 ns and the timebase falls back to the internal oscillator. -/
  | refclkLoss
  /-- REFCLK_RESTORE (R482). REFCLK is steady for 1 µs and the timebase returns to it without a step. -/
  | refclkRestore
  /-- TB_SET (R485). A write to TB_SET applies a new timebase value with its records and event. -/
  | tbSet (time : BitVec 64)
  /-- TIMEBASE_SLEW (R487). The slew interval expires and the companion adds or drops 1 ns. -/
  | timebaseSlew
  /-- TIMEBASE_FREE_RUN (R488). 8 beacon periods pass without a synchronised parent and SYNC clears. -/
  | timebaseFreeRun
  /-- PWR_OK_ASSERT (R494). PWR_OK asserts, the straps are sampled and a cold start begins at phase 2. -/
  | pwrOkAssert (role : Bool) (devId : BitVec 2) (flash : Option (List Byte))
  /-- PWR_OK_DEASSERT (R500). PWR_OK deasserts: cold reset, with gates discharged at once. -/
  | pwrOkDeassert
  /-- RESET_N_ASSERT (R501). RESET_N is held low for 1 µs and a warm reset entry starts. -/
  | resetNAssert
  /-- RST_CTL_WARM (R500). A Rilia write of RST_CTL.WARM starts a warm reset. -/
  | rstCtlWarm (src : RegSource)
  /-- WARM_ENTRY_DONE (R501). A warm reset entry finishes its flush and self-refresh, and the restart begins at phase 2. -/
  | warmEntryDone
  /-- WARM_ENTRY_OVERRUN (R501). A warm entry has not finished after 50 ms and becomes an immediate reset. -/
  | warmEntryOverrun
  /-- IMMEDIATE_ENTRY_DONE (R502). An immediate reset's entry ends and the restart begins at phase 2. -/
  | immediateEntryDone
  /-- RESET_N_RELEASE (R500). RESET_N deasserts while the device holds before phase 2, and phase 2 begins. -/
  | resetNRelease
  /-- EARLY_VIGIL_DONE (R496). Early Vigil ends: the Almanac and Vigil report are published and the device boots or enters Lantern. -/
  | earlyVigilDone (failed : List (BitVec 8 × BitVec 16 × BitVec 32 × BitVec 64)) (times : List (BitVec 32)) (fw0Ok fw1Ok op0Ok op1Ok : Bool)
  /-- CXL_PAD_RELEASE (R468). The SerDes loopback test ends and the CXL pads are released. -/
  | cxlPadRelease
  /-- BOOT_START (R361). Images are selected, the program set is built in bank 0 and the boot entry starts. -/
  | bootStart
  /-- PHASE_8_CUTOFF (R507). The phase 8 cutoff passes and phase 9 begins without waiting for channels. -/
  | phase8Cutoff
  /-- METADATA_FORMAT (R505). Phase 9 places and writes both root areas with every extent FREE and sets MEM_VALID. -/
  | metadataFormat
  /-- METADATA_RECOVERY (R506). Phase 9 reads the root areas, rebuilds the line-store partitions and settles move-log entries. -/
  | metadataRecovery (rootLost : Bool) (linesLost : List (BitVec 32))
  /-- MEMORY_ACTIVE_SET (R507). Memory_Active is set in every head and ALIVE goes high. -/
  | memoryActiveSet
  /-- FREE_MAP_REBUILD_DONE (R506). The background rebuild of free-frame and slab maps ends and allocations resume. -/
  | freeMapRebuildDone
  /-- FUSE_MAP_CHECK (R526). The 1 s fuse-map CRC check runs, firing source 18 on failure. -/
  | fuseMapCheck (ok : Bool)
  /-- SENSOR_READING (R527). A quadrant sensor takes its 100 µs junction reading and trips, warns or clears. -/
  | sensorReading (q : Fin 4) (temp : BitVec 8)
  /-- SENSOR_TIMEOUT (R527). A sensor returns no valid reading for 1 ms and is failed. -/
  | sensorTimeout (q : Fin 4)
  /-- SUPPLY_DETECTOR_TRIP (R570). A supply leaves its range or a glitch detector trips, raising source 962 + 4q or tamper. -/
  | supplyDetectorTrip (q : Fin 4) (level : Fin 3)
  /-- FSTICKY_CLEAR (R518). A write of 1 clears FSTICKY bits, except condition bits whose condition holds, and FAULT_N is re-evaluated. -/
  | fstickyClear (src : RegSource) (reg : Fin 16) (w : BitVec 64)
  /-- FAULT_MASK_WRITE (R522). A write to FAULT_MASK masks sources from FAULT_N, ignoring F3 and F4 bits. -/
  | faultMaskWrite (src : RegSource) (reg : Fin 16) (w : BitVec 64)
  /-- ALMANAC_PUBLICATION (R58). A publication starts: UPD is set and the changed entries are rewritten. -/
  | almanacPublication
  /-- ALMANAC_PUBLICATION_COMPLETE (R60). A publication completes: GENERATION advances, UPD clears, records and events follow. -/
  | almanacPublicationComplete
  /-- EPOCH_BOUNDARY (R532). The uptime reaches an epoch multiple and every open tally closes. -/
  | epochBoundary
  /-- REGISTER_WRITE (R560). A write to a register with no row of its own, judged field by field under its access codes. -/
  | registerWrite (src : RegSource) (offset : BitVec 26) (size : Nat) (w : BitVec 64)
  /-- HDM_DECODER_COMMIT (R76). A host commits an HDM decoder, which locks its registers, or is refused while Memory_Active is clear. -/
  | hdmDecoderCommit (ld : Fin 256) (d : Fin 8) (base size : BitVec 64) (ways granularity : BitVec 16)
  /-- IDE_KEY_EXCHANGE (R90). IDE keys are delivered or refreshed through IDE_KM, ending a head's failed IDE state after a link reset. -/
  | ideKeyExchange (h : Fin 16) (skid : Bool)
  /-- SPDM_SECURE_SESSION (R214). A requester establishes an SPDM 1.3 secure session, with or without mutual authentication, on a DOE mailbox or the MCTP endpoint. -/
  | spdmSecureSession (cci : Cci) (v13 authenticated : Bool)
  /-- REGISTER_READ (R554). A host reads a device-window register through its BAR, clearing RC fields and being served or zeroed by LD_GRANT.MGMT. -/
  | registerRead (ld : Fin 256) (offset : BitVec 26) (size : Nat)
  /-- MALFORMED_CXL_MEM_REQUEST (R520). A malformed CXL.mem request arrives at a port and fires port source 6. -/
  | malformedCxlMemRequest (p : Fin 16)
  /-- ENGINE_WORK_DONE (R170). An engine finishes a compression, decompression or XTS job and takes the next request of its queue in class order. -/
  | engineWorkDone (e : Fin 8) (kind : Fin 3)
  /-- FIXED_EXTENT_FILL_WRITE (R127). The device zero-fills the next page of a FIXED extent in command slots that other requests leave unused. -/
  | fixedExtentFillWrite (e : BitVec 18)
  /-- AUX_FAULT_TIMER_IDLE (R454). A slot's aux fault timer counts down to 0 and the qualification window starts again. -/
  | auxFaultTimerIdle (n : Fin 48)
  /-- ULILET_CRC_FAILURE (R411). A packet or framing unit fails its CRC, CRC_ERR is counted and the receiver enters RESYNC. -/
  | uliletCrcFailure (u : Fin 3)
  /-- ULILET_MALFORMED_PACKET (R408). A packet with a malformed TYPE, LEN or COLOUR arrives and causes a link-layer reset as a protocol error. -/
  | uliletMalformedPacket (u : Fin 3)
  /-- ENCLAVE_INTEGRITY_LOSS (R519). A check of the enclave's own code or state fails, or a tamper indication arises in the key or salt RAM, and the device halts. -/
  | enclaveIntegrityLoss (ram : Bool)
  /-- VAON_POWER_UP (R492). VAON comes into range and the always-on domain drives every SLOT_GATE low and SLOT_AUX off before PWR_OK asserts. -/
  | vaonPowerUp
  /-- VAON_POWER_LOSS (R492). VAON leaves its range, the device becomes unpowered and HALT_REC and HALT_TIME are lost. -/
  | vaonPowerLoss
  /-- IMM_RECENT_EXPIRY (R503). An immediate reset passes out of the 10 min window and RST_STAT.IMM_RECENT falls. -/
  | immRecentExpiry
  /-- PORT_RETRAIN_WINDOW_END (R112). A port's 10 s retrain window ends and PORT_STATUS.RETRAINS returns to 0. -/
  | portRetrainWindowEnd (p : Fin 16)
  /-- ILLEGAL_OPCODE (R317). A thread issues an instruction word with an unlisted opcode, opcode 0x3F or an unplaced word, and it traps ILLEGAL. -/
  | illegalOpcode (t : Fin 32)
  /-- GUEST_POISON_REPORT (R274). A home receives a guest's report of a UE or retired channel in its far storage and poisons, lists and records the pages. -/
  | guestPoisonReport (d : Fin 4) (dlpn : BitVec 34) (block : Fin 5)
  deriving DecidableEq, Repr

end Sys2Proof
end

