-- ==== Sys2Proof/Machine/Brixad.lean ====
section
/-! DEFINITION. The Brixad block format: decoding, its malformed causes, and the deterministic encoding of this stepping
(R150 to R159). A block is its 1,024 bytes in order. -/
namespace Sys2Proof.Machine

/-- What a stored block decodes to. -/
inductive Decoded where
  | data (bytes : List Byte)
  /-- Malformed, with its cause 1 to 7 (R157). -/
  | malformed (cause : Nat)
  deriving DecidableEq, Repr

/-- A list of bytes followed by zeros up to 1,024 bytes. -/
def padBlock (l : List Byte) : List Byte := l ++ List.replicate (1024 - l.length) 0

/-- The value of little-endian bytes. -/
def leValue : List Byte → Nat
  | [] => 0
  | b :: t => b.toNat + 256 * leValue t

/-- Append `n` bytes from `off` back, byte by byte, to an output held newest byte first (R155). -/
def copyBack (off : Nat) : Nat → List Byte → List Byte
  | 0, out => out
  | n + 1, out => copyBack off n (out.getD (off - 1) 0 :: out)

/-- The token decoder of R155, on the rest of the body and the output so far, newest byte first. -/
def decodeTokens : Nat → List Byte → List Byte → Decoded
  | 0, _, out => .data (padBlock out.reverse)
  | _ + 1, [], out => .data (padBlock out.reverse)
  | fuel + 1, t :: rest, out =>
    let v := t.toNat
    if v < 0x40 then
      let n := v + 1
      if rest.length < n ∨ 1024 < out.length + n then .malformed 5
      else decodeTokens fuel (rest.drop n) ((rest.take n).reverse ++ out)
    else if v < 0x84 then
      let k := if v < 0x80 then 1 else 2
      if rest.length < k then .malformed 5
      else
        let n := if v < 0x80 then v / 4 % 16 + 4 else (rest.getD 1 0).toNat + 4
        let off := v % 4 * 256 + (rest.getD 0 0).toNat + 1
        if out.length < off then .malformed 6
        else if 1024 < out.length + n then .malformed 5
        else decodeTokens fuel (rest.drop k) (copyBack off n out)
    else .malformed 4

/-- A signed value of w bytes. -/
def signedLe (w : Nat) (l : List Byte) : Int :=
  let v := leValue (l.take w)
  if v < 2 ^ (8 * w - 1) then v else (v : Int) - 2 ^ (8 * w)

/-- The bytes of a 64-bit word, little-endian. -/
def wordBytes (w : Word) : List Byte := (List.range 8).map fun i => w.extractLsb' (8 * i) 8

/-- The words of method 2 after word 0: each one the one before plus a signed delta (R156). -/
def deltaWords (w : Nat) : Nat → Word → List Byte → List Byte
  | 0, _, _ => []
  | n + 1, prev, body =>
    let next := prev + BitVec.ofInt 64 (signedLe w body)
    wordBytes next ++ deltaWords w n next (body.drop w)

/-- Method 2 (R156). -/
def decodeDelta (len : Nat) (blk : List Byte) : Decoded :=
  let b := (blk.getD 2 0).toNat
  let w := 2 ^ (b % 4)
  if b % 4 = 3 ∨ b / 4 ≠ 0 ∨ len ≠ 11 + 127 * w then .malformed 7
  else
    let w0 := BitVec.ofNat 64 (leValue ((blk.drop 3).take 8))
    .data (wordBytes w0 ++ deltaWords w 127 w0 (blk.drop 11))

/-- An encoded block of 1 to 15 slots (R151 to R157). -/
def decodeEncoded (slots : Nat) (blk : List Byte) : Decoded :=
  let h := leValue (blk.take 2)
  let len := h / 64
  let body := (blk.take len).drop 2
  if h / 4 % 16 ≠ 1 then .malformed 1
  else if h % 4 = 3 then .malformed 2
  else if len < 3 ∨ 960 < len ∨ (len + 63) / 64 ≠ slots then .malformed 3
  else if h % 4 = 0 then .data (padBlock body)
  else if h % 4 = 1 then decodeTokens 1024 body []
  else decodeDelta len blk

/-- A block by its BLOCK_LEN: zero, encoded or raw (R150). -/
def decodeBlock (slots : Nat) (blk : List Byte) : Decoded :=
  if slots = 0 then .data (List.replicate 1024 0)
  else if slots = 16 then .data blk
  else decodeEncoded slots blk

/-! ### Encoding (R158) -/

/-- How many bytes come up to and with the last non-zero one. -/
def usedLength (l : List Byte) : Nat := (l.reverse.dropWhile (· = 0)).length

/-- The header of an encoded block (R151). -/
def blockHeader (method len : Nat) : List Byte :=
  let h := method + 4 + 64 * len
  [BitVec.ofNat 8 h, BitVec.ofNat 8 (h / 256)]

/-- Method 0, where it fits. -/
def encodePrefix (blk : List Byte) : Option (List Byte) :=
  let n := usedLength blk
  if n + 2 ≤ 960 then some (blockHeader 0 (n + 2) ++ blk.take n) else none

/-- The 64-bit words of a block. -/
def blockWords : Nat → List Byte → List Word
  | 0, _ => []
  | n + 1, l => BitVec.ofNat 64 (leValue (l.take 8)) :: blockWords n (l.drop 8)

/-- The deltas between neighbouring words. -/
def wordDeltas : List Word → List Int
  | a :: b :: t => (b - a).toInt :: wordDeltas (b :: t)
  | _ => []

/-- Every delta fits in w signed bytes. -/
def deltasFit (w : Nat) (l : List Int) : Bool := l.all fun d => decide (-(2 ^ (8 * w - 1)) ≤ d) && decide (d < 2 ^ (8 * w - 1))

/-- The low w bytes of a signed value. -/
def intLe (w : Nat) (d : Int) : List Byte := (List.range w).map fun i => (BitVec.ofInt 64 d).extractLsb' (8 * i) 8

/-- Method 2 at the smallest width that holds every delta. -/
def encodeDelta (blk : List Byte) : Option (List Byte) :=
  let d := wordDeltas (blockWords 128 blk)
  match [0, 1, 2].find? fun k => deltasFit (2 ^ k) d with
  | none => none
  | some k => some (blockHeader 2 (11 + 127 * 2 ^ k) ++ [BitVec.ofNat 8 k] ++ blk.take 8 ++ d.flatMap (intLe (2 ^ k)))

/-- The length of the common prefix, at most `fuel`. -/
def commonPrefix : Nat → List Byte → List Byte → Nat
  | 0, _, _ => 0
  | _ + 1, [], _ => 0
  | _ + 1, _, [] => 0
  | fuel + 1, a :: s, b :: t => if a = b then 1 + commonPrefix fuel s t else 0

/-- The longest match at a position: its length and offset, the smallest offset of equal lengths (R158). -/
def bestMatch (data : List Byte) (pos : Nat) : Nat × Nat :=
  (List.range (min 1024 pos)).foldl (fun best i =>
    let n := commonPrefix 259 (data.drop (pos - (i + 1))) (data.drop pos)
    if best.1 < n then (n, i + 1) else best) (0, 0)

/-- A literal token, none for no bytes. -/
def literalToken (l : List Byte) : List Byte := if l.isEmpty then [] else BitVec.ofNat 8 (l.length - 1) :: l

/-- A match token: short up to 19 bytes, long above. -/
def matchToken (n off : Nat) : List Byte :=
  let o := off - 1
  if n ≤ 19 then [BitVec.ofNat 8 (0x40 + 4 * (n - 4) + o / 256), BitVec.ofNat 8 o]
  else [BitVec.ofNat 8 (0x80 + o / 256), BitVec.ofNat 8 o, BitVec.ofNat 8 (n - 4)]

/-- The token search of this stepping (R158): the data up to its last non-zero byte, the position, the pending literal. -/
def encodeTokens (data : List Byte) : Nat → Nat → List Byte → List Byte
  | 0, _, lit => literalToken lit
  | fuel + 1, pos, lit =>
    if data.length ≤ pos then literalToken lit
    else
      let m := bestMatch data pos
      if 4 ≤ m.1 then literalToken lit ++ matchToken m.1 m.2 ++ encodeTokens data fuel (pos + m.1) []
      else
        let lit := lit ++ [data.getD pos 0]
        if lit.length = 64 then literalToken lit ++ encodeTokens data fuel (pos + 1) []
        else encodeTokens data fuel (pos + 1) lit

/-- Method 1, where it fits. -/
def encodeToken (blk : List Byte) : Option (List Byte) :=
  let data := blk.take (usedLength blk)
  let body := encodeTokens data 1024 0 []
  if body.length + 2 ≤ 960 then some (blockHeader 1 (body.length + 2) ++ body) else none

/-- The slots a candidate takes. -/
def slotsOf (l : List Byte) : Nat := (l.length + 63) / 64

/-- The candidate with the fewest slots; a tie keeps the one before. -/
def fewer (a b : Option (List Byte)) : Option (List Byte) :=
  match a, b with
  | none, b => b
  | a, none => a
  | some x, some y => if slotsOf y < slotsOf x then some y else some x

/-- Encode a block under PACK_CTL: its length in slots, and its slots' bytes (R158). -/
def encodeBlock (m0 m1 m2 : Bool) (blk : List Byte) : Nat × List Byte :=
  if usedLength blk = 0 then (0, [])
  else
    let best := fewer (fewer (if m0 then encodePrefix blk else none) (if m2 then encodeDelta blk else none))
      (if m1 then encodeToken blk else none)
    match best with
    | none => (16, blk)
    | some l => (slotsOf l, l ++ List.replicate (64 * slotsOf l - l.length) 0)

/-- The word that every 64-bit word of the data equals, if there is one (R159). -/
def uniformWord (l : List Byte) : Option Word :=
  match blockWords (l.length / 8) l with
  | [] => none
  | w :: t => if t.all (· = w) then some w else none

/-! ### Lines and blocks -/

/-- A line of 64 bytes from its bytes, byte 0 in the low bits (R10). -/
def lineOfBytes (l : List Byte) : Line := BitVec.ofNat 512 (leValue (l.take 64))

/-- The 64 bytes of a line. -/
def bytesOfLine (x : Line) : List Byte := (List.range 64).map fun i => x.extractLsb' (8 * i) 8

/-- The lines that hold so many bytes. -/
def linesOfBytes : Nat → List Byte → List Line
  | 0, _ => []
  | n + 1, l => lineOfBytes l :: linesOfBytes n (l.drop 64)

/-- Bytes of `new` where the mask has a one, else bytes of `old`. -/
def mergeLine (old new : Line) (mask : BitVec 64) : Line :=
  let m := BitVec.ofNat 512 (leValue ((List.range 64).map fun i => if mask.getLsbD i then 0xFF#8 else 0#8))
  (new &&& m) ||| (old &&& ~~~ m)

end Sys2Proof.Machine
end

