-- ==== Sys2Proof/Config.lean ====
section
/-! DEFINITION. What an implementation fixes and the values the spec leaves open. Every constant here is opaque: it has no
body that a proof could look into, so a statement about the model holds whatever its value is. -/
namespace Sys2Proof.Config

/-- The n-th value drawn from the enclave's random generator (salts, keys, epochs, LFSR seeds). Free value, log 10. -/
opaque drawn : Nat → BitVec 64

/-- The n-th value that the spec leaves open after an operation that goes on. Free value, log 11. -/
opaque freeWord : Nat → BitVec 64

/-- The BASE of the register blocks of an Almanac entry type (R52, R557). Implementation-defined, log 12. -/
opaque blockBase : Nat → BitVec 32

/-- The STRIDE of the register blocks of an Almanac entry type (R52, R557). Implementation-defined, log 12. -/
opaque blockStride : Nat → BitVec 32

/-- What a line decrypts to when the key or tweak is not the one it was encrypted under (R217, R219): the value is open.
Arguments: the unit's identity now, the stored bits. Free value, log 13. -/
opaque garble : Nat → BitVec 512 → BitVec 512

/-- The effects word of a command in the Command Effects Log (R96), by opcode: the CXL specification's. Open value, log 14. -/
opaque commandEffect : Nat → BitVec 16

/-- The minimum clock count that the JEDEC DDR5 specification sets for a timing parameter at a speed in 100 MT/s, 0 where it sets
none (R233). Open value, log 16. -/
opaque jedecMin : Nat → Nat → Nat

/-- Media Status before Memory_Active is set, and the Device Temperature while no sensor has a valid reading (R524). Open values, log 15. -/
opaque earlyMediaStatus : BitVec 8
opaque noTemperature : BitVec 8

/-- The receive clock of a CXL port in kHz at a rate and a width below the full ones, by their codes: the spec gives 1.0 GHz at 64 GT/s and
says only that it is lower below that (R477). Open value, log 18. -/
opaque portKhz : Nat → Nat → Nat

/-- The device's identity words in the reply to Identify (R96): PCI vendor and device numbers. Open value, log 14. -/
opaque identifyWord : BitVec 64

end Sys2Proof.Config
end

