-- ==== Sys2Proof/Machine/CapState.lean ====
section
/-! DEFINITION. State of logical capacity: the DPA map, the extent table, page descriptors and admission (chapter 04). -/
namespace Sys2Proof.Machine

/-- One valid entry of the DPA map (R116). -/
structure DpaEntry where
  ld : BitVec 8
  block : BitVec 24
  home : BitVec 2
  extent : BitVec 18
  shared : Bool
  deriving DecidableEq, Repr

/-- STATE of an extent (R117, R133). -/
inductive ExtState where
  | free | offered | active | releaseReq | erasing
  deriving DecidableEq, Repr

/-- One extent of the extent table (R117), with what its grant, its fill and its erasure hold. -/
structure Extent where
  state : ExtState := .free
  loaned : Bool := false
  shared : Bool := false
  fixed : Bool := false
  newPacked : Bool := false
  ld : BitVec 8 := 0
  block : BitVec 24 := 0
  keySlot : BitVec 12 := 0
  fillChannel : BitVec 5 := 0
  /-- DPHA[43:20] of the two descriptor blocks. -/
  mirrorA : BitVec 24 := 0
  mirrorB : BitVec 24 := 0
  mappings : BitVec 7 := 0
  /-- The grant it belongs to: its first extent number and its count (R134), in order of the grants. -/
  grantFirst : Nat := 0
  grantCount : Nat := 0
  grantOrder : Nat := 0
  /-- The tag its grant was offered under, for shared extents (R83). -/
  tag : BitVec 64 := 0
  /-- Its release waits for the last BIRsp of its lines (R85). -/
  releasing : Bool := false
  /-- The pages of a FIXED extent filled so far (R127). -/
  filled : Nat := 0
  /-- The Add Capacity record has been placed (R78, R127). -/
  announced : Bool := false
  /-- The completion queue that EXTGRANT named for a FIXED grant (R342). -/
  doneQueue : Option Nat := none
  /-- The number of the salt that its pages are encrypted under; none once destroyed (R208). -/
  salt : Option Nat := none
  deriving DecidableEq, Repr

/-- STATE of a page descriptor (R120). -/
inductive PageState where
  | unmapped | plain | packed | far | zero | pattern | moving | poisoned
  deriving DecidableEq, Repr

/-- A page descriptor without its CRC, which is computed (R120, R121). -/
structure Desc where
  state : PageState := .unmapped
  lock : Bool := false
  fixed : Bool := false
  keySlot : BitVec 12 := 0
  /-- Bits [63:20]. -/
  location : BitVec 44 := 0
  /-- Bits [83:64]: four fields of 5 bits, or the top of a pattern. -/
  blockLen : BitVec 20 := 0
  wgen : BitVec 12 := 0
  bpoison : BitVec 4 := 0
  deriving DecidableEq, Repr

/-- A metadata cache line whose change is not yet in both copies (R129, R195). -/
structure MetaDirty where
  /-- Copy A's write has gone out and copy B's has not. -/
  aOut : Bool := false
  /-- The threads whose DCAS waits for the next pair of writes, and those that the pair in progress acknowledges. -/
  acks : List Nat := []
  acksB : List Nat := []
  /-- Storage that is freed once the next pair, or the pair in progress, is complete: line address and slots, 0 for a frame. -/
  frees : List (Nat × Nat) := []
  freesB : List (Nat × Nat) := []
  deriving DecidableEq, Repr

/-- One set of the metadata cache: the descriptor line each way holds, and the pseudo-LRU tree (R130). -/
structure MetaSet where
  ways : List (Option Nat) := List.replicate 16 none
  tree : BitVec 15 := 0
  deriving DecidableEq, Repr

/-- Descriptors: what the device acts on, the two copies in DRAM, and the metadata cache (R120 to R132). -/
structure Meta where
  desc : Tab Desc := []
  copyA : Tab Desc := []
  copyB : Tab Desc := []
  dirty : Tab (Option MetaDirty) := []
  sets : Tab MetaSet := []
  /-- Descriptor lines not yet compared since the last warm or immediate reset: all of them until the first miss (R132). -/
  compared : List Nat := []
  lazy_ : Bool := false
  deriving DecidableEq, Repr

/-- What EXTGRANT or Initiate Dynamic Capacity Add asks of admission (R134, R342). -/
structure Grant where
  ld : Nat
  /-- The first DPA block. -/
  block : Nat
  count : Nat
  loaned : Bool := false
  fixed : Bool := false
  packed : Bool := false
  fill : Option Nat := none
  /-- MAP: the existing extent to map. -/
  map : Option Nat := none
  slot : Nat := 0
  tag : BitVec 64 := 0
  /-- The completion queue. -/
  queue : Option Nat := none
  deriving DecidableEq, Repr

/-- Admission and the capacity registers (R137 to R147). -/
structure Cap where
  dpaMap : Tab (List DpaEntry) := []
  extents : Tab Extent := []
  /-- Footprint of each extent in lines, provisional charges included (R137). -/
  footprint : Tab Nat := []
  /-- Guest storage, erasing storage and mover destinations, in lines. -/
  g : Nat := 0
  z : Nat := 0
  m : Nat := 0
  floorPm : BitVec 10 := 0x14
  hystPm : BitVec 10 := 5
  ratio : BitVec 8 := 0x18
  distress : Bool := false
  poolExhausted : Bool := false
  shortfall : Bool := false
  distressSeen : Bool := false
  unstoredSeen : Bool := false
  unstored : BitVec 32 := 0
  releaseList : List Nat := []
  /-- U at the last repetition of step 2 of distress, and its uptime (R141). -/
  lastU : Int := 0
  lastRepeat : Nat := 0
  nextGrant : Nat := 1
  /-- Further mappings whose offer their host has not answered: LD, DPA block, order of the offer (R80, R135, R437). -/
  offers : List (Nat × Nat × Nat) := []
  /-- Requests that met no valid mapping (the F0 note of R118). -/
  noMapping : BitVec 32 := 0
  /-- The channels that hold the two root areas, once placed, with the DPHA 1 MiB frame of each (R119, R505). -/
  rootA : Option (BitVec 24) := none
  rootB : Option (BitVec 24) := none
  deriving DecidableEq, Repr

end Sys2Proof.Machine
end

