-- ==== Sys2Proof/Machine/MemState.lean ====
section
/-! DEFINITION. State of storage: DRAM lines, allocation, quadrants with their movers, engine clusters and keys
(chapters 05, 06, 07 and 09). -/
namespace Sys2Proof.Machine

/-- What a stored unit was encrypted under: the fields of its tweak (R205), the salt by its number, the key by the number of
its load, and the block sequence within the data unit (R206). -/
structure Cipher where
  salt : Nat := 0
  ld : Nat := 0
  addr : Nat := 0
  form : Nat := 0
  unit : Nat := 0
  sequence : Nat := 0
  key : Nat := 0
  deriving DecidableEq, Repr

/-- One line of DRAM: the plaintext it stands for, what it is encrypted under (nothing for a line of plain zeros or a unit
stored for another home), and its line tag (R254). -/
structure DLine where
  data : Line := 0
  cipher : Option Cipher := none
  poisoned : Bool := false
  deriving DecidableEq, Repr

/-- Who uses a 4 KiB frame or a slot run (R161, R197). -/
inductive Owner where
  /-- A page homed here, by its DLPN. -/
  | page (dlpn : Nat)
  /-- The destination of a mover operation on this page, not yet swapped. -/
  | dest (dlpn : Nat)
  /-- Far storage of another home, by its remote descriptor's index. -/
  | guest (index : Nat)
  /-- The frame is fenced for a repair (R284). -/
  | fenced
  /-- Storage that a descriptor line lost in both copies named: it cannot be found any more (R266). -/
  | lost
  deriving DecidableEq, Repr

/-- One slab: its class, its first frame, and the owner of each used run (R161). -/
structure Slab where
  cls : Nat
  base : Nat
  runs : Tab (Option Owner)
  deriving DecidableEq, Repr

/-- Who uses a 1 MiB frame (R119, R128, R537). -/
inductive MegaUse where
  | descA (extent : Nat)
  | descB (extent : Nat)
  | rootA
  | rootB
  | ring (segment : Nat)
  | remoteDesc (block : Nat)
  deriving DecidableEq, Repr

/-- What is in use on one channel. -/
structure Alloc where
  frames : Tab (Option Owner) := []
  slabs : List Slab := []
  megas : Tab (Option MegaUse) := []
  deriving DecidableEq, Repr

/-- The operations a mover carries out on a page, coded as OP of the mover record (R187); ZERO has no record. -/
inductive MoverOp where
  /-- MOVE to a channel. -/
  | move (chan : Nat)
  | pack
  | unpack
  /-- MOVE to a guest. -/
  | demote (device : Nat)
  /-- Recall to a channel. -/
  | recall (chan : Nat)
  /-- A page of an evacuation. -/
  | evacPage
  /-- UNPACK by the write-heat rule. -/
  | heatUnpack
  | zero
  deriving DecidableEq, Repr

/-- PHASE of a mover record (R187). -/
inductive MoverPhase where
  | claim | copy | check | swap | free
  deriving DecidableEq, Repr

/-- One mover record (R187). -/
structure MoverRec where
  dlpn : Nat
  op : MoverOp
  /-- State before the claim: 1 PLAIN, 2 PACKED, 3 FAR. -/
  srcState : Nat
  phase : MoverPhase
  restarts : Nat := 0
  stall : Bool := false
  race : BitVec 4 := 0
  rgen : BitVec 12 := 0
  passGen : BitVec 12 := 0
  srcLoc : BitVec 44 := 0
  srcLen : BitVec 20 := 0
  /-- The destination storage is allocated, and its slots: 0 for a frame. -/
  placed : Bool := false
  dstSlots : Nat := 0
  /-- STATE the destination gives the page at the swap: 1 PLAIN, 2 PACKED, 3 FAR, 4 ZERO, 5 PATTERN. -/
  dstState : Nat := 0
  dstLoc : BitVec 44 := 0
  dstLen : BitVec 20 := 0
  dstDev : BitVec 2 := 0
  readers : Nat := 0
  /-- The lines charged for the destination, and how many of them count in M (R179). -/
  charge : Nat := 0
  inM : Nat := 0
  /-- MAX_RESTARTS as it stood at the claim (R202). -/
  limit : Nat := 3
  /-- BPOISON that the destination gives the page (R180). -/
  poison : BitVec 4 := 0
  ticket : Option (BitVec 16) := none
  deriving DecidableEq, Repr

/-- A queued mover operation (R194, R306). -/
structure MoverJob where
  dlpn : Nat
  op : MoverOp
  ticket : Option (BitVec 16) := none
  deriving DecidableEq, Repr

/-- One entry of the heat table (R185). -/
structure HeatEntry where
  dlpn : Nat
  count : Nat
  start : Nat
  deriving DecidableEq, Repr

/-- One quadrant: PACK_CTL, the mover and the heat table (R172, R185 to R194, R202). -/
structure Quad where
  hold : BitVec 8 := 0x10
  pressure : BitVec 8 := 0x40
  m0 : Bool := true
  m1 : Bool := true
  m2 : Bool := true
  budget : BitVec 7 := 0x14
  maxRestarts : BitVec 3 := 3
  maxInflight : BitVec 8 := 0x80
  evacShare : BitVec 2 := 3
  restarts : BitVec 16 := 0
  stalls : BitVec 16 := 0
  aborts : BitVec 16 := 0
  heatEn : Bool := true
  heatW : BitVec 8 := 4
  heatWindow : BitVec 16 := 0x3E8
  promoted : BitVec 32 := 0
  suppressed : BitVec 32 := 0
  /-- Rilia operations waiting, in issue order, at most 4,096 (R306). -/
  jobs : List MoverJob := []
  /-- Write-heat promotions waiting (R194). -/
  heatJobs : List MoverJob := []
  /-- Claims made in the present round of four while EVAC and Rilia operations both wait (R194). -/
  shareTurn : Nat := 0
  records : List MoverRec := []
  heat : List HeatEntry := []
  /-- The sequence number of the next ticket (R332). -/
  nextTicket : BitVec 14 := 0
  /-- Uptime of the last slab-shortage event (R162). -/
  lastShortage : Option Nat := none
  deriving DecidableEq, Repr

/-- What waits for a place on a quadrant's channels (R162). -/
inductive Waiter where
  /-- The eviction of a PACKED page: it needs a run of this many slots. -/
  | packed (dlpn slots : Nat)
  /-- The first storage of a page as PLAIN. -/
  | first (dlpn : Nat)
  /-- The next page of a FIXED extent's fill. -/
  | fill (extent : Nat)
  /-- A page or a structure of an evacuating channel. -/
  | evac (chan : Nat)
  deriving DecidableEq, Repr

/-- The kinds of engine of a cluster (R27). -/
inductive EngineKind where
  | compress | decompress | xts
  deriving DecidableEq, Repr

/-- One engine cluster (R27, R169, R170, R173, R562). -/
structure Cluster where
  /-- CL_STAT: the engines in service, one bit each. -/
  cmpIn : BitVec 2 := 3
  dcmpIn : BitVec 4 := 15
  xtsIn : BitVec 6 := 63
  encoded : BitVec 32 := 0
  decoded : BitVec 32 := 0
  slotsOut : BitVec 40 := 0
  malformed : BitVec 16 := 0
  lastCause : BitVec 3 := 0
  /-- Requests queued: kind, class 1 to 5 (R170), and the number of the request served; oldest first. -/
  queue : List (EngineKind × Nat × Nat) := []
  deriving DecidableEq, Repr

/-- The access sketch (R181 to R183, R202). -/
structure Sketch where
  en : Bool := true
  sample : BitVec 4 := 6
  decay : BitVec 16 := 0x64
  /-- The counters that are not 0, by row × 2^22 + index. -/
  counters : Tab (BitVec 8) := []
  /-- Counters with a parity error. -/
  parity : List Nat := []
  requests : BitVec 16 := 0
  /-- A halving sweep runs; a second one waits. -/
  sweeping : Bool := false
  second : Bool := false
  lastDecay : Nat := 0
  deriving DecidableEq, Repr

/-- The state of a key slot (R210). -/
inductive KeyState where
  | empty | loaded | bound | closing
  deriving DecidableEq, Repr

/-- One key slot (R209). -/
structure KeySlot where
  state : KeyState := .empty
  /-- The LD that owns the slot; none for "operator". -/
  owner : Option Nat := none
  count : Nat := 0
  key : BitVec 512 := 0
  /-- The number of the load that put the key there. -/
  load : Nat := 0
  deriving DecidableEq, Repr

/-- A staged key (R215). -/
structure Staged where
  handle : BitVec 32
  owner : Option Nat
  key : BitVec 512
  at_ : Nat
  deriving DecidableEq, Repr

/-- The enclave's keys (R208 to R215, R225). -/
structure Keys where
  slots : Tab KeySlot := []
  staged : List Staged := []
  /-- The device key and the device salt, by the number of the draw that gave them. -/
  deviceKey : Option Nat := none
  deviceSalt : Option Nat := none
  loads : Nat := 0
  /-- KEY_PUTs for other devices that wait for their status: number, interface and target (R216). -/
  puts : List (Nat × Cci × Nat) := []
  nextPut : Nat := 1
  rate : BitVec 7 := 8
  deriving DecidableEq, Repr

end Sys2Proof.Machine
end

