-- ==== Sys2Proof/Machine/ChanState.lean ====
section
/-! DEFINITION. State of the DRAM channels: training, timing, queues, banks, refresh, health, repair and evacuation
(chapters 06, 08, 09 and 13). -/
namespace Sys2Proof.Machine

/-- The state of a channel, coded as in the Almanac channel word (R55). -/
inductive ChanState where
  | absent | untrained | active | evacuating | evacuated | retired | trainFailed
  deriving DecidableEq, Repr

/-- One DRAM line command, at a gate or in a command queue (R238 to R243, R383). -/
structure LineCmd where
  /-- The line address, DPHA[43:6]. -/
  line : Nat
  /-- The request it reads for. -/
  req : Nat := 0
  /-- For a write, what it stores. -/
  write : Option DLine := none
  /-- The order of R240: 0 metadata, 1 classes 0 to 6, 2 class 7. -/
  group : Nat := 1
  /-- The page hint (R243). -/
  hint : Nat := 0
  /-- The head or link that holds its entry: 0 to 15, or 16 + u. -/
  source : Nat := 0
  /-- The flow it is charged to: an LD index, or 256 + u (R383). -/
  flow : Nat := 0
  /-- The service class 0 to 7. -/
  cls : Nat := 3
  /-- Uptime of its arrival. -/
  at_ : Nat := 0
  /-- How many requests that arrived later have passed it. -/
  passed : Nat := 0
  deriving DecidableEq, Repr

/-- A non-negative fraction: a tag or a virtual time of a gate (R384). DEDUCED, log 85. -/
structure Frac where
  num : Nat := 0
  den : Nat := 1
  deriving DecidableEq, Repr

/-- One queue of a gate: the tag of its head, and its last finish tag (R384, R385). -/
structure GateTag where
  head : Option Frac := none
  last : Frac := {}
  deriving DecidableEq, Repr

/-- The gate in front of a channel (R383 to R386). -/
structure Gate where
  /-- The commands waiting, oldest first. -/
  cmds : List LineCmd := []
  /-- Virtual time of the class level, and of each class's flow level. -/
  vClass : Frac := {}
  vFlow : Tab Frac := []
  classes : Tab GateTag := []
  /-- By class × 512 + flow. -/
  flows : Tab GateTag := []
  deriving DecidableEq, Repr

/-- One bank of one rank of one subchannel (R238, R243). -/
structure DramBank where
  /-- The open row. -/
  row : Option Nat := none
  predictor : Nat := 2
  /-- The bank was closed by a closing predict decision. -/
  closedByPredict : Bool := false
  /-- The row was activated and no column command has used it yet. -/
  fresh : Bool := false
  lastUse : Nat := 0
  deriving DecidableEq, Repr

/-- One subchannel (R240 to R242). -/
structure Subchannel where
  /-- The bank served last. -/
  lastBank : Nat := 0
  draining : Bool := false
  deriving DecidableEq, Repr

/-- The health of one rank (R277, R279). -/
structure RankHealth where
  /-- The device that probes have named, counted over both subchannels: subchannel × 16 + device. -/
  device : Option Nat := none
  /-- The rows on which probes named it. -/
  rows : List Nat := []
  /-- Uptime of the first record. -/
  since : Nat := 0
  /-- Distinct rows with a UE, with their uptimes. -/
  ueRows : List (Nat × Nat) := []
  deriving DecidableEq, Repr

/-- A row: slot, logical rank, bank group, bank and row (R284). -/
structure RowName where
  slot : Nat := 0
  rank : Nat := 0
  bg : Nat := 0
  bank : Nat := 0
  row : Nat := 0
  deriving DecidableEq, Repr

/-- An evacuation of a channel (R197 to R200). -/
structure Evac where
  /-- FORCE. -/
  force : Bool := false
  /-- Flag bit 0: switch the slots off at the end. -/
  slotsOff : Bool := false
  /-- It ends in RETIRED. -/
  retire : Bool := false
  /-- A cancel was accepted: claimed moves finish and no further page is claimed. -/
  cancelled : Bool := false
  /-- The used footprint when it was accepted, in bytes. -/
  total : Nat := 0
  /-- The line of the channel from which the next page to move is looked for, and whether this pass has placed a page. -/
  cursor : Nat := 0
  placed : Bool := false
  /-- A pass placed nothing: the evacuation waits. -/
  waiting : Bool := false
  /-- The completion queue of its EVAC (R333). -/
  queue : Option Nat := none
  deriving DecidableEq, Repr

/-- Training in progress (R229 to R232). -/
structure Training where
  running : Bool := false
  /-- The step of R230 that runs, 1 to 10. -/
  step : Nat := 1
  /-- The second pass of R232 runs. -/
  second : Bool := false
  /-- The speed of the attempt, in 100 MT/s. -/
  speed : Nat := 0
  /-- The DIMMs that failed a step of this attempt, one bit for each slot. -/
  failed : BitVec 2 := 0
  /-- The highest speed of the second pass at which each DIMM passed every step; 0 for none. -/
  best0 : Nat := 0
  best1 : Nat := 0
  /-- The one DIMM of R229 that trains alone. -/
  lone : Option Nat := none
  /-- It follows Channel Restore: initialisation comes before ACTIVE (R201). -/
  restore : Bool := false
  /-- A warm or immediate start: the state the channel takes once its settings are restored (R504). -/
  resume : Option ChanState := none
  deriving DecidableEq, Repr

/-- One DRAM channel. -/
structure Chan where
  state : ChanState := .absent
  cause : BitVec 3 := 0
  /-- What the SPDs of the two slots say, once read. -/
  spd0 : Option Spd := none
  spd1 : Option Spd := none
  /-- CH_STATUS.SLOT_USABLE. -/
  usable : BitVec 2 := 0
  speed : BitVec 8 := 0
  pageDefault : BitVec 2 := 3
  express : Bool := false
  pdTimer : BitVec 8 := 0x20
  rowIdle : BitVec 8 := 0x10
  speedMax : BitVec 8 := 0x58
  ref2x : Bool := false
  wrHigh : BitVec 7 := 0x28
  wrLow : BitVec 7 := 0x10
  commit : Bool := false
  train : Training := {}
  /-- The parameters of CH_TIM0 to CH_TIM2 in nCK, in the order of `Spd.ps`. -/
  timing : List Nat := []
  hot : Bool := false
  temp0 : BitVec 8 := 0xFF
  temp1 : BitVec 8 := 0xFF
  /-- The readings in tenths of a degree made the channel hot (R247). -/
  warm : Bool := false
  tempCrit : BitVec 8 := 0x5F
  sensorFail : Bool := false
  missed0 : Nat := 0
  missed1 : Nat := 0
  /-- The slots whose DIMM has read above TEMP_CRIT. -/
  overCrit : BitVec 2 := 0
  lastPoll : Nat := 0
  refCount : BitVec 32 := 0
  lateMax : BitVec 16 := 0
  refreshing : Bool := false
  /-- Uptime of the REFab that runs, and timebase of the last pulse. -/
  refreshAt : Nat := 0
  lastPulse : Option (BitVec 64) := none
  selfRefresh : Bool := false
  /-- A self-refresh entry has been asked for and finishes queued commands first (R249). -/
  srPending : Bool := false
  /-- Ranks in power-down, by subchannel × 16 + slot × 8 + rank. -/
  powerDown : List Nat := []
  /-- Uptime of the last command of each rank of each subchannel. -/
  lastCmd : Tab Nat := []
  zqAt : Nat := 0
  zqNext : Nat := 0
  dqsAt : Nat := 0
  dqsNext : Nat := 0
  retrainKind : BitVec 2 := 3
  retrainMask : BitVec 16 := 0
  retrainBusy : Bool := false
  /-- Uptime at which the window's last rank is done, refreshes included. -/
  retrainEnd : Nat := 0
  retrainResult : BitVec 2 := 0
  retrainFails : BitVec 8 := 0
  /-- Failed windows since the channel last became ACTIVE (R277). -/
  failsActive : Nat := 0
  /-- The write position of initialisation, in lines of the channel's usable capacity (R234). -/
  frontier : Nat := 0
  gate : Gate := {}
  queue : List LineCmd := []
  peak : BitVec 9 := 0
  banks : Tab DramBank := []
  subs : Tab Subchannel := []
  /-- Reads issued on the bus whose data has not come back: the request, the line, and what the line held. -/
  flight : List (Nat × Nat × DLine) := []
  /-- Write CRC errors seen on a line's last write. -/
  wcrc : Tab Nat := []
  ce : BitVec 16 := 0
  ue : BitVec 16 := 0
  wcrcRetry : BitVec 8 := 0
  wcrcExhaust : BitVec 8 := 0
  failing : BitVec 16 := 0
  ranks : Tab RankHealth := []
  /-- Uptimes of write CRC exhaustions. -/
  wcrcTimes : List Nat := []
  /-- Consecutive UEs after retry, and the rows they lay in (R281). -/
  ueRun : Nat := 0
  ueRunRows : List Nat := []
  /-- A retirement is pending or running, with its cause (R280), in the always-on domain. -/
  retirePending : Option Nat := none
  retryAt : Nat := 0
  evac : Option Evac := none
  /-- The outcome of the channel's last Channel Evacuate that did not run to its end: 2 to 5 (R103). -/
  evacLast : Option Nat := none
  /-- The channel was retired as unreadable and its pages are not all POISONED yet (R281). -/
  unreadable : Bool := false
  repairKind : BitVec 2 := 1
  target : RowName := {}
  repairBusy : Bool := false
  repairResult : BitVec 3 := 0
  /-- The repair that runs is a hard one; and uptime of its start. -/
  repairHard : Bool := false
  repairAt : Nat := 0
  fence : Option RowName := none
  deriving DecidableEq, Repr

end Sys2Proof.Machine
end

