-- ==== Sys2Proof/Machine/ImgState.lean ====
section
/-! DEFINITION. State of program images: flash, fuse counters, the tenant image store, loads and activations (chapter 12). -/
namespace Sys2Proof.Machine

/-- A tenant image in the tenant image store (R364). -/
structure TenantImage where
  ld : Nat
  bytes : List Byte
  active : Bool
  /-- The queues it claimed, local index 0 first. -/
  queues : List Nat := []
  deriving DecidableEq, Repr

/-- A load in progress (R99, R362, R363). -/
structure Load where
  target : Nat
  ld : Nat := 0
  cci : Cci
  total : Nat
  bytes : List Byte := []
  /-- Uptime of its last chunk. -/
  at_ : Nat := 0
  /-- 0 receiving, 1 complete and verified, 2 signature invalid, 3 format invalid, 4 key does not match the target (R99). -/
  state : Nat := 0
  deriving DecidableEq, Repr

/-- An activation that builds or is in grace (R366 to R371). -/
structure Activation where
  target : Nat
  ld : Nat := 0
  rollback : Bool := false
  bytes : List Byte
  cci : Cci
  /-- Uptime of its acceptance, and of its swap. -/
  at_ : Nat := 0
  swapped : Option Nat := none
  deriving DecidableEq, Repr

/-- Images (R347 to R374). -/
structure Img where
  /-- The directory in flash: active copies, an operator image present, copies that hold the previous image, SEQUENCE, versions. -/
  fwCopy : Bool := false
  opCopy : Bool := false
  opPresent : Bool := false
  fwPrevious : Bool := false
  opPrevious : Bool := false
  sequence : BitVec 64 := 0
  fwVersion : BitVec 64 := 0
  opVersion : BitVec 64 := 0
  /-- The image copies in flash. -/
  fw0 : List Byte := []
  fw1 : List Byte := []
  op0 : List Byte := []
  op1 : List Byte := []
  /-- The operator key record in flash. -/
  opKey : Option (List Byte) := none
  keyCounter : BitVec 64 := 0
  /-- IMG_FLASH.WRITES. -/
  writes : BitVec 32 := 0
  /-- SVN floors and the raises that remain, in fuses. -/
  fwFloor : BitVec 16 := 0
  opFloor : BitVec 16 := 0
  fwRaises : BitVec 6 := 63
  opRaises : BitVec 6 := 63
  /-- An operator image runs (IMG_STAT.OP_PRESENT). -/
  opRuns : Bool := false
  tenants : List TenantImage := []
  loads : List Load := []
  act : Option Activation := none
  /-- Timebase of the last activation (R101). -/
  lastSwap : BitVec 64 := 0
  deriving DecidableEq, Repr

end Sys2Proof.Machine
end

