-- ==== Sys2Proof/Machine/SysState.lean ====
section
/-! DEFINITION. State of the device as a whole: identity, faults, recorder, counters, comets, Almanac, register window. -/
namespace Sys2Proof.Machine

/-- Identity: fuses and sampled straps (R55, R493, R559). -/
structure Ident where
  /-- ID_PART.VARIANT: 0 BXD-2416-C0, 1 BXD-2416-S0 (R559). -/
  variant : BitVec 4 := 0
  /-- ID_PART.STEPPING (R559). -/
  stepping : BitVec 8 := 0
  /-- ID_SERIAL (R559). -/
  serial : BitVec 64 := 0
  /-- ID_STRAP.DEV_ID (R493). -/
  devId : BitVec 2 := 0
  /-- ID_STRAP.ROLE (R493): high is the polestar. -/
  role : Bool := true
  /-- ID_STRAP.STRAP_ERR (R429). -/
  strapErr : Bool := false
  deriving DecidableEq, Repr

/-- Fault registers, in the always-on domain (R517, R522, R525, R529). -/
structure Faults where
  /-- FSTICKY[i] (R517). -/
  sticky : Tab (BitVec 64) := []
  /-- FAULT_MASK[i] (R529). -/
  mask : Tab (BitVec 64) := []
  /-- The condition sources whose condition holds now (R518), in ascending order. -/
  live : List Nat := []
  /-- FAULT_CTL.THRESHOLD. -/
  threshold : BitVec 3 := 2
  /-- FAULT_CTL.TEMP_WARN. -/
  tempWarn : BitVec 7 := 0x64
  /-- HALT_REC.SOURCE. -/
  haltSource : BitVec 10 := 0
  /-- HALT_REC.VALID. -/
  haltValid : Bool := false
  /-- HALT_TIME. -/
  haltTime : BitVec 64 := 0
  /-- The device is halted (R525). -/
  halted : Bool := false
  /-- THERMTRIP_N is held low (R527). -/
  thermtrip : Bool := false
  /-- The Health Status bits as last reported: maintenance, performance, replacement (R523, R524). -/
  lastHealth : BitVec 3 := 0
  /-- DRAM CEs of all channels since cold reset, saturating (R524). -/
  ceTotal : BitVec 32 := 0
  deriving DecidableEq, Repr

/-- One tally (R530). -/
structure Tally where
  seq : BitVec 64 := 0
  tbClose : BitVec 64 := 0
  upClose : BitVec 64 := 0
  upOpen : BitVec 64 := 0
  source : BitVec 16 := 0
  severity : BitVec 8 := 0
  reason : BitVec 8 := 0
  /-- Byte 36: the device that closed it in [1:0], bit 7 a copy at the polestar. -/
  device : BitVec 8 := 0
  shift : BitVec 8 := 0
  count : BitVec 64 := 0
  smallest : BitVec 64 := 0
  largest : BitVec 64 := 0
  sum : BitVec 64 := 0
  /-- The sixteen bucket counts, bucket 0 first. -/
  buckets : List (BitVec 64) := List.replicate 16 0
  arg1 : BitVec 64 := 0
  arg2 : BitVec 64 := 0
  /-- For a copy, its sequence number at the companion. -/
  copySeq : BitVec 64 := 0
  deriving DecidableEq, Repr

/-- One REC_WATCH register (R534, R551). -/
structure Watch where
  en : Bool := false
  extent : BitVec 18 := 0
  deriving DecidableEq, Repr

/-- The event recorder (R530 to R541, R551). -/
structure Recorder where
  /-- The open tally of each source that has one (R532). -/
  opened : Tab (Option Tally) := []
  /-- The stored tallies in order of sequence number (R535). -/
  store : List Tally := []
  /-- REC_SEQ.NEXT (R536). -/
  seq : BitVec 64 := 1
  /-- REC_CTL.LARGE. -/
  large : Bool := false
  /-- REC_CTL.PEND_LARGE. -/
  pendLarge : Bool := false
  /-- REC_CTL.EPOCH, in ms. -/
  epoch : BitVec 16 := 0x3E8
  /-- The epoch length in force, in ms; a new one applies from the next boundary (R532). -/
  epochNow : BitVec 16 := 0x3E8
  /-- REC_CTL.RING, in MiB. -/
  ring : BitVec 11 := 0
  /-- REC_CTL.PEND_RING, in MiB. -/
  pendRing : BitVec 11 := 0
  /-- REC_STAT.DISCARDED. -/
  discarded : BitVec 16 := 0
  /-- REC_STAT.UNSENT. -/
  unsent : BitVec 16 := 0
  /-- REC_THR.T0 to T4. -/
  thr0 : BitVec 5 := 0x0C
  thr1 : BitVec 5 := 0x08
  thr2 : BitVec 5 := 0
  thr3 : BitVec 5 := 0
  thr4 : BitVec 5 := 0
  /-- REC_WATCH[k]. -/
  watch : Tab Watch := []
  /-- Uptime of the last sample of each fault source since cold reset (R531). -/
  lastSample : Tab (Option Nat) := []
  /-- Uptime of the last epoch boundary taken (R532). -/
  lastEpoch : Nat := 0
  /-- Open tallies lost by the last immediate reset, for the tally of source 0x0102 (R533). -/
  lost : BitVec 64 := 0
  /-- Channels that hold a segment of the ring, segment 0 first (R537). -/
  segments : List Nat := []
  deriving DecidableEq, Repr

/-- One counter block (R542, R543). Cycle and stopped counts are kept as nanoseconds ungated and gated. -/
structure CtrBlock where
  /-- Nanoseconds the block's clock ran, up to `mark`. -/
  ranNs : Nat := 0
  /-- Nanoseconds the block's clock was gated, up to `mark`. -/
  stoppedNs : Nat := 0
  /-- Uptime up to which the two are accounted. -/
  mark : Nat := 0
  /-- The block's clock is gated now. -/
  gated : Bool := false
  /-- Cycles that the counters of event 0xFFF have counted, of those that the block has had (R544). -/
  counted : Nat := 0
  /-- CTR_PMC[k].COUNT. -/
  pmc : Tab (BitVec 48) := []
  /-- CTR_OVF. -/
  ovf : BitVec 8 := 0
  /-- CTR_SEL[k], bits [21:0]. -/
  sel : Tab (BitVec 22) := []
  deriving DecidableEq, Repr

/-- One comet's stamps and sample (R548, R549). -/
structure Comet where
  /-- 0 read, 1 write, 2 Rilia instruction. -/
  kind : BitVec 8 := 0
  quadrant : BitVec 8 := 0
  timebase : BitVec 64 := 0
  uptime : BitVec 64 := 0
  /-- The stages stamped: stage number and its offset in ns. -/
  stamps : List (Nat × BitVec 32) := []
  /-- Bytes 72 to 79. -/
  info : BitVec 64 := 0
  /-- Bytes 80 to 87. -/
  place : BitVec 64 := 0
  /-- Byte 88: the line in the page, for a host request. -/
  line : BitVec 8 := 0
  /-- Bytes 120 to 127: the comet sequence number. -/
  seq : BitVec 64 := 0
  deriving DecidableEq, Repr

/-- The comet buffer and counters of one quadrant (R549, R552). -/
structure CometQuad where
  /-- COMET_STAT.HELD samples, oldest first, at most 64. -/
  buffer : List Comet := []
  /-- COMET_STAT.INFLIGHT. -/
  inflight : Nat := 0
  /-- COMET_STAT.OVERWRITTEN. -/
  overwritten : BitVec 16 := 0
  /-- COMET_STAT.SKIPPED. -/
  skipped : BitVec 16 := 0
  /-- Samples overwritten since the last Get Comet Samples (R109). -/
  lostSinceGet : BitVec 32 := 0
  /-- The LFSR that tags requests of the quadrant (R547). -/
  lfsr : BitVec 32 := 0
  deriving DecidableEq, Repr

/-- Comet sampling (R547 to R552). -/
structure Comets where
  quads : Tab CometQuad := []
  /-- The LFSR of each policy core (R547). -/
  coreLfsr : Tab (BitVec 32) := []
  /-- The last comet sequence number given (R549). -/
  seq : BitVec 64 := 0
  reqEn : Bool := false
  reqK : BitVec 5 := 0x10
  insEn : Bool := false
  insK : BitVec 5 := 0x10
  ldFilter : Bool := false
  ld : BitVec 8 := 0
  deriving DecidableEq, Repr

/-- The Almanac as last published, and its publication (R48, R57 to R60). -/
structure Almanac where
  /-- GENERATION of the last completed publication. -/
  generation : BitVec 64 := 1
  /-- UPD. -/
  upd : Bool := false
  /-- The Almanac is readable: early Vigil has completed (R47). -/
  built : Bool := false
  /-- The published words, header first; empty before early Vigil builds them. -/
  words : List (BitVec 64) := []
  /-- The words of the publication that runs. -/
  next : List (BitVec 64) := []
  /-- The publication of phase 10, or that of an early Vigil after a reset, is owed whatever has changed (R57). -/
  owed : Bool := false
  /-- The publication that runs is the one an early Vigil builds: it posts nothing to queue 1 (R57). -/
  early : Bool := false
  /-- Uptime at which UPD was set. -/
  started : Nat := 0
  /-- Uptime from which the next publication may start (R58). -/
  nextFrom : Nat := 0
  /-- The Get Almanac commands that wait for the publication to end: interface, input length, offset, length (R59). -/
  waiting : List (Cci × Nat × Nat × Nat) := []
  deriving DecidableEq, Repr

/-- REGWIN_STAT (R560). -/
structure RegWin where
  ignored : BitVec 16 := 0
  lastCause : BitVec 3 := 0
  lastRilia : Bool := false
  lastSrc : BitVec 8 := 0
  lastEngine : Bool := false
  lastOffset : BitVec 26 := 0
  deriving DecidableEq, Repr

/-- One quadrant's junction sensor and supply detectors (R527, R561, R570), in the always-on domain. -/
structure Sensor where
  /-- Q_SENSE.TEMP. -/
  temp : BitVec 8 := 0xFF
  /-- Q_SENSE.VALID. -/
  valid : Bool := false
  /-- The sensor is failed (R527). -/
  failed : Bool := false
  /-- Q_SENSE.SUPPLY_OK. -/
  supplyOk : Bool := false
  /-- Q_SENSE.TEMP_MAX. -/
  tempMax : BitVec 8 := 0
  /-- Uptime of the last valid reading. -/
  lastValid : Nat := 0
  deriving DecidableEq, Repr

end Sys2Proof.Machine
end

