-- ==== Sys2Proof/Machine/LinkState.lean ====
section
/-! DEFINITION. State of the Ulilet ports and of the constellation (chapters 14 and 15). -/
namespace Sys2Proof.Machine

/-- ULT_STATUS.LSTATE (R403). -/
inductive LState where
  | down | detect | train | param | session | active | discord | retired
  deriving DecidableEq, Repr

/-- A packet to send: its type, virtual channel and content (R408). -/
structure OutPkt where
  /-- TYPE: 1 request, 2 response, 5 enclave message. -/
  type : Nat
  vc : Nat
  len : Nat
  dst : Nat := 0
  src : Nat := 0
  colour : Nat := 0
  cls : Nat := 0
  txn : Txn := { op := 0 }
  /-- What a TYPE 5 packet carries. -/
  msg : Option EnclaveMsg := none
  deriving DecidableEq, Repr

/-- A numbered packet as first sent (R419). -/
structure Sent where
  seq : BitVec 12
  ack : BitVec 12
  crVc : Nat
  crCum : BitVec 12
  counter : Nat
  pkt : OutPkt
  deriving DecidableEq, Repr

/-- One Ulilet port (R400 to R428). -/
structure Uli where
  vcs : BitVec 4 := 4
  enable : Bool := true
  replayTo : BitVec 7 := 0x14
  replayN : BitVec 4 := 4
  retrainN : BitVec 4 := 3
  retrainWin : BitVec 8 := 0xA
  commit : Bool := false
  lstate : LState := .down
  lanes : BitVec 5 := 0
  reversed : Bool := false
  vcsActive : BitVec 4 := 0
  peerId : BitVec 2 := 0
  peerPolestar : Bool := false
  peerSerial : BitVec 64 := 0
  /-- A PARAM packet of the peer has been received in this PARAM state. -/
  paramSeen : Bool := false
  /-- Uptime of the last PARAM packet sent since PARAM was entered. -/
  paramSent : Option Nat := none
  /-- Uptime at which the session was refused, until it is retried (R403). -/
  refusedAt : Option Nat := none
  /-- Uptime at which the present state was entered, from which a refused session is retried. -/
  since : Nat := 0
  txSeq : BitVec 12 := 0
  rxExpect : BitVec 12 := 0
  /-- The last SEQ the peer has acknowledged. -/
  acked : BitVec 12 := 4095
  resync : Bool := false
  resyncAt : Nat := 0
  crcErr : BitVec 16 := 0
  replays : BitVec 16 := 0
  protoErr : BitVec 8 := 0
  tagErr : BitVec 8 := 0
  retrains : BitVec 8 := 0
  /-- ULT_RETIRE, in the always-on domain. -/
  retired : Bool := false
  cause : BitVec 3 := 0
  totalRetrains : BitVec 32 := 0
  /-- ULT_PRSNT_N is low, and the uptime since which it is as it is. -/
  prsnt : Bool := false
  prsntSince : Nat := 0
  /-- The replay buffer, oldest first; and the place of the next packet to resend while a replay runs. -/
  replay : List Sent := []
  replayAt : Option Nat := none
  /-- Uptime at which the replay timer expires. -/
  timer : Option Nat := none
  expiries : Nat := 0
  /-- Units charged on each VC since ACTIVE, and the last CR_CUM accepted (R414). -/
  charged : Tab Nat := []
  credited : Tab Nat := []
  /-- Units received on each VC, and units freed, since ACTIVE. -/
  received : Tab Nat := []
  freed : Tab Nat := []
  /-- The VC whose freed units the next packet carries, and the VC served last (R414, R415). -/
  crNext : Nat := 0
  lastVc : Nat := 0
  /-- Numbered packets waiting, oldest first. -/
  tx : List OutPkt := []
  trainFails : Nat := 0
  /-- Uptimes of the retrains within RETRAIN_WIN. -/
  retrainTimes : List Nat := []
  /-- The highest counter accepted from an unnumbered packet; and the next counter to send. -/
  highCounter : Option Nat := none
  txCounter : Nat := 0
  /-- Uptimes of the last packet with a good CRC, and of the last packet started. -/
  lastGood : Nat := 0
  lastStart : Nat := 0
  /-- The slot, t ÷ 1,024, whose beacon has been sent. -/
  lastSlot : Option Nat := none
  /-- The peer's last SYNC: its transmission and its arrival here (R423). -/
  peerSync : Option (BitVec 64 × BitVec 64) := none
  /-- Transmission of this device's last SYNC. -/
  ownSync : Option (BitVec 64) := none
  /-- A session is established, with the uptime of its last key (R221, R222). -/
  secure : Bool := false
  keyAt : Nat := 0
  /-- The receive key before the last KEY_UPDATE is kept: packets of it up to this SEQ are not acknowledged yet (R223). -/
  oldKeyTo : Option (BitVec 12) := none
  /-- JOIN was refused, or the peer is a second polestar: no transaction travels (R445). -/
  foreign : Bool := false
  /-- The members the peer reaches, and the uptime of its last REACH (R446). -/
  reach : BitVec 4 := 0
  reachAt : Option Nat := none
  reachSent : Nat := 0
  /-- What the peer's last beacon said: hops from the polestar, and whether its timebase is synchronised (R423). -/
  hops : BitVec 8 := 0xFF
  peerSynced : Bool := false
  deriving DecidableEq, Repr

/-- The state of a member, coded as in Almanac entry 0x00B0. -/
inductive MemberState where
  | absent | joined | lost | discord
  deriving DecidableEq, Repr

/-- What a device knows of a member (R107, R430, R446). -/
structure Member where
  state : MemberState := .absent
  polestar : Bool := false
  /-- The relay it is reached through. -/
  relay : Option Nat := none
  /-- The local Ulilet port of the direct link. -/
  port : Nat := 0
  epoch : Option (BitVec 64) := none
  orphans : BitVec 16 := 0
  /-- What it reported on joining: active channels and ports up, extents homed there. -/
  channels : BitVec 8 := 0
  portsUp : BitVec 8 := 0
  /-- The port its packets leave by, as last settled. -/
  via : Option Nat := none
  /-- Reconcile runs: requests to it wait (R443). Its epoch had changed. -/
  reconciling : Bool := false
  epochChanged : Bool := false
  /-- Its state before it joined last, which queue 8 reports when reconcile ends. -/
  before : MemberState := .absent
  /-- Far pages of this device there that were counted as zeroed during its loss (R219). -/
  owedFree : List Nat := []
  deriving DecidableEq, Repr

/-- A transaction outstanding on the links (R432). -/
structure Open where
  tag : BitVec 16
  op : Nat
  target : Nat
  /-- The request it serves; for the far tier, the page. -/
  req : Nat := 0
  dlpn : Nat := 0
  unit : Nat := 0
  /-- Fields it was sent with, for what follows its response. -/
  words : List Nat := []
  at_ : Nat := 0
  /-- The request as sent, for a resend on another route (R444). -/
  txn : Txn := { op := 0 }
  colour : Nat := 0
  cls : Nat := 0
  /-- It has been sent: a new forwarded request waits for a route and for reconcile (R441, R443). -/
  sent : Bool := true
  deriving DecidableEq, Repr

/-- One entry of the forward journal (R435). -/
structure Journal where
  seq : BitVec 16
  home : Nat
  req : Nat
  dlpn : Nat
  lineNo : Nat
  data : Line
  mask : BitVec 64
  deriving DecidableEq, Repr

/-- One entry of the indeterminate list (R441). -/
structure Indet where
  dlpn : Nat
  device : Nat
  far : Bool
  mask : BitVec 64
  deriving DecidableEq, Repr

/-- One remote descriptor of the far tier (R439). -/
structure Remote where
  /-- 0 free, 1 PLAIN, 2 PACKED, 7 POISONED. -/
  state : Nat := 0
  home : Nat := 0
  homeDlpn : Nat := 0
  bpoison : BitVec 4 := 0
  blockLen : BitVec 20 := 0
  /-- The line address of the run, and its units. -/
  location : Nat := 0
  units : Nat := 0
  /-- FAR_COMMIT has given it its state. -/
  committed : Bool := false
  /-- Units put since, which the next FAR_COMMIT makes the run's: unit and line. -/
  staged : List (Nat × Line) := []
  deriving DecidableEq, Repr

/-- CONST_XMAP and its state (R437, R447). -/
structure Xmap where
  busy : Bool := false
  result : BitVec 4 := 0
  ld : Nat := 0
  block : Nat := 0
  home : Nat := 0
  extent : Nat := 0
  deriving DecidableEq, Repr

/-- A grant or mapping that waits for the polestar's confirmation (R431). -/
structure AdmitWait where
  tag : BitVec 16
  /-- The thread and the register of its EXTGRANT, or the command interface of its Initiate Dynamic Capacity Add. -/
  thread : Option (Nat × Nat)
  cci : Option Cci
  grant : Grant
  deriving DecidableEq, Repr

/-- The constellation (R429 to R447). -/
structure Const where
  members : Tab Member := []
  /-- This device's epoch: the value drawn at cold reset. -/
  epoch : BitVec 64 := 0
  orphanTo : BitVec 10 := 0x32
  xmap : Xmap := {}
  opened : List Open := []
  nextTag : BitVec 16 := 0
  journal : List Journal := []
  nextSeq : BitVec 16 := 0
  /-- The last sequences applied of each originator, newest first, at most 32,768 (R435). -/
  applied : Tab (List Nat) := []
  indet : List Indet := []
  /-- The overflow set: extents with their device, + 4 for far pages; and the home-wide flags (R441). -/
  overflow : List (Nat × Nat) := []
  homeWide : BitVec 4 := 0
  /-- The polestar's register: home × 2^18 + extent, with the devices that map it (R431). -/
  register : List (Nat × List Nat) := []
  /-- Mappings of this device's shared extents on other members: extent and device, one entry each (R437). -/
  remoteMaps : List (Nat × Nat) := []
  /-- What each far page of this home holds at its guest: its state there and its BLOCK_LEN, by DLPN (R440). -/
  farForms : Tab (Nat × BitVec 20) := []
  /-- Far storage held for other homes, by remote index (R439). -/
  remotes : Tab Remote := []
  admits : List AdmitWait := []
  /-- SNOOPs of other devices not answered yet: device, tag, line. -/
  snooped : List (Nat × BitVec 16 × Nat) := []
  deriving DecidableEq, Repr

end Sys2Proof.Machine
end

