-- ==== Sys2Proof/Machine/PathState.lean ====
section
/-! DEFINITION. State of the data path: requests in flight, write gather, the pools, the snoop directory, QoS and the poison
list (chapters 01, 03, 04, 09 and 13). -/
namespace Sys2Proof.Machine

/-- Where a request waits. -/
inductive Stage where
  /-- For the MAC that covers it, in containment mode (R90). -/
  | mac
  /-- In the ingress hold buffer, over its LD's limit (R378). -/
  | limit
  /-- In the ingress hold buffer, for a tracker (R40). -/
  | tracker
  /-- At its LD's shaper (R381). -/
  | shaper
  /-- For back-invalidate snoops of this device's heads (R84). -/
  | snoop
  /-- For SNOOP responses of the other mapping devices (R438). -/
  | peers
  /-- For a way of its set of the metadata cache (R130). -/
  | metaWay
  /-- For a metadata miss entry (R40). -/
  | metaEntry
  /-- For a write gather entry (R40), or for the MAC of another requester's write to its line (R90). -/
  | gather
  /-- For a compression scratch context (R40). -/
  | scratch
  /-- Before step 5, while the page's STALL is set (R190). -/
  | stalled
  /-- For a forward journal entry (R435). -/
  | journal
  /-- For the response of the home (R434). -/
  | forwarded
  /-- For the far storage of a guest (R440). -/
  | far
  /-- For its DRAM lines. -/
  | lines
  /-- For XTS decryption of its lines. -/
  | xts
  /-- For decompression of its block. -/
  | decompress
  /-- Served, and its response waits for the MAC that covers the request (R90). -/
  | verify
  deriving DecidableEq, Repr

/-- What a line read gave. -/
inductive LineOut where
  | clean | poison | ue
  deriving DecidableEq, Repr

/-- One line of a request: its address, and what its read gave once it returned. -/
structure ReqLine where
  line : Nat
  data : Option (Line × LineOut) := none
  /-- Its outcome was UE and it is read once more (R259). -/
  retried : Bool := false
  deriving DecidableEq, Repr

/-- A host or forwarded request in flight. -/
structure Req where
  id : Nat
  /-- The head 0 to 15 it arrived at, or 16 + u for Ulilet link u. -/
  source : Nat
  /-- The LD that sent it; for a forwarded request, the originating device. -/
  ld : Nat
  /-- The requester's tag. -/
  tag : BitVec 16
  write : Bool
  /-- A read for ownership, or a write-back whose line the host releases (R84). -/
  own : Bool := false
  /-- A write-back of an owned line (R84). -/
  writeBack : Bool := false
  dpa : Nat := 0
  data : Line := 0
  mask : BitVec 64 := 0
  /-- The write data arrived poisoned. -/
  poisonIn : Bool := false
  stage : Stage
  cls : Nat := 3
  /-- 0 green, 1 yellow, 2 red (R380). -/
  colour : Nat := 0
  home : Nat := 0
  dlpn : Nat := 0
  /-- The line in the page. -/
  lineNo : Nat := 0
  hint : Nat := 0
  at_ : Nat := 0
  /-- It holds a tracker, or a forward-buffer entry. -/
  tracked : Bool := false
  /-- Its MAC has been checked (R90). -/
  verified : Bool := true
  /-- Its head was reset: what it gives is discarded (R111). -/
  dead : Bool := false
  /-- The snoops it needs have gone out (R84); the SNOOPs to other mapping devices have gone out (R438). -/
  snoopSent : Bool := false
  peersSent : Bool := false
  /-- The lookup of step 4 is made: it is counted once (R181, R185). -/
  looked : Bool := false
  /-- Link units it holds until it has a forward-buffer entry, and their VC (R413, R436). -/
  units : Nat := 0
  linkVc : Nat := 1
  /-- The salt that travels with it from step 4 (R208). -/
  salt : Option Nat := none
  keyLoad : Nat := 0
  cipherLd : Nat := 0
  cipherAddr : Nat := 0
  /-- Slots of its block; 0 for a line of a PLAIN page. -/
  slots : Nat := 0
  lines : List ReqLine := []
  /-- The scratch pool of which it holds a context. -/
  scratch : Option Nat := none
  /-- It counts in READERS of the page's mover record (R191). -/
  reader : Bool := false
  /-- The bytes of write gather to merge over what DRAM gives, when it holds the line partly. -/
  overlay : Option (Line × BitVec 64) := none
  /-- The response, once it is ready and waits for its MAC. -/
  answer : Option (Line × Bool) := none
  comet : Option Comet := none
  deriving DecidableEq, Repr

/-- One entry of write gather (R31, R165, R192). -/
structure GEntry where
  dlpn : Nat
  lineNo : Nat
  data : Line
  /-- The bytes that are valid. -/
  mask : BitVec 64
  /-- Uptime of the first write it holds. -/
  at_ : Nat
  /-- The head 0 to 15 or link 16 + u that holds the pool entry, and the flow its eviction is charged to. -/
  source : Nat
  flow : Nat
  cls : Nat := 3
  verified : Bool := true
  /-- Frozen by the eviction that runs (R192). -/
  frozen : Bool := false
  poisoned : Bool := false
  deriving DecidableEq, Repr

/-- Write gather (R31 to R34, R140, R165). -/
structure Gather where
  entries : List GEntry := []
  /-- Charges held, in lines: by DLPN × 8 + block, or + 4 for a page without storage (R140). -/
  charges : Tab Nat := []
  deriving DecidableEq, Repr

/-- A back-invalidate snoop outstanding (R84, R85). -/
structure Snoop where
  head : Nat
  /-- The line: DLPN × 64 + line, above the home's device ID × 2^40. -/
  line : Nat
  /-- BISnpInv; else BISnpData. -/
  inv : Bool
  deriving DecidableEq, Repr

/-- Profile parameters, buckets and meters of QoS (R375 to R399). -/
structure Qos where
  /-- Committed profile values that are not the default, by LD × 16 + parameter. -/
  params : Tab (Option Nat) := []
  /-- A committed set that takes effect at the next 8 ns tick, with the uptime of its commit (R376). -/
  pending : List (Nat × Nat × Nat) := []
  pendingAt : Nat := 0
  /-- Shaper credit in 1/125 byte and the tick it stands for, by LD (R381). -/
  credit : Tab (Option (Int × Nat)) := []
  /-- Policer buckets in 1/1000 byte and the ns they stand for, by LD; links 256 + u (R380, R387). -/
  buckets : Tab (Option (Nat × Nat × Nat)) := []
  compat : Bool := false
  devloadMod : BitVec 7 := 0x32
  devloadSev : BitVec 7 := 0x4B
  eff : Bool := false
  gather : Bool := false
  readPct : BitVec 7 := 0x32
  packedPct : BitVec 7 := 0
  reserve : BitVec 8 := 0
  excess : Tab (BitVec 16) := []
  red : BitVec 32 := 0
  bytes : Tab (BitVec 64) := []
  linkClass : Tab (BitVec 3) := []
  linkGuar : Tab (BitVec 20) := []
  linkCir : Tab (BitVec 20) := []
  linkPir : Tab (BitVec 20) := []
  /-- s and s_h in 1/65,536, by head; 16 for the device (R392). -/
  scale : Tab Nat := []
  /-- Uptime of the last report of a scope, and the scopes whose report is owed (R393). -/
  reported : Tab (Option Nat) := []
  owed : List Nat := []
  dHost : Nat := 0
  dDram : Nat := 0
  /-- Occupancy of a head's hold buffer times ns over the present and the last 1 ms (R395). -/
  holdSum : Tab Nat := []
  holdLast : Tab Nat := []
  deriving DecidableEq, Repr

/-- One entry of the poison list (R270). -/
structure Poison where
  dlpn : Nat
  /-- 0 line, 1 block, 2 page. -/
  unit : Nat
  place : Nat
  source : Nat
  timebase : BitVec 64
  deriving DecidableEq, Repr

/-- One entry of the spare map, in flash (R283). -/
structure Spare where
  serial : BitVec 32
  slot : Nat
  rank : Nat
  bg : Nat
  bank : Nat
  /-- 1 soft repair, 2 hard repair pending, 3 hard repair done. -/
  kind : Nat
  row : Nat
  deriving DecidableEq, Repr

/-- The poison list, patrol scrub and the integrity registers (R270 to R287). -/
structure Integ where
  poison : List Poison := []
  overflow : Bool := false
  refused : BitVec 32 := 0
  /-- Timebase of the first unit not listed, and whether one was refused in this scrub period. -/
  firstRefused : BitVec 64 := 0
  refusedNow : Bool := false
  period : BitVec 8 := 0x18
  scrubEn : Bool := true
  /-- The period in force, in hours, since a new one applies from the next (R273). -/
  periodNow : BitVec 8 := 0x18
  passes : BitVec 16 := 0
  ceFound : BitVec 16 := 0
  ueFound : BitVec 16 := 0
  periodAt : Nat := 0
  /-- Lines scrubbed in this period. -/
  scrubbed : Nat := 0
  wcrcN : BitVec 4 := 3
  wcrcWin : BitVec 12 := 0x3E8
  rowsN : BitVec 8 := 8
  rowsWin : BitVec 8 := 0x3C
  trainN : BitVec 4 := 2
  probeN : BitVec 3 := 2
  retireAuto : Bool := true
  /-- The soft fuse map's entries and the spare map, in flash (R282, R283). -/
  softFuse : List (BitVec 64) := []
  spares : List Spare := []
  flashWrites : BitVec 32 := 0
  deriving DecidableEq, Repr

/-- Requests, pools and the snoop directory. -/
structure Path where
  reqs : List Req := []
  nextReq : Nat := 1
  /-- Entries held, by pool × 32 + requester (R36). -/
  held : Tab Nat := []
  /-- Entries that their work is done with and that are not yet released. -/
  freed : Tab Nat := []
  /-- The requester served last from the shared part of each pool (R38). -/
  turn : Tab Nat := []
  /-- The extent translation cache of each port: DPA blocks with their LD, newest first (R28). -/
  cache : Tab (List (Nat × Nat)) := []
  /-- Decompressed blocks held in compression scratch: DLPN, block, data, oldest first (R30). -/
  contexts : List (Nat × Nat × List Line) := []
  /-- The snoop directory: line and its head bitmap (R84). -/
  directory : Tab (BitVec 16) := []
  snoops : List Snoop := []
  deriving DecidableEq, Repr

end Sys2Proof.Machine
end

