-- ==== Sys2Proof/Machine/PortState.lean ====
section
/-! DEFINITION. State of the CXL ports, heads, logical devices and command interfaces (chapter 03). -/
namespace Sys2Proof.Machine

/-- The RWL fields of PORT_CTL (R70). -/
structure PortCfg where
  merge : BitVec 2 := 0
  maxRate : BitVec 3 := 4
  sris : Bool := false
  ideCap : BitVec 2 := 2
  ldCount : BitVec 5 := 1
  enable : Bool := true
  deriving DecidableEq, Repr

/-- One CXL port (R65 to R71, R90, R112). -/
structure Port where
  /-- PORT_CTL as written. -/
  cfg : PortCfg := {}
  /-- PORT_CTL.COMMIT. -/
  commit : Bool := false
  /-- PORT_CTL as it stood at the last training after a PERST release: what is in force (R71). -/
  trained : PortCfg := {}
  /-- The link is in L0 (PORT_STATUS.LINK_UP). -/
  up : Bool := false
  /-- Width and rate, coded as in the Almanac port word. -/
  width : BitVec 3 := 0
  rate : BitVec 3 := 0
  flit256 : Bool := false
  /-- PORT_STATUS.IDE_STATE: 0 off, 1 containment, 2 skid, 3 failed. -/
  ideState : BitVec 2 := 0
  /-- IDE failed and the link has been reset since, so a new key exchange may end it (R90). -/
  ideReset : Bool := false
  /-- Uptime at which the present 10 s retrain window began. -/
  windowFrom : Option Nat := none
  /-- PORT_STATUS.RETRAINS. -/
  retrains : BitVec 4 := 0
  /-- PORT_RETRAIN.TOTAL. -/
  retrainTotal : BitVec 32 := 0
  downLatched : Bool := false
  /-- The leader's PORT_PERST_N is asserted. -/
  perst : Bool := true
  /-- PORT_CLKREQ_N is driven low. -/
  clkreq : Bool := false
  /-- The link is between Detect and L0. -/
  training : Bool := false
  /-- The training that runs is a retrain, in which the data link stays up (R112). -/
  retraining : Bool := false
  /-- The raw bandwidth per direction, in GB/s, that the CDAT gives: not updated by a retrain (R82). -/
  cdatBandwidth : Nat := 0
  deriving DecidableEq, Repr

/-- The registers of one HDM decoder (R76). -/
structure Decoder where
  base : BitVec 64 := 0
  size : BitVec 64 := 0
  ways : BitVec 16 := 1
  granularity : BitVec 16 := 256
  committed : Bool := false
  deriving DecidableEq, Repr

/-- The five event logs of an LD (R88). -/
inductive LogKind where
  | info | warning | failure | fatal | dynamicCapacity
  deriving DecidableEq, Repr

/-- What an event record says (R60, R78, R79, R88, R89, R265, R502, R523). -/
inductive RecBody where
  /-- A vendor-specific record of R89: its kind and its argument. -/
  | vendor (kind : BitVec 16) (arg : BitVec 64)
  /-- A Memory Module Event: its device event type, as the spec names it. -/
  | memoryModule (event : Nat)
  /-- A General Media Event: its descriptor bits, its transaction type and the unit's DPA (R265); its type is ECC Error. -/
  | generalMedia (descriptor : Nat) (transaction : Nat) (dpa : BitVec 64)
  /-- A Dynamic Capacity Event: 0 Add, 1 Release, 2 Forced Release, 3 Region Configuration Updated; the extent's DPA. -/
  | dynamicCapacity (event : Nat) (dpa : BitVec 64) (tag : BitVec 64)
  deriving DecidableEq, Repr

/-- One event record with its handle and its timestamp. -/
structure EventRec where
  handle : BitVec 16
  timestamp : BitVec 64
  body : RecBody
  deriving DecidableEq, Repr

/-- One event log of at most 64 records, and its overflow state (R88). -/
structure EventLog where
  records : List EventRec := []
  nextHandle : BitVec 16 := 1
  overflow : BitVec 16 := 0
  firstOverflow : BitVec 64 := 0
  lastOverflow : BitVec 64 := 0
  deriving DecidableEq, Repr

/-- One dynamic-capacity region in 256 MiB blocks (R77, R115). -/
structure Region where
  base : Nat := 0
  len : Nat := 0
  deriving DecidableEq, Repr

/-- Alert thresholds of Set Alert Configuration (R96, R523). -/
structure Alerts where
  valid : BitVec 8 := 0
  warnTemp : BitVec 16 := 0
  lowTemp : BitVec 16 := 0
  ceThreshold : BitVec 16 := 0
  deriving DecidableEq, Repr

/-- A Scan Media run (R275). -/
structure Scan where
  fromDpa : Nat := 0
  toDpa : Nat := 0
  running : Bool := false
  /-- The command interface that asked for it, as `cciIndex` numbers it. -/
  by_ : Nat := 0
  /-- The poisoned units found in the range: DPA and length. -/
  results : List (Nat × Nat) := []
  deriving DecidableEq, Repr

/-- One logical device, numbered 16 × head + LD-ID (R74). -/
structure Ld where
  mgmt : Bool := false
  tenantImage : Bool := false
  injectPoison : Bool := false
  decoders : Tab Decoder := []
  regions : Tab Region := []
  info : EventLog := {}
  warning : EventLog := {}
  failure : EventLog := {}
  fatal : EventLog := {}
  dynCap : EventLog := {}
  /-- Set Event Interrupt Policy: one byte for each log. -/
  intPolicy : BitVec 40 := 0
  /-- What Set Timestamp adds to the timebase (R96). -/
  timeOffset : BitVec 64 := 0
  alerts : Alerts := {}
  scan : Scan := {}
  /-- The counter blocks granted to the LD's tenant reads (R110). -/
  ctrGrant : BitVec 64 := 0
  deriving DecidableEq, Repr

/-- A background command of a command interface (R95, R96). -/
structure Background where
  opcode : BitVec 16 := 0
  running : Bool := false
  percent : BitVec 7 := 0
  code : BitVec 16 := 0
  deriving DecidableEq, Repr

/-- An SPDM session of a DOE mailbox or of the MCTP endpoint (R91, R214). -/
structure Spdm where
  established : Bool := false
  version13 : Bool := false
  mutualAuth : Bool := false
  deriving DecidableEq, Repr

/-- One command interface: an LD's mailbox, or the MCTP CCI as number 256 (R92). -/
structure CciState where
  background : Background := {}
  spdm : Spdm := {}
  /-- Set Response Message Limit (MCTP): the limit's exponent. -/
  respLimit : BitVec 8 := 0
  /-- Set MCTP Event Interrupt Policy. -/
  mctpPolicy : BitVec 16 := 0
  deriving DecidableEq, Repr

/-- A command's return code, named as the spec names it (R93 to R115). -/
inductive Code where
  | success | backgroundStarted | invalidInput | unsupported | busy | mediaDisabled
  | invalidPayloadLength | unsupportedMailbox | invalidExtentList | resourcesExhausted | invalidHandle
  deriving DecidableEq, Repr

end Sys2Proof.Machine
end

