-- ==== Sys2Proof/Machine/PowState.lean ====
section
/-! DEFINITION. State of slot power, power domains, the timebase and start-up (chapters 16, 17 and 18). -/
namespace Sys2Proof.Machine

/-- SLOT_STAT.STATE (R450). -/
inductive SlotState where
  | off | auxUp | ramp | qualify | on | backoff | latched
  deriving DecidableEq, Repr

/-- One DIMM slot's power registers, in the always-on domain (R450 to R462). -/
structure Slot where
  tripA : BitVec 6 := 0x1E
  rampTripA : BitVec 5 := 0x0F
  ramp : BitVec 5 := 4
  auxTimer : BitVec 7 := 8
  auxLimit : BitVec 4 := 0xC
  retries : BitVec 3 := 3
  state : SlotState := .off
  /-- SLOT_STAT.PRSNT, after the filter of R458. -/
  prsnt : Bool := false
  retriesLeft : BitVec 3 := 3
  lastFault : BitVec 2 := 0
  /-- SLOT_STAT.AUX_LIMITING: the aux limit is engaged. -/
  limiting : Bool := false
  refused : Bool := false
  /-- The fault timer at `timerMark`, in eighths of a ns, since it counts down at an eighth of its rate (R453). -/
  timer : Nat := 0
  timerMark : Nat := 0
  i12 : BitVec 32 := 0
  peak : BitVec 32 := 0
  trip12 : BitVec 8 := 0
  rampTrip : BitVec 8 := 0
  auxTo : BitVec 8 := 0
  prsntLoss : BitVec 8 := 0
  latches : BitVec 16 := 0
  /-- RAMP, RAMP_TRIP_A and AUX_TIMER as they applied at the last entry to AUX_UP (R462). -/
  rampNow : BitVec 5 := 4
  rampTripNow : BitVec 5 := 0x0F
  auxTimerNow : BitVec 7 := 8
  /-- Uptime at which the present state was entered. -/
  since : Nat := 0
  /-- Uptime from which the qualification window has run (R454). -/
  qualFrom : Nat := 0
  /-- The retry count was restored after 10 s in ON (R450). -/
  restored : Bool := false
  /-- Uptime of the end of the last measurement window (R449). -/
  windowEnd : Nat := 0
  deriving DecidableEq, Repr

/-- What the slots share (R457). DEDUCED, log 100. -/
structure SlotMgr where
  /-- The slots waiting to enter AUX_UP from OFF, in the order they are to start. -/
  queue : List Nat := []
  /-- Uptime of the last entry to AUX_UP from OFF. -/
  lastStart : Option Nat := none
  deriving DecidableEq, Repr

/-- A power state (R466). -/
inductive PState where
  | p0 | p1 | p2 | p3
  deriving DecidableEq, Repr

/-- PWR_DOM.TRANS with the next step of an entry (R471, R491). -/
inductive DomTrans where
  | none
  /-- Entering this state; the steps drain 0, gate 1, save 2, isolate 3, power off 4: this one is in progress. -/
  | entering (dest : PState) (step : Nat)
  | exiting
  deriving DecidableEq, Repr

/-- One power domain (R465 to R474, R491). -/
structure Dom where
  state : PState := .p0
  trans : DomTrans := .none
  pending : Option PState := Option.none
  /-- A wake arrived during the entry (R472). -/
  wake : Bool := false
  refused : Bool := false
  idleP1 : BitVec 10 := 0
  idleP2 : BitVec 16 := 0
  wakes : BitVec 8 := 0
  aborts : BitVec 8 := 0
  /-- Uptime of the last work of the domain, from which its idle timers run (R470). -/
  lastWork : Nat := 0
  deriving DecidableEq, Repr

/-- Pads, D-Doze and REFCLK (R468, R475, R476, R482, R490). -/
structure Power where
  doms : Tab Dom := []
  latched : Bool := true
  cxlLatched : Bool := true
  dozing : Bool := false
  dozeRefused : Bool := false
  refuseCause : BitVec 3 := 0
  wakeCause : BitVec 3 := 0
  deriving DecidableEq, Repr

/-- The timebase and the uptime (R481 to R490). -/
structure Time where
  /-- TB_UPTIME: nanoseconds since PWR_OK last asserted. -/
  now : Nat := 0
  /-- TB_VALUE. -/
  tb : BitVec 64 := 0
  uncert : BitVec 64 := 0
  /-- TB_STAT.SOURCE: the internal oscillator runs the timebase. -/
  fallback : Bool := false
  /-- Nanoseconds in fallback not yet counted in TB_UNCERT, below 2,000 (R482). -/
  fallbackNs : Nat := 0
  sync : Bool := false
  hops : BitVec 8 := 0xFF
  freeRun : Bool := false
  setEver : Bool := false
  parent : BitVec 2 := 0
  offset : BitVec 32 := 0
  /-- The last offsets to the parent, newest first, at most 8 (R487). -/
  offsets : List Int := []
  /-- The present slew: ns still to add (positive) or drop (R487). -/
  slew : Int := 0
  /-- Uptime of the last nanosecond slewed. -/
  slewAt : Nat := 0
  /-- Uptime of the last beacon from a synchronised parent (R488). -/
  parentAt : Nat := 0
  step : BitVec 16 := 0x3E8
  slewPpm : BitVec 9 := 0x64
  deriving DecidableEq, Repr

/-- One record of the Vigil report (R498). -/
structure VigilRec where
  code : BitVec 8
  outcome : BitVec 8
  inst : BitVec 16
  durationUs : BitVec 32
  detail : BitVec 64
  deriving DecidableEq, Repr

/-- A reset entry in progress (R501, R502). -/
inductive ResetEntry where
  | none
  /-- A warm entry, with the uptime of its trigger. -/
  | warm (at_ : Nat)
  /-- An immediate entry. -/
  | immediate
  /-- The entry ended and the device holds before phase 2 while RESET_N stays low. -/
  | holding
  deriving DecidableEq, Repr

/-- Start-up and resets (R492 to R514), in the always-on domain. -/
structure Start where
  /-- VAON is in its range (R492). -/
  vaon : Bool := true
  /-- PWR_OK is asserted. -/
  powered : Bool := true
  /-- RESET_N is low. -/
  resetLow : Bool := false
  entry : ResetEntry := .none
  kind : BitVec 2 := 1
  cause : BitVec 3 := 0
  phase : BitVec 4 := 2
  lantern : Bool := false
  memValid : Bool := false
  /-- Uptimes of the immediate resets within the last 10 min (R503). -/
  immTimes : List Nat := []
  warmCount : BitVec 16 := 0
  immCount : BitVec 16 := 0
  vigilUs : BitVec 32 := 0
  maUs : BitVec 32 := 0
  gatherLost : BitVec 32 := 0
  /-- Uptime at which phase 2 and phase 8 of this start began. -/
  phase2At : Nat := 0
  phase8At : Nat := 0
  /-- Phase 8 has ended (R507). -/
  phase8Done : Bool := false
  /-- Early Vigil of this start is over: configuration requests are answered (R81). -/
  earlyDone : Bool := false
  /-- The heads whose Memory_Active is set (R507). -/
  memActive : BitVec 16 := 0
  /-- ALIVE is driven high (R512). -/
  alive : Bool := false
  /-- The QSPI outputs are driven (R499). -/
  qspi : Bool := true
  /-- The rebuild of the free maps runs (R506 step 5). -/
  rebuilding : Bool := false
  /-- Phase 9 has reached step 4 of R506, or has completed R505. -/
  phase9Done : Bool := false
  /-- The Vigil report (R498). -/
  reportPassed : Bool := false
  reportCode : BitVec 8 := 0
  reportBegan : BitVec 64 := 0
  reportEnded : BitVec 64 := 0
  report : List VigilRec := []
  /-- Saved channel settings are kept in the retention areas, by channel (R501, R504). -/
  saved : List Nat := []
  deriving DecidableEq, Repr

end Sys2Proof.Machine
end

