-- ==== Sys2Proof/Machine/RilState.lean ====
section
/-! DEFINITION. State of the policy cores, their events and their mailbox commands (chapters 10 and 11). -/
namespace Sys2Proof.Machine

/-- THREAD_STAT.STATE (R313). -/
inductive ThreadState where
  | free | running | deviceOp | wait | mwait | out
  deriving DecidableEq, Repr

/-- The privilege of code, by the region it runs in (R293, R295). -/
inductive Priv where
  | firmware | operator | tenant
  deriving DecidableEq, Repr

/-- One hardware thread of a policy core, numbered 4c + t (R288 to R291, R304). -/
structure Thread where
  state : ThreadState := .free
  priv : Priv := .firmware
  /-- The LD whose tenant image the invocation runs. -/
  ld : Nat := 0
  bank : Bool := false
  queue : Nat := 0
  /-- The region address of the next instruction. -/
  pc : BitVec 19 := 0
  /-- g1 to g31, numbered as they are; g0 is not held (R289). -/
  regs : Tab Word := []
  /-- The thread's 64 KiB of scratch, by address. -/
  scratch : Tab Byte := []
  /-- Whose code ran last on the thread: privilege and LD (R291). -/
  scratchOwner : Option (Priv × Nat) := none
  /-- Uptime at which the watchdog started (R309). -/
  watchFrom : Nat := 0
  /-- The watchdog expired while the thread waits for a device operation (R309). -/
  late : Bool := false
  /-- The bank it ran in was freed while the thread waits for a device operation (R370). -/
  cut : Bool := false
  /-- The slot KSEL selected in this invocation. -/
  ksel : Option Nat := none
  /-- The values QSET has staged: LD, parameter, value (R337). -/
  staged : List (Nat × Nat × Nat) := []
  /-- The tickets of the invocation, newest first (R306). -/
  tickets : List (BitVec 16) := []
  waitSet : List Nat := []
  /-- Uptime at which the WAIT times out. -/
  waitUntil : Option Nat := none
  /-- Order of the WAIT among all threads (R303 rule 1). -/
  waitOrder : Nat := 0
  /-- The ticket MWAIT holds the thread for, and the register its code goes to. -/
  mwaitTicket : BitVec 16 := 0
  mwaitReg : Nat := 0
  /-- The tag of the mailbox command the invocation holds (R305). -/
  tag : Option (BitVec 64) := none
  /-- After YIELD: the threads of the core that issue first (R322). -/
  yieldFor : List Nat := []
  /-- The register that the result of a device operation goes to. -/
  resultReg : Nat := 0
  /-- The comet of the instruction in progress (R547). -/
  comet : Option Comet := none
  deriving DecidableEq, Repr

/-- One entry of an event queue (R297). -/
structure QEntry where
  g1 : Word := 0
  g2 : Word := 0
  g3 : Word := 0
  g4 : Word := 0
  timebase : Word := 0
  /-- The entry is the queue's own timer event (R302). -/
  timer : Bool := false
  deriving DecidableEq, Repr

/-- A binding of a handler to a queue (R302). -/
structure Binding where
  entry : BitVec 19
  concurrency : Nat
  owner : Priv
  ld : Nat
  /-- The timer's period in ns, and the uptime of its next expiry. -/
  period : Option Nat := none
  nextDue : Nat := 0
  deriving DecidableEq, Repr

/-- One event queue (R297 to R302, R313). -/
structure Queue where
  entries : List QEntry := []
  bound : Option Binding := none
  /-- The LD whose tenant image owns the queue (R298). -/
  tenant : Option Nat := none
  ovf : Bool := false
  lost : BitVec 16 := 0
  deriving DecidableEq, Repr

/-- One bank of instruction memory (R293). -/
structure Bank where
  /-- The words placed, by word index; an unplaced word holds opcode 0x3F. -/
  words : Tab (BitVec 32) := []
  /-- The LD whose image owns each 1 KiB unit of tenant text. -/
  units : Tab (Option Nat) := []
  deriving DecidableEq, Repr

/-- A mailbox command handed to the resident firmware program (R305). -/
structure MboxCmd where
  tag : BitVec 64
  cci : Cci
  opcode : BitVec 16
  /-- The payload buffer, by offset. -/
  buffer : Tab Byte := []
  background : Bool := false
  deriving DecidableEq, Repr

/-- A ticket of a mover operation (R306). -/
structure Ticket where
  /-- The thread and the invocation that issued it, or none for the device's own operations. -/
  thread : Option Nat := none
  /-- The completion queue it names. -/
  queue : Option Nat := none
  dlpn : Nat := 0
  /-- The completion code, once the operation has completed. -/
  code : Option Nat := none
  deriving DecidableEq, Repr

/-- What the policy cores share (R288 to R313). -/
structure Ril where
  /-- The thread of each core that issued last (R288). -/
  lastIssued : Tab Nat := []
  bank0 : Bank := {}
  bank1 : Bank := {}
  /-- The active bank is bank 1. -/
  active : Bool := false
  /-- The shared window, by its data address (R290). -/
  window : Tab Byte := []
  mbox : List MboxCmd := []
  nextTag : BitVec 64 := 1
  tickets : Tab (Option Ticket) := []
  nextWait : Nat := 0
  /-- RIL_CTL. -/
  tenantThreads : BitVec 5 := 8
  trapLimit : BitVec 6 := 8
  /-- Trap counts by trap code, and the last trap (R101, R308). -/
  trapCounts : Tab (BitVec 16) := []
  lastTrap : BitVec 8 := 0
  lastTrapThread : BitVec 5 := 0
  lastTrapPc : BitVec 19 := 0
  /-- Uptimes of the traps of each tenant image (R310). -/
  tenantTraps : Tab (List Nat) := []
  /-- The hint page (DLPN) and hint queue of each LD's tenant image (R300). -/
  hints : Tab (Option (Nat × Nat)) := []
  deriving DecidableEq, Repr

end Sys2Proof.Machine
end

