-- ==== Sys2Proof/Machine/State.lean ====
section
/-! DEFINITION. The state of the device: every register, table, queue and pin the spec gives it, and the commands waiting. -/
namespace Sys2Proof.Machine

/-- Why a step stops with a fault. The spec gives every command of this block an effect, so no meaning raises one. -/
inductive Fault where
  /-- Raised by no meaning; it keeps the type inhabited. Safe: a step that never faults hides no behaviour. -/
  | unreachable
  deriving DecidableEq, Repr

/-- Why a step is refused. -/
inductive Refusal where
  /-- Raised by a dispatch arm whose command has no meaning yet. Safe: the step stops. -/
  | notModelled (mnemonic : String)
  deriving DecidableEq, Repr

/-- What the device sends out. -/
inductive Output where
  /-- A command completes on a command interface: its return code and its output payload. -/
  | command (cci : Cci) (code : Code) (payload : List Byte)
  /-- A completion that a handler's POST hands to the mailbox engine: its return code and its output (R305). -/
  | completion (cci : Cci) (code : BitVec 64) (payload : List Byte)
  /-- An MSI-X or MCTP event notification for a log of an LD. -/
  | notify (ld : Nat) (log : LogKind)
  /-- A guest reports to a home that it has lost storage of a page: a block of it, 0 to 3, or all of it, 4 (R274, R281). The spec names no
  operation that carries the report. -/
  | guestReport (home dlpn block : Nat)
  /-- The CDAT of an LD (R82): regions with their shareable flag, read and write latency in ns, read and write bandwidth in GB/s. -/
  | cdat (ld : Nat) (regions : List (Nat × Nat × Bool)) (readNs writeNs readGbs writeGbs : Nat)
  /-- The value of a host's register read. -/
  | register (ld : Nat) (value : Word)
  /-- The response to a read, with its poison indication and its DevLoad (R86, R379); or the completion of a write. -/
  | readData (source : Nat) (ld : Nat) (tag : BitVec 16) (data : Line) (poison : Bool) (devLoad : Nat)
  | writeDone (source : Nat) (ld : Nat) (tag : BitVec 16) (devLoad : Nat)
  /-- A back-invalidate snoop to a head: BISnpInv, or BISnpData (R84). -/
  | snoop (head line : Nat) (inv : Bool)
  /-- The response to a key message inside an SPDM session (R214). -/
  | spdm (cci : Cci) (body : List Byte)
  /-- The SPDM error UnexpectedRequest (R214). -/
  | spdmUnexpected (cci : Cci)
  /-- A numbered packet on a Ulilet link, as sent. -/
  | packet (port : Nat) (p : Sent)
  /-- An ack-only packet, a beacon and a link-control packet: ACK, CR_VC, CR_CUM and the payload's fields. -/
  | unnumbered (port type : Nat) (ack : BitVec 12) (crVc : Nat) (crCum : BitVec 12) (fields : List Nat)
  deriving DecidableEq, Repr

/-- The device. DESIGN CHOICE, log 31. -/
structure State where
  ident : Ident := {}
  time : Time := {}
  power : Power := {}
  start : Start := {}
  slots : Tab Slot := []
  slotMgr : SlotMgr := {}
  sensors : Tab Sensor := []
  faults : Faults := {}
  rec_ : Recorder := {}
  ctrs : Tab CtrBlock := []
  comets : Comets := {}
  alm : Almanac := {}
  regwin : RegWin := {}
  ports : Tab Port := []
  lds : Tab Ld := []
  ccis : Tab CciState := []
  chans : Tab Chan := []
  cap : Cap := {}
  mdata : Meta := {}
  /-- Storage in use on each channel. -/
  allocs : Tab Alloc := []
  /-- What waits for a place to store something, oldest first (R162). -/
  waiters : List Waiter := []
  /-- The lines of DRAM, by line address; a line not listed holds plain zeros under the clean tag. -/
  dram : Tab DLine := []
  quads : Tab Quad := []
  clusters : Tab Cluster := []
  sketch : Sketch := {}
  keys : Keys := {}
  path : Path := {}
  gather : Gather := {}
  qos : Qos := {}
  integ : Integ := {}
  ulis : Tab Uli := []
  const : Const := {}
  img : Img := {}
  ril : Ril := {}
  threads : Tab Thread := []
  queues : Tab Queue := []
  /-- What the device has sent, newest first: the model's own record of its outputs. -/
  out : List Output := []
  /-- How many values the spec leaves open have been taken: the model's own counter. -/
  free : Nat := 0
  /-- How many values the enclave's random generator has given: the model's own counter. -/
  draws : Nat := 0
  /-- The commands waiting, first in, first out. -/
  pending : List Instr := []
  deriving DecidableEq, Repr

/-- A seed of an LFSR: a draw, and not zero (R547). -/
def lfsrSeed (n : Nat) : BitVec 32 := let x := (Config.drawn n).setWidth 32; if x = 0 then 1 else x

/-- The device as a cold reset leaves it, at the start of phase 2, its strap, fuse, flash and pin values aside; `n` draws have been taken
before: the epoch, the device key and salt, and the seeds of the LFSRs are drawn anew (R208, R430, R494, R547). -/
def State.fresh (n : Nat) : State :=
  { keys := { deviceKey := some (n + 1), deviceSalt := some (n + 2) }
    const := { epoch := Config.drawn n }
    comets := { quads := (List.range 4).map fun q => (q, { lfsr := lfsrSeed (n + 3 + q) })
                coreLfsr := (List.range 8).map fun c => (c, lfsrSeed (n + 7 + c)) }
    draws := n + 15 }

/-- The machine right after reset: PWR_OK has asserted, with ROLE high, DEV_ID 0, an empty flash, no DIMM and no cable, and a cold start
is at phase 2 (R494). -/
def State.reset : State := State.fresh 0

end Sys2Proof.Machine
end

