-- ==== Sys2Proof/Machine/Ops.lean ====
section
/-! DEFINITION. The named operations that the meanings share: tables, accessors, event queues, event records, tallies,
fault sources, resets and power wakes. -/
namespace Sys2Proof.Machine

/-! ### Tables -/

/-- The value a table gives a key: its first entry's, or the default. -/
def Tab.get {α : Type} (d : α) : Tab α → Nat → α
  | [], _ => d
  | (j, v) :: t, k => if j = k then v else Tab.get d t k

/-- A table without the entries of a key. -/
def Tab.erase {α : Type} (t : Tab α) (k : Nat) : Tab α := t.filter fun e => e.1 != k

/-- Insert an entry before the first larger key. -/
def Tab.insert {α : Type} (k : Nat) (v : α) : Tab α → Tab α
  | [] => [(k, v)]
  | (j, w) :: t => if k < j then (k, v) :: (j, w) :: t else (j, w) :: Tab.insert k v t

/-- Give a key a value; writing the default removes the entry, so equal tables are equal data. -/
def Tab.set {α : Type} [DecidableEq α] (d : α) (t : Tab α) (k : Nat) (v : α) : Tab α :=
  if v = d then Tab.erase t k else Tab.insert k v (Tab.erase t k)

/-- The canonical form of a table: keys strictly rising, no entry at the default. -/
def Tab.wf {α : Type} [DecidableEq α] (d : α) : Tab α → Bool
  | [] => true
  | [(_, v)] => decide (v ≠ d)
  | (j, v) :: (k, w) :: t => decide (v ≠ d) && decide (j < k) && Tab.wf d ((k, w) :: t)

/-- The canonical form of an addressed RAM (scratch, shared window, payload buffer): an unlisted byte reads zero. -/
def Memory.wf (m : Tab Byte) : Bool := Tab.wf 0 m

/-- Read one byte of an addressed RAM. -/
def Memory.read (m : Tab Byte) (a : Nat) : Byte := Tab.get 0 m a

/-- Write one byte of an addressed RAM. -/
def Memory.write (m : Tab Byte) (a : Nat) (b : Byte) : Tab Byte := Tab.set 0 m a b

/-- Read `n` bytes, the lowest address in the low byte (R10). -/
def Memory.readLe (m : Tab Byte) (a : Nat) : Nat → Nat
  | 0 => 0
  | n + 1 => (Memory.read m a).toNat + 256 * Memory.readLe m (a + 1) n

/-- Write `n` bytes of a value, the low byte at the lowest address (R10). -/
def Memory.writeLe (m : Tab Byte) (a : Nat) : Nat → Nat → Tab Byte
  | 0, _ => m
  | n + 1, v => Memory.writeLe (Memory.write m a (BitVec.ofNat 8 v)) (a + 1) n (v / 256)

/-! ### Numbers -/

/-- Add, stopping at the largest value. -/
def satAdd {w : Nat} (a : BitVec w) (n : Nat) : BitVec w :=
  if a.toNat + n < 2 ^ w then BitVec.ofNat w (a.toNat + n) else BitVec.allOnes w

/-- The number of bits of a value up to its highest one, by fuel. -/
def bitlenFuel : Nat → Nat → Nat
  | 0, _ => 0
  | f + 1, v => if v = 0 then 0 else 1 + bitlenFuel f (v / 2)

/-- bitlen (R323): 0 for 0, else one more than the place of the highest one. -/
def bitlen (v : Nat) : Nat := bitlenFuel 64 v

/-- Nanoseconds in a microsecond, a millisecond and a second. -/
def usNs : Nat := 1000
def msNs : Nat := 1000000
def secNs : Nat := 1000000000

/-- The low `n` bytes of a value, little-endian (R10). -/
def leBytes : Nat → Nat → List Byte
  | 0, _ => []
  | n + 1, v => BitVec.ofNat 8 v :: leBytes n (v / 256)

/-- The number of ones of a value. -/
def onesIn {w : Nat} (x : BitVec w) : Nat := ((List.range w).filter fun i => x.getLsbD i).length

/-- A flag as a number. -/
def flag (b : Bool) : Nat := if b then 1 else 0

/-- Insert a number into an ascending list without repeats. -/
def insertNat (n : Nat) : List Nat → List Nat
  | [] => [n]
  | m :: t => if n < m then n :: m :: t else if n = m then m :: t else m :: insertNat n t

/-- The first element that passes a test is taken out. -/
def removeFirst {α : Type} (p : α → Bool) : List α → List α
  | [] => []
  | x :: t => if p x then t else x :: removeFirst p t

/-- Apply an operation for each element in turn. DESIGN CHOICE, log 25. -/
def forEach {α : Type} (l : List α) (f : α → State → State) (s : State) : State := l.foldl (fun s x => f x s) s

/-! ### Parts of the state -/

def State.slot (s : State) (n : Nat) : Slot := Tab.get {} s.slots n
def State.modSlot (s : State) (n : Nat) (f : Slot → Slot) : State :=
  { s with slots := Tab.set {} s.slots n (f (s.slot n)) }
def State.sensor (s : State) (q : Nat) : Sensor := Tab.get {} s.sensors q
def State.modSensor (s : State) (q : Nat) (f : Sensor → Sensor) : State :=
  { s with sensors := Tab.set {} s.sensors q (f (s.sensor q)) }
def State.port (s : State) (p : Nat) : Port := Tab.get {} s.ports p
def State.modPort (s : State) (p : Nat) (f : Port → Port) : State :=
  { s with ports := Tab.set {} s.ports p (f (s.port p)) }
def State.ld (s : State) (i : Nat) : Ld := Tab.get {} s.lds i
def State.modLd (s : State) (i : Nat) (f : Ld → Ld) : State := { s with lds := Tab.set {} s.lds i (f (s.ld i)) }
/-- A command interface's number: its LD index, or 256 for the MCTP CCI. -/
def cciIndex : Cci → Nat
  | .ld i => i.val
  | .mctp => 256
def State.cci (s : State) (i : Nat) : CciState := Tab.get {} s.ccis i
def State.modCci (s : State) (i : Nat) (f : CciState → CciState) : State :=
  { s with ccis := Tab.set {} s.ccis i (f (s.cci i)) }
def State.chan (s : State) (c : Nat) : Chan := Tab.get {} s.chans c
def State.modChan (s : State) (c : Nat) (f : Chan → Chan) : State :=
  { s with chans := Tab.set {} s.chans c (f (s.chan c)) }
def State.thread (s : State) (t : Nat) : Thread := Tab.get {} s.threads t
def State.modThread (s : State) (t : Nat) (f : Thread → Thread) : State :=
  { s with threads := Tab.set {} s.threads t (f (s.thread t)) }
def State.queue (s : State) (q : Nat) : Queue := Tab.get {} s.queues q
def State.modQueue (s : State) (q : Nat) (f : Queue → Queue) : State :=
  { s with queues := Tab.set {} s.queues q (f (s.queue q)) }
def State.ctr (s : State) (b : Nat) : CtrBlock := Tab.get {} s.ctrs b
def State.modCtr (s : State) (b : Nat) (f : CtrBlock → CtrBlock) : State :=
  { s with ctrs := Tab.set {} s.ctrs b (f (s.ctr b)) }
def State.cometQuad (s : State) (q : Nat) : CometQuad := Tab.get {} s.comets.quads q
def State.modCometQuad (s : State) (q : Nat) (f : CometQuad → CometQuad) : State :=
  { s with comets := { s.comets with quads := Tab.set {} s.comets.quads q (f (s.cometQuad q)) } }

/-- The reset value of a power domain: only policy and engine domains have idle times (R491). -/
def domReset (i : Nat) : Dom :=
  if i = 3 then { idleP1 := 0xA }
  else if 47 ≤ i ∧ i < 55 then { idleP1 := 0xA, idleP2 := 0x3E8 } else {}
def State.dom (s : State) (i : Nat) : Dom := Tab.get (domReset i) s.power.doms i
def State.modDom (s : State) (i : Nat) (f : Dom → Dom) : State :=
  { s with power := { s.power with doms := Tab.set (domReset i) s.power.doms i (f (s.dom i)) } }

def State.modTime (s : State) (f : Time → Time) : State := { s with time := f s.time }
def State.modPower (s : State) (f : Power → Power) : State := { s with power := f s.power }
def State.modStart (s : State) (f : Start → Start) : State := { s with start := f s.start }
def State.modFaults (s : State) (f : Faults → Faults) : State := { s with faults := f s.faults }
def State.modRec (s : State) (f : Recorder → Recorder) : State := { s with rec_ := f s.rec_ }
def State.modAlm (s : State) (f : Almanac → Almanac) : State := { s with alm := f s.alm }
def State.modRil (s : State) (f : Ril → Ril) : State := { s with ril := f s.ril }
def State.modRegwin (s : State) (f : RegWin → RegWin) : State := { s with regwin := f s.regwin }

/-- The uptime in ns (R483), from which every interval is measured (R484). -/
def State.now (s : State) : Nat := s.time.now

/-- Send something out. -/
def State.emit (s : State) (o : Output) : State := { s with out := o :: s.out }

/-- Take a value the spec leaves open: the next one of the free sequence. -/
def State.takeFree (s : State) : State := { s with free := s.free + 1 }

/-- The device runs: powered, not halted, and not in a reset entry. DEDUCED, log 40. -/
def State.running (s : State) : Bool :=
  s.start.powered && !s.faults.halted && decide (s.start.entry = .none)

/-- The quadrant of a port, of a channel and of an engine cluster (R19). -/
def portQuad (p : Nat) : Nat := p / 4
def chanQuad (c : Nat) : Nat := c / 6

/-! ### Heads and logical devices (R66, R67, R72 to R74) -/

/-- The leader of the link a port belongs to, under the merges in force. -/
def State.leaderOf (s : State) (p : Nat) : Nat :=
  if (s.port (p / 4 * 4)).trained.merge = 2 then p / 4 * 4
  else if (s.port (p / 2 * 2)).trained.merge = 1 then p / 2 * 2
  else p

/-- A port is a head when it leads its link and the link is enabled (R72). -/
def State.isHead (s : State) (p : Nat) : Bool := decide (s.leaderOf p = p) && (s.port p).trained.enable

/-- The number of ports a head is made of. -/
def State.headPorts (s : State) (p : Nat) : Nat :=
  ((List.range 16).filter fun q => s.leaderOf q = p).length

/-- The heads, ascending. -/
def State.heads (s : State) : List Nat := (List.range 16).filter s.isHead

/-- The LD indices of a head (R74). -/
def State.headLds (s : State) (h : Nat) : List Nat :=
  (List.range (s.port h).trained.ldCount.toNat).map fun i => 16 * h + i

/-- Every LD index that is assigned. -/
def State.allLds (s : State) : List Nat := s.heads.flatMap s.headLds

/-- An LD index is assigned (R74). -/
def State.ldExists (s : State) (i : Nat) : Bool :=
  s.isHead (i / 16) && decide (i % 16 < (s.port (i / 16)).trained.ldCount.toNat)

/-! ### Counters (R542 to R544) -/

/-- One counter adds `n`, wrapping and setting its overflow bit. -/
def ctrAdd (k n : Nat) (b : CtrBlock) : CtrBlock :=
  let c := (Tab.get 0 b.pmc k).toNat + n
  { b with
    pmc := Tab.set 0 b.pmc k (BitVec.ofNat 48 c)
    ovf := if c < 2 ^ 48 then b.ovf else b.ovf ||| BitVec.ofNat 8 (2 ^ k) }

/-- Counter k of a block counts this event: selected, enabled, and of the LD it filters on (R543). DESIGN CHOICE, log 29. -/
def ctrCounts (b : CtrBlock) (k code : Nat) (ld : Option Nat) : Bool :=
  let sel := Tab.get 0 b.sel k
  sel.getLsbD 12 && decide ((sel.extractLsb' 0 12).toNat = code) &&
    (!sel.getLsbD 13 || decide (ld = some (sel.extractLsb' 14 8).toNat))

/-- `n` occurrences of an event in one block. -/
def countEvents (block code : Nat) (ld : Option Nat) (n : Nat) (s : State) : State :=
  s.modCtr block fun b => (List.range 8).foldl (fun b k => if ctrCounts b k code ld then ctrAdd k n b else b) b

/-- One occurrence of an event in one block. -/
def countEvent (block code : Nat) (ld : Option Nat) (s : State) : State := countEvents block code ld 1 s

/-! ### Event queues (R297, R301) -/

/-- How many entries a queue holds at most (R297). -/
def queueCap (q : Nat) : Nat := if q = 0 then 512 else 64

/-- The device posts an event; a full queue loses it and counts it (R301). -/
def postDevice (q : Nat) (g1 g2 g3 g4 : Word) (s : State) : State :=
  if (s.queue q).entries.length < queueCap q then
    countEvent 63 0x603 none (s.modQueue q fun u =>
      { u with entries := u.entries ++ [{ g1, g2, g3, g4, timebase := s.time.tb }] })
  else s.modQueue q fun u => { u with ovf := true, lost := satAdd u.lost 1 }

/-! ### Event records (R88, R89) -/

/-- Put a record into a log; a full log counts an overflow. -/
def EventLog.place (l : EventLog) (tb : BitVec 64) (b : RecBody) : EventLog :=
  if l.records.length < 64 then
    { l with records := l.records ++ [{ handle := l.nextHandle, timestamp := tb, body := b }], nextHandle := l.nextHandle + 1 }
  else { l with overflow := satAdd l.overflow 1, lastOverflow := tb,
                firstOverflow := if l.overflow = 0 then tb else l.firstOverflow }

def Ld.log (l : Ld) : LogKind → EventLog
  | .info => l.info
  | .warning => l.warning
  | .failure => l.failure
  | .fatal => l.fatal
  | .dynamicCapacity => l.dynCap

def Ld.setLog (l : Ld) (k : LogKind) (e : EventLog) : Ld :=
  match k with
  | .info => { l with info := e }
  | .warning => { l with warning := e }
  | .failure => { l with failure := e }
  | .fatal => { l with fatal := e }
  | .dynamicCapacity => { l with dynCap := e }

/-- The byte of the event interrupt policy that rules a log. -/
def LogKind.byte : LogKind → Nat
  | .info => 0
  | .warning => 1
  | .failure => 2
  | .fatal => 3
  | .dynamicCapacity => 4

/-- An interrupt is signalled for the log as the LD's event interrupt settings direct (R88, R96). -/
def notifyLog (i : Nat) (k : LogKind) (s : State) : State :=
  if (s.ld i).intPolicy.extractLsb' (8 * k.byte) 2 = 1#2 then s.emit (.notify i k) else s

/-- Place one record in one log of one LD, stamped with the timebase and the LD's offset (R96). -/
def placeRecord (i : Nat) (k : LogKind) (b : RecBody) (s : State) : State :=
  notifyLog i k (s.modLd i fun l => l.setLog k ((l.log k).place (s.time.tb + l.timeOffset) b))

/-- A record about the device as a whole goes to every LD of every head (R88). -/
def placeAll (k : LogKind) (b : RecBody) (s : State) : State := forEach s.allLds (fun i => placeRecord i k b) s

/-- A record about a head goes to the head's LDs. -/
def placeHead (h : Nat) (k : LogKind) (b : RecBody) (s : State) : State := forEach (s.headLds h) (fun i => placeRecord i k b) s

/-! ### Fault sources (R515 to R521) -/

/-- What the tables of R519 to R521 give a source. -/
structure SourceInfo where
  cls : Nat
  cond : Bool
  kind : Nat
  deriving DecidableEq, Repr

/-- Register 0 (R519). -/
def deviceSource (j : Nat) : Option SourceInfo :=
  if j ∈ [0, 6, 8, 10, 11, 12] then some ⟨1, false, 6⟩
  else if j ∈ [1, 2, 3, 4, 5] then some ⟨3, false, 6⟩
  else if j ∈ [7, 13] then some ⟨0, false, 6⟩
  else if j = 9 then some ⟨2, false, 6⟩
  else if j ∈ [16, 17, 18, 19, 20] then some ⟨4, false, 6⟩
  else if j = 24 then some ⟨1, true, 6⟩
  else none

/-- Register 1: the capacity sources (R519). -/
def capacitySource (j : Nat) : Option SourceInfo :=
  if j = 0 then some ⟨1, true, 6⟩
  else if j = 1 then some ⟨2, false, 6⟩
  else if j = 2 then some ⟨2, true, 6⟩
  else if j = 3 then some ⟨2, false, 6⟩
  else if j = 4 then some ⟨1, true, 6⟩
  else if j = 5 then some ⟨0, false, 6⟩
  else none

/-- Registers 2 to 7: channel source k (R520). -/
def channelSource (k : Nat) : Option SourceInfo :=
  if k ∈ [0, 2, 6, 8] then some ⟨1, false, 0⟩
  else if k ∈ [1, 5, 13] then some ⟨2, false, 0⟩
  else if k ∈ [3, 4] then some ⟨0, false, 0⟩
  else if k ∈ [7, 9, 10] then some ⟨2, true, 0⟩
  else if k ∈ [11, 12] then some ⟨1, true, 0⟩
  else none

/-- Registers 8 and 9: port source k (R520). -/
def portSource (k : Nat) : Option SourceInfo :=
  if k = 0 then some ⟨1, false, 1⟩
  else if k ∈ [1, 2, 3] then some ⟨2, true, 1⟩
  else if k ∈ [4, 5] then some ⟨0, false, 1⟩
  else if k = 6 then some ⟨2, false, 1⟩
  else none

/-- Register 10: the Ulilet ports and the constellation (R521). -/
def linkSource (j : Nat) : Option SourceInfo :=
  if j < 48 then
    let k := j % 16
    if k ∈ [0, 1] then some ⟨0, false, 2⟩
    else if k ∈ [2, 9] then some ⟨1, false, 2⟩
    else if k ∈ [3, 4, 7] then some ⟨2, false, 2⟩
    else if k ∈ [5, 6, 8] then some ⟨2, true, 2⟩
    else none
  else if j ∈ [48, 54] then some ⟨2, false, 6⟩
  else if j ∈ [49, 53] then some ⟨1, true, 6⟩
  else if j ∈ [50, 51, 52] then some ⟨2, true, 6⟩
  else none

/-- Register 12: policy cores and programs (R521). -/
def policySource (j : Nat) : Option SourceInfo :=
  if j < 8 then some ⟨2, true, 4⟩
  else if j ∈ [8, 10, 11, 14] then some ⟨0, false, 6⟩
  else if j = 9 then some ⟨1, false, 6⟩
  else if j = 12 then some ⟨2, false, 6⟩
  else if j = 13 then some ⟨2, true, 6⟩
  else none

/-- The class, type and Almanac kind of source n, or none where the bit is unused (R519 to R521). DEDUCED, log 41. -/
def sourceInfo (n : Nat) : Option SourceInfo :=
  let i := n / 64
  let j := n % 64
  if i = 0 then deviceSource j
  else if i = 1 then capacitySource j
  else if i < 8 then channelSource (j % 16)
  else if i < 10 then portSource (j % 8)
  else if i = 10 then linkSource j
  else if i = 11 then (if j % 8 = 0 then some ⟨2, false, 3⟩ else if j % 8 = 1 then some ⟨2, true, 3⟩ else none)
  else if i = 12 then policySource j
  else if i = 13 then (if j < 48 then some ⟨2, false, 6⟩ else none)
  else if i = 14 then (if j < 48 then some ⟨1, false, 6⟩ else if j = 48 then some ⟨0, false, 6⟩ else none)
  else if i = 15 then
    (if j < 16 then (if j % 4 = 1 then some ⟨2, true, 5⟩ else if j % 4 = 3 then none else some ⟨1, true, 5⟩) else none)
  else none

/-- The numbers of the per-instance sources (R519 to R521). -/
def srcChannel (c k : Nat) : Nat := (2 + c / 4) * 64 + 16 * (c % 4) + k
def srcPort (p k : Nat) : Nat := (8 + p / 8) * 64 + 8 * (p % 8) + k
def srcCluster (e k : Nat) : Nat := 11 * 64 + 8 * e + k
def srcUlilet (u k : Nat) : Nat := 640 + 16 * u + k
def srcSlotFault (n : Nat) : Nat := 13 * 64 + n
def srcSlotBackoff (n : Nat) : Nat := 14 * 64 + n
def srcSlotRefused : Nat := 14 * 64 + 48
def srcQuad (q k : Nat) : Nat := 960 + 4 * q + k

/-- FSTICKY[i] as it reads. -/
def State.fsticky (s : State) (i : Nat) : BitVec 64 := Tab.get 0 s.faults.sticky i

/-- The sticky bit of source n is set. -/
def State.stickySet (s : State) (n : Nat) : Bool := (s.fsticky (n / 64)).getLsbD (n % 64)

/-- The condition of source n holds now. -/
def State.holds (s : State) (n : Nat) : Bool := s.faults.live.contains n

/-! ### Links (R413, R432, R433, R446) -/

def State.uli (s : State) (u : Nat) : Uli := Tab.get {} s.ulis u
def State.modUli (s : State) (u : Nat) (f : Uli → Uli) : State := { s with ulis := Tab.set {} s.ulis u (f (s.uli u)) }
def State.modConst (s : State) (f : Const → Const) : State := { s with const := f s.const }
def State.member (s : State) (i : Nat) : Member := Tab.get {} s.const.members i
def State.modMember (s : State) (i : Nat) (f : Member → Member) : State :=
  s.modConst fun c => { c with members := Tab.set {} c.members i (f (s.member i)) }

/-- The port of a direct link to a member that carries transactions (R445). -/
def State.directPort (s : State) (d : Nat) : Option Nat :=
  (List.range 3).find? fun u =>
    decide ((s.uli u).lstate = .active) && decide ((s.uli u).peerId.toNat = d) && !(s.uli u).foreign

/-- The port by which a member is reached, directly or by its relay (R446). -/
def State.route (s : State) (d : Nat) : Option Nat :=
  match s.directPort d with
  | some u => some u
  | none => (s.member d).relay.bind s.directPort

/-- This device's ID. -/
def State.self (s : State) : Nat := s.ident.devId.toNat

/-- The VC of a request by its operation, for a link of V virtual channels (R433). -/
def opVc (op v : Nat) : Nat :=
  if v < 3 then 1
  else if 3 ≤ op ∧ op ≤ 8 then 2
  else if v = 3 then 1
  else if op ≤ 2 then 1 else 3

/-- Payload units of a request (R433). -/
def opLen (t : Txn) : Nat :=
  if t.op = 2 then (if t.words.isEmpty then 2 else 3)
  else if t.op = 5 then 2
  else if t.op = 6 ∨ t.op = 15 then 8
  else if t.op ∈ [1, 4, 8] then 0
  else if t.op = 14 then max 1 ((t.words.length + 3) / 4)
  else 1

/-- Queue a packet on the link to a member; with no route nothing is sent. -/
def sendPkt (dst : Nat) (p : OutPkt) (s : State) : State :=
  match s.route dst with
  | some u => s.modUli u fun l => { l with tx := l.tx ++ [{ p with dst, src := s.self }] }
  | none => s

/-- Send a request without waiting for an answer. -/
def sendRequest (dst : Nat) (t : Txn) (colour cls : Nat) (s : State) : State :=
  let v := ((s.route dst).map fun u => (s.uli u).vcsActive.toNat).getD 4
  sendPkt dst { type := 1, vc := opVc t.op v, len := opLen t, colour, cls, txn := t } s

/-- Send a request under a fresh tag and remember it (R432). -/
def openTxn (dst : Nat) (t : Txn) (colour cls req dlpn : Nat) (words : List Nat) (s : State) : State :=
  let tag := s.const.nextTag
  let s := s.modConst fun c =>
    { c with opened := c.opened ++ [{ tag, op := t.op, target := dst, req, dlpn, unit := t.unit, words, at_ := s.now
                                      txn := { t with tag }, colour, cls }]
             nextTag := tag + 1 }
  sendRequest dst { t with tag } colour cls s

/-- Send a response: the operation and the tag come back (R432). -/
def sendResponse (dst op : Nat) (tag : BitVec 16) (status : Nat) (lines : List Line) (words : List Nat) (s : State) : State :=
  sendPkt dst { type := 2, vc := 0, len := if !lines.isEmpty then 2 else if words.isEmpty then 0 else 1
                txn := { op, tag, status, lines, words } } s

/-- Ask a guest to free far storage; while the guest is lost, that is owed at its reconcile (R219, R440). -/
def sendFarFree (device index dlpn : Nat) (s : State) : State :=
  if (s.route device).isSome then openTxn device { op := 8, index } 0 0 0 dlpn [] s
  else s.modMember device fun m => { m with owedFree := m.owedFree ++ [index] }


/-! ### Tallies (R530 to R536) -/

/-- The severity of a tally source (R531). -/
def tallySeverity (src : Nat) : Nat :=
  if src < 0x20 then 0
  else if src < 0x40 then 1
  else if src = 0x101 then 2
  else if src = 0x102 then 3
  else if 0x1000 ≤ src then ((sourceInfo (src - 0x1000)).map (·.cls)).getD 0
  else 0

/-- SHIFT of a tally source (R531). -/
def tallyShift (src : Nat) : Nat :=
  if src = 0x101 then 10
  else if 0x200 ≤ src ∧ src ≤ 0x20F then 6
  else if 0x1000 ≤ src then 10
  else 0

/-- The threshold field of REC_THR for a severity (R532, R551). -/
def Recorder.threshold (r : Recorder) (sev : Nat) : Nat :=
  (if sev = 0 then r.thr0 else if sev = 1 then r.thr1 else if sev = 2 then r.thr2
   else if sev = 3 then r.thr3 else r.thr4).toNat

/-- The bucket a sample goes into: min(15, bitlen(v >> SHIFT)) (R530). -/
def bucketOf (shift v : Nat) : Nat := min 15 (bitlen (v / 2 ^ shift))

/-- A fresh tally that opens now. -/
def openTally (src : Nat) (s : State) : Tally :=
  { upOpen := BitVec.ofNat 64 s.now, source := BitVec.ofNat 16 src, severity := BitVec.ofNat 8 (tallySeverity src)
    shift := BitVec.ofNat 8 (tallyShift src), smallest := BitVec.allOnes 64 }

/-- A tally with one more sample. -/
def Tally.add (t : Tally) (v : BitVec 64) (a1 a2 : BitVec 64) : Tally :=
  { t with
    count := t.count + 1
    smallest := if v < t.smallest then v else t.smallest
    largest := if t.largest < v then v else t.largest
    sum := satAdd t.sum v.toNat
    buckets := t.buckets.modify (bucketOf t.shift.toNat v.toNat) (· + 1)
    arg1 := a1, arg2 := a2 }

/-- How many tallies the store holds (R535). -/
def Recorder.capacity (r : Recorder) : Nat := if r.large then 4096 * r.ring.toNat else 16384

/-- Store a closed tally under the configuration in force (R535). DESIGN CHOICE, log 43. -/
def Recorder.put (r : Recorder) (t : Tally) : Recorder :=
  if r.store.length < r.capacity then { r with store := r.store ++ [t] }
  else if r.large then { r with store := r.store.drop 1 ++ [t] }
  else if r.store.any fun u => decide (u.severity ≤ t.severity) then
    { r with store := removeFirst (fun u => decide (u.severity ≤ t.severity)) r.store ++ [t] }
  else { r with discarded := satAdd r.discarded 1 }

/-- The fields of a tally, as a TALLY request carries them. DEDUCED, log 98. -/
def Tally.words (t : Tally) : List Nat :=
  [t.seq.toNat, t.tbClose.toNat, t.upClose.toNat, t.upOpen.toNat, t.source.toNat, t.severity.toNat, t.reason.toNat, t.device.toNat,
   t.shift.toNat, t.count.toNat, t.smallest.toNat, t.largest.toNat, t.sum.toNat, t.arg1.toNat, t.arg2.toNat] ++ t.buckets.map (·.toNat)

/-- A companion sends a copy of a tally of severity 2 or more to the polestar, or counts it while it reaches no polestar (R541). -/
def copyTally (t : Tally) (s : State) : State :=
  if s.ident.role || decide (t.severity < 2) then s
  else if (s.member 0).state = .joined ∧ (s.route 0).isSome then openTxn 0 { op := 15, words := t.words } 0 0 0 0 [] s
  else s.modRec fun r => { r with unsent := satAdd r.unsent 1 }

/-- Close a tally: its sequence number, its times and its reason, then its place in the store (R532, R535, R536). -/
def closeTally (src : Nat) (reason : Nat) (t : Tally) (s : State) : State :=
  let t := { t with seq := s.rec_.seq, tbClose := s.time.tb, upClose := BitVec.ofNat 64 s.now
                    reason := BitVec.ofNat 8 reason, device := s.ident.devId.setWidth 8 }
  copyTally t (s.modRec fun r =>
    ({ r with seq := r.seq + 1, opened := Tab.set none r.opened src none } : Recorder).put t)

/-- One sample of a tally source; the tally closes at its threshold or at once (R531, R532). -/
def sampleTally (src : Nat) (v a1 a2 : BitVec 64) (s : State) : State :=
  let t := ((Tab.get none s.rec_.opened src).getD (openTally src s)).add v a1 a2
  let th := s.rec_.threshold (tallySeverity src)
  if src = 0x101 ∨ src = 0x102 ∨ (th < 16 ∧ 2 ^ th ≤ t.count.toNat) then closeTally src 1 t s
  else s.modRec fun r => { r with opened := Tab.set none r.opened src (some t) }

/-- The sample of a fault source: ns since its previous sample, 0 for the first (R531). -/
def sampleFault (n : Nat) (s : State) : State :=
  let v := ((Tab.get none s.rec_.lastSample n).map fun u => s.now - u).getD 0
  (sampleTally (0x1000 + n) (BitVec.ofNat 64 v) 0 0 s).modRec fun r =>
    { r with lastSample := Tab.set none r.lastSample n (some s.now) }

/-- Close every open tally in ascending order of source (R532, R550). -/
def closeAll (reason : Nat) (s : State) : State :=
  s.rec_.opened.foldl (fun s e => match e.2 with | some t => closeTally e.1 reason t s | none => s) s

/-! ### Comets (R548, R549) -/

/-- A stage is stamped at its first pass (R548). -/
def Comet.stamp (c : Comet) (stage now : Nat) : Comet :=
  if c.stamps.any fun x => x.1 = stage then c
  else { c with stamps := c.stamps ++ [(stage, BitVec.ofNat 32 (now - c.uptime.toNat))] }

/-- A comet's sample is written to its quadrant's buffer; a full buffer loses its oldest (R549). -/
def writeComet (q : Nat) (c : Comet) (s : State) : State :=
  let c := { c with quadrant := BitVec.ofNat 8 q, seq := s.comets.seq + 1 }
  let s := { s with comets := { s.comets with seq := s.comets.seq + 1 } }
  s.modCometQuad q fun b =>
    let b := { b with inflight := b.inflight - 1 }
    if b.buffer.length < 64 then { b with buffer := b.buffer ++ [c] }
    else { b with buffer := b.buffer.drop 1 ++ [c], overwritten := satAdd b.overwritten 1, lostSinceGet := satAdd b.lostSinceGet 1 }

/-! ### Power wakes (R470 to R473) -/

/-- An entry to P3 past AP3, which only the return of the domain's part to service turns round (R466, R474). -/
def Dom.falling (d : Dom) : Bool :=
  match d.trans with
  | .entering .p3 k => decide (3 ≤ k)
  | _ => false

/-- A domain at rest in P3, whose registers read zero and ignore writes (R466). -/
def State.domLost (s : State) (i : Nat) : Bool := decide ((s.dom i).state = .p3) && decide ((s.dom i).trans = .none)

/-- Ask a domain to wake: an entry in progress notes it, a domain at rest begins its exit; one in P3, or about to be, does not wake
(R466, R472). DEDUCED, log 52. -/
def wakeDomain (i : Nat) (s : State) : State :=
  s.modDom i fun d =>
    match d.trans with
    | .entering .. => { d with wake := d.wake || !d.falling, lastWork := s.now }
    | .exiting => { d with lastWork := s.now }
    | .none =>
      if d.state = .p0 ∨ d.state = .p3 then { d with lastWork := s.now }
      else { d with trans := .exiting, wakes := satAdd d.wakes 1, lastWork := s.now }

/-- The first step of an entry from the state a domain holds: a domain in P1 has its clocks stopped already, one in P2 is saved and isolated (R471). -/
def firstStep : PState → Nat
  | .p0 => 0
  | .p1 => 2
  | .p2 | .p3 => 4

/-- A request for a lower state that R465 allows (R472). -/
def startRequest (i : Nat) (dest : PState) (s : State) : State :=
  s.modDom i fun d =>
    match d.trans with
    | .none =>
      if d.state = dest ∨ d.state = .p3 then d
      else if d.state = .p2 ∧ dest = .p1 then { d with trans := .exiting, pending := some dest, wakes := satAdd d.wakes 1 }
      else { d with trans := .entering dest (firstStep d.state) }
    | .entering .. =>
      if dest = d.state then { d with wake := d.wake || !d.falling } else { d with pending := some dest }
    | .exiting => { d with pending := some dest }

/-- A part has left service, and the device asks for P3 of its domain: at once, or behind an entry in progress (R466, R470, R474).
DEDUCED, log 104. -/
def partLeaves (i : Nat) (s : State) : State := startRequest i .p3 s

/-- A domain does its work only in P0. -/
def State.domAwake (s : State) (i : Nat) : Bool := decide ((s.dom i).state = .p0)

end Sys2Proof.Machine
end

