-- ==== Sys2Proof/Machine/MemOps.lean ====
section
/-! DEFINITION. Operations on storage: places and addresses, allocation, DRAM lines, descriptors and capacity sums
(chapters 04, 05, 06 and 08). -/
namespace Sys2Proof.Machine

/-! ### Parts of the state -/

def State.alloc (s : State) (c : Nat) : Alloc := Tab.get {} s.allocs c
def State.modAlloc (s : State) (c : Nat) (f : Alloc → Alloc) : State := { s with allocs := Tab.set {} s.allocs c (f (s.alloc c)) }
def State.quad (s : State) (q : Nat) : Quad := Tab.get {} s.quads q
def State.modQuad (s : State) (q : Nat) (f : Quad → Quad) : State := { s with quads := Tab.set {} s.quads q (f (s.quad q)) }
def State.cluster (s : State) (e : Nat) : Cluster := Tab.get {} s.clusters e
def State.modCluster (s : State) (e : Nat) (f : Cluster → Cluster) : State :=
  { s with clusters := Tab.set {} s.clusters e (f (s.cluster e)) }
def State.extent (s : State) (e : Nat) : Extent := Tab.get {} s.cap.extents e
def State.modExtent (s : State) (e : Nat) (f : Extent → Extent) : State :=
  { s with cap := { s.cap with extents := Tab.set {} s.cap.extents e (f (s.extent e)) } }
def State.keySlot (s : State) (k : Nat) : KeySlot := Tab.get {} s.keys.slots k
def State.modKeySlot (s : State) (k : Nat) (f : KeySlot → KeySlot) : State :=
  { s with keys := { s.keys with slots := Tab.set {} s.keys.slots k (f (s.keySlot k)) } }
def State.modCap (s : State) (f : Cap → Cap) : State := { s with cap := f s.cap }
def State.modMeta (s : State) (f : Meta → Meta) : State := { s with mdata := f s.mdata }
def State.modKeys (s : State) (f : Keys → Keys) : State := { s with keys := f s.keys }
def State.modPath (s : State) (f : Path → Path) : State := { s with path := f s.path }
def State.modGather (s : State) (f : Gather → Gather) : State := { s with gather := f s.gather }
def State.modQos (s : State) (f : Qos → Qos) : State := { s with qos := f s.qos }
def State.modInteg (s : State) (f : Integ → Integ) : State := { s with integ := f s.integ }
def State.modSketch (s : State) (f : Sketch → Sketch) : State := { s with sketch := f s.sketch }

/-! ### DIMMs and the DPHA map (R226, R227, R236, R237) -/

/-- The organisation of a DIMM: widths of column high, row, rank and pseudo-channel (R227). -/
def spdOrg (d : Spd) : Option (Nat × Nat × Nat × Nat) :=
  match d.mrdimm, d.x8, d.density, d.ranks with
  | false, true, 16, 1 => some (1, 16, 0, 0)
  | false, true, 16, 2 => some (1, 16, 1, 0)
  | false, false, 16, 1 => some (2, 16, 0, 0)
  | false, false, 16, 2 => some (2, 16, 1, 0)
  | false, false, 16, 4 => some (2, 16, 2, 0)
  | false, false, 16, 8 => some (2, 16, 3, 0)
  | false, false, 32, 1 => some (2, 17, 0, 0)
  | false, false, 32, 2 => some (2, 17, 1, 0)
  | false, false, 32, 4 => some (2, 17, 2, 0)
  | true, false, 16, 2 => some (2, 16, 0, 1)
  | true, false, 32, 2 => some (2, 17, 0, 1)
  | true, false, 32, 4 => some (2, 17, 1, 1)
  | _, _, _, _ => none

/-- Capacity of a DIMM in 64-byte lines (R227). -/
def spdLines (d : Spd) : Nat :=
  match spdOrg d with
  | some (colhi, row, rank, pc) => 2 ^ (11 + colhi + row + rank + pc)
  | none => 0

/-- The SPD of a slot of a channel. -/
def Chan.spd (c : Chan) (slot : Nat) : Option Spd := if slot = 0 then c.spd0 else c.spd1

/-- The lines a slot contributes (CH_STATUS.SLOT_USABLE). -/
def Chan.slotLines (c : Chan) (slot : Nat) : Nat :=
  if c.usable.getLsbD slot then ((c.spd slot).map spdLines).getD 0 else 0

/-- Usable capacity of a channel in lines. -/
def Chan.capacity (c : Chan) : Nat := c.slotLines 0 + c.slotLines 1

/-- The initialisation order of a line of the channel: slot 0's DIMM first, then slot 1's (R234). -/
def Chan.order (c : Chan) (slot offset : Nat) : Nat := if slot = 0 then offset else c.slotLines 0 + offset

/-- A channel's registers at their reset values; SPEED_MAX depends on the variant (R253). -/
def freshChan (variant : BitVec 4) : Chan := if variant = 1 then { speedMax := 0x40 } else {}

/-- The frontier has passed the channel's last line (CH_STATUS.INIT_DONE). -/
def Chan.initDone (c : Chan) : Bool := decide (0 < c.capacity) && decide (c.capacity ≤ c.frontier)

/-- The channel of a line address, and its slot (R8). -/
def lineChan (l : Nat) : Nat := l / 2 ^ 33
def lineSlot (l : Nat) : Nat := l / 2 ^ 32 % 2

/-- The first line of a frame: a frame is numbered within its channel by DPHA[38:12]. -/
def frameLine (c f : Nat) : Nat := c * 2 ^ 33 + f * 64
/-- The frame of a line address. -/
def lineFrame (l : Nat) : Nat := l % 2 ^ 33 / 64
/-- The slot window of a frame. -/
def frameSlot (f : Nat) : Nat := f / 2 ^ 26

/-- Frames f to f + n − 1 lie within one usable DIMM and below the frontier (R235, R236). -/
def Chan.framesBelow (c : Chan) (f n : Nat) : Bool :=
  let slot := frameSlot f
  let off := f % 2 ^ 26
  decide (slot < 2) && decide ((off + n) * 64 ≤ c.slotLines slot) && decide (c.order slot ((off + n) * 64) ≤ c.frontier)

/-- Where a line lies in its DIMM: subchannel, logical rank, bank group, bank and row (R236, R237). -/
structure Place where
  sub : Nat
  slot : Nat
  rank : Nat
  bg : Nat
  bank : Nat
  row : Nat
  deriving DecidableEq, Repr

/-- The place of a line of the channel. -/
def Chan.place (c : Chan) (l : Nat) : Place :=
  match (c.spd (lineSlot l)).bind spdOrg with
  | none => ⟨l % 2, lineSlot l, 0, 0, 0, 0⟩
  | some (colhi, row, rank, pc) =>
    let w := l % 2 ^ 32 / 64
    let x := w / 2 ^ pc
    { sub := l % 2, slot := lineSlot l
      rank := (x / 2 ^ (5 + colhi + row) % 2 ^ rank) * 2 ^ pc + w % 2 ^ pc
      bg := x % 8, bank := x / 8 % 4, row := x / 2 ^ (5 + colhi) % 2 ^ row }

/-- The number of a bank: subchannel, slot, rank, bank group and bank. -/
def Place.bankId (p : Place) : Nat := (((p.sub * 2 + p.slot) * 8 + p.rank) * 8 + p.bg) * 4 + p.bank
/-- The number of a rank of a subchannel; and a rank's bit 8s + r. -/
def Place.subRank (p : Place) : Nat := (p.sub * 2 + p.slot) * 8 + p.rank
def Place.rankBit (p : Place) : Nat := 8 * p.slot + p.rank
/-- A row of a rank, as one number. -/
def Place.rowId (p : Place) : Nat := (p.row * 4 + p.bank) * 8 + p.bg

/-- The frames that share a row, on an MRDIMM those of both pseudo-channels (R284). -/
def Chan.rowFrames (c : Chan) (r : RowName) : List Nat :=
  match (c.spd r.slot).bind spdOrg with
  | none => []
  | some (colhi, row, _, pc) =>
    let rankField := r.rank / 2 ^ pc
    (List.range (2 ^ colhi)).flatMap fun ch => (List.range (2 ^ pc)).map fun p =>
      r.slot * 2 ^ 26 + (((((rankField * 2 ^ row + r.row) * 2 ^ colhi + ch) * 4 + r.bank) * 8 + r.bg) * 2 ^ pc + p)

/-! ### Allocation (R161, R162, R177, R235) -/

/-- The intervals of frames in use on a channel: first frame and length. -/
def Alloc.used (a : Alloc) : List (Nat × Nat) :=
  a.frames.map (fun e => (e.1, 1)) ++ a.slabs.map (fun b => (b.base, b.cls)) ++ a.megas.map fun e => (e.1 * 256, 256)

/-- What the allocator may not touch: storage in use and fenced rows. -/
def State.blocked (s : State) (c : Nat) : List (Nat × Nat) :=
  (s.alloc c).used ++ (((s.chan c).fence.map (s.chan c).rowFrames).getD []).map fun f => (f, 1)

/-- No blocked interval meets frames f to f + n − 1. -/
def clearOf (l : List (Nat × Nat)) (f n : Nat) : Bool := l.all fun e => decide (f + n ≤ e.1) || decide (e.1 + e.2 ≤ f)

/-- The smallest element of a list. -/
def smallest : List Nat → Option Nat
  | [] => none
  | x :: t => some (t.foldl min x)

/-- Where a lowest free run can start: each window's start and each interval's end, rounded up to the alignment. -/
def runStarts (l : List (Nat × Nat)) (align : Nat) : List Nat :=
  let ends := 0 :: 2 ^ 26 :: l.map fun e => e.1 + e.2
  ends ++ ends.map fun e => (e + align - 1) / align * align

/-- The lowest n free consecutive frames of a channel within one aligned region of `region` frames, at a multiple of `align`; none while
the free maps are being rebuilt (R506). -/
def State.lowestRun (s : State) (c n align region : Nat) : Option Nat :=
  let l := s.blocked c
  if s.start.rebuilding then none else smallest ((runStarts l region).filter fun f =>
    decide (f % align = 0) && decide (f / region = (f + n - 1) / region) && clearOf l f n && (s.chan c).framesBelow f n)

/-- The channel is ACTIVE. -/
def State.activeChan (s : State) (c : Nat) : Bool := decide ((s.chan c).state = .active)

/-- The channels that an allocation may use, in order: the target, then the others of its quadrant (R162, R177). -/
def State.placeOrder (s : State) (target : Nat) (only : Bool) : List Nat :=
  (target :: if only then [] else (List.range 6).filterMap fun i =>
    let c := 6 * (target / 6) + i
    if c = target then none else some c).filter s.activeChan

/-- Use a 4 KiB frame. -/
def useFrame (c f : Nat) (o : Owner) (s : State) : State :=
  s.modAlloc c fun a => { a with frames := Tab.set none a.frames f (some o) }

/-- The lowest free run of a partly used slab of the class on the channel. -/
def Alloc.freeRun (a : Alloc) (n : Nat) : Option (Nat × Nat) :=
  (a.slabs.filterMap fun b =>
    if b.cls = n then (((List.range 64).find? fun i => (Tab.get none b.runs i).isNone).map fun i => (b.base, i)) else none).foldl
      (fun m e => match m with
        | none => some e
        | some x => if e.1 < x.1 then some e else some x) none

/-- Use run i of the slab at a base. -/
def useRun (c base i : Nat) (o : Option Owner) (s : State) : State :=
  s.modAlloc c fun a => { a with slabs := a.slabs.map fun b =>
    if b.base = base then { b with runs := Tab.set none b.runs i o } else b }

/-- Insert a slab in order of its base. -/
def insertSlab (b : Slab) : List Slab → List Slab
  | [] => [b]
  | x :: t => if b.base < x.base then b :: x :: t else x :: insertSlab b t

/-- Take the lowest free frame of the first channel that has one: its line address (R177). -/
def takeFrameOn (o : Owner) (s : State) : List Nat → Option (Nat × State)
  | [] => none
  | c :: t =>
    match s.lowestRun c 1 1 1 with
    | some f => some (frameLine c f, useFrame c f o s)
    | none => takeFrameOn o s t

/-- Take a run of n slots on the first channel that has one: its line address (R162). -/
def takeRunOn (n : Nat) (o : Owner) (s : State) : List Nat → Option (Nat × State)
  | [] => none
  | c :: t =>
    match (if s.start.rebuilding then none else (s.alloc c).freeRun n) with
    | some (base, i) => some (frameLine c base + n * i, useRun c base i (some o) s)
    | none =>
      match s.lowestRun c n 1 64 with
      | some base =>
        let s := s.modAlloc c fun a => { a with slabs := insertSlab ⟨n, base, []⟩ a.slabs }
        some (frameLine c base, useRun c base 0 (some o) s)
      | none => takeRunOn n o s t

/-- Take storage of n slots, or a frame for n = 0, in the order of R162 and R177. -/
def takeStorage (target n : Nat) (only : Bool) (o : Owner) (s : State) : Option (Nat × State) :=
  if n = 0 then takeFrameOn o s (s.placeOrder target only) else takeRunOn n o s (s.placeOrder target only)

/-- The slab and the run that a line address starts. -/
def State.findRun (s : State) (l : Nat) : Option (Slab × Nat) :=
  let f := lineFrame l
  ((s.alloc (lineChan l)).slabs.find? fun b => decide (b.base ≤ f) && decide (f < b.base + b.cls)).map fun b =>
    (b, (l % 2 ^ 33 - b.base * 64) / b.cls)

/-- Free a frame or a run; a slab returns its frames with its last run (R161). -/
def freeStorage (l n : Nat) (s : State) : State :=
  let c := lineChan l
  if n = 0 then s.modAlloc c fun a => { a with frames := Tab.erase a.frames (lineFrame l) }
  else match s.findRun l with
    | none => s
    | some (b, i) =>
      (useRun c b.base i none s).modAlloc c fun a => { a with slabs := a.slabs.filter fun x => x.base != b.base || !x.runs.isEmpty }

/-- Give a frame or run another owner. -/
def ownStorage (l n : Nat) (o : Owner) (s : State) : State :=
  if n = 0 then useFrame (lineChan l) (lineFrame l) o s
  else match s.findRun l with
    | none => s
    | some (b, i) => useRun (lineChan l) b.base i (some o) s

/-- The lowest free 1 MiB frame of a channel: its number on the channel (R128). -/
def State.freeMega (s : State) (c : Nat) : Option Nat :=
  if s.activeChan c then (s.lowestRun c 256 256 256).map (· / 256) else none

/-- The free 1 MiB frames of a channel (R128). -/
def State.megasFree (s : State) (c : Nat) : Nat :=
  let touched := ((s.blocked c).flatMap fun e => [e.1 / 256, (e.1 + e.2 - 1) / 256]).eraseDups
  let ch := s.chan c
  let whole := (if ch.slotLines 0 = 0 then 0 else min (ch.slotLines 0) ch.frontier / 16384) +
    (if ch.slotLines 1 = 0 then 0 else min (ch.slotLines 1) (ch.frontier - ch.slotLines 0) / 16384)
  whole - (touched.filter fun m => ch.framesBelow (m * 256) 256).length

/-- Use a 1 MiB frame, named by DPHA[43:20]. -/
def useMega (m : Nat) (u : Option MegaUse) (s : State) : State :=
  s.modAlloc (m / 2 ^ 19) fun a => { a with megas := Tab.set none a.megas (m % 2 ^ 19) u }

/-- Frames of a channel in use: the used footprint of R197. -/
def State.framesUsed (s : State) (c : Nat) : Nat := ((s.alloc c).used.map (·.2)).sum

/-- Free frames of a channel below its frontier (R197, R235). -/
def State.framesFree (s : State) (c : Nat) : Nat := min (s.chan c).capacity (s.chan c).frontier / 64 - s.framesUsed c

/-! ### DRAM lines -/

/-- A line as its channel gives it: the newest write queued for it, at the gate or in the command queue, else the DIMM's (R239). -/
def State.lineNow (s : State) (l : Nat) : DLine :=
  let c := s.chan (lineChan l)
  ((c.queue ++ c.gate.cmds).foldl (fun d x => if x.line = l then (match x.write with | some w => w | none => d) else d)
    (Tab.get {} s.dram l))

/-- Store a line in the DIMM. -/
def storeLine (l : Nat) (d : DLine) (s : State) : State :=
  { s with dram := Tab.set {} s.dram l d }.modChan (lineChan l) fun c => { c with wcrc := Tab.erase c.wcrc l }

/-- Write a line at once: older writes queued for it are superseded. -/
def putLine (l : Nat) (d : DLine) (s : State) : State :=
  storeLine l d (s.modChan (lineChan l) fun c =>
    { c with queue := c.queue.filter fun x => x.line != l || x.write.isNone
             gate := { c.gate with cmds := c.gate.cmds.filter fun x => x.line != l || x.write.isNone } })

/-- Write lines from an address on. -/
def putLines : Nat → List DLine → State → State
  | _, [], s => s
  | l, d :: t, s => putLines (l + 1) t (putLine l d s)

/-- Clear n lines from an address on: zero data, the clean tag. -/
def clearLines (l n : Nat) (s : State) : State := forEach (List.range n) (fun i => putLine (l + i) {}) s

/-! ### Extents and descriptors (R114 to R121) -/

/-- The extent of a DLPN. -/
def extentOf (dlpn : Nat) : Nat := dlpn / 65536

/-- The Reset value of a descriptor: the extent's FIXED and KEY_SLOT (R120). -/
def State.descReset (s : State) (dlpn : Nat) : Desc :=
  let e := s.extent (extentOf dlpn)
  { fixed := e.fixed, keySlot := e.keySlot }

/-- A page descriptor, as the device acts on it. -/
def State.desc (s : State) (dlpn : Nat) : Desc := Tab.get (s.descReset dlpn) s.mdata.desc dlpn

/-- BLOCK_LEN of block b. -/
def blockLen (w : BitVec 20) (b : Nat) : Nat := (w.extractLsb' (5 * b) 5).toNat
/-- The sum of the block lengths of the first n blocks. -/
def lenSum (w : BitVec 20) (n : Nat) : Nat := ((List.range n).map (blockLen w)).sum
/-- BLOCK_LEN from its four lengths. -/
def packLens (l : List Nat) : BitVec 20 := BitVec.ofNat 20 (l.foldr (fun n v => n + 32 * v) 0)

/-- The line address of PLAIN and PACKED storage, LOCATION[57:20] (R121). -/
def locLine (w : BitVec 44) : Nat := (w.extractLsb' 0 38).toNat
/-- The guest and the remote index of a FAR page (R121). -/
def locGuest (w : BitVec 44) : Nat := (w.extractLsb' 0 2).toNat
def locRemote (w : BitVec 44) : Nat := (w.extractLsb' 2 42).toNat

/-- Slots of a page's storage: 0 for a frame. -/
def storageSlots (st : PageState) (w : BitVec 20) : Nat := if st = .packed then lenSum w 4 else 0

/-- Footprint of a page in lines (R137, R160). -/
def pageLines (st : PageState) (w : BitVec 20) : Nat :=
  match st with
  | .plain => 64
  | .packed => lenSum w 4
  | _ => 0

/-- The mover record of a page (R187). -/
def State.record (s : State) (dlpn : Nat) : Option (Nat × MoverRec) :=
  (List.range 4).findSome? fun q => ((s.quad q).records.find? fun r => decide (r.dlpn = dlpn) && decide (r.phase ≠ .claim) && decide (r.phase ≠ .free)).map fun r => (q, r)

/-- A page state by its code (R120). -/
def stateOf (n : Nat) : PageState :=
  if n = 1 then .plain else if n = 2 then .packed else if n = 3 then .far else if n = 4 then .zero
  else if n = 5 then .pattern else if n = 6 then .moving else if n = 7 then .poisoned else .unmapped
def PageState.code : PageState → Nat
  | .unmapped => 0
  | .plain => 1
  | .packed => 2
  | .far => 3
  | .zero => 4
  | .pattern => 5
  | .moving => 6
  | .poisoned => 7

/-- Where a page's data is read: its state, LOCATION and BLOCK_LEN, those of the source while it is MOVING (R121, R191). -/
def State.source (s : State) (dlpn : Nat) : PageState × BitVec 44 × BitVec 20 :=
  let d := s.desc dlpn
  if d.state = .moving then
    match s.record dlpn with
    | some (_, r) => (stateOf r.srcState, r.srcLoc, r.srcLen)
    | none => (d.state, d.location, d.blockLen)
  else (d.state, d.location, d.blockLen)

/-- The copy of a descriptor in mirror A or B. -/
def State.descA (s : State) (dlpn : Nat) : Desc := Tab.get (s.descReset dlpn) s.mdata.copyA dlpn
def State.descB (s : State) (dlpn : Nat) : Desc := Tab.get (s.descReset dlpn) s.mdata.copyB dlpn

/-- The dirty mark of a descriptor line, DLPN ÷ 4. -/
def State.dirty (s : State) (k : Nat) : Option MetaDirty := Tab.get none s.mdata.dirty k

/-- Change a descriptor in the metadata cache; both copies are to be written (R129, R195). -/
def setDesc (dlpn : Nat) (d : Desc) (s : State) : State :=
  s.modMeta fun m =>
    { m with desc := Tab.set (s.descReset dlpn) m.desc dlpn d
             dirty := Tab.set none m.dirty (dlpn / 4) (some ((s.dirty (dlpn / 4)).getD {})) }
def modDesc (dlpn : Nat) (f : Desc → Desc) (s : State) : State := setDesc dlpn (f (s.desc dlpn)) s

/-- A change of LOCK that lives in the metadata cache alone (R192). -/
def setLock (dlpn : Nat) (b : Bool) (s : State) : State :=
  s.modMeta fun m => { m with desc := Tab.set (s.descReset dlpn) m.desc dlpn { s.desc dlpn with lock := b } }

/-- Storage to free once the present change of a descriptor line is in both copies (R163, R195). -/
def freeAfter (dlpn l n : Nat) (s : State) : State :=
  let d := (s.dirty (dlpn / 4)).getD {}
  s.modMeta fun m => { m with dirty := Tab.set none m.dirty (dlpn / 4) (some { d with frees := d.frees ++ [(l, n)] }) }

/-! ### Capacity sums (R137) -/

/-- 2 MiB, 256 MiB and 258 MiB in lines. -/
def metaLines : Nat := 32768
def extentLines : Nat := 4194304
def assuredLines : Nat := 4227072

/-- The extent counts: OFFERED, ACTIVE or RELEASE_REQ. -/
def Extent.counts (e : Extent) : Bool := decide (e.state = .offered) || decide (e.state = .active) || decide (e.state = .releaseReq)

/-- Capacity of the ACTIVE channels in lines. -/
def State.activeLines (s : State) : Nat :=
  ((List.range 24).map fun c => if s.activeChan c then (s.chan c).capacity else 0).sum

/-- The tally ring and the two root areas, in lines. -/
def State.structureLines (s : State) : Nat :=
  (if s.rec_.large then s.rec_.ring.toNat * 16384 else 0) + (if s.cap.rootA.isSome then 262144 else 0)

/-- P, F and HYST (R137). -/
def State.capP (s : State) : Nat := s.activeLines - s.structureLines
def State.capF (s : State) : Nat := (s.capP * s.cap.floorPm.toNat + 999) / 1000
def State.capHyst (s : State) : Nat := (s.capP * s.cap.hystPm.toNat + 999) / 1000

/-- Footprint of an extent in lines. -/
def State.footprint (s : State) (e : Nat) : Nat := Tab.get 0 s.cap.footprint e
def addFootprint (e : Nat) (n : Int) (s : State) : State :=
  s.modCap fun c => { c with footprint := Tab.set 0 c.footprint e ((s.footprint e : Int) + n).toNat }

/-- AR and LU (R137). -/
def State.capAR (s : State) : Nat :=
  (s.cap.extents.map fun e => if e.2.counts && !e.2.loaned then assuredLines else 0).sum
def State.capLU (s : State) : Nat :=
  (s.cap.extents.map fun e =>
    if e.2.counts && e.2.loaned then (if e.2.fixed then assuredLines else metaLines + s.footprint e.1) else 0).sum

/-- U (R137). -/
def State.capU (s : State) : Int :=
  (s.activeLines : Int) - s.structureLines - s.capAR - s.capLU - s.cap.g - s.cap.z - s.cap.m

/-- Extents counting toward the logical cap, and the cap (R137). -/
def State.logicalExtents (s : State) : Nat := (s.cap.extents.filter fun e => e.2.counts).length
def State.logicalCap (s : State) : Nat := s.cap.ratio.toNat * s.capP / (16 * extentLines)

/-- Lines in whole MiB, rounded down. -/
def mib (n : Int) : Int := n / 16384

/-! ### Ciphers (R205, R206) -/

/-- The load that put the key of a slot there; slot 0 holds the device key. -/
def State.keyLoad (s : State) (k : Nat) : Nat := if k = 0 then 0 else (s.keySlot k).load

/-- Canonical DPA[51:12] of a page (R205). -/
def State.canonical (s : State) (dlpn : Nat) : Nat := (s.extent (extentOf dlpn)).block.toNat * 65536 + dlpn % 65536

/-- What a unit of a page is encrypted under: FORM 0 line n of a PLAIN page, FORM 1 slot k of block n of a PACKED page. -/
def State.cipherOf (s : State) (dlpn form unit sequence : Nat) : Option Cipher :=
  (s.extent (extentOf dlpn)).salt.map fun salt =>
    { salt, ld := (s.extent (extentOf dlpn)).ld.toNat, addr := s.canonical dlpn, form, unit, sequence
      key := s.keyLoad (s.desc dlpn).keySlot.toNat }

/-- An open value stands for what a line decrypts to when it was not encrypted under this cipher (log 13). -/
def decrypt (want : Option Cipher) (d : DLine) : Line :=
  if d.cipher = want then d.data else Config.garble ((want.map fun c => c.salt).getD 0) d.data

end Sys2Proof.Machine
end

