-- ==== Sys2Proof/Machine/Flags.lean ====
section
/-! DEFINITION. How the device reacts to its fault sources: sticky bits, tallies, Health Status, the halt and the entry of
an immediate reset (chapter 19, R500 to R503, R523 to R525). -/
namespace Sys2Proof.Machine

/-! ### Parts that the reactions reach -/

/-- A member of the constellation is lost (R424, R442). -/
def State.memberLost (s : State) : Bool := s.const.members.any fun e => decide (e.2.state = .lost)

/-- The valid lines of write gather. -/
def State.gatherLines (s : State) : Nat := s.gather.entries.length

/-- Discard write gather, and return the charges it holds (R502, R140). -/
def discardGather (s : State) : State :=
  { s.gather.charges.foldl (fun s e => addFootprint (extentOf (e.1 / 8)) (-(e.2 : Int)) s) s with gather := {} }

/-- A channel's DIMMs are in self-refresh: its rows are closed and no command is left (R249). -/
def Chan.sleep (c : Chan) : Chan :=
  { c with selfRefresh := true, srPending := false, queue := [], gate := {}, flight := [], banks := [], powerDown := []
           refreshing := false, retrainBusy := false, retrainResult := if c.retrainBusy then 3 else c.retrainResult }

/-- Every running channel enters self-refresh with its queued commands discarded (R249, R502). -/
def selfRefreshAll (s : State) : State :=
  forEach (List.range 24) (fun c s => s.modChan c fun h =>
    if h.state = .active ∨ h.state = .evacuating then h.sleep else h) s

/-- A Ulilet port whose link is gone: nothing of the link is left but its registers, its lanes idle (R424). -/
def Uli.dropped (u : Uli) (st : LState) (now : Nat) : Uli :=
  { u with lstate := st, lanes := 0, reversed := false, vcsActive := 0, paramSeen := false, paramSent := none, refusedAt := none, since := now, resync := false
           replay := [], replayAt := none, timer := none, expiries := 0, tx := [], secure := false, oldKeyTo := none
           foreign := false, reachAt := none, reach := 0, highCounter := none, peerSync := none, ownSync := none }

/-- Every Ulilet link goes to electrical idle. -/
def dropUliletLinks (s : State) : State :=
  forEach (List.range 3) (fun u s => s.modUli u fun p => p.dropped (if p.retired then .retired else .down) s.now) s

/-- The enclave zeroizes the key RAM, the salt RAM, the staging entries and the tenant image store (R525). -/
def zeroizeSecrets (s : State) : State :=
  let s := { s with keys := { rate := s.keys.rate } }
  let s := s.modCap fun c => { c with extents := c.extents.map fun e => (e.1, { e.2 with salt := none }) }
  { s with img := { s.img with tenants := [] } }

/-- DRAM contents are lost with the slot power. -/
def loseDram (s : State) : State :=
  forEach (List.range 24) (fun c s => s.modChan c fun h => { h with frontier := 0 }) { s with dram := [] }

/-! ### Health Status (R523, R524) -/

/-- Some channel is in this state. -/
def State.anyChan (s : State) (st : ChanState) : Bool := (List.range 24).any fun c => (s.chan c).state = st

/-- Maintenance Needed (R524). -/
def State.maintenance (s : State) : Bool :=
  s.anyChan .retired || s.anyChan .trainFailed || (List.range 48).any fun n => (s.slot n).state = .latched

/-- Performance Degraded (R524): QoS scaled, a port narrow or latched down, an engine, core or link out of service, a member lost. -/
def State.degraded (s : State) : Bool :=
  s.holds 68 || (List.range 16).any (fun p => s.holds (srcPort p 1) || s.holds (srcPort p 2)) ||
    (List.range 8).any (fun e => s.holds (srcCluster e 1) || s.holds (768 + e)) ||
    (List.range 3).any (fun u => s.holds (srcUlilet u 5)) || s.holds 691 || s.memberLost

/-- Hardware Replacement Needed (R524). -/
def State.replacement (s : State) : Bool :=
  (List.range 24).any fun c => s.holds (srcChannel c 7) ||
    (decide ((s.chan c).state = .retired) && ((s.slot (2 * c)).prsnt || (s.slot (2 * c + 1)).prsnt))

/-- The Health Status bits of Get Health Info (R524). -/
def State.health (s : State) : BitVec 3 :=
  BitVec.ofNat 3 (flag s.maintenance + 2 * flag s.degraded + 4 * flag s.replacement)

/-- The device event types of a Memory Module Event record that the spec names. -/
def evHealth : Nat := 0
def evTemperature : Nat := 3
def evDataPath : Nat := 4

/-- The Health Status bits have changed without a fault. -/
def noteHealth (s : State) : State := s.modFaults fun f => { f with lastHealth := s.health }

/-- A fault that raises a Health Status bit places a Health Status Change record in every Warning log (R523); a bit that falls
is no fault (DEDUCED, log 103). -/
def updateHealth (s : State) : State :=
  let t := noteHealth s
  if s.health &&& ~~~s.faults.lastHealth = 0 then t else placeAll .warning (.memoryModule evHealth) t

/-! ### Resets and halts -/

/-- Every CXL link goes to electrical idle. -/
def dropHostLinks (s : State) : State :=
  forEach (List.range 16) (fun p s => s.modPort p fun q =>
    { q with up := false, width := 0, rate := 0, flit256 := false, training := false, ideState := 0, retraining := false }) s

/-- The immediate resets of the last 10 min, with one now (R503). -/
def immWindow (s : State) : List Nat := s.now :: s.start.immTimes.filter fun t => s.now < t + 600 * secNs

/-- The entry of an immediate reset (R502), from an F3 fault (cause 3) or a warm entry that overran (cause 4). While an immediate entry
runs, another F3 fault adds nothing to it (DEDUCED, log 35). -/
def immediateEntry (cause : BitVec 3) (s : State) : State :=
  if s.faults.halted ∨ s.start.powered = false ∨ s.start.entry = .immediate then s
  else
    let s := s.modStart fun r =>
      { r with entry := .immediate, cause := cause, immCount := satAdd r.immCount 1, immTimes := immWindow s
               alive := false, memActive := 0, gatherLost := BitVec.ofNat 32 s.gatherLines }
    let s := s.modPower fun p => { p with latched := true, cxlLatched := true }
    let s := s.modAlm fun a => { a with upd := false }
    discardGather (selfRefreshAll (dropUliletLinks (dropHostLinks s)))

/-- The halt of an F4 fault (R525): lanes idle, cores stopped, keys zeroized, HALT_REC written, slots off. -/
def haltDevice (n : Nat) (s : State) : State :=
  if s.faults.halted ∨ s.start.powered = false then s
  else
    let s := s.modFaults fun f =>
      { f with halted := true, haltSource := BitVec.ofNat 10 n, haltValid := true, haltTime := BitVec.ofNat 64 s.now
               thermtrip := f.thermtrip || decide (n = 20) }
    let s := s.modStart fun r => { r with alive := false, memActive := 0, lantern := false, entry := .none }
    let s := dropUliletLinks (dropHostLinks s)
    let s := forEach (List.range 32) (fun t s => s.modThread t fun u => { u with state := .out }) s
    let s := zeroizeSecrets s
    let s := forEach (List.range 54) (fun i s => s.modDom (i + 1) fun d =>
      { d with state := .p3, trans := .none, pending := none, wake := false }) s
    let s := forEach (List.range 48) (fun m s => s.modSlot m fun u =>
      { u with state := .off, limiting := false, since := s.now }) s
    loseDram { s with slotMgr := { s.slotMgr with queue := [] } }

/-! ### Sources -/

/-- Set the sticky bit of source n (R517). -/
def setSticky (n : Nat) (s : State) : State :=
  s.modFaults fun f => { f with sticky := Tab.set 0 f.sticky (n / 64) (s.fsticky (n / 64) ||| (1#64 <<< (n % 64))) }

/-- The class of a source decides the reaction beyond its bit and its tally (R515). -/
def reactClass (n : Nat) (s : State) : State :=
  match (sourceInfo n).map (·.cls) with
  | some 3 => immediateEntry 3 s
  | some 4 => haltDevice n s
  | _ => s

/-- A source fires: its bit, its tally, its class's reaction, and the Health Status record (R515, R518). An unused bit never fires. -/
def fireEvent (n : Nat) (s : State) : State :=
  if (sourceInfo n).isNone then s else updateHealth (reactClass n (sampleFault n (setSticky n s)))

/-- The condition of a condition source starts; while it holds already, nothing is added (R518). -/
def condStart (n : Nat) (s : State) : State :=
  if s.holds n then s else fireEvent n (s.modFaults fun f => { f with live := insertNat n f.live })

/-- The condition of a condition source ends; its bit stays until a write of 1 (R518). -/
def condEnd (n : Nat) (s : State) : State :=
  updateHealth (s.modFaults fun f => { f with live := f.live.erase n })

/-- A condition source follows a test. -/
def condSet (n : Nat) (b : Bool) (s : State) : State := if b then condStart n s else condEnd n s

/-- A rank of faults reacts in one step: each in turn (R528). -/
def fireAll (l : List Nat) (s : State) : State := forEach l fireEvent s

/-- FAULT_N is driven low (R522). -/
def State.faultDriven (s : State) : Bool :=
  s.start.powered && (s.start.lantern || s.faults.halted ||
    (List.range 1024).any fun n =>
      s.stickySet n && !((Tab.get 0 s.faults.mask (n / 64)).getLsbD (n % 64)) &&
        decide (s.faults.threshold.toNat ≤ ((sourceInfo n).map (·.cls)).getD 0))

/-- The highest class among the set bits (R529). -/
def State.highestClass (s : State) : Nat :=
  (List.range 1024).foldl (fun m n => if s.stickySet n then max m (((sourceInfo n).map (·.cls)).getD 0) else m) 0

end Sys2Proof.Machine
end

