-- ==== Sys2Proof/Machine/Capacity.lean ====
section
/-! DEFINITION. The poison list, its records, and the capacity contract: charges, distress and shortfall (R137 to R146,
R264, R265, R270, R271). -/
namespace Sys2Proof.Machine

/-! ### The poison list (R270, R271) -/

/-- The unit is listed. -/
def State.poisonListed (s : State) (dlpn unit place : Nat) : Bool :=
  s.integ.poison.any fun p => decide (p.dlpn = dlpn) && decide (p.unit = unit) && decide (p.place = place)

/-- List a unit marked poisoned, once; a full list refuses it (R271). -/
def listPoison (dlpn unit place source : Nat) (s : State) : State :=
  if s.poisonListed dlpn unit place then s
  else if s.integ.poison.length < 65536 then
    s.modInteg fun i => { i with poison := i.poison ++ [{ dlpn, unit, place, source, timebase := s.time.tb }] }
  else condStart 24 (s.modInteg fun i =>
    { i with overflow := true, refused := satAdd i.refused 1, refusedNow := true
             firstRefused := if i.overflow then i.firstRefused else s.time.tb })

/-- A unit is cleared: it leaves the list. -/
def unlistPoison (dlpn unit place : Nat) (s : State) : State :=
  s.modInteg fun i => { i with poison := i.poison.filter fun p => p.dlpn != dlpn || p.unit != unit || p.place != place }

/-- Every unit of a page leaves the list. -/
def unlistPage (dlpn : Nat) (s : State) : State :=
  s.modInteg fun i => { i with poison := i.poison.filter fun p => p.dlpn != dlpn }

/-- The LDs that map an extent homed here, with their DPA blocks (R116). -/
def State.mappings (s : State) (e : Nat) : List (Nat × Nat) :=
  s.cap.dpaMap.flatMap fun x => x.2.filterMap fun m =>
    if m.extent.toNat = e ∧ m.home = s.ident.devId then some (m.ld.toNat, m.block.toNat) else none

/-- The byte in its page where a unit begins. -/
def unitByte (unit place : Nat) : Nat := if unit = 0 then 64 * place else if unit = 1 then 1024 * place else 0

/-- The transaction types of a General Media Event record (R265), as the CXL specification numbers them. PRESUMED, log 14. -/
def txHostRead : Nat := 1
def txHostWrite : Nat := 2
def txScanMedia : Nat := 3
def txScrub : Nat := 5
def txManagement : Nat := 6

/-- One General Media Event record in the Failure log of every LD that maps the extent (R265). -/
def recordPoison (dlpn unit place tx : Nat) (s : State) : State :=
  forEach (s.mappings (extentOf dlpn)) (fun m s =>
    placeRecord m.1 .failure (.generalMedia 1 tx
      (BitVec.ofNat 64 (m.2 * 2 ^ 28 + dlpn % 65536 * 4096 + unitByte unit place))) s) s

/-! ### Distress (R141) -/

/-- What an extent gives back on release: its footprint and its metadata. -/
def State.returns (s : State) (e : Nat) (x : Extent) : Nat := if x.fixed then assuredLines else metaLines + s.footprint e

/-- Place a Release Capacity record for an extent and enter RELEASE_REQ (R79, R133). -/
def requestRelease (e : Nat) (s : State) : State :=
  if (s.extent e).state = .active then
    let s := (s.modExtent e fun x => { x with state := .releaseReq }).modCap fun c => { c with releaseList := c.releaseList.erase e }
    forEach (s.mappings e) (fun m s => placeRecord m.1 .dynamicCapacity
      (.dynamicCapacity 1 (BitVec.ofNat 64 (m.2 * 2 ^ 28)) (s.extent e).tag) s) s
  else s

/-- Insert an extent so that larger footprints come first and equal ones keep their order. -/
def insertBySize (e n : Nat) : List (Nat × Nat) → List (Nat × Nat)
  | [] => [(e, n)]
  | x :: t => if x.2 < n then (e, n) :: x :: t else x :: insertBySize e n t

/-- Loaned ACTIVE extents in the order they are asked back: the release list, then by largest footprint (R141). -/
def State.releaseOrder (s : State) : List Nat :=
  let loaned := fun e => (s.extent e).loaned && decide ((s.extent e).state = .active)
  let rest := (s.cap.extents.foldl (fun l e => if loaned e.1 then insertBySize e.1 (s.footprint e.1) l else l) []).map (·.1)
  (s.cap.releaseList.filter loaned) ++ rest.filter fun e => !s.cap.releaseList.contains e

/-- What the extents already in RELEASE_REQ hold. -/
def State.requested (s : State) : Nat :=
  (s.cap.extents.map fun e => if e.2.loaned && decide (e.2.state = .releaseReq) then s.returns e.1 e.2 else 0).sum

/-- Ask extents back until those asked for hold enough. -/
def requestUntil (want : Int) : List Nat → State → State
  | [], s => s
  | e :: t, s => if want ≤ (s.requested : Int) then s else requestUntil want t (requestRelease e s)

/-- Step 2 of distress (R141). -/
def requestReleases (s : State) : State :=
  requestUntil ((s.capF : Int) + s.capHyst - s.capU) s.releaseOrder
    (s.modCap fun c => { c with lastU := s.capU, lastRepeat := s.now })

/-- The record and the event of distress entered or left (R141). -/
def reportDistress (entered : Bool) (s : State) : State :=
  let u := BitVec.ofInt 64 (mib s.capU)
  let s := placeAll .warning (.vendor 2 ((u <<< 8) ||| BitVec.ofNat 64 (flag entered))) s
  postDevice 3 u (BitVec.ofInt 64 (mib s.capF)) (BitVec.ofNat 64 (flag entered)) 0 s

/-- Enter capacity distress (R141). -/
def enterDistress (s : State) : State :=
  let s := requestReleases (s.modCap fun c => { c with distress := true, distressSeen := true })
  condStart 64 (reportDistress true s)

/-- Capacity is accounted: metadata recovery or format of this start is complete (R147). -/
def State.capacityLive (s : State) : Bool := s.start.phase9Done

/-- What follows every change of U: POOL_EXHAUSTED, SHORTFALL and distress (R141, R144, R145). DEDUCED, log 62. -/
def updateCapacity (s : State) : State :=
  if !s.capacityLive then s
  else
    let u := s.capU
    let s := if 0 < u then s.modCap fun c => { c with poolExhausted := false } else s
    let s := if s.cap.shortfall && decide (0 ≤ u) then condEnd 66 (s.modCap fun c => { c with shortfall := false }) else s
    if !s.cap.distress && decide (u ≤ s.capF) then enterDistress s
    else if s.cap.distress && decide ((s.capF : Int) + s.capHyst ≤ u) then
      condEnd 64 (reportDistress false (s.modCap fun c => { c with distress := false }))
    else s

/-- P has fallen because a channel left ACTIVE (R145). -/
def capacityFell (s : State) : State :=
  if s.capacityLive && decide (s.capU < 0) then
    updateCapacity (condStart 66 (s.modCap fun c => { c with shortfall := true }))
  else updateCapacity s

/-- 100 ms have passed since step 2 of distress, and U has not risen (R141). -/
def execDistressRepeat (s : State) : Host.Outcome State Fault Refusal :=
  .next (if s.running && s.cap.distress && decide (s.cap.lastRepeat + 100 * msNs ≤ s.now) then
      if s.cap.lastU < s.capU then s.modCap fun c => { c with lastU := s.capU, lastRepeat := s.now } else requestReleases s
    else s)

/-! ### Charges (R140, R142, R144, R145) -/

/-- Some ACTIVE channel has a free frame. -/
def State.anyFrame (s : State) : Bool := (List.range 24).any fun c => s.activeChan c && (s.lowestRun c 1 1 1).isSome

/-- Admission is frozen: no polestar is joined (R442). -/
def State.frozen (s : State) : Bool :=
  !s.ident.role && !(s.const.members.any fun m => m.2.polestar && decide (m.2.state = .joined))

/-- A charge of n lines to an extent is granted (R142, R145). -/
def State.chargeOk (s : State) (e n : Nat) : Bool :=
  if (s.extent e).loaned then decide (n = 0) || (!s.cap.shortfall && decide (0 ≤ s.capU - n))
  else decide (0 ≤ s.capU) || s.anyFrame

/-- Take a charge: provisional footprint of the extent. -/
def takeCharge (e n : Nat) (s : State) : State := updateCapacity (countEvent 63 0x601 none (addFootprint e n s))

/-- A charge or storage is given back. -/
def giveBack (e n : Nat) (s : State) : State := updateCapacity (addFootprint e (-(n : Int)) s)

/-- A write whose charge is refused is not stored: its block is poisoned, listed and recorded in the Failure log of the LD
that wrote (R144). -/
def refuseWrite (dlpn b : Nat) (ld : Option (Nat × Nat)) (s : State) : State :=
  let s := countEvent 63 0x602 none s
  let s := modDesc dlpn (fun d => { d with bpoison := d.bpoison ||| BitVec.ofNat 4 (2 ^ b) }) s
  let gone := s.gather.entries.filter fun x => x.dlpn = dlpn ∧ x.lineNo / 16 = b
  let s := s.modGather fun g => { g with entries := g.entries.filter fun x => x.dlpn != dlpn || x.lineNo / 16 != b }
  let s := s.modPath fun p =>
    { p with freed := gone.foldl (fun t g => Tab.set 0 t (32 + g.source) (Tab.get 0 t (32 + g.source) + 1)) p.freed }
  let s := s.modCap fun c =>
    { c with poolExhausted := true, unstored := satAdd c.unstored 1, unstoredSeen := true }
  let s := listPoison dlpn 1 b 3 s
  let s := match ld with
    | some (i, block) => placeRecord i .failure
        (.generalMedia 1 txHostWrite (BitVec.ofNat 64 (block * 2 ^ 28 + dlpn % 65536 * 4096 + 1024 * b))) s
    | none => recordPoison dlpn 1 b txHostWrite s
  fireEvent (if (s.extent (extentOf dlpn)).loaned then 65 else 67) s

end Sys2Proof.Machine
end

