-- ==== Sys2Proof/Machine/Qos.lean ====
section
/-! DEFINITION. Quality of service: profiles, the policer, the shaper, admission and the scaling of guarantees (chapter 13). -/
namespace Sys2Proof.Machine

/-- Lanes and GB/s per lane of a link's width and rate codes. -/
def widthLanes (w : BitVec 3) : Nat := if w = 0 then 0 else 2 ^ (w.toNat - 1)
def rateGbs (r : BitVec 3) : Nat := if r = 0 then 0 else 2 ^ (r.toNat - 1)

/-! ### Profiles (R375) -/

/-- Reserved trackers of a head and its cap on shared ones (R75). -/
def State.trackerReserve (s : State) (h : Nat) : Nat := 512 * s.headPorts h
def State.trackerCap (s : State) (h : Nat) : Nat := if s.headPorts h = 1 then 2048 else if s.headPorts h = 2 then 3072 else 4096
def State.headTrackers (s : State) (h : Nat) : Nat := s.trackerReserve h + s.trackerCap h

/-- The default of a profile parameter (R375). -/
def State.paramDefault (s : State) (ld i : Nat) : Nat :=
  if i = 0 then 3
  else if i = 1 then min 1024 (s.headTrackers (ld / 16) / max 1 (s.port (ld / 16)).trained.ldCount.toNat)
  else if i ∈ [2, 5, 7, 8] then 512000
  else if i ∈ [3, 9, 10] then 65536
  else 0

/-- The range of a profile parameter (R375). -/
def paramOk (i v : Nat) : Bool :=
  if i = 0 then decide (v ≤ 7)
  else if i = 1 then decide (1 ≤ v) && decide (v ≤ 1024)
  else if i ∈ [2, 5, 8] then decide (1 ≤ v) && decide (v ≤ 512000)
  else if i ∈ [3, 9, 10] then decide (64 ≤ v) && decide (v ≤ 16777216) && decide (v % 64 = 0)
  else if i = 4 then decide (v ≤ 480000)
  else if i = 6 then decide (v ≤ 3)
  else if i = 7 then decide (v ≤ 512000)
  else false

/-- A committed profile value. -/
def State.param (s : State) (ld i : Nat) : Nat := (Tab.get none s.qos.params (ld * 16 + i)).getD (s.paramDefault ld i)

/-- A value of the profile as a set would make it. -/
def State.paramWith (s : State) (set : List (Nat × Nat × Nat)) (ld i : Nat) : Nat :=
  ((set.find? fun e => e.1 = ld ∧ e.2.1 = i).map (·.2.2)).getD (s.param ld i)

/-- QOS_EXCESS[c]. -/
def excessReset (c : Nat) : BitVec 16 :=
  if c < 2 then 8000 else if c < 4 then 4000 else if c < 6 then 2000 else 1000
def State.excess (s : State) (c : Nat) : Nat := (Tab.get (excessReset c) s.qos.excess c).toNat
def State.excessSum (s : State) : Nat := ((List.range 7).map s.excess).sum

/-- ULQ_CTL and ULQ_METER of a link (R399). -/
def State.linkClass (s : State) (u : Nat) : Nat := (Tab.get 3 s.qos.linkClass u).toNat
def State.linkGuar (s : State) (u : Nat) : Nat := (Tab.get 0 s.qos.linkGuar u).toNat
def State.linkCir (s : State) (u : Nat) : Nat := (Tab.get 0x1F400 s.qos.linkCir u).toNat
def State.linkPir (s : State) (u : Nat) : Nat := (Tab.get 0x1F400 s.qos.linkPir u).toNat

/-! ### Deliverable bandwidth (R390) -/

/-- The largest tRFC of a channel's usable DIMMs, in ps. -/
def Chan.trfc (c : Chan) : Nat :=
  max (if c.usable.getLsbD 0 then (c.spd0.map fun d => d.ps.getD 13 0).getD 0 else 0)
    (if c.usable.getLsbD 1 then (c.spd1.map fun d => d.ps.getD 13 0).getD 0 else 0)

/-- d_dram in MB/s. -/
def State.ddram (s : State) : Nat :=
  let eff := if s.qos.eff then 85 else 70
  ((List.range 24).map fun i =>
    let c := s.chan i
    if c.state = .active then 800 * c.speed.toNat * eff * (if c.hot then 3900000 - c.trfc else 3900000) else 0).sum / 390000000
    - 1000 * s.qos.reserve.toNat

/-- d_host in MB/s. -/
def State.dhost (s : State) : Nat :=
  let r := s.qos.readPct.toNat
  let p := s.qos.packedPct.toNat
  let w := if s.qos.gather then 55 else 220
  s.ddram * 100000000 / (103 * (r * (10000 - 45 * p) + (100 - r) * (10000 + w * p - 100 * p)))

/-- U_h and H_h in MB/s. -/
def State.usableHead (s : State) (h : Nat) : Nat :=
  if (s.port h).up then widthLanes (s.port h).width * rateGbs (s.port h).rate * 1000 * 15 / 16 else 0
def State.headLimit (s : State) (h : Nat) : Nat :=
  s.usableHead h * 100 / max s.qos.readPct.toNat (100 - s.qos.readPct.toNat)

/-- Committed guarantees of a head's LDs, of the links, and in all: G. -/
def State.headGuar (s : State) (h : Nat) : Nat := ((s.headLds h).map fun i => s.param i 4).sum
def State.guarSum (s : State) : Nat := (s.heads.map s.headGuar).sum + ((List.range 3).map s.linkGuar).sum

/-- s, in 1/65,536 (R392). -/
def State.deviceScale (s : State) : Nat :=
  let g := s.guarSum
  let a := s.dhost - s.excessSum
  if g ≤ a ∧ s.excessSum ≤ s.dhost then 65536 else if g = 0 then 65536 else 65536 * a / g

/-- s_h, in 1/65,536 (R392). -/
def State.headScale (s : State) (h : Nat) : Nat :=
  if s.headGuar h = 0 then s.deviceScale else min s.deviceScale (65536 * s.headLimit h / s.headGuar h)

/-- The scale in force for a scope: a head, or 16 for the device. -/
def State.scale (s : State) (h : Nat) : Nat := Tab.get 65536 s.qos.scale h

/-- The scales as R392 derives them now. -/
def State.newScale (s : State) (h : Nat) : Nat :=
  if h = 16 then s.deviceScale else if s.isHead h then s.headScale h else 65536

/-- Deliverable bandwidth and effective guarantees are derived again; a change is owed a report, and the scaled condition follows
(R392, R393). DEDUCED, log 84. -/
def recomputeDelivery (s : State) : State :=
  let changed := (List.range 17).filter fun h => s.newScale h != s.scale h
  let owed := if changed.contains 16 then [16] else changed
  let scales := (List.range 17).foldl (fun t h => Tab.set 65536 t h (s.newScale h)) []
  let s := s.modQos fun q =>
    { q with scale := scales, dHost := s.dhost, dDram := s.ddram
             owed := owed.foldl (fun l h => insertNat h l) q.owed }
  condSet 68 ((List.range 17).any fun h => decide (s.scale h < 65536)) s

/-- Effective guarantees (R392). -/
def State.effective (s : State) (flow : Nat) : Nat :=
  if flow < 256 then s.param flow 4 * s.scale (flow / 16) / 65536 else s.linkGuar (flow - 256) * s.scale 16 / 65536

/-- A scale change is reported: at most one report per 10 ms for each scope (R393). -/
def execGuaranteeScaleReport (scope : Fin 17) (s : State) : Host.Outcome State Fault Refusal :=
  .next (
    let h := scope.val
    let last := Tab.get none s.qos.reported h
    if s.running && s.qos.owed.contains h && (last.map fun t => decide (t + 10 * msNs ≤ s.now)).getD true then
      let place := if h = 16 then 0xFF else h
      let arg := BitVec.ofNat 64 (s.qos.dHost * 2 ^ 32 + place * 2 ^ 24 + s.scale h)
      let s := s.modQos fun q => { q with owed := q.owed.erase h, reported := Tab.set none q.reported h (some s.now) }
      let s := if h = 16 then placeAll .warning (.vendor 3 arg) s else placeHead h .warning (.vendor 3 arg) s
      postDevice 9 (BitVec.ofNat 64 (s.scale h)) (BitVec.ofNat 64 s.qos.dHost) (BitVec.ofNat 64 s.guarSum) (BitVec.ofNat 64 place) s
    else s)

/-! ### The policer (R380, R387) -/

/-- A bucket after `dt` ns at a rate in MB/s, in 1/1000 byte, up to its burst in bytes. -/
def refill (tokens rate burst dt : Nat) : Nat := min (1000 * burst) (tokens + rate * dt)

/-- The marker of RFC 2698 on one request of 64 bytes: its colour, from the colour it came with, and the buckets after it. -/
def meter (colour tc tp : Nat) : Nat × Nat × Nat :=
  if colour = 2 ∨ tp < 64000 then (2, tc, tp)
  else if colour = 1 ∨ tc < 64000 then (1, tc, tp - 64000)
  else (0, tc - 64000, tp - 64000)

/-- Meter a request of a flow: an LD by its profile, a link by ULQ_METER with bursts of 65,536 bytes (R380, R387). -/
def meterFlow (flow colour : Nat) (s : State) : Nat × State :=
  let (cir, pir, cbs, pbs) :=
    if flow < 256 then (s.param flow 7, s.param flow 8, s.param flow 9, s.param flow 10)
    else (s.linkCir (flow - 256), s.linkPir (flow - 256), 65536, 65536)
  let (c, tc, tp) := match Tab.get none s.qos.buckets flow with
    | none => meter colour (1000 * cbs) (1000 * pbs)
    | some (tc, tp, t) => meter colour (refill tc cir cbs (s.now - t)) (refill tp pir pbs (s.now - t))
  (c, s.modQos fun q => { q with buckets := Tab.set none q.buckets flow (some (tc, tp, s.now)) })

/-! ### The shaper (R381, R382) -/

/-- The credit of an LD's shaper at the present tick, in 1/125 byte. -/
def State.credit (s : State) (ld : Nat) : Int :=
  let burst : Int := 125 * s.param ld 3
  match Tab.get none s.qos.credit ld with
  | none => burst
  | some (c, t) => min burst (c + (s.param ld 2 * (s.now / 8 - t) : Nat))

/-- Set the credit of an LD's shaper at the present tick. -/
def setCredit (ld : Nat) (c : Int) (s : State) : State :=
  s.modQos fun q => { q with credit := Tab.set none q.credit ld (some (c, s.now / 8)) }

/-- A release takes 64 bytes from the credit. -/
def spendCredit (ld : Nat) (s : State) : State := setCredit ld (s.credit ld - 8000) s

/-- A committed set takes effect in one tick; each LD's credit is settled under the old values first (R376, R382). -/
def applySet (set : List (Nat × Nat × Nat)) (s : State) : State :=
  let lds := (set.map (·.1)).eraseDups
  let s := forEach lds (fun i s => setCredit i (s.credit i) s) s
  let s := forEach set (fun e s => s.modQos fun q =>
    { q with params := Tab.set none q.params (e.1 * 16 + e.2.1) (some e.2.2) }) s
  recomputeDelivery (forEach lds (fun i s => setCredit i (s.credit i) s) s)

/-! ### Admission of a set (R391) -/

/-- The first of a list of numbers that passes a test. -/
def firstOf (l : List Nat) (p : Nat → Bool) : Option Nat := l.find? p

/-- The order of rates in an LD's profile. -/
def State.orderBad (s : State) (set : List (Nat × Nat × Nat)) (i : Nat) : Bool :=
  let v := s.paramWith set i
  decide (v 2 < v 4) || decide (v 5 < v 2) || decide (v 5 < v 8) || decide (v 8 < v 7)

/-- The result of QCOMMIT on a set (R391). -/
def State.judgeSet (s : State) (set : List (Nat × Nat × Nat)) : Nat :=
  let lds := s.allLds
  let guar := fun h => ((s.headLds h).map fun i => s.paramWith set i 4).sum
  let limits := fun h => ((s.headLds h).map fun i => s.paramWith set i 1).sum
  let before := fun h => ((s.headLds h).map fun i => s.param i 1).sum
  let g := (s.heads.map guar).sum + ((List.range 3).map s.linkGuar).sum
  if s.frozen && set.any (fun e => decide (e.2.1 = 4) && decide (s.param e.1 4 < e.2.2)) then 5
  else match firstOf lds (s.orderBad set) with
    | some i => 1 + 256 * i
    | none =>
      match firstOf s.heads fun h => decide (before h < limits h) && decide (s.headTrackers h < limits h) with
      | some h => 4 + 256 * ((firstOf (s.headLds h) fun i => set.any fun e => e.1 = i ∧ e.2.1 = 1).getD (16 * h))
      | none =>
        match firstOf s.heads fun h => decide (s.headGuar h < guar h) && decide (s.headLimit h < guar h) with
        | some h => 3 + 256 * h
        | none =>
          if s.guarSum < g ∧ s.dhost < g + s.excessSum then 2 + 2 ^ 32 * (g + s.excessSum - s.dhost) else 0

end Sys2Proof.Machine
end

