-- ==== Sys2Proof/Machine/Thread.lean ====
section
/-! DEFINITION. Threads of the policy cores: registers, the end of an invocation, traps, and the end of a device operation
(R289, R304, R308 to R310, R372). -/
namespace Sys2Proof.Machine

/-- Register g[n] of a thread; g0 reads 0 and discards writes (R289). -/
def Thread.reg (t : Thread) (n : Nat) : Word := if n = 0 then 0 else Tab.get 0 t.regs n
def Thread.setReg (t : Thread) (n : Nat) (v : Word) : Thread := if n = 0 then t else { t with regs := Tab.set 0 t.regs n v }

/-- Trap codes of R308. -/
def trapIllegal : Nat := 1
def trapPriv : Nat := 2
def trapAlign : Nat := 3
def trapBounds : Nat := 4
def trapDescLock : Nat := 5
def trapQuota : Nat := 6
def trapKey : Nat := 7
def trapWatchdog : Nat := 8
def trapQueueFull : Nat := 9
def trapFar : Nat := 10

/-- A level as THREAD_STAT.REGION and the trap report code it (R308, R313). -/
def Priv.code : Priv → Nat
  | .firmware => 0
  | .operator => 1
  | .tenant => 2

/-- The core of a thread. -/
def coreOf (t : Nat) : Nat := t / 4

/-- The comet of the thread's instruction reaches its last stage (R548, R549). -/
def closeComet (t : Nat) (stages : List Nat) (s : State) : State :=
  match (s.thread t).comet with
  | none => s
  | some c => writeComet (coreOf t / 2) (stages.foldl (fun c n => c.stamp n s.now) c) (s.modThread t fun u => { u with comet := none })

/-- The codes of an invocation's tickets are kept no longer (R306, R332). -/
def dropTickets (l : List (BitVec 16)) (s : State) : State :=
  forEach l (fun k s => s.modRil fun r =>
    match Tab.get none r.tickets k.toNat with
    | none => r
    | some x => { r with tickets := Tab.set none r.tickets k.toNat (if x.code.isSome then none else some { x with thread := none }) }) s

/-! ### The end of an activation (R365, R370) -/

/-- A little-endian field of an image. -/
def imgField (img : List Byte) (off n : Nat) : Nat := ((img.drop off).take n).foldr (fun b v => b.toNat + 256 * v) 0

/-- The directory's other half is written, with SEQUENCE plus 1 (R357). -/
def writeDirectory (f : Img → Img) (s : State) : State :=
  { s with img := { f s.img with sequence := s.img.sequence + 1, writes := s.img.writes + 1 } }

/-- The copies of a target in flash, and the one the directory does not name. -/
def Img.copy (i : Img) (op second : Bool) : List Byte :=
  match op, second with
  | false, false => i.fw0
  | false, true => i.fw1
  | true, false => i.op0
  | true, true => i.op1

/-- An image with SVN_COMMIT whose activation completes raises its target's floor, while a raise remains; a previous image below the
floor is discarded (R365). -/
def raiseFloor (a : Activation) (s : State) : State :=
  let i := s.img
  let svn := BitVec.ofNat 16 (imgField a.bytes 16 2)
  if a.target = 0 ∧ imgField a.bytes 18 1 % 2 = 1 ∧ i.fwFloor < svn ∧ i.fwRaises ≠ 0 then
    let s : State := { s with img := { i with fwFloor := svn, fwRaises := i.fwRaises - 1 } }
    if i.fwPrevious && decide (imgField (i.copy false (!i.fwCopy)) 16 2 < svn.toNat) then
      writeDirectory (fun (x : Img) => { x with fwPrevious := false }) s else s
  else if a.target = 1 ∧ imgField a.bytes 18 1 % 2 = 1 ∧ i.opFloor < svn ∧ i.opRaises ≠ 0 then
    let s : State := { s with img := { i with opFloor := svn, opRaises := i.opRaises - 1 } }
    if i.opPrevious && decide (imgField (i.copy true (!i.opCopy)) 16 2 < svn.toNat) then
      writeDirectory (fun (x : Img) => { x with opPrevious := false }) s else s
  else s

/-- The old bank is freed, and the Activate command completes (R370). -/
def finishActivation (a : Activation) (s : State) : State :=
  let s := s.modRil fun r => if r.active then { r with bank0 := {} } else { r with bank1 := {} }
  let s := raiseFloor a { s with img := { s.img with act := none } }
  s.modCci (cciIndex a.cci) fun c => { c with background := { c.background with running := false, percent := 100, code := 0 } }

/-- A thread holds an invocation. -/
def ThreadState.busy : ThreadState → Bool
  | .running | .deviceOp | .wait | .mwait => true
  | .free | .out => false

/-- After a swap, once no invocation is left in the old bank, the activation completes (R370). -/
def settleGrace (s : State) : State :=
  match s.img.act with
  | none => s
  | some a =>
    if a.swapped.isSome && (List.range 32).all fun t => !(s.thread t).state.busy || (s.thread t).bank == s.ril.active then
      finishActivation a s
    else s

/-- An invocation ends: the thread takes this state, and what belonged to the invocation is gone (R304, R337, R345). Its scratch stays
until the next invocation (R291). -/
def endInvocation (t : Nat) (st : ThreadState) (s : State) : State :=
  let s := dropTickets (s.thread t).tickets s
  settleGrace (s.modThread t fun u =>
    { u with state := st, ksel := none, staged := [], tickets := [], waitSet := [], waitUntil := none, tag := none, late := false
             cut := false, yieldFor := [] })

/-- The argument of a kind 0x0005 record (R372). -/
def imageArg (version skipped ld state : Nat) (rollback bank : Bool) (target : Nat) : BitVec 64 :=
  BitVec.ofNat 64 (target + 4 * flag bank + 8 * flag rollback + 16 * state + 256 * ld + 65536 * (skipped % 256) +
    2 ^ 24 * (version % 2 ^ 40))

/-- The active image of an LD in the tenant image store. -/
def State.tenantImage (s : State) (ld : Nat) : Option TenantImage := s.img.tenants.find? fun i => i.ld = ld ∧ i.active

/-- The handlers and timers of a tenant image are unbound, and a record says so (R310). -/
def unbindTenant (ld : Nat) (s : State) : State :=
  let mine := fun (b : Binding) => decide (b.owner = .tenant) && decide (b.ld = ld)
  let unbind : Queue → Queue := fun u => { u with bound := u.bound.bind fun b => if mine b then none else some b }
  let s : State := { s with queues := s.queues.map fun (e : Nat × Queue) => (e.1, unbind e.2) }
  let version := ((s.tenantImage ld).map fun (i : TenantImage) => imgField i.bytes 8 8).getD 0
  let s := s.modRil fun r => { r with tenantTraps := Tab.set [] r.tenantTraps ld [] }
  fireEvent 777 (placeRecord ld .info (.vendor 5 (imageArg version 0 ld 1 false s.ril.active 2)) s)

/-- A tenant image has trapped: at TRAP_LIMIT traps within 1 s its bindings go (R310). -/
def countTenantTrap (ld : Nat) (s : State) : State :=
  let times := s.now :: (Tab.get [] s.ril.tenantTraps ld).filter fun x => decide (s.now < x + secNs)
  let s := s.modRil fun r => { r with tenantTraps := Tab.set [] r.tenantTraps ld times }
  if s.ril.trapLimit.toNat ≤ times.length then unbindTenant ld s else s

/-- The location argument of a trap report (R308). -/
def Thread.location (u : Thread) (t : Nat) : Nat :=
  t + 256 * u.priv.code + (if u.priv = .tenant then 65536 * u.ld else 0)

/-- A trap: the invocation ends at the instruction, which has no effect, and the thread's scratch is zeroed before its next
invocation (R291, R308). -/
def takeTrap (t code : Nat) (s : State) : State :=
  let u := s.thread t
  let s := (closeComet t [] (endInvocation t .free s)).modThread t fun v => { v with scratchOwner := none }
  let s := s.modRil fun r =>
    { r with trapCounts := Tab.set 0 r.trapCounts code (satAdd (Tab.get 0 r.trapCounts code) 1)
             lastTrap := BitVec.ofNat 8 code, lastTrapThread := BitVec.ofNat 5 t, lastTrapPc := u.pc }
  let s := fireEvent 776 s
  let s := if u.queue = 2 then s
    else postDevice 2 (BitVec.ofNat 64 code) (BitVec.ofNat 64 (u.location t)) (u.pc.setWidth 64) (BitVec.ofNat 64 u.queue) s
  if u.priv = .tenant then countTenantTrap u.ld s else s

/-- Uptime at which an invocation's watchdog expires (R309). -/
def watchdogNs : Nat := 10 * msNs

/-- A thread's device operation completes: its result, and it runs on; an invocation whose watchdog expired meanwhile traps, and the
result is discarded (R309); one whose bank was freed meanwhile traps at its next fetch (R370). -/
def deviceDone (t reg : Nat) (v : Word) (s : State) : State :=
  if (s.thread t).late then takeTrap t trapWatchdog s
  else if (s.thread t).cut then takeTrap t trapIllegal s
  else closeComet t [2, 4] (s.modThread t fun u => { u.setReg reg v with state := .running })

/-- MWAIT returns: its code, and the watchdog starts anew (R309, R332). -/
def mwaitDone (t : Nat) (code : Nat) (s : State) : State :=
  closeComet t [2, 4] (s.modThread t fun u =>
    { u.setReg u.mwaitReg (BitVec.ofNat 64 code) with state := .running, watchFrom := s.now })

end Sys2Proof.Machine
end

