-- ==== Sys2Proof/Machine/Move.lean ====
section
/-! DEFINITION. Mover operations as others see them: tickets, completion and abort (R176, R187, R188, R306, R332). -/
namespace Sys2Proof.Machine

/-- A ticket completes with a code: its completion queue gets an entry, and a thread in MWAIT for it runs on (R306, R332). -/
def completeTicket (ticket : BitVec 16) (code : Nat) (s : State) : State :=
  match Tab.get none s.ril.tickets ticket.toNat with
  | none => s
  | some k =>
    let s := match k.queue with
      | some q => postDevice q (ticket.setWidth 64) (BitVec.ofNat 64 code) (BitVec.ofNat 64 k.dlpn) 0 s
      | none => s
    let keep := k.thread.isSome
    let s := s.modRil fun r =>
      { r with tickets := Tab.set none r.tickets ticket.toNat (if keep then some { k with code := some code } else none) }
    forEach ((List.range 32).filter fun t => (s.thread t).state = .mwait ∧ (s.thread t).mwaitTicket = ticket)
      (fun t s => mwaitDone t code s) s

/-- A mover operation completes with a code of R176. -/
def finishOp (q : Nat) (op : MoverOp) (ticket : Option (BitVec 16)) (code : Nat) (s : State) : State :=
  let s := s.modQuad q fun d =>
    { d with
      aborts := if code = 6 then satAdd d.aborts 1 else d.aborts
      promoted := if op = .heatUnpack ∧ code = 0 then satAdd d.promoted 1 else d.promoted
      suppressed := if op = .heatUnpack ∧ (code = 3 ∨ code = 4) then satAdd d.suppressed 1 else d.suppressed }
  let s := if code = 6 then fireEvent 782 s else s
  match ticket with
  | some t => completeTicket t code s
  | none => s

/-- Change a page's mover record. -/
def modRecord (q dlpn : Nat) (f : MoverRec → MoverRec) (s : State) : State :=
  s.modQuad q fun d => { d with records := d.records.map fun r => if r.dlpn = dlpn ∧ r.phase ≠ .free then f r else r }

/-- Lines charged in M are given back. -/
def releaseM (n : Nat) (s : State) : State := if n = 0 then s else updateCapacity (s.modCap fun c => { c with m := c.m - n })

/-- A recall's reads at its guest are given up. -/
def dropRecall (dlpn : Nat) (s : State) : State :=
  s.modPath fun p => { p with reqs := p.reqs.filter fun r => r.source != 22 || r.dlpn != dlpn }

/-- End an operation before its swap with a code (R176, R188): the destination is freed, the charge returned, and the page holds its
source state again unless it is now POISONED. -/
def endRecord (q : Nat) (r : MoverRec) (code : Nat) (s : State) : State :=
  let s := dropRecall r.dlpn s
  let s := s.modQuad q fun d => { d with records := d.records.filter fun x => x.dlpn != r.dlpn || x.phase = .free }
  let s := if r.placed then
      (match r.op with
        | .demote g => sendFarFree g (locRemote r.dstLoc) r.dlpn s
        | _ => freeStorage (locLine r.dstLoc) r.dstSlots s)
    else s
  let s := releaseM r.inM s
  let d := s.desc r.dlpn
  let s := if r.phase = .claim then s
    else if d.state = .moving then
      setDesc r.dlpn { d with state := stateOf r.srcState, lock := false } s
    else setLock r.dlpn false s
  finishOp q r.op r.ticket code s

/-- Abort an operation (R188). -/
def abortRecord (q : Nat) (r : MoverRec) (s : State) : State := endRecord q r 6 s

/-- Abort what moves a page, if something does and its swap is not made (R188). -/
def abortMove (dlpn : Nat) (s : State) : State :=
  match (List.range 4).findSome? fun q =>
      ((s.quad q).records.find? fun r => decide (r.dlpn = dlpn) && decide (r.phase ≠ .swap) && decide (r.phase ≠ .free)).map fun r => (q, r) with
  | some (q, r) => abortRecord q r s
  | none => s

/-! ### Pages that become poisoned (R264, R281) -/

/-- A block of a page is marked poisoned: BPOISON in both copies, and its list entry (R264). -/
def markBlock (dlpn b source : Nat) (s : State) : State :=
  listPoison dlpn 1 b source (modDesc dlpn (fun d => { d with bpoison := d.bpoison ||| BitVec.ofNat 4 (2 ^ b) }) s)

/-- A page becomes POISONED: what moves it aborts, its storage is freed, and one page entry replaces its line and block entries
(R125, R188, R264, R271). -/
def poisonPage (dlpn source : Nat) (s : State) : State :=
  let d := s.desc dlpn
  let (st, loc, len) := s.source dlpn
  let s := giveBack (extentOf dlpn) (pageLines st len) s
  let s := setDesc dlpn { d with state := .poisoned, location := 0, blockLen := 0, lock := false, bpoison := 0 } s
  let s := match st with
    | .plain => freeAfter dlpn (locLine loc) 0 s
    | .packed => if lenSum len 4 = 0 then s else freeAfter dlpn (locLine loc) (lenSum len 4) s
    | .far => sendFarFree (locGuest loc) (locRemote loc) dlpn s
    | _ => s
  listPoison dlpn 2 0 source (unlistPage dlpn (abortMove dlpn s))

/-- A page whose four BPOISON bits are all set becomes POISONED (R264). -/
def poisonIfWhole (dlpn source : Nat) (s : State) : State :=
  if (s.desc dlpn).bpoison = 15 ∧ (s.desc dlpn).state ≠ .poisoned then poisonPage dlpn source s else s

/-- A line of a PLAIN page is rewritten with the poisoned line tag and listed (R264). -/
def markLine (dlpn lineNo l source : Nat) (s : State) : State :=
  listPoison dlpn 0 lineNo source (putLine l { s.lineNow l with poisoned := true } s)

end Sys2Proof.Machine
end

