-- ==== Sys2Proof/Machine/Descriptor.lean ====
section
/-! DEFINITION. Descriptor lines: their two copies, acknowledgement, validation and encoding (R120 to R123, R129, R195). -/
namespace Sys2Proof.Machine

/-- A descriptor as a copy is written: a LOCK that a PACKED eviction holds is written as 0, the mover's stays (R192, R195). -/
def State.descWritten (s : State) (d : Nat) : Desc :=
  if (s.record d).isSome then s.desc d else { s.desc d with lock := false }

/-- The four DLPNs of a descriptor line. -/
def lineDlpns (k : Nat) : List Nat := [4 * k, 4 * k + 1, 4 * k + 2, 4 * k + 3]

/-- Copy A of a descriptor line goes out: it takes every change made so far (R195). -/
def writeCopyA (k : Nat) (m : MetaDirty) (s : State) : State :=
  let s := forEach (lineDlpns k) (fun d s => s.modMeta fun t =>
    { t with copyA := Tab.set (s.descReset d) t.copyA d (s.descWritten d) }) s
  s.modMeta fun t => { t with dirty := Tab.set none t.dirty k (some
    { m with aOut := true, acks := [], acksB := m.acks, frees := [], freesB := m.frees }) }

/-- A pair of writes is complete: the threads that waited run on, and the storage it made free is freed (R129, R163). -/
def acknowledge (acks : List Nat) (frees : List (Nat × Nat)) (s : State) : State :=
  let s := forEach acks (fun t s => if (s.thread t).state = .deviceOp then deviceDone t 0 0 s else s) s
  forEach frees (fun f => freeStorage f.1 f.2) s

/-- A descriptor line has changed since copy A was written. -/
def State.lineChanged (s : State) (k : Nat) : Bool := (lineDlpns k).any fun d => decide (s.descWritten d ≠ s.descA d)

/-- Copy B goes out after copy A: the change is acknowledged, and a later change starts a new pair (R195). -/
def writeCopyB (k : Nat) (m : MetaDirty) (s : State) : State :=
  let s := forEach (lineDlpns k) (fun d s => s.modMeta fun t =>
    { t with copyB := Tab.set (s.descReset d) t.copyB d (s.descA d) }) s
  let more := s.lineChanged k || !m.acks.isEmpty || !m.frees.isEmpty
  let s := s.modMeta fun t => { t with dirty := Tab.set none t.dirty k (if more then some { acks := m.acks, frees := m.frees } else none) }
  acknowledge m.acksB m.freesB s

/-- Both copies of a descriptor line are written at once, before its extent's blocks are given up. -/
def settleLine (k : Nat) (s : State) : State :=
  match s.dirty k with
  | none => s
  | some m =>
    acknowledge (m.acksB ++ m.acks) (m.freesB ++ m.frees)
      (s.modMeta fun t => { t with dirty := Tab.set none t.dirty k none })

/-- The dirty descriptor lines of an extent. -/
def State.dirtyLines (s : State) (e : Nat) : List Nat :=
  s.mdata.dirty.filterMap fun x => if x.1 / 16384 = e then some x.1 else none

/-! ### The 16 bytes of a descriptor (R120 to R122) -/

/-- One bit of CRC-16, polynomial 0x1021. -/
def crc16Bit (c : BitVec 16) : BitVec 16 := if c.getLsbD 15 then (c <<< 1) ^^^ 0x1021#16 else c <<< 1

/-- One byte of CRC-16, most significant bit first. -/
def crc16Byte (c : BitVec 16) (b : Byte) : BitVec 16 :=
  (List.range 8).foldl (fun c _ => crc16Bit c) (c ^^^ (b.setWidth 16 <<< 8))

/-- CRC-16 of R122. -/
def crc16 (l : List Byte) : BitVec 16 := l.foldl crc16Byte 0xFFFF#16

/-- Bits [111:0] of a descriptor. -/
def descBits (d : Desc) : BitVec 112 :=
  0#12 ++ d.bpoison ++ d.wgen ++ d.blockLen ++ d.location ++ d.keySlot ++ 0#2 ++ (if d.fixed then 1#1 else 0#1) ++
    (if d.lock then 1#1 else 0#1) ++ BitVec.ofNat 4 d.state.code

/-- A descriptor with its CRC, bits [127:0] (R120, R122). -/
def encodeDesc (d : Desc) : BitVec 128 :=
  crc16 ((List.range 14).map fun i => (descBits d).extractLsb' (8 * i) 8) ++ descBits d

/-- A descriptor from its bits. -/
def decodeDesc (w : BitVec 128) : Desc :=
  { state := stateOf (w.extractLsb' 0 4).toNat, lock := w.getLsbD 4, fixed := w.getLsbD 5, keySlot := w.extractLsb' 8 12
    location := w.extractLsb' 20 44, blockLen := w.extractLsb' 64 20, wgen := w.extractLsb' 84 12, bpoison := w.extractLsb' 96 4 }

/-- LOCATION and BLOCK_LEN are valid for a state (R123). -/
def placeValid (st : PageState) (loc : BitVec 44) (len : BitVec 20) : Bool :=
  let chanOk := decide ((loc.extractLsb' 33 5).toNat < 24) && decide (loc.extractLsb' 38 6 = 0)
  match st with
  | .plain => chanOk && decide (loc.extractLsb' 0 6 = 0)
  | .packed => chanOk && (List.range 4).all fun b => decide (blockLen len b ≤ 16)
  | _ => true

/-- A stored descriptor passes validation (R123); `source` is the source state of a MOVING page. -/
def descValid (source : Option PageState) (w : BitVec 128) : Bool :=
  let d := decodeDesc w
  decide (encodeDesc d = w) && decide ((w.extractLsb' 0 4).toNat < 8) &&
    placeValid (if d.state = .moving then source.getD .moving else d.state) d.location d.blockLen

/-- A descriptor copy write goes out on its DIMM bus: copy A, then copy B (R195). -/
def stepDescriptor (k : Nat) (s : State) : State :=
  match s.dirty k with
  | none => s
  | some m => if m.aOut then writeCopyB k m s else writeCopyA k m s

end Sys2Proof.Machine
end

