-- ==== Sys2Proof/Machine/Extent.lean ====
section
/-! DEFINITION. Extents: the DPA map, admission, offers, release, crypto-erase and zeroing (R77 to R85, R114 to R119, R126 to
R136, R208, R210, R217, R218). -/
namespace Sys2Proof.Machine

/-! ### The DPA map (R116, R118) -/

/-- The set of an entry (R116). -/
def dpaSet (ld block : Nat) : Nat := ((block % 65536) ^^^ (ld * 256) ^^^ (block / 65536)) % 65536

def State.dpaWays (s : State) (n : Nat) : List DpaEntry := Tab.get [] s.cap.dpaMap n

/-- The entry of a DPA block of an LD. -/
def State.dpaFind (s : State) (ld block : Nat) : Option DpaEntry :=
  (s.dpaWays (dpaSet ld block)).find? fun m => decide (m.ld.toNat = ld) && decide (m.block.toNat = block)

/-- Add an entry to its set. -/
def addMapping (m : DpaEntry) (s : State) : State :=
  let n := dpaSet m.ld.toNat m.block.toNat
  s.modCap fun c => { c with dpaMap := Tab.set [] c.dpaMap n (s.dpaWays n ++ [m]) }

/-- The hint page of an LD's tenant image lies in an extent that the LD loses: hint events stop (R373). -/
def dropHint (ld e : Nat) (s : State) : State :=
  s.modRil fun r =>
    match Tab.get none r.hints ld with
    | some (d, _) => if d / 65536 = e then { r with hints := Tab.set none r.hints ld none } else r
    | none => r

/-- Remove the entry of a DPA block of an LD, its offer, its copies in the ports' translation caches (R28), and the hint page in it. -/
def dropMapping (ld block : Nat) (s : State) : State :=
  let s := match s.dpaFind ld block with
    | some m => if m.home = s.ident.devId then dropHint ld m.extent.toNat s else s
    | none => s
  let n := dpaSet ld block
  let s := s.modCap fun c =>
    { c with dpaMap := Tab.set [] c.dpaMap n ((s.dpaWays n).filter fun m => m.ld.toNat != ld || m.block.toNat != block)
             offers := c.offers.filter fun o => o.1 != ld || o.2.1 != block }
  s.modPath fun p => { p with cache := p.cache.map fun e => (e.1, e.2.filter fun x => x != (ld, block)) }

/-- The offer of a further mapping is not answered yet. -/
def State.isOffer (s : State) (ld block : Nat) : Bool := s.cap.offers.any fun o => decide (o.1 = ld) && decide (o.2.1 = block)

/-- The block lies in one of the LD's configured regions (R77). -/
def State.inRegion (s : State) (ld block : Nat) : Bool :=
  (s.ld ld).regions.any fun r => decide (r.2.base ≤ block) && decide (block < r.2.base + r.2.len)

/-- A set that these blocks would fill beyond its 4 ways. -/
def State.mapFull (s : State) (ld block n : Nat) : Bool :=
  let sets := (List.range n).map fun i => dpaSet ld (block + i)
  sets.any fun k => decide (4 < (s.dpaWays k).length + sets.count k)

/-! ### Places for descriptor blocks (R128) -/

/-- Of these channels, the ACTIVE one with the most free 1 MiB frames, the lowest-numbered of equals. -/
def State.mostMegas (s : State) (l : List Nat) : Option Nat :=
  (l.foldl (fun (m : Option (Nat × Nat)) c =>
    let n := if s.activeChan c then s.megasFree c else 0
    if (m.map (·.2)).getD 0 < n then some (c, n) else m) none).map (·.1)

/-- A free 1 MiB frame of a channel as DPHA[43:20]. -/
def State.megaOn (s : State) (c : Nat) : Option Nat := (s.freeMega c).map fun f => c * 2 ^ 19 + f

/-- The places of two copies: copy A on the preferred channel if it can be there, copy B outside its quadrant if it can. -/
def State.megaPair (s : State) (prefer : Nat) : Option (Nat × Nat) :=
  let all := List.range 24
  match (if (s.megaOn prefer).isSome then some prefer else s.mostMegas all) with
  | none => none
  | some a =>
    let far := s.mostMegas (all.filter fun c => c / 6 != a / 6)
    let near := s.mostMegas (all.filter fun c => decide (c / 6 = a / 6) && c != a)
    match s.megaOn a, (if far.isSome then far else near).bind s.megaOn with
    | some x, some y => some (x, y)
    | _, _ => none

/-- Place the two descriptor blocks of an extent. -/
def placeBlocks (e fill : Nat) (s : State) : Option State :=
  (s.megaPair fill).map fun p =>
    (useMega p.1 (some (.descA e)) (useMega p.2 (some (.descB e)) s)).modExtent e fun x =>
      { x with mirrorA := BitVec.ofNat 24 p.1, mirrorB := BitVec.ofNat 24 p.2 }

/-- Place the blocks of n extents, or of none. -/
def placeAllBlocks (first fill : Nat) : Nat → State → Option State
  | 0, s => some s
  | n + 1, s => (placeAllBlocks first fill n s).bind (placeBlocks (first + n) fill)

/-! ### Admission (R134, R135, R208) -/

/-- The lowest run of n extent numbers that are FREE. -/
def State.freeExtents (s : State) (n : Nat) : Option Nat :=
  let used := (s.cap.extents.filter fun e => e.2.state ≠ .free).map (·.1)
  smallest ((0 :: used.map (· + 1)).filter fun f =>
    decide (f + n ≤ 262144) && used.all fun u => decide (u < f) || decide (f + n ≤ u))

/-- Lines that admission weighs for one extent of a grant (R134). -/
def Grant.cost (g : Grant) : Nat := if g.loaned && !g.fixed then metaLines else assuredLines

/-- A block of the grant lies outside the LD's regions or is mapped already. -/
def State.badRegion (s : State) (g : Grant) : Bool :=
  (List.range g.count).any fun i => !s.inRegion g.ld (g.block + i) || (s.dpaFind g.ld (g.block + i)).isSome

/-- Extents of this device that are shared, and those of others that it maps (R83, R437). -/
def State.sharedCount (s : State) : Nat :=
  (s.cap.extents.filter fun e => e.2.shared && e.2.counts).length +
    ((s.cap.dpaMap.flatMap fun x => x.2.filterMap fun m =>
      if m.home = s.ident.devId then none else some (m.home.toNat, m.extent.toNat)).eraseDups).length

/-- A further mapping of an extent breaks R83. -/
def State.sharedLimit (s : State) (e ld : Nat) : Bool :=
  !(s.extent e).counts || decide (64 ≤ (s.extent e).mappings.toNat) ||
    (!(s.extent e).shared && decide (1024 ≤ s.sharedCount)) ||
    (s.mappings e).any fun m => decide (m.1 / 16 = ld / 16)

/-- The channel that the extent table records: the one given, or the ACTIVE one with the most free frames (R342). -/
def State.fillChannel (s : State) (g : Grant) : Nat :=
  match g.fill with
  | some c => c
  | none => (((List.range 24).foldl (fun (m : Option (Nat × Nat)) c =>
      let n := if s.activeChan c then s.framesFree c + 1 else 0
      if (m.map (·.2)).getD 0 < n then some (c, n) else m) none).map (·.1)).getD 0

/-- A shared extent is mapped to another LD (R135): the checks 1, 2, 7 and 9. DEDUCED, log 68. -/
def mapExtent (e : Nat) (g : Grant) (s : State) : Nat × State :=
  let g := { g with count := 1 }
  if s.frozen then (1, s)
  else if s.badRegion g then (2, s)
  else if s.mapFull g.ld g.block 1 then (7, s)
  else if s.sharedLimit e g.ld then (9, s)
  else
    let s := s.modExtent e fun x => { x with shared := true, mappings := x.mappings + 1 }
    let s := addMapping { ld := BitVec.ofNat 8 g.ld, block := BitVec.ofNat 24 g.block, home := s.ident.devId
                          extent := BitVec.ofNat 18 e, shared := true } s
    let s := s.modCap fun c => { c with offers := c.offers ++ [(g.ld, g.block, c.nextGrant)], nextGrant := c.nextGrant + 1 }
    (0, placeRecord g.ld .dynamicCapacity (.dynamicCapacity 0 (BitVec.ofNat 64 (g.block * 2 ^ 28)) (s.extent e).tag) s)

/-- A slot gives its key to n more extents (R210). -/
def takeKey (k n : Nat) (s : State) : State :=
  if k = 0 then s else s.modKeySlot k fun x => { x with state := .bound, count := x.count + n }

/-- An extent that named a slot is gone; the last one leaves a CLOSING slot empty (R210). -/
def returnKey (k : Nat) (s : State) : State :=
  if k = 0 then s
  else s.modKeySlot k fun x =>
    if 1 < x.count then { x with count := x.count - 1 }
    else if x.state = .closing then {} else { x with count := 0, state := .loaded }

/-- The Add Capacity record of an extent (R78). -/
def announce (e : Nat) (s : State) : State :=
  let x := s.extent e
  placeRecord x.ld.toNat .dynamicCapacity (.dynamicCapacity 0 (BitVec.ofNat 64 (x.block.toNat * 2 ^ 28)) x.tag)
    (s.modExtent e fun x => { x with announced := true })

/-- One extent of a grant becomes OFFERED: its entry, its salt and its mapping (R133, R208). -/
def offerExtent (g : Grant) (first fill i : Nat) (s : State) : State :=
  let e := first + i
  let s := { s with draws := s.draws + 1 }.modExtent e fun x =>
    { x with state := .offered, loaned := g.loaned, fixed := g.fixed, newPacked := g.packed, ld := BitVec.ofNat 8 g.ld
             block := BitVec.ofNat 24 (g.block + i), keySlot := BitVec.ofNat 12 g.slot, fillChannel := BitVec.ofNat 5 fill
             mappings := 1, grantFirst := first, grantCount := g.count, grantOrder := s.cap.nextGrant, tag := g.tag
             doneQueue := g.queue, salt := some s.draws }
  let s := addMapping { ld := BitVec.ofNat 8 g.ld, block := BitVec.ofNat 24 (g.block + i), home := s.ident.devId
                        extent := BitVec.ofNat 18 e, shared := false } s
  if g.fixed then s else announce e s

/-- The completion entry of a grant, once the record of its last extent has been placed (R342). -/
def grantDone (first : Nat) (s : State) : State :=
  let x := s.extent first
  match x.doneQueue with
  | some q =>
    if (List.range x.grantCount).all fun i => (s.extent (first + i)).announced then
      postDevice q (BitVec.ofNat 64 first) (BitVec.ofNat 64 x.grantCount) 0 0 s
    else s
  | none => s

/-- Admission decides on a grant: the code of R134, in its order of checks, and the first extent number. -/
def admitGrant (g : Grant) (s : State) : Nat × Nat × State :=
  let n := g.count
  match g.map with
  | some e => let r := mapExtent e g s; (r.1, e, r.2)
  | none =>
    if s.frozen then (1, 0, s)
    else if s.badRegion g then (2, 0, s)
    else if s.logicalCap < s.logicalExtents + n then (3, 0, s)
    else if !g.loaned ∧ s.capP - s.capF < s.capAR + assuredLines * n then (4, 0, s)
    else if s.capU - (g.cost * n : Nat) < s.capF then (5, 0, s)
    else match s.freeExtents n with
      | none => (6, 0, s)
      | some first =>
        if s.mapFull g.ld g.block n then (7, 0, s)
        else match placeAllBlocks first (s.fillChannel g) n s with
          | none => (8, 0, s)
          | some t =>
            let t := forEach (List.range n) (offerExtent g first (s.fillChannel g)) t
            let t := takeKey g.slot n (t.modCap fun c => { c with nextGrant := c.nextGrant + 1 })
            (0, first, updateCapacity (if g.fixed then t else grantDone first t))

/-! ### Ends of extents (R133, R136, R210, R217) -/

/-- The DLPNs of an extent whose descriptor is not at its reset value. -/
def State.livePages (s : State) (e : Nat) : List Nat :=
  s.mdata.desc.filterMap fun x => if extentOf x.1 = e then some x.1 else none

/-- An extent number becomes FREE: its descriptor blocks are freed and its descriptors are gone. -/
def freeExtent (e : Nat) (s : State) : State :=
  let s := forEach (s.dirtyLines e) settleLine s
  let x := s.extent e
  let s := useMega x.mirrorA.toNat none (useMega x.mirrorB.toNat none s)
  let keep := fun (t : Tab Desc) => t.filter fun d => extentOf d.1 != e
  let s := s.modMeta fun m => { m with desc := keep m.desc, copyA := keep m.copyA, copyB := keep m.copyB }
  let s := s.modCap fun c => { c with footprint := Tab.erase c.footprint e, releaseList := c.releaseList.erase e }
  s.modExtent e fun _ => {}

/-- An OFFERED extent returns to FREE: its mapping, its blocks and what its fill has taken are given back (R133). DEDUCED, log 69. -/
def withdraw (e : Nat) (s : State) : State :=
  let s := forEach (s.mappings e) (fun m => dropMapping m.1 m.2) s
  let s := forEach (s.livePages e) (fun d s =>
    if (s.desc d).state = .plain then freeStorage (locLine (s.desc d).location) 0 s else s) s
  let s := returnKey (s.extent e).keySlot.toNat (unlistExtent e s)
  updateCapacity (freeExtent e { s with waiters := s.waiters.filter (· != .fill e) })
where
  /-- The extent's poison leaves the list. -/
  unlistExtent (e : Nat) (s : State) : State :=
    s.modInteg fun i => { i with poison := i.poison.filter fun p => extentOf p.dlpn != e }

/-- Writes of an extent in write gather are discarded, with their charges (R136). -/
def dropGathered (e : Nat) (s : State) : State :=
  let mine := s.gather.charges.filter fun c => extentOf (c.1 / 8) = e
  let s := addFootprint e (-((mine.map (·.2)).sum : Nat)) s
  let gone := s.gather.entries.filter fun g => extentOf g.dlpn = e
  let s := s.modGather fun g =>
    { g with entries := g.entries.filter fun x => extentOf x.dlpn != e, charges := g.charges.filter fun c => extentOf (c.1 / 8) != e }
  s.modPath fun p => { p with
    freed := gone.foldl (fun t g => Tab.set 0 t (32 + g.source) (Tab.get 0 t (32 + g.source) + 1)) p.freed
    contexts := p.contexts.filter fun c => extentOf c.1 != e }

/-- An extent enters ERASING (R217): mappings, salt, key count, moves, gathered writes; its storage counts in Z. -/
def enterErasing (e : Nat) (s : State) : State :=
  let s := forEach (s.mappings e) (fun m => dropMapping m.1 m.2) s
  let pages := (List.range 4).flatMap fun q => ((s.quad q).records.filter fun r => extentOf r.dlpn = e).map (·.dlpn)
  let s := forEach pages abortMove (dropGathered e s)
  let z := s.footprint e
  let s := s.modExtent e fun x => { x with state := .erasing, salt := none, mappings := 0, releasing := false }
  let s := s.modCap fun c => { c with z := c.z + z, releaseList := c.releaseList.erase e }
  let s := s.modInteg fun i => { i with poison := i.poison.filter fun p => extentOf p.dlpn != e }
  updateCapacity (returnKey (s.extent e).keySlot.toNat { s with waiters := s.waiters.filter fun w => match w with
    | .packed d _ => extentOf d != e
    | .first d => extentOf d != e
    | _ => true })

/-- The lines of an extent that the snoop directory holds, with their heads (R85). -/
def State.extentSnoops (s : State) (e : Nat) : List Snoop :=
  s.path.directory.flatMap fun x =>
    if x.1 / 2 ^ 40 = s.self ∧ extentOf (x.1 % 2 ^ 40 / 64) = e then
      (((List.range 16).filter fun h => x.2.getLsbD h)).map fun h => { head := h, line := x.1, inv := true }
    else []

/-- Snoops go out. -/
def sendSnoops (l : List Snoop) (s : State) : State :=
  let new := l.filter fun x => !s.path.snoops.contains x
  let s := forEach new (fun x s => s.emit (.snoop x.head x.line x.inv)) s
  s.modPath fun p => { p with snoops := p.snoops ++ new }

/-- The last mapping of an extent is released: at once, or after the last BIRsp of its lines (R85, R133). -/
def releaseLast (e : Nat) (s : State) : State :=
  let l := if (s.extent e).shared then s.extentSnoops e else []
  if l.isEmpty then enterErasing e s
  else sendSnoops l ((s.modExtent e fun x => { x with releasing := true }).modPath fun p =>
    { p with directory := p.directory.filter fun x => !(x.1 / 2 ^ 40 = s.self ∧ extentOf (x.1 % 2 ^ 40 / 64) = e) })

/-- A shared extent whose snoops are all answered completes its release (R85). -/
def finishReleases (s : State) : State :=
  forEach (s.cap.extents.filterMap fun x => if x.2.releasing then some x.1 else none) (fun e s =>
    if s.path.snoops.any fun n => decide (n.line / 2 ^ 40 = s.self) && decide (extentOf (n.line % 2 ^ 40 / 64) = e) then s
    else enterErasing e s) s

/-- One mapping is released: the extent enters ERASING with its last (R133); a mapping of another home is unmapped there (R437). -/
def releaseMapping (ld block : Nat) (s : State) : State :=
  match s.dpaFind ld block with
  | none => s
  | some m =>
    let e := m.extent.toNat
    if m.home ≠ s.ident.devId then
      openTxn m.home.toNat { op := 10, index := e, words := [e, 1, ld] } 0 0 0 0 [e, 1, ld, block] (dropMapping ld block s)
    else if (s.extent e).mappings.toNat ≤ 1 then releaseLast e s
    else (dropMapping ld block s).modExtent e fun x => { x with mappings := x.mappings - 1 }

/-! ### Zeroing (R136, R218) -/

/-- The page of an erasing extent to zero next: its storage lies lowest in DPHA; and its line address. -/
def State.nextToZero (s : State) (e : Nat) : Option (Nat × Nat) :=
  (s.livePages e).foldl (fun (m : Option (Nat × Nat)) d =>
    let x := s.desc d
    if x.state = .plain ∨ (x.state = .packed ∧ 0 < lenSum x.blockLen 4) then
      let l := locLine x.location
      match m with
      | some (_, k) => if l < k then some (d, l) else m
      | none => some (d, l)
    else m) none

/-- The far pages of an erasing extent. -/
def State.farPages (s : State) (e : Nat) : List Nat := (s.livePages e).filter fun d => (s.desc d).state = .far

/-- Storage of an erasing extent has been zeroed. -/
def lowerZ (e n : Nat) (s : State) : State :=
  updateCapacity ((addFootprint e (-(n : Int)) s).modCap fun c => { c with z := c.z - n })

/-- Nothing is left to zero, and both copies of every descriptor say so: the extent is FREE (R133, R218). -/
def finishErase (e : Nat) (s : State) : State :=
  if (s.extent e).state = .erasing ∧ (s.nextToZero e).isNone ∧ (s.farPages e).isEmpty ∧ (s.dirtyLines e).isEmpty then freeExtent e s else s

/-- Zero the next unit of an erasing extent's storage: a page's frame or run in DPHA order; then its far pages (R218). -/
def zeroNext (e : Nat) (s : State) : State :=
  match s.nextToZero e with
  | some (d, l) =>
    let x := s.desc d
    let n := pageLines x.state x.blockLen
    let s := clearLines l n s
    let s := setDesc d { s.descReset d with wgen := x.wgen } s
    let s := freeAfter d l (if x.state = .packed then n else 0) s
    lowerZ e n s
  | none =>
    match (s.farPages e).find? fun d => !s.const.opened.any fun o => decide (o.op = 8) && decide (o.dlpn = d) with
    | none => finishErase e s
    | some d =>
      let x := s.desc d
      if (s.route (locGuest x.location)).isSome then sendFarFree (locGuest x.location) (locRemote x.location) d s
      else setDesc d (s.descReset d) (sendFarFree (locGuest x.location) (locRemote x.location) d s)

/-- Background zeroing writes its next unit (R218). In distress it goes before mover work other than EVAC (R136). -/
def execZeroingWrite (e : BitVec 18) (s : State) : Host.Outcome State Fault Refusal :=
  .next (if s.running && s.start.phase9Done && decide ((s.extent e.toNat).state = .erasing) then zeroNext e.toNat s else s)

/-! ### The fill of FIXED extents (R126, R127) -/

/-- The distance of two quadrants on the ring (R19). -/
def ringDistance (a b : Nat) : Nat := let d := (a + 4 - b) % 4; min d (4 - d)

/-- The channels that a FIXED extent's frames come from, in order. -/
def State.fillOrder (s : State) (fill : Nat) : List Nat :=
  let rest := (List.range 24).filter fun c => c / 6 != fill / 6
  s.placeOrder fill false ++ ([1, 2].flatMap fun d => rest.filter fun c => ringDistance (c / 6) (fill / 6) = d).filter s.activeChan

/-- What a page waits for a place says so: slab shortage, at most once in 100 µs for a quadrant (R162). -/
def slabShortage (q slots : Nat) (s : State) : State :=
  if (((s.quad q).lastShortage).map fun t => decide (t + 100 * usNs ≤ s.now)).getD true then
    fireEvent 69 (postDevice 4 (BitVec.ofNat 64 q) (BitVec.ofNat 64 slots) 0 0
      (s.modQuad q fun d => { d with lastShortage := some s.now }))
  else s

/-- Something waits for a place. -/
def waitFor (w : Waiter) (q slots : Nat) (s : State) : State :=
  slabShortage q slots (if s.waiters.contains w then s else { s with waiters := s.waiters ++ [w] })

/-- The last page of an extent is filled: its Add Capacity record, and its grant's completion (R127, R342). -/
def fillDone (e : Nat) (s : State) : State := grantDone (s.extent e).grantFirst (announce e s)

/-- Zero-fill the next page of a FIXED extent as PLAIN (R127). -/
def fillNext (e : Nat) (s : State) : State :=
  let x := s.extent e
  if x.state ≠ .offered ∨ !x.fixed ∨ 65536 ≤ x.filled then s
  else
    let d := e * 65536 + x.filled
    match takeFrameOn (.page d) s (s.fillOrder x.fillChannel.toNat) with
    | none => waitFor (.fill e) (chanQuad x.fillChannel.toNat) 0 s
    | some (l, s) =>
      let s := { s with waiters := s.waiters.filter (· != .fill e) }
      let s := putLines l ((List.range 64).map fun i => { cipher := s.cipherOf d 0 i 0 }) s
      let s := modDesc d (fun y => { y with state := .plain, location := BitVec.ofNat 44 l }) s
      let s := addFootprint e 64 (s.modExtent e fun y => { y with filled := y.filled + 1 })
      updateCapacity s

/-- The device zero-fills the next page of a FIXED extent (R127). -/
def execFixedExtentFillWrite (e : BitVec 18) (s : State) : Host.Outcome State Fault Refusal :=
  .next (if s.running && s.start.phase9Done then fillNext e.toNat s else s)

/-- The last page of a FIXED extent is filled and its Add Capacity record is placed (R127). -/
def execFixedExtentFillDone (e : BitVec 18) (s : State) : Host.Outcome State Fault Refusal :=
  .next (let x := s.extent e.toNat
    if s.running && decide (x.state = .offered) && x.fixed && !x.announced && decide (x.filled = 65536) then fillDone e.toNat s else s)

end Sys2Proof.Machine
end

