-- ==== Sys2Proof/Machine/Channel.lean ====
section
/-! DEFINITION. DRAM channels: leaving and joining ACTIVE, training, initialisation, refresh, temperature, power-down,
self-refresh and training in service (R226 to R253). -/
namespace Sys2Proof.Machine

/-! ### Joining and leaving ACTIVE (R139, R145, R188, R277) -/

/-- The channel that a mover record's destination lies on. -/
def MoverRec.dstChan (r : MoverRec) : Option Nat :=
  if r.placed && decide (r.dstState = 1 ∨ r.dstState = 2) then some (lineChan (locLine r.dstLoc)) else none

/-- Operations whose destination channel leaves ACTIVE abort (R188). -/
def abortTo (c : Nat) (s : State) : State :=
  let pages := (List.range 4).flatMap fun q =>
    ((s.quad q).records.filter fun r => r.dstChan = some c ∧ r.phase ≠ .swap ∧ r.phase ≠ .free).map (·.dlpn)
  forEach pages abortMove s

/-- What follows when a channel has left ACTIVE: P falls, delivery falls, and moves to it abort. -/
def channelLeft (c : Nat) (s : State) : State := abortTo c (recomputeDelivery (capacityFell s))

/-- The channel becomes ACTIVE: its counts toward permanent faults are cleared (R277, R279). -/
def channelJoins (c : Nat) (s : State) : State :=
  let s := s.modChan c fun h =>
    { h with state := .active, cause := 0, failsActive := 0, ranks := [], failing := 0, wcrcTimes := [], ueRun := 0, ueRunRows := []
             train := { h.train with running := false, restore := false, resume := none }, unreadable := false }
  let s := condEnd (srcChannel c 7) (condEnd (srcChannel c 9) (condEnd (srcChannel c 10) s))
  recomputeDelivery (updateCapacity s)

/-- A channel that cannot train (R228). -/
def trainFail (c : Nat) (cause : Nat) (s : State) : State :=
  partLeaves (4 + c) (condStart (srcChannel c 9) (s.modChan c fun h =>
    { h with state := .trainFailed, cause := BitVec.ofNat 3 cause, usable := 0, speed := 0, train := {} }))

/-- The channel's commands: none waits or is under way (R465). -/
def State.channelIdle (s : State) (c : Nat) : Bool :=
  let h := s.chan c
  h.queue.isEmpty && h.gate.cmds.isEmpty && h.flight.isEmpty && !h.retrainBusy && !h.repairBusy

/-! ### Channels that become unreadable (R281) -/

/-- Whose storage lies on a channel: the owners of its frames and runs. -/
def Alloc.owners (a : Alloc) : List Owner :=
  a.frames.filterMap (·.2) ++ a.slabs.flatMap fun b => b.runs.filterMap (·.2)

/-- A page that an unreadable channel holds becomes POISONED (R281). -/
def loseOwner (s : State) : Owner → State
  | .page d =>
    if (s.desc d).state = .poisoned then s else recordPoison d 2 0 txManagement (poisonPage d 5 s)
  | .dest d => abortMove d s
  | .guest i =>
    let r := Tab.get {} s.const.remotes i
    let s := s.modConst fun k => { k with remotes := Tab.set {} k.remotes i { r with state := 7 } }
    s.emit (.guestReport r.home r.homeDlpn 4)
  | _ => s

/-- Segments of the tally ring on a channel are discarded with their tallies (R281, R537). -/
def loseSegments (c : Nat) (s : State) : State :=
  if s.rec_.segments.contains c then
    let n := s.rec_.segments.length
    let seg := fun (t : Tally) => s.rec_.segments.getD ((t.seq.toNat - 1) / 65536 % n) 24
    s.modRec fun r =>
      { r with store := r.store.filter fun t => seg t != c, segments := r.segments.filter (· != c)
               ring := BitVec.ofNat 11 (16 * (r.segments.filter (· != c)).length) }
  else s

/-- A channel becomes unreadable: RETIRED at once, its requests answered with poison, and every page on it POISONED (R281). -/
def channelUnreadable (c : Nat) (s : State) : State :=
  let s := s.modChan c fun h =>
    { h with state := .retired, unreadable := true, retirePending := none, evac := none, refreshing := false
             flight := h.flight ++ ((h.queue ++ h.gate.cmds).filter fun x => x.write.isNone).map fun x => (x.req, x.line, {})
             queue := [], gate := {}, banks := [], powerDown := [], retrainBusy := false, ueRun := 0, ueRunRows := [] }
  let s := channelLeft c (condStart (srcChannel c 10) (fireEvent (srcChannel c 13) s))
  let s := postDevice 7 (BitVec.ofNat 64 c) 5 0 0 s
  let s := loseSegments c ((s.alloc c).owners.foldl loseOwner s)
  partLeaves (4 + c) (s.modAlloc c fun a => { a with megas := a.megas.filter fun m => match m.2 with
    | some (.ring _) => false
    | _ => true })

/-! ### Training (R226 to R233) -/

/-- The speeds of R226 that a population allows at or below a limit, highest first. -/
def trainingSpeeds (variantS0 mrdimm two : Bool) (limit : Nat) : List Nat :=
  (if mrdimm then (if variantS0 || two then [] else [88, 80])
    else if two then [56, 52, 48] else [64, 60, 56, 52, 48]).filter fun v => decide (v ≤ limit)

/-- The DIMMs of a channel as step 1 has read them, with their slots. -/
def Chan.dimms (c : Chan) : List (Nat × Spd) :=
  (c.spd0.map fun d => (0, d)).toList ++ (c.spd1.map fun d => (1, d)).toList

/-- The allowed speeds of a channel (R231). -/
def State.allowedSpeeds (s : State) (h : Chan) : List Nat :=
  let l := h.dimms
  let limit := (l.map fun d => d.2.speed).foldl min h.speedMax.toNat
  trainingSpeeds (decide (s.ident.variant = 1)) (l.any fun d => d.2.mrdimm) (decide (1 < l.length)) limit

/-- What step 1 finds wrong, in the order of its checks: CRC, type, organisation, population; then the speeds (R228, R230).
DEDUCED, log 73. -/
def State.populationCause (s : State) (h : Chan) : Nat :=
  let l := h.dimms.map (·.2)
  if l.any fun d => !d.ok then 5
  else if s.ident.variant = 1 ∧ l.any (·.mrdimm) then 2
  else if l.any fun d => (spdOrg d).isNone then 4
  else if 1 < l.length ∧ l.any (·.mrdimm) then 3
  else if (s.allowedSpeeds h).isEmpty then 7
  else 0

/-- A timing value in ps as clock cycles at a speed, raised to the JEDEC minimum (R233). -/
def toNck (param ps speed : Nat) : Nat := max ((ps * speed + 19999) / 20000) (Config.jedecMin param speed)

/-- The channel's timing: for each parameter the largest of its DIMMs (R233). -/
def Chan.timingAt (h : Chan) (usable : BitVec 2) (speed : Nat) : List Nat :=
  (List.range 14).map fun i =>
    ((h.dimms.filter fun d => usable.getLsbD d.1).map fun d => toNck i (d.2.ps.getD i 0) speed).foldl max 0

/-- The slots of a channel that hold a DIMM. -/
def State.presentSlots (s : State) (c : Nat) : List Nat := [0, 1].filter fun k => (s.slot (2 * c + k)).prsnt

/-- A slot's bit set. -/
def slotBits (l : List Nat) : BitVec 2 := BitVec.ofNat 2 (flag (l.contains 0) + 2 * flag (l.contains 1))

/-- Apply the spare map to a DIMM at step 9: entries of another DIMM go, and hard repairs that succeed are done (R283). -/
def applySpares (c : Nat) (hardOk : Bool) (s : State) : State :=
  let h := s.chan c
  let mine := fun (e : Spare) => decide (e.slot / 2 = c)
  let other := fun (e : Spare) => mine e && ((h.spd (e.slot % 2)).map fun d => d.serial != e.serial).getD false
  let new := (s.integ.spares.filter fun e => !other e).map fun e =>
    if mine e && hardOk && decide (e.kind = 2) && (h.spd (e.slot % 2)).isSome then { e with kind := 3 } else e
  if new = s.integ.spares then s
  else s.modInteg fun i => { i with spares := new, flashWrites := satAdd i.flashWrites 1 }

/-- Late Vigil's record of a channel: code 0x60. Its duration, about 10 µs, and its detail are not stated: free values (R497, R498). -/
def lateVigil (c : Nat) (outcome : BitVec 8) (s : State) : State :=
  let v : VigilRec := { code := 0x60, outcome, inst := BitVec.ofNat 16 c, durationUs := (Config.freeWord s.free).setWidth 32
                        detail := Config.freeWord (s.free + 1) }
  { s with free := s.free + 2 }.modStart fun r => if r.report.length < 256 then { r with report := r.report ++ [v] } else r

/-- Training has passed: the channel takes its speed, timing and capacity, and becomes ACTIVE, or is initialised first (R201). -/
def trainingPassed (c : Nat) (speed : Nat) (usable : BitVec 2) (s : State) : State :=
  let s := s.modChan c fun h =>
    { h with speed := BitVec.ofNat 8 speed, usable, timing := h.timingAt usable speed, frontier := 0
             train := { h.train with running := false } }
  let s := lateVigil c 0 { s with dram := s.dram.filter fun e => lineChan e.1 != c }
  if (s.chan c).train.restore then s else channelJoins c s

/-- An attempt begins at step 2. -/
def startAttempt (c speed : Nat) (s : State) : State :=
  s.modChan c fun h => { h with train := { h.train with running := true, step := 2, speed, failed := 0 } }

/-- The pass over the allowed speeds has ended without a passing attempt (R229, R232). -/
def passEnded (c : Nat) (s : State) : State :=
  let h := s.chan c
  let t := h.train
  if !t.second then
    match s.allowedSpeeds h with
    | v :: _ => startAttempt c v (s.modChan c fun h => { h with train := { h.train with second := true, best0 := 0, best1 := 0 } })
    | [] => trainFail c 1 s
  else if h.dimms.length = 2 ∧ t.failed = 1 ∧ 0 < t.best1 then
    startAttempt c t.best1 (s.modChan c fun h => { h with train := { h.train with lone := some 1 } })
  else if h.dimms.length = 2 ∧ t.failed = 2 ∧ 0 < t.best0 then
    startAttempt c t.best0 (s.modChan c fun h => { h with train := { h.train with lone := some 0 } })
  else trainFail c 1 s

/-- An attempt has failed: the next lower allowed speed, from step 2 (R231). -/
def attemptFailed (c : Nat) (s : State) : State :=
  if (s.chan c).train.lone.isSome then trainFail c 1 s
  else
    match (s.allowedSpeeds (s.chan c)).find? fun v => decide (v < (s.chan c).train.speed) with
    | some v => startAttempt c v s
    | none => passEnded c s

/-- The DIMMs that an attempt trains, as bits. -/
def Chan.trainSet (h : Chan) : BitVec 2 :=
  match h.train.lone with
  | some k => slotBits [k]
  | none => slotBits (h.dimms.map (·.1))

/-- The last step of the sequence: 10 for an MRDIMM, else 9 (R230). -/
def Chan.lastStep (h : Chan) : Nat := if h.dimms.any fun d => d.2.mrdimm then 10 else 9

/-- A step of R230 after the first has ended; bit s of `pass` says whether slot s's DIMM passed it (R229 to R232). -/
def trainStep (c : Nat) (pass : BitVec 2) (hardOk : Bool) (s : State) : State :=
  let h := s.chan c
  let set := h.trainSet
  let failed := h.train.failed ||| (set &&& ~~~ pass)
  let s := if h.train.step = 9 then applySpares c hardOk s else s
  let s := s.modChan c fun h => { h with train := { h.train with failed } }
  if failed = set then attemptFailed c s
  else if h.train.step < h.lastStep then s.modChan c fun h => { h with train := { h.train with step := h.train.step + 1 } }
  else
    let s := s.modChan c fun h => { h with train := { h.train with
      best0 := if set.getLsbD 0 && !failed.getLsbD 0 && h.train.best0 = 0 then h.train.speed else h.train.best0
      best1 := if set.getLsbD 1 && !failed.getLsbD 1 && h.train.best1 = 0 then h.train.speed else h.train.best1 } }
    if failed = 0 then trainingPassed c h.train.speed set s else attemptFailed c s

/-! ### Temperature (R247) -/

/-- The channel is to refresh at the doubled rate. DEDUCED, log 75. -/
def Chan.wantHot (h : Chan) : Bool := h.warm || h.sensorFail || h.ref2x

/-- The highest reading of the channel's DIMMs. -/
def Chan.highest (h : Chan) : Nat :=
  max (if h.temp0 = 0xFF then 0 else h.temp0.toNat) (if h.temp1 = 0xFF then 0 else h.temp1.toNat)

/-- The DIMM-thermal event and its tally (R247); where the source's condition begins, its fault gives the sample. -/
def thermalEvent (c : Nat) (begins : Bool) (s : State) : State :=
  let s := postDevice 6 (BitVec.ofNat 64 c) (BitVec.ofNat 64 (s.chan c).highest) 0 0 s
  if begins then s else sampleFault (srcChannel c 11) s

/-- A slot's poll: its reading in tenths of a degree, or no answer. -/
def pollSlot (slot : Nat) (present : Bool) (t : Option Nat) (h : Chan) : Chan :=
  if !present then h
  else
    let temp := (t.map fun v => BitVec.ofNat 8 (min 254 (v / 10))).getD (if slot = 0 then h.temp0 else h.temp1)
    let missed := if t.isSome then 0 else (if slot = 0 then h.missed0 else h.missed1) + 1
    let above := (t.map fun v => decide (10 * h.tempCrit.toNat < v)).getD (h.overCrit.getLsbD slot)
    let h := { h with overCrit := if above then h.overCrit ||| slotBits [slot] else h.overCrit &&& ~~~ slotBits [slot] }
    if slot = 0 then { h with temp0 := temp, missed0 := missed } else { h with temp1 := temp, missed1 := missed }

/-- A poll of the channel's DIMM sensors (R247). -/
def thermalPoll (c : Nat) (t0 t1 : Option Nat) (s : State) : State :=
  let was := (s.chan c).wantHot
  let overWas := (s.chan c).overCrit
  let p0 := (s.slot (2 * c)).prsnt
  let p1 := (s.slot (2 * c + 1)).prsnt
  let got := (if p0 then [t0] else []) ++ (if p1 then [t1] else [])
  let s := s.modChan c fun h =>
    let h := pollSlot 1 p1 t1 (pollSlot 0 p0 t0 h)
    { h with
      lastPoll := s.now
      sensorFail := (p0 && decide (3 ≤ h.missed0)) || (p1 && decide (3 ≤ h.missed1))
      warm := if got.any (fun t => (t.map fun v => decide (850 < v)).getD false) then true
        else if !got.isEmpty && got.all (fun t => (t.map fun v => decide (v ≤ 830)).getD false) then false else h.warm }
  let h := s.chan c
  let s := if (h.overCrit &&& ~~~ overWas) ≠ 0 ∨ h.wantHot ≠ was then thermalEvent c (decide (h.overCrit ≠ 0) && !s.holds (srcChannel c 11)) s else s
  condSet (srcChannel c 12) h.sensorFail (condSet (srcChannel c 11) (decide (h.overCrit ≠ 0)) s)

def execDimmThermalPoll (c : Fin 24) (t0 t1 : Option (BitVec 11)) (s : State) : Host.Outcome State Fault Refusal :=
  .next (if s.running && decide ((s.chan c).state = .active ∨ (s.chan c).state = .evacuating) &&
        decide ((s.chan c).lastPoll + 16 * msNs ≤ s.now) then
      thermalPoll c (t0.map (·.toNat)) (t1.map (·.toNat)) s
    else s)

/-- A channel may train: UNTRAINED, its pads released, and every slot that holds a DIMM ON (R201, R468). -/
def State.mayTrain (s : State) (c : Nat) : Bool :=
  s.running && decide ((s.chan c).state = .untrained) && !s.power.latched && !(s.presentSlots c).isEmpty &&
    (s.presentSlots c).all fun k => decide ((s.slot (2 * c + k)).state = .on)

/-- Step 1: the SPDs are read and judged, the sensors are polled, and the first attempt begins (R228, R230, R247). -/
def trainFirst (c : Nat) (spd0 spd1 : Option Spd) (t0 t1 : Option Nat) (s : State) : State :=
  let l := s.presentSlots c
  let read := fun (k : Nat) (d : Option Spd) => if l.contains k then some (d.getD { ok := false }) else none
  let s := s.modChan c fun h => { h with spd0 := read 0 spd0, spd1 := read 1 spd1, missed0 := 0, missed1 := 0, speed := 0 }
  let s := thermalPoll c t0 t1 s
  let cause := s.populationCause (s.chan c)
  if cause ≠ 0 then trainFail c cause s
  else match s.allowedSpeeds (s.chan c) with
    | v :: _ => startAttempt c v (s.modChan c fun h => { h with train := { restore := h.train.restore } })
    | [] => trainFail c 7 s

/-- The restore of saved settings has ended on a warm or immediate start (R504). -/
def restoreStep (c : Nat) (dest : ChanState) (ok : Bool) (t0 t1 : Option Nat) (s : State) : State :=
  let s := lateVigil c (if ok then 0 else 2) (s.modChan c fun h => { h with train := {}, selfRefresh := false })
  if ok then
    let s := thermalPoll c t0 t1 (s.modChan c fun h => { h with state := dest, refCount := h.refCount + 1, refreshing := true, refreshAt := s.now })
    recomputeDelivery (updateCapacity s)
  else channelUnreadable c s

/-- A training step of a channel ends (R230). -/
def execChannelTrainingStepDone (c : Fin 24) (pass : BitVec 2) (spd0 spd1 : Option Spd) (t0 t1 : Option (BitVec 11)) (hardOk : Bool)
    (s : State) : Host.Outcome State Fault Refusal :=
  .next (match (s.chan c).train.resume with
    | some st =>
      if s.running && !s.power.latched then
        restoreStep c st (decide (pass = 3)) (t0.map (·.toNat)) (t1.map (·.toNat)) s
      else s
    | none =>
      if s.mayTrain c then
        if (s.chan c).train.running then trainStep c pass hardOk s
        else if (s.chan c).speed = 0 ∨ !(s.chan c).train.restore then
          trainFirst c spd0 spd1 (t0.map (·.toNat)) (t1.map (·.toNat)) s
        else s
      else s)

/-! ### Initialisation (R201, R234) -/

/-- The channel writes its next lines at its frontier: zero data and the clean tag (R234). -/
def initWrite (c n : Nat) (s : State) : State :=
  let h := s.chan c
  let dest := min (h.frontier + n) h.capacity
  let hit := fun (l : Nat) => decide (lineChan l = c) &&
    decide (h.frontier ≤ h.order (lineSlot l) (l % 2 ^ 32)) && decide (h.order (lineSlot l) (l % 2 ^ 32) < dest)
  { s with dram := s.dram.filter fun e => !hit e.1 }.modChan c fun h => { h with frontier := max h.frontier dest }

def execMemoryInitWrite (c : Fin 24) (n : BitVec 24) (s : State) : Host.Outcome State Fault Refusal :=
  .next (let h := s.chan c
    if s.running && !h.initDone && !h.selfRefresh && (decide (h.state = .active) ||
        (decide (h.state = .untrained) && h.train.restore && !h.train.running && decide (h.speed ≠ 0))) then initWrite c n.toNat s else s)

/-- A restored channel has been written whole and becomes ACTIVE (R201). -/
def execChannelInitDone (c : Fin 24) (s : State) : Host.Outcome State Fault Refusal :=
  .next (let h := s.chan c
    if s.running && decide (h.state = .untrained) && h.train.restore && !h.train.running && decide (h.speed ≠ 0) && h.initDone then
      channelJoins c s
    else s)

/-! ### Refresh (R244 to R246) -/

/-- The channel refreshes: it is ACTIVE or EVACUATING and not in self-refresh. -/
def Chan.refreshes (h : Chan) : Bool := decide (h.state = .active ∨ h.state = .evacuating) && !h.selfRefresh

/-- The start of a pulse's nanosecond in its interval, in quarters of a nanosecond (R245). -/
def pulsePhases (c : Nat) (hot : Bool) : List Nat := [650 * c] ++ if hot then [(650 * c + 8125) % 15600] else []

/-- The timebase stands at one of the channel's pulses. -/
def State.pulseDue (s : State) (c : Nat) : Bool :=
  (pulsePhases c (s.chan c).hot).any fun p => decide (p / 4 = s.time.tb.toNat % 3900)

/-- tRFC of a channel in ns, rounded up. -/
def Chan.trfcNs (h : Chan) : Nat := (h.trfc + 999) / 1000

/-- Precharge of all banks. -/
def prechargeAll (h : Chan) : Chan :=
  { h with banks := h.banks.filterMap fun b => if b.2.predictor = 2 then none else some (b.1, { predictor := b.2.predictor }) }

/-- A refresh pulse: the banks are precharged, power-down is left, REFab is issued, and a change of the hot state applies (R245,
R247). `late` is the measured delay from the pulse to REFab. -/
def execRefreshPulse (c : Fin 24) (late : BitVec 6) (s : State) : Host.Outcome State Fault Refusal :=
  .next (let h := s.chan c
    if s.running && h.refreshes && !h.refreshing && s.pulseDue c && decide (h.lastPulse ≠ some s.time.tb) then
      let hot := h.wantHot
      let s := s.modChan c fun h =>
        { prechargeAll h with
          powerDown := [], refreshing := true, refreshAt := s.now, lastPulse := some s.time.tb, refCount := h.refCount + 1, hot
          lateMax := if h.lateMax.toNat < late.toNat then late.setWidth 16 else h.lateMax
          retrainEnd := if h.retrainBusy then h.retrainEnd + h.trfcNs else h.retrainEnd
          repairAt := if h.repairBusy then h.repairAt + h.trfcNs else h.repairAt }
      if hot = h.hot then s else recomputeDelivery s
    else s)

/-- tRFC after REFab the channel schedules again (R244). -/
def execRefreshDone (c : Fin 24) (s : State) : Host.Outcome State Fault Refusal :=
  .next (if s.running && (s.chan c).refreshing && decide ((s.chan c).refreshAt + (s.chan c).trfcNs ≤ s.now) then
      s.modChan c fun h => { h with refreshing := false }
    else s)

/-! ### Power-down and self-refresh (R248, R249) -/

/-- The ranks of a usable slot. -/
def Chan.slotRanks (h : Chan) (slot : Nat) : Nat := if h.usable.getLsbD slot then ((h.spd slot).map (·.ranks)).getD 0 else 0

/-- A rank of a subchannel, subchannel × 16 + slot × 8 + rank, goes to power-down when its timer expires (R248). -/
def execRankPowerDown (c : Fin 24) (r : Fin 32) (s : State) : Host.Outcome State Fault Refusal :=
  .next (let h := s.chan c
    if s.running && h.refreshes && !h.refreshing && !h.retrainBusy && decide (h.pdTimer ≠ 0) &&
        decide (r.val % 8 < h.slotRanks (r.val / 8 % 2)) && !h.powerDown.contains r.val &&
        decide (Tab.get 0 h.lastCmd r.val + 8 * h.pdTimer.toNat ≤ s.now) &&
        !h.queue.any (fun x => decide ((h.place x.line).subRank = r.val)) then
      s.modChan c fun h => { h with powerDown := insertNat r.val h.powerDown }
    else s)

/-- The channel is asked into self-refresh: at once when it has no command, else after its commands (R249). -/
def chanSelfRefresh (c : Nat) (s : State) : State :=
  s.modChan c fun h => if h.queue.isEmpty && h.gate.cmds.isEmpty && h.flight.isEmpty then h.sleep else { h with srPending := true }

/-- A self-refresh that has been asked for is no longer wanted. -/
def chanLeaveSelfRefresh (c : Nat) (s : State) : State := s.modChan c fun h => { h with srPending := false }

/-- The channel has finished its commands: it precharges and issues SRE to every rank (R249); a window aborts (R252). -/
def execSelfRefreshEntry (c : Fin 24) (s : State) : Host.Outcome State Fault Refusal :=
  .next (let h := s.chan c
    if s.start.powered && !s.faults.halted && h.srPending && h.queue.isEmpty && h.gate.cmds.isEmpty && h.flight.isEmpty then
      s.modChan c Chan.sleep
    else s)

/-- SRX, tXS and one REFab; the channel rejoins its pulses (R249). -/
def execSelfRefreshExit (c : Fin 24) (s : State) : Host.Outcome State Fault Refusal :=
  .next (let h := s.chan c
    if s.running && !s.power.dozing && !s.power.latched && h.selfRefresh && decide (h.state = .active ∨ h.state = .evacuating) &&
        s.domAwake (4 + c.val) then
      s.modChan c fun h => { h with selfRefresh := false, refCount := h.refCount + 1, refreshing := true, refreshAt := s.now }
    else s)

/-! ### Training in service (R250 to R252) -/

/-- The ranks of a channel, each slot × 8 + rank. -/
def Chan.rankList (h : Chan) : List Nat := (List.range (h.slotRanks 0)) ++ (List.range (h.slotRanks 1)).map (8 + ·)

/-- The next rank in turn. -/
def Chan.nextRank (h : Chan) (last : Nat) : Nat := (h.rankList.find? fun r => decide (last < r)).getD (h.rankList.headD 0)

/-- One rank is ZQ-calibrated within a REFab, one rank each 128 ms (R250). -/
def execZqCalibration (c : Fin 24) (s : State) : Host.Outcome State Fault Refusal :=
  .next (let h := s.chan c
    if s.running && h.refreshes && h.refreshing && decide (h.zqAt + 128 * msNs ≤ s.now) then
      s.modChan c fun h => { h with zqAt := s.now, zqNext := h.nextRank h.zqNext }
    else s)

/-- One rank's DQS interval oscillator is tracked within a REFab, one rank each 32 ms (R250). -/
def execDqsOscillatorTracking (c : Fin 24) (s : State) : Host.Outcome State Fault Refusal :=
  .next (let h := s.chan c
    if s.running && h.refreshes && h.refreshing && decide (h.dqsAt + 32 * msNs ≤ s.now) then
      s.modChan c fun h => { h with dqsAt := s.now, dqsNext := h.nextRank h.dqsNext }
    else s)

/-- Time of one rank in a window in ns (R251). -/
def retrainNs (kind : Nat) : Nat := if kind = 1 then 4000 else if kind = 2 then 6000 else 10000

/-- The ranks that a mask names. -/
def maskRanks (m : BitVec 16) : List Nat := (List.range 16).filter fun r => m.getLsbD r

/-- CH_RETRAIN is written with START (R251, R252): the fields, and the window unless START is ignored. -/
def startWindow (c : Nat) (kind : BitVec 2) (mask : BitVec 16) (s : State) : State :=
  let h := s.chan c
  let s := s.modChan c fun h => { h with retrainKind := if kind = 0 then h.retrainKind else kind, retrainMask := mask }
  if h.retrainBusy || decide (h.state ≠ .active) || decide (kind = 0) || (maskRanks mask).any (fun r => !h.rankList.contains r) then s
  else s.modChan c fun h =>
    { prechargeAll h with
      retrainBusy := true
      retrainEnd := (if h.repairBusy then h.repairAt + 100 * usNs else s.now) + (maskRanks mask).length * retrainNs kind.toNat }

def execRetrainingWindowStart (c : Fin 24) (kind : BitVec 2) (mask : BitVec 16) (s : State) : Host.Outcome State Fault Refusal :=
  .next (if s.running then startWindow c kind mask s else s)

end Sys2Proof.Machine
end

