-- ==== Sys2Proof/Machine/Busy.lean ====
section
/-! DEFINITION. What parts of the device have work: the conditions of power states and D-Doze (R465, R475). -/
namespace Sys2Proof.Machine

/-- An engine cluster has no request queued. -/
def State.clusterIdle (s : State) (e : Nat) : Bool := (s.cluster e).queue.isEmpty

/-- Some engine of the cluster is in service. -/
def State.clusterInService (s : State) (e : Nat) : Bool :=
  let c := s.cluster e
  decide (c.cmpIn ≠ 0) || decide (c.dcmpIn ≠ 0) || decide (c.xtsIn ≠ 0)

/-- A Ulilet port may be in P3: DOWN with no peer present, RETIRED, or not enabled (R465). -/
def State.uliletOff (s : State) (u : Nat) : Bool :=
  let p := s.uli u
  (decide (p.lstate = .down) && !p.prsnt) || decide (p.lstate = .retired) || !p.enable

/-- Some Ulilet link is beyond DETECT (R475). -/
def State.uliletBeyondDetect (s : State) : Bool :=
  (List.range 3).any fun u => match (s.uli u).lstate with
    | .down | .detect | .retired => false
    | .train | .param | .session | .active | .discord => true

/-- A mover operation or an evacuation is in flight (R475). -/
def State.moverBusy (s : State) : Bool :=
  (List.range 4).any (fun q => !(s.quad q).records.isEmpty || !(s.quad q).jobs.isEmpty || !(s.quad q).heatJobs.isEmpty) ||
    (List.range 24).any fun c => (s.chan c).evac.isSome

/-- An activation builds or is in grace (R475). -/
def State.activationBusy (s : State) : Bool := s.img.act.isSome

end Sys2Proof.Machine
end

