-- ==== Sys2Proof/Machine/Power.lean ====
section
/-! DEFINITION. Power domains: requests, entries with their abort points, exits, wakes, and D-Doze (R465 to R476). -/
namespace Sys2Proof.Machine

/-- The domain whose clock a counter block counts (R489, R542). -/
def ctrDomain (b : Nat) : Nat :=
  if b < 24 then 4 + b
  else if b < 40 then 28 + (b - 24)
  else if b < 43 then 44 + (b - 40)
  else if b < 51 then 47 + (b - 43)
  else if b < 59 then 3
  else 2

/-- Account a counter block's time up to now, and set whether its clock is gated from here (R489). -/
def gateCtr (gated : Bool) (now : Nat) (c : CtrBlock) : CtrBlock :=
  { c with
    ranNs := if c.gated then c.ranNs else c.ranNs + (now - c.mark)
    stoppedNs := if c.gated then c.stoppedNs + (now - c.mark) else c.stoppedNs
    mark := now, gated }

/-- The clocks of a domain stop or run: its counter blocks follow (R489). -/
def gateDomain (i : Nat) (gated : Bool) (s : State) : State :=
  forEach ((List.range 64).filter fun b => ctrDomain b = i) (fun b s => s.modCtr b (gateCtr gated s.now)) s

/-- Every thread is free, no queue holds an entry, and no timer falls due within 10 µs (R470). -/
def State.policyIdle (s : State) : Bool :=
  (List.range 32).all (fun t => decide ((s.thread t).state = .free ∨ (s.thread t).state = .out)) &&
    s.queues.all fun e => e.2.entries.isEmpty &&
      match e.2.bound with
      | none => true
      | some b => match b.period with
        | none => true
        | some _ => decide (s.now + 10 * usNs < b.nextDue)

/-- The state a domain may be asked to enter now (R465); P0 is always allowed. -/
def State.domAllows (s : State) (i : Nat) : PState → Bool
  | .p0 => true
  | .p1 =>
    if i = 3 then s.policyIdle
    else if 4 ≤ i ∧ i < 28 then decide ((s.chan (i - 4)).state = .active)
    else if 28 ≤ i ∧ i < 44 then (s.port (i - 28)).downLatched
    else if 47 ≤ i ∧ i < 55 then s.clusterIdle (i - 47)
    else false
  | .p2 =>
    if 4 ≤ i ∧ i < 28 then decide ((s.chan (i - 4)).state = .active)
    else if 47 ≤ i ∧ i < 55 then s.clusterIdle (i - 47)
    else false
  | .p3 =>
    if 4 ≤ i ∧ i < 28 then
      decide ((s.chan (i - 4)).state ∈ [ChanState.absent, .evacuated, .retired, .trainFailed])
    else if 28 ≤ i ∧ i < 44 then !(s.port (s.leaderOf (i - 28))).cfg.enable && !(s.port (s.leaderOf (i - 28))).up
    else if 44 ≤ i ∧ i < 47 then s.uliletOff (i - 44)
    else if 47 ≤ i ∧ i < 55 then !s.clusterInService (i - 47)
    else false

/-- A request for a state, from PWR_DOM.REQ, an idle timer or a device path (R470). -/
def requestState (i : Nat) (dest : PState) (s : State) : State :=
  if dest = .p0 then wakeDomain i s
  else if s.domAllows i dest then startRequest i dest s
  else s.modDom i fun d => { d with refused := true }

/-- A pending request starts when a transition completes; one for the state now held is discarded (R472). -/
def startPending (i : Nat) (s : State) : State :=
  match (s.dom i).pending with
  | none => s
  | some dest =>
    let s := s.modDom i fun d => { d with pending := none }
    if dest = (s.dom i).state ∨ dest = .p0 then s else requestState i dest s

/-- A domain is back in P0 with its clocks running. -/
def domRestored (i : Nat) (s : State) : State :=
  let s := gateDomain i false (s.modDom i fun d => { d with state := .p0, trans := .none, wake := false, lastWork := s.now })
  let s := if 4 ≤ i ∧ i < 28 then chanLeaveSelfRefresh (i - 4) s else s
  startPending i s

/-- The step of an entry that has ended: its own effect on the part. -/
def entryEffect (i k : Nat) (s : State) : State :=
  if k = 0 then (if 4 ≤ i ∧ i < 28 then chanSelfRefresh (i - 4) s else s)
  else if k = 1 then gateDomain i true s
  else s

/-- An entry completes; a wake that came after AP3 makes the domain exit at once (R472). -/
def entryComplete (i : Nat) (dest : PState) (s : State) : State :=
  let woken := (s.dom i).wake
  let s := s.modDom i fun d => { d with state := dest, trans := .none, wake := false }
  if woken then s.modDom i fun d => { d with trans := .exiting, wakes := satAdd d.wakes 1 }
  else startPending i s

/-- A step of an entry ends. After drain, gate and save lie the abort points AP1, AP2 and AP3 (R471, R472). -/
def entryStep (i : Nat) (dest : PState) (k : Nat) (s : State) : State :=
  let s := entryEffect i k s
  if k ≤ 2 ∧ (s.dom i).wake then
    domRestored i (s.modDom i fun d => { d with aborts := satAdd d.aborts 1, wakes := satAdd d.wakes 1 })
  else if 4 ≤ k ∨ (k = 1 ∧ dest = .p1) then entryComplete i dest s
  else s.modDom i fun d => { d with trans := .entering dest (k + 1) }

/-- The part has completed its work in progress, which ends the drain (R471). -/
def State.drained (s : State) (i : Nat) : Bool :=
  if 4 ≤ i ∧ i < 28 then s.channelIdle (i - 4) else if 47 ≤ i ∧ i < 55 then s.clusterIdle (i - 47) else true

/-- The always-on domain can serve a request for a power state. -/
def State.aonLive (s : State) : Bool := s.start.powered && !s.faults.halted

def execPwrDomReqP0 (i : Fin 55) (s : State) : Host.Outcome State Fault Refusal :=
  .next (if s.aonLive then requestState i .p0 s else s)

def execPwrDomReqP1 (i : Fin 55) (s : State) : Host.Outcome State Fault Refusal :=
  .next (if s.aonLive then requestState i .p1 s else s)

def execPwrDomReqP2 (i : Fin 55) (s : State) : Host.Outcome State Fault Refusal :=
  .next (if s.aonLive then requestState i .p2 s else s)

def execPwrDomReqP3 (i : Fin 55) (s : State) : Host.Outcome State Fault Refusal :=
  .next (if s.aonLive then requestState i .p3 s else s)

/-- The domain is idle (R470): a port or a Ulilet port has no test of its own beyond the time since its last work. -/
def State.domIdle (s : State) (i : Nat) : Bool :=
  if i = 3 then s.policyIdle
  else if 4 ≤ i ∧ i < 28 then s.channelIdle (i - 4)
  else if 47 ≤ i ∧ i < 55 then s.clusterIdle (i - 47)
  else true

/-- IDLE_P1 with no request for the domain's work asks for P1 (R470); 0 disables it. -/
def execIdleP1Expiry (i : Fin 55) (s : State) : Host.Outcome State Fault Refusal :=
  .next (if s.aonLive && decide ((s.dom i).idleP1 ≠ 0) &&
        decide ((s.dom i).lastWork + 100 * (s.dom i).idleP1.toNat ≤ s.now) && s.domIdle i then requestState i .p1 s
    else s)

/-- IDLE_P2 asks for P2; the policy domain's is ignored without setting REFUSED (R470, R491). -/
def execIdleP2Expiry (i : Fin 55) (s : State) : Host.Outcome State Fault Refusal :=
  .next (if s.aonLive && decide ((s.dom i).idleP2 ≠ 0) && decide (i.val ≠ 3) &&
        decide ((s.dom i).lastWork + usNs * (s.dom i).idleP2.toNat ≤ s.now) && s.domIdle i then requestState i .p2 s
    else s)

/-- A step of the domain's entry ends (R471). -/
def execDomainEntryStepDone (i : Fin 55) (s : State) : Host.Outcome State Fault Refusal :=
  .next (if s.aonLive then
      match (s.dom i).trans with
      | .entering dest k => if k = 0 ∧ !s.drained i then s else entryStep i dest k s
      | _ => s
    else s)

/-- The domain's exit completes: P0, and its pending request starts (R472). -/
def execDomainExitDone (i : Fin 55) (s : State) : Host.Outcome State Fault Refusal :=
  .next (if s.aonLive && decide ((s.dom i).trans = .exiting) then domRestored i s else s)

/-- An access reaches the domain and waits while it wakes; one in P3 does not wake (R466, R473). -/
def execDomainWakeAccess (i : Fin 55) (s : State) : Host.Outcome State Fault Refusal :=
  .next (if s.aonLive then wakeDomain i s else s)

/-- The path that brings a part back into service takes its domain out of P3, the registers at their reset values (R466). An entry to P3 is
abandoned before AP3, otherwise completed and followed by the exit (R474). -/
def leaveP3 (i : Nat) (lost : State → State) (s : State) : State :=
  if s.domLost i then
    (lost s).modDom i fun d => { d with trans := .exiting, wakes := satAdd d.wakes 1, lastWork := s.now }
  else match (s.dom i).trans with
    | .entering .p3 _ =>
      (if (s.dom i).falling then lost s else s).modDom i fun d => { d with wake := true, lastWork := s.now }
    | _ => s

/-! ### D-Doze (R475, R476) -/

/-- The first condition of R475, in list order, that does not hold: 1 to 5, or 0 when all hold. -/
def State.dozeRefusal (s : State) : Nat :=
  if (List.range 16).any fun p => (s.port p).up || ((s.port p).training && s.domAwake (28 + p)) then 1
  else if s.uliletBeyondDetect then 2
  else if s.moverBusy then 3
  else if !s.ril.mbox.isEmpty || !s.alm.waiting.isEmpty || s.const.admits.any (fun a => a.cci.isSome) ||
    s.ccis.any fun e => e.2.background.running then 4
  else if s.activationBusy then 5
  else 0

/-- A domain that D-Doze takes to P2 and a wake brings back: every one but the always-on domain and those in P3. -/
def dozeDomain (dest : PState) (i : Nat) (s : State) : State :=
  if (s.dom i).state = .p3 then s
  else
    let s := s.modDom i fun d => { d with state := dest, trans := .none, pending := none, wake := false, lastWork := s.now }
    gateDomain i (decide (dest ≠ .p0)) s

/-- D-Doze is entered: engine clusters, ports, Ulilet ports, channels, policy, core, management, in that order (R475). -/
def enterDoze (s : State) : State :=
  let s := forEach ((List.range 24).filter fun c => (s.chan c).state = .active) chanSelfRefresh s
  let order := (List.range 8).map (47 + ·) ++ (List.range 16).map (28 + ·) ++ (List.range 3).map (44 + ·) ++
    (List.range 24).map (4 + ·) ++ [3, 2, 1]
  forEach order (dozeDomain .p2) (s.modPower fun p => { p with dozing := true })

/-- A write of 1 to DEV_PWR.DOZE: entered, or refused with the first condition that fails (R475). -/
def requestDoze (s : State) : State :=
  if !s.running || s.power.dozing then s
  else if s.dozeRefusal = 0 then enterDoze s
  else s.modPower fun p => { p with dozeRefused := true, refuseCause := BitVec.ofNat 3 s.dozeRefusal }

def execDoze (s : State) : Host.Outcome State Fault Refusal := .next (requestDoze s)

/-- A wake event of R476 ends D-Doze: the domains return to P0 in the reverse order. -/
def leaveDoze (cause : BitVec 3) (s : State) : State :=
  let order := [1, 2, 3] ++ (List.range 24).map (4 + ·) ++ (List.range 3).map (44 + ·) ++
    (List.range 16).map (28 + ·) ++ (List.range 8).map (47 + ·)
  let s := forEach order (dozeDomain .p0) (s.modPower fun p => { p with dozing := false, wakeCause := cause })
  forEach ((List.range 24).filter fun c => (s.chan c).state = .active) chanLeaveSelfRefresh s

/-- An event of R476 that is a command of its own wakes a dozing device. -/
def wakeDoze (cause : BitVec 3) (s : State) : State := if s.power.dozing then leaveDoze cause s else s

def execDozeWake (cause : BitVec 3) (s : State) : Host.Outcome State Fault Refusal :=
  .next (if s.aonLive && s.power.dozing && decide (cause ≠ 0) then leaveDoze cause s else s)

end Sys2Proof.Machine
end

