-- ==== Sys2Proof/Machine/Slot.lean ====
section
/-! DEFINITION. DIMM slot power: the slot states, the breakers, the fault timer, presence and the commands (chapter 16). -/
namespace Sys2Proof.Machine

/-- A slot that draws power: AUX_UP, RAMP, QUALIFY or ON. -/
def SlotState.powered : SlotState → Bool
  | .auxUp | .ramp | .qualify | .on => true
  | .off | .backoff | .latched => false

/-- SLOT_STAT.STATE's code (R462). -/
def SlotState.code : SlotState → Nat
  | .off => 0
  | .auxUp => 1
  | .ramp => 2
  | .qualify => 3
  | .on => 4
  | .backoff => 5
  | .latched => 6

/-- The slot waits to enter AUX_UP from OFF (R457). -/
def State.slotWaits (s : State) (n : Nat) : Bool := s.slotMgr.queue.contains n

/-- The Almanac power state of a slot: 0 off, 1 ramping, 2 on, 3 latched off; a waiting slot reports ramping (R457, R459, R462). -/
def State.slotPower (s : State) (n : Nat) : Nat :=
  match (s.slot n).state with
  | .off => if s.slotWaits n then 1 else 0
  | .on => 2
  | .latched => 3
  | .auxUp | .ramp | .qualify | .backoff => 1

/-- The fault timer now, in eighths of a ns: up at the rate of time while the limit is engaged, else down at an eighth of it; it does not run
outside AUX_UP to ON (R453). DEDUCED, log 99. -/
def Slot.timerNow (u : Slot) (now : Nat) : Nat :=
  if !u.state.powered then u.timer
  else if u.limiting then u.timer + 8 * (now - u.timerMark) else u.timer - (now - u.timerMark)

/-- SLOT_STAT.TIMER_US (R462). -/
def Slot.timerUs (u : Slot) (now : Nat) : BitVec 16 := satAdd 0 (u.timerNow now / (8 * usNs))

/-- The start of the qualification window: from its beginning, or from when the fault timer was last idle (R454). -/
def Slot.windowFrom (u : Slot) : Nat := max u.qualFrom (u.timerMark + u.timer)

/-- The slots in AUX_UP or RAMP (R457). -/
def State.rampingSlots (s : State) : Nat :=
  ((List.range 48).filter fun n => (s.slot n).state = .auxUp ∨ (s.slot n).state = .ramp).length

/-- Entry to AUX_UP: aux on with its limit, the timer at 0, the trip armed at RAMP_TRIP_A (R450, R453). -/
def enterAuxUp (n : Nat) (s : State) : State :=
  s.modSlot n fun u =>
    { u with state := .auxUp, since := s.now, timer := 0, timerMark := s.now, limiting := false, restored := false
             rampNow := u.ramp, rampTripNow := u.rampTripA, auxTimerNow := u.auxTimer }

/-- A slot on its way to ON: it waits, rises, qualifies or is to be tried again. -/
def State.slotPending (s : State) (n : Nat) : Bool :=
  s.slotWaits n || decide ((s.slot n).state ∈ [SlotState.auxUp, .ramp, .qualify, .backoff])

/-- Phase 7 ends, and phase 8 begins, when no slot is on its way to ON (R494, R507). -/
def endPhase7 (s : State) : State :=
  if s.start.phase = 7 ∧ (List.range 48).all (fun n => !s.slotPending n) then s.modStart fun r => { r with phase := 8, phase8At := s.now }
  else s

/-- Switch a slot off: the gate is discharged and aux follows; the fault timer stops (R453, R455). -/
def switchSlotOff (n : Nat) (st : SlotState) (s : State) : State :=
  let s := s.modSlot n fun u =>
    { u with state := st, since := s.now, limiting := false, timer := u.timerNow s.now, timerMark := s.now }
  { s with slotMgr := { s.slotMgr with queue := s.slotMgr.queue.erase n } }

/-- A powered slot lost its power-good: an ACTIVE channel is unreadable (R281), and a channel being brought up cannot train (R457). -/
def powerGoodLost (n : Nat) (wasOn : Bool) (s : State) : State :=
  if wasOn && decide ((s.chan (n / 2)).state = .active) then channelUnreadable (n / 2) s else s

/-- A slot that is latched off makes a channel that waits for it TRAIN_FAILED with CAUSE 6 (R228, R457). -/
def latchedStopsTraining (n : Nat) (s : State) : State :=
  if (s.slot n).state = .latched ∧ (s.chan (n / 2)).state = .untrained then trainFail (n / 2) 6 s else s

/-- Count a fault in SLOT_FLT and LAST_FAULT: 1 12 V trip, 2 12 V trip during ramp, 3 aux limit timeout (R452, R453, R462). -/
def recordSlotFault (code : Nat) (u : Slot) : Slot :=
  { u with
    lastFault := BitVec.ofNat 2 code
    trip12 := if code = 1 then satAdd u.trip12 1 else u.trip12
    rampTrip := if code = 2 then satAdd u.rampTrip 1 else u.rampTrip
    auxTo := if code = 3 then satAdd u.auxTo 1 else u.auxTo }

/-- A slot fault: into BACKOFF while a retry is left, otherwise LATCHED; reported under R459. -/
def slotFault (n code : Nat) (s : State) : State :=
  let wasOn := decide ((s.slot n).state = .on)
  let retry := decide ((s.slot n).retriesLeft ≠ 0)
  let s := (switchSlotOff n (if retry then .backoff else .latched) s).modSlot n fun u =>
    let u := recordSlotFault code u
    if retry then { u with retriesLeft := u.retriesLeft - 1 } else { u with latches := satAdd u.latches 1 }
  let s := fireEvent (if wasOn || !retry then srcSlotFault n else srcSlotBackoff n) s
  wakeDoze 7 (endPhase7 (latchedStopsTraining n (powerGoodLost n wasOn s)))

/-- The states of a channel in which a slot command is accepted (R456). -/
def slotCommandAccepted (off : Bool) (c : ChanState) : Bool :=
  match c with
  | .absent | .evacuated | .retired | .trainFailed => true
  | .untrained => !off
  | .active | .evacuating => false

/-- A command that is not accepted changes nothing else and sets REFUSED (R456, R459). -/
def refuseSlotCommand (n : Nat) (s : State) : State :=
  fireEvent srcSlotRefused (s.modSlot n fun u => { u with refused := true })

/-- Ask for power to the slots of one request, in ascending order after those that wait (R457). -/
def requestSlots (l : List Nat) (s : State) : State :=
  let new := l.filter fun n => decide ((s.slot n).state = .off) && (s.slot n).prsnt && !s.slotWaits n
  { s with slotMgr := { s.slotMgr with queue := s.slotMgr.queue ++ new } }

/-- The ON command (R450, R456): a slot that is OFF with its DIMM present waits for its entry to AUX_UP. -/
def slotCmdOn (n : Nat) (s : State) : State :=
  if slotCommandAccepted false (s.chan (n / 2)).state then requestSlots [n] s else refuseSlotCommand n s

/-- The OFF command (R450, R456). -/
def slotCmdOff (n : Nat) (s : State) : State :=
  if slotCommandAccepted true (s.chan (n / 2)).state then
    if (s.slot n).state = .latched then s else endPhase7 (switchSlotOff n .off s)
  else refuseSlotCommand n s

/-- The REARM command (R450, R456). -/
def slotCmdRearm (n : Nat) (s : State) : State :=
  if slotCommandAccepted false (s.chan (n / 2)).state then
    if (s.slot n).state = .latched then
      noteHealth (s.modSlot n fun u => { u with state := .off, since := s.now, retriesLeft := u.retries })
    else s
  else refuseSlotCommand n s

/-- A write of SLOT_CMD: ON and OFF together are OFF, and REARM goes before an ON (R461). -/
def slotCommand (n : Nat) (w : Word) (s : State) : State :=
  let s := if w.getLsbD 2 then slotCmdRearm n s else s
  if w.getLsbD 1 then slotCmdOff n s else if w.getLsbD 0 then slotCmdOn n s else s

/-- The always-on domain works: VAON is in range, PWR_OK is asserted, and the device is not halted (R460). -/
def State.slotsLive (s : State) : Bool := s.start.vaon && s.start.powered && !s.faults.halted

def execSlotOn (n : Fin 48) (s : State) : Host.Outcome State Fault Refusal :=
  .next (if s.slotsLive then slotCmdOn n s else s)

def execSlotOff (n : Fin 48) (s : State) : Host.Outcome State Fault Refusal :=
  .next (if s.slotsLive then slotCmdOff n s else s)

def execSlotRearm (n : Fin 48) (s : State) : Host.Outcome State Fault Refusal :=
  .next (if s.slotsLive then slotCmdRearm n s else s)

/-- The slot at the head of the waiting slots may start: 100 µs after the last start, fewer than 8 ramping (R457). -/
def State.slotMayStart (s : State) (n : Nat) : Bool :=
  decide (s.slotMgr.queue.head? = some n) && decide (s.rampingSlots < 8) && decide ((s.slot n).state = .off) &&
    match s.slotMgr.lastStart with
    | none => true
    | some t => decide (t + 100 * usNs ≤ s.now)

/-- A waiting slot enters AUX_UP from OFF with its retries restored (R450, R457). -/
def execSlotAuxUpStart (n : Fin 48) (s : State) : Host.Outcome State Fault Refusal :=
  .next (if s.slotsLive && s.slotMayStart n then
      let s := enterAuxUp n { s with slotMgr := { queue := s.slotMgr.queue.drop 1, lastStart := some s.now } }
      s.modSlot n fun u => { u with retriesLeft := u.retries }
    else s)

/-- 1 ms of AUX_UP has passed: the gate ramp starts (R450). -/
def execSlotAuxUpDone (n : Fin 48) (s : State) : Host.Outcome State Fault Refusal :=
  .next (if s.slotsLive && decide ((s.slot n).state = .auxUp) && decide ((s.slot n).since + msNs ≤ s.now) then
      s.modSlot n fun u => { u with state := .ramp, since := s.now }
    else s)

/-- The time of the gate ramp in ns: 12 V at RAMP × 0.5 V/ms (R450, R451). -/
def Slot.rampTime (u : Slot) : Nat := 24 * msNs / u.rampNow.toNat

/-- The ramp has passed: the gate is high, the trip is armed at TRIP_A and the qualification window starts (R450). -/
def execSlotRampDone (n : Fin 48) (s : State) : Host.Outcome State Fault Refusal :=
  .next (if s.slotsLive && decide ((s.slot n).state = .ramp) && decide ((s.slot n).since + (s.slot n).rampTime ≤ s.now) then
      s.modSlot n fun u => { u with state := .qualify, since := s.now, qualFrom := s.now }
    else s)

/-- The window completes after 5 ms with the timer idle throughout: power-good is asserted (R454). -/
def execSlotQualifyDone (n : Fin 48) (s : State) : Host.Outcome State Fault Refusal :=
  .next (if s.slotsLive && decide ((s.slot n).state = .qualify) && !(s.slot n).limiting &&
        decide ((s.slot n).windowFrom + 5 * msNs ≤ s.now) then
      endPhase7 (s.modSlot n fun u => { u with state := .on, since := s.now, restored := false })
    else s)

/-- 10 s of ON restore the retry count (R450). -/
def execSlotRetryRestore (n : Fin 48) (s : State) : Host.Outcome State Fault Refusal :=
  .next (if s.slotsLive && decide ((s.slot n).state = .on) && !(s.slot n).restored &&
        decide ((s.slot n).since + 10 * secNs ≤ s.now) then
      s.modSlot n fun u => { u with retriesLeft := u.retries, restored := true }
    else s)

/-- 100 ms after the fault the slot enters AUX_UP again, if fewer than 8 slots ramp (R450, R457). -/
def execSlotBackoffDone (n : Fin 48) (s : State) : Host.Outcome State Fault Refusal :=
  .next (if s.slotsLive && decide ((s.slot n).state = .backoff) && decide ((s.slot n).since + 100 * msNs ≤ s.now) &&
        decide (s.rampingSlots < 8) then enterAuxUp n s
    else s)

/-- The 12 V threshold that is armed, in mA, and the fault it records (R452). -/
def Slot.armed (u : Slot) : Nat × Nat :=
  if u.state = .auxUp ∨ u.state = .ramp then (1000 * u.rampTripNow.toNat, 2) else (1000 * u.tripA.toNat, 1)

/-- The 12 V current reaches the armed threshold: the slot faults (R452). -/
def execSlot12vTrip (n : Fin 48) (milliamps : BitVec 32) (s : State) : Host.Outcome State Fault Refusal :=
  .next (if s.slotsLive && (s.slot n).state.powered && decide ((s.slot n).armed.1 ≤ milliamps.toNat) then
      slotFault n (s.slot n).armed.2 s
    else s)

/-- The aux limit engages: the fault timer counts up from here (R453). -/
def execAuxLimitEngage (n : Fin 48) (s : State) : Host.Outcome State Fault Refusal :=
  .next (if s.slotsLive && (s.slot n).state.powered && !(s.slot n).limiting then
      s.modSlot n fun u => { u with limiting := true, timer := u.timerNow s.now, timerMark := s.now }
    else s)

/-- The aux limit releases: the fault timer counts down at an eighth of the rate (R453). -/
def execAuxLimitRelease (n : Fin 48) (s : State) : Host.Outcome State Fault Refusal :=
  .next (if s.slotsLive && (s.slot n).state.powered && (s.slot n).limiting then
      s.modSlot n fun u => { u with limiting := false, timer := u.timerNow s.now, timerMark := s.now }
    else s)

/-- The fault timer reaches AUX_TIMER: the slot faults with fault 3 (R453). -/
def execAuxTimerExpiry (n : Fin 48) (s : State) : Host.Outcome State Fault Refusal :=
  .next (if s.slotsLive && (s.slot n).state.powered && (s.slot n).limiting &&
        decide (8 * 250 * usNs * (s.slot n).auxTimerNow.toNat ≤ (s.slot n).timerNow s.now) then slotFault n 3 s
    else s)

/-- The fault timer has counted down to 0: the qualification window starts again from then (R454). -/
def execAuxFaultTimerIdle (n : Fin 48) (s : State) : Host.Outcome State Fault Refusal :=
  .next (if s.slotsLive && (s.slot n).state.powered && !(s.slot n).limiting && decide ((s.slot n).timer ≠ 0) &&
        decide ((s.slot n).timerNow s.now = 0) then
      s.modSlot n fun u => { u with qualFrom := u.windowFrom, timer := 0, timerMark := u.timerMark + u.timer }
    else s)

/-- SLOT_PRSNT_N stayed low for 10 ms: presence counts (R458). A Health Status bit that this sets is no fault's (R523). -/
def execSlotPresenceAssert (n : Fin 48) (s : State) : Host.Outcome State Fault Refusal :=
  .next (if s.slotsLive then noteHealth (s.modSlot n fun u => { u with prsnt := true }) else s)

/-- SLOT_PRSNT_N stayed high for 100 µs: a slot in any state but OFF and LATCHED is switched off, and a powered one is reported (R458). -/
def presenceLost (n : Nat) (s : State) : State :=
  let was := (s.slot n).state
  let s := s.modSlot n fun u => { u with prsnt := false }
  let s := { s with slotMgr := { s.slotMgr with queue := s.slotMgr.queue.erase n } }
  if was = .off ∨ was = .latched then updateHealth s
  else
    let s := (switchSlotOff n .off s).modSlot n fun u => { u with prsntLoss := satAdd u.prsntLoss 1 }
    endPhase7 (powerGoodLost n (was = .on) (fireEvent (srcSlotFault n) s))

def execSlotPresenceLoss (n : Fin 48) (s : State) : Host.Outcome State Fault Refusal :=
  .next (if s.slotsLive && (s.slot n).prsnt then presenceLost n s else s)

/-- A 1 ms window ends: I12 takes its mean until the next one, in every slot state (R449). -/
def execSlotMeasWindow (n : Fin 48) (mean : BitVec 32) (s : State) : Host.Outcome State Fault Refusal :=
  .next (if s.slotsLive && decide ((s.slot n).windowEnd + msNs ≤ s.now) then
      s.modSlot n fun u =>
        { u with i12 := mean, peak := if u.peak < mean then mean else u.peak, windowEnd := s.now / msNs * msNs }
    else s)

end Sys2Proof.Machine
end

