-- ==== Sys2Proof/Machine/Timebase.lean ====
section
/-! DEFINITION. The timebase: ticks, fallback, sets, steps, slewing and free run (R481 to R488). -/
namespace Sys2Proof.Machine

/-- A nanosecond in fallback: TB_UNCERT rises by 1 ns for every 2,000 ns (R482). -/
def countFallback (t : Time) : Time :=
  if t.fallback then
    if t.fallbackNs + 1 = 2000 then { t with fallbackNs := 0, uncert := satAdd t.uncert 1 }
    else { t with fallbackNs := t.fallbackNs + 1 }
  else t

/-- One nanosecond passes: the uptime and the timebase advance (R481, R483). They stand still while PWR_OK is low. -/
def tick (s : State) : State :=
  if s.start.powered then s.modTime fun t => countFallback { t with now := t.now + 1, tb := t.tb + 1 } else s

/-- The timebase is set or stepped: the record in the event recorder, the kind 0x0006 records, queue 11, and TB_UNCERT (R485). -/
def stepTimebase (new : BitVec 64) (s : State) : State :=
  let old := s.time.tb
  let s := s.modTime fun t => { t with tb := new, uncert := 0, fallbackNs := 0 }
  let s := sampleTally 0x101 (if old ≤ new then new - old else old - new) old new s
  let s := placeAll .info (.vendor 0x0006 (new - old)) s
  postDevice 11 old new 0 0 s

/-- TB_STAT.SYNC: at the polestar, a set was applied and TB_UNCERT is below 1 µs; at a companion, as steering leaves it (R487). -/
def State.synced (s : State) : Bool :=
  if s.ident.role then s.time.setEver && decide (s.time.uncert.toNat < 1000) else s.time.sync

/-- A set at the polestar (R485). -/
def setTimebase (new : BitVec 64) (s : State) : State :=
  stepTimebase new (s.modTime fun t => { t with setEver := true })

/-- A write to TB_SET; the timebase is set only at the polestar (R485). -/
def execTbSet (time : BitVec 64) (s : State) : Host.Outcome State Fault Refusal :=
  .next (if s.running && s.ident.role then setTimebase time s else s)

/-- REFCLK stopped for 100 ns: the timebase runs from the internal oscillator (R482). -/
def execRefclkLoss (s : State) : Host.Outcome State Fault Refusal :=
  .next (if s.start.powered then s.modTime fun t => { t with fallback := true } else s)

/-- REFCLK is steady for 1 µs: the reference again, without a step; TB_UNCERT stays (R482). -/
def execRefclkRestore (s : State) : Host.Outcome State Fault Refusal :=
  .next (if s.start.powered then s.modTime fun t => { t with fallback := false } else s)

/-- Insert into an ascending list of offsets. -/
def insertInt (n : Int) : List Int → List Int
  | [] => [n]
  | m :: t => if n ≤ m then n :: m :: t else m :: insertInt n t

/-- The offsets in ascending order. -/
def sortInts (l : List Int) : List Int := l.foldr insertInt []

/-- The median of the offsets held: of an even number, the lower of the two in the middle (log 20). -/
def median (l : List Int) : Int := (sortInts l).getD ((l.length - 1) / 2) 0

/-- A signed value of 32 bits, saturating (TB_STAT.OFFSET). -/
def satInt32 (v : Int) : BitVec 32 :=
  if v < -(2 ^ 31) then BitVec.ofNat 32 (2 ^ 31) else if 2 ^ 31 ≤ v then BitVec.ofNat 32 (2 ^ 31 - 1) else BitVec.ofInt 32 v

/-- An offset θ from the parent's beacon: the median of the last 8 steps the timebase, or sets the slew (R487). -/
def steer (theta : Int) (s : State) : State :=
  let l := (theta :: s.time.offsets).take 8
  let m := median l
  if s.time.step.toNat ≤ m.natAbs then
    (stepTimebase (s.time.tb + BitVec.ofInt 64 m) s).modTime fun t =>
      { t with offsets := [], slew := 0, offset := satInt32 m, sync := false, parentAt := t.now }
  else
    let sync := decide (l.length = 8) && l.all fun v => decide (v.natAbs ≤ 100)
    s.modTime fun t =>
      { t with offsets := l, slew := m, offset := satInt32 m, sync, parentAt := t.now
               uncert := if sync && !t.sync then 0 else t.uncert }

/-- The nanoseconds between two slewed nanoseconds at SLEW_PPM (R487). -/
def Time.slewGap (t : Time) : Nat := 1000000 / t.slewPpm.toNat

/-- The slew interval expires and the companion adds or drops 1 ns; free-running it keeps its last rate (R487, R488). -/
def slewOnce (s : State) : State :=
  s.modTime fun t =>
    { t with tb := if 0 < t.slew then t.tb + 1 else t.tb - 1, slewAt := t.now
             slew := if t.freeRun then t.slew else if 0 < t.slew then t.slew - 1 else t.slew + 1 }

def execTimebaseSlew (s : State) : Host.Outcome State Fault Refusal :=
  .next (if s.start.powered && !s.ident.role && decide (s.time.slew ≠ 0) && decide (s.time.slewAt + s.time.slewGap ≤ s.now)
    then slewOnce s else s)

/-- The beacon period in ns: a slot in every 1.024 µs (R422). -/
def beaconPeriod : Nat := 1024

/-- 8 beacon periods without a synchronised parent: SYNC clears, and the companion free-runs (R488). -/
def execTimebaseFreeRun (s : State) : Host.Outcome State Fault Refusal :=
  .next (if s.running && !s.ident.role && !s.time.freeRun && decide (s.time.parentAt + 8 * beaconPeriod ≤ s.now) then
      condStart 693 (s.modTime fun t => { t with sync := false, freeRun := true })
    else s)

end Sys2Proof.Machine
end

