-- ==== Sys2Proof/Machine/Mailbox.lean ====
section
/-! DEFINITION. The command interfaces: the checks before every command, the standard commands, and the vendor commands that
only read or set registers of the device as a whole (R92 to R110). -/
namespace Sys2Proof.Machine

/-- The payload buffer of a command interface (R92). -/
def payloadBuffer : Cci → Nat
  | .ld _ => 1048576
  | .mctp => 4096

/-- What a command's input must be (R93). -/
inductive InputLen where
  /-- No input. -/
  | empty
  /-- Exactly so many bytes. -/
  | fixed (n : Nat)
  /-- So many bytes or more, by a count inside the input. -/
  | atLeast (n : Nat)
  deriving DecidableEq, Repr

/-- The path classes of R94. A Self command names an LD. -/
inductive Via where
  | any
  | self (ld : Nat)
  | mgmt
  | mctp
  deriving DecidableEq, Repr

/-- Who executes a command (R95). -/
inductive Handler where
  | engine
  | firmware
  deriving DecidableEq, Repr

/-- The input length is wrong (R93, the first three checks). -/
def badLength (cci : Cci) (len : Nat) (want : InputLen) : Bool :=
  decide (payloadBuffer cci < len) ||
    match want with
    | .empty => decide (len ≠ 0)
    | .fixed n => decide (len ≠ n)
    | .atLeast n => decide (len < n)

/-- The command is permitted on this command interface (R94). -/
def State.permits (s : State) (cci : Cci) (path : Via) : Bool :=
  match path, cci with
  | .any, _ => true
  | _, .mctp => true
  | .self l, .ld i => decide (l = i.val)
  | .mgmt, .ld i => (s.ld i.val).mgmt
  | .mctp, .ld _ => false

/-- The resident firmware program has bound its mailbox handler to queue 0 (R95). -/
def State.mailboxBound (s : State) : Bool := ((s.queue 0).bound).isSome

/-- The command interface exists and answers: from the end of early Vigil, on a link that is up (R510, R511). -/
def State.cciLive (s : State) (cci : Cci) : Bool :=
  s.running && s.start.earlyDone && !s.power.dozing &&
    match cci with
    | .ld i => s.ldExists i.val && (s.port (i.val / 16)).up
    | .mctp => true

/-- The MCTP command interface takes one command at a time over both its carriers, and one is in progress (R95). DEDUCED, log 106. -/
def State.cciBusy (s : State) (cci : Cci) : Bool :=
  decide (cci = .mctp) && (s.alm.waiting.any (fun w => decide (w.1 = .mctp)) || s.const.admits.any fun a => decide (a.cci = some .mctp))

/-- The checks that come before any action, in their order of precedence (R93 to R95). `tooLong`: a count or length asks for
more than the buffer or past its source; `zero`: a count that must be at least one is zero. -/
def State.refusal (s : State) (cci : Cci) (len : Nat) (want : InputLen) (tooLong zero : Bool) (path : Via) (h : Handler) : Option Code :=
  if badLength cci len want || tooLong then some .invalidPayloadLength
  else if zero then some .invalidInput
  else if !s.permits cci path then some .unsupportedMailbox
  else
    match h with
    | .engine => none
    | .firmware => if s.start.lantern then some .mediaDisabled else if s.mailboxBound then none else some .busy

/-- A command completes. -/
def answer (cci : Cci) (code : Code) (payload : List Byte) (s : State) : State := s.emit (.command cci code payload)

/-- A firmware-handled command is posted to queue 0 with its tag, and its payload buffer is mapped for the handler (R299, R305). -/
def postMailbox (cci : Cci) (opcode : BitVec 16) (len : Nat) (background : Bool) (s : State) : State :=
  if 512 ≤ (s.queue 0).entries.length then s
  else
    let tag := s.ril.nextTag
    let who : Nat := match cci with
      | .ld i => i.val
      | .mctp => 0xFFFF
    postDevice 0 (BitVec.ofNat 64 (opcode.toNat + 65536 * who)) (BitVec.ofNat 64 len) tag 0
      (s.modRil fun r => { r with nextTag := tag + 1, mbox := r.mbox ++ [{ tag, cci, opcode, background }] })

/-- Run one command: refused before any action (R93), or carried out whole by its handler. DESIGN CHOICE, log 27. -/
def command (cci : Cci) (opcode : BitVec 16) (len : Nat) (want : InputLen) (tooLong zero : Bool) (path : Via) (h : Handler)
    (run : State → State) (s : State) : State :=
  if s.cciLive cci then
    if s.cciBusy cci then answer cci .busy [] s
    else match s.refusal cci len want tooLong zero path h with
    | some c => answer cci c [] s
    | none => run (if h = .firmware then postMailbox cci opcode len false s else s)
  else s

/-- Little-endian 64-bit words as bytes: how a reply whose layout is the CXL specification's is written (log 14). -/
def wordsLe (l : List Nat) : List Byte := l.flatMap (leBytes 8)

/-! ### Standard commands (R96) -/

def execIdentify (cci : Cci) (len : BitVec 32) (s : State) : Host.Outcome State Fault Refusal :=
  .next (command cci 0x0001 len.toNat .empty false false .any .engine (fun s =>
    answer cci .success (wordsLe [Config.identifyWord.toNat, s.ident.serial.toNat, payloadBuffer cci]) s) s)

def execBackgroundOperationStatus (cci : Cci) (len : BitVec 32) (s : State) : Host.Outcome State Fault Refusal :=
  .next (command cci 0x0002 len.toNat .empty false false .any .engine (fun s =>
    let b := (s.cci (cciIndex cci)).background
    answer cci .success (wordsLe [flag b.running + 2 * b.percent.toNat, b.opcode.toNat, b.code.toNat]) s) s)

def execGetResponseMessageLimit (cci : Cci) (len : BitVec 32) (s : State) : Host.Outcome State Fault Refusal :=
  .next (command cci 0x0003 len.toNat .empty false false .mctp .engine (fun s =>
    answer cci .success (leBytes 1 (s.cci 256).respLimit.toNat) s) s)

def execSetResponseMessageLimit (cci : Cci) (len : BitVec 32) (limit : BitVec 8) (s : State) : Host.Outcome State Fault Refusal :=
  .next (command cci 0x0004 len.toNat (.fixed 1) false false .mctp .engine (fun s =>
    answer cci .success (leBytes 1 limit.toNat) (s.modCci 256 fun c => { c with respLimit := limit })) s)

/-- The log a Get or Clear Event Records input names. -/
def logOf (b : Nat) : Option LogKind :=
  if b = 0 then some .info
  else if b = 1 then some .warning
  else if b = 2 then some .failure
  else if b = 3 then some .fatal
  else if b = 4 then some .dynamicCapacity
  else none

/-- A record's content as numbers: its form, then its fields. -/
def RecBody.words : RecBody → List Nat
  | .vendor kind arg => [0, kind.toNat, arg.toNat, 0]
  | .memoryModule event => [1, event, 0, 0]
  | .generalMedia descriptor transaction dpa => [2, descriptor, transaction, dpa.toNat]
  | .dynamicCapacity event dpa tag => [3, event, dpa.toNat, tag.toNat]

/-- A record in a reply, 128 bytes long. -/
def EventRec.bytes (r : EventRec) : List Byte :=
  wordsLe ([r.handle.toNat, r.timestamp.toNat] ++ r.body.words ++ List.replicate 10 0)

def execGetEventRecords (cci : Cci) (len : BitVec 32) (ld : Fin 256) (log : BitVec 8) (s : State) : Host.Outcome State Fault Refusal :=
  .next (command cci 0x0100 len.toNat (.fixed 1) false false (.self ld) .engine (fun s =>
    match logOf log.toNat with
    | none => answer cci .invalidInput [] s
    | some k =>
      if s.ldExists ld then
        let l := (s.ld ld).log k
        let fit := l.records.take ((payloadBuffer cci - 32) / 128)
        let more := flag (decide (fit.length < l.records.length))
        answer cci .success (wordsLe [flag (decide (l.overflow ≠ 0)) + 2 * more + 65536 * l.overflow.toNat,
          l.firstOverflow.toNat, l.lastOverflow.toNat, fit.length] ++ fit.flatMap EventRec.bytes) s
      else answer cci .invalidInput [] s) s)

/-- Clear the records whose handles are named, which must be the oldest in order; or all of them. -/
def clearRecords (l : EventLog) (all : Bool) (handles : List (BitVec 16)) : Option EventLog :=
  if all then some { l with records := [], overflow := 0, firstOverflow := 0, lastOverflow := 0 }
  else if (l.records.take handles.length).map (·.handle) = handles then
    some { l with records := l.records.drop handles.length, overflow := 0, firstOverflow := 0, lastOverflow := 0 }
  else none

def execClearEventRecords (cci : Cci) (len : BitVec 32) (ld : Fin 256) (log : BitVec 8) (all : Bool)
    (handles : List (BitVec 16)) (s : State) : Host.Outcome State Fault Refusal :=
  .next (command cci 0x0101 len.toNat (.fixed (6 + 2 * handles.length)) false false (.self ld) .engine (fun s =>
    match logOf log.toNat with
    | none => answer cci .invalidInput [] s
    | some k =>
      if s.ldExists ld then
        match clearRecords ((s.ld ld).log k) all handles with
        | none => answer cci .invalidHandle [] s
        | some l => answer cci .success [] (s.modLd ld fun d => d.setLog k l)
      else answer cci .invalidInput [] s) s)

def execGetEventInterruptPolicy (cci : Cci) (len : BitVec 32) (ld : Fin 256) (s : State) : Host.Outcome State Fault Refusal :=
  .next (command cci 0x0102 len.toNat .empty false false (.self ld) .engine (fun s =>
    if s.ldExists ld then answer cci .success (leBytes 5 (s.ld ld).intPolicy.toNat) s else answer cci .invalidInput [] s) s)

def execSetEventInterruptPolicy (cci : Cci) (len : BitVec 32) (ld : Fin 256) (policy : BitVec 40) (s : State) : Host.Outcome State Fault Refusal :=
  .next (command cci 0x0103 len.toNat (.fixed 5) false false (.self ld) .engine (fun s =>
    if s.ldExists ld then answer cci .success [] (s.modLd ld fun d => { d with intPolicy := policy })
    else answer cci .invalidInput [] s) s)

def execGetMctpEventInterruptPolicy (cci : Cci) (len : BitVec 32) (s : State) : Host.Outcome State Fault Refusal :=
  .next (command cci 0x0104 len.toNat .empty false false .mctp .engine (fun s =>
    answer cci .success (leBytes 2 (s.cci 256).mctpPolicy.toNat) s) s)

def execSetMctpEventInterruptPolicy (cci : Cci) (len : BitVec 32) (policy : BitVec 16) (s : State) : Host.Outcome State Fault Refusal :=
  .next (command cci 0x0105 len.toNat (.fixed 2) false false .mctp .engine (fun s =>
    answer cci .success [] (s.modCci 256 fun c => { c with mctpPolicy := policy })) s)

/-- Get Timestamp returns the timebase plus the LD's offset (R96). -/
def execGetTimestamp (cci : Cci) (len : BitVec 32) (ld : Fin 256) (s : State) : Host.Outcome State Fault Refusal :=
  .next (command cci 0x0300 len.toNat .empty false false (.self ld) .engine (fun s =>
    if s.ldExists ld then answer cci .success (leBytes 8 (s.time.tb + (s.ld ld).timeOffset).toNat) s
    else answer cci .invalidInput [] s) s)

/-- Set Timestamp sets the LD's offset and leaves the timebase unchanged (R96). -/
def execSetTimestamp (cci : Cci) (len : BitVec 32) (ld : Fin 256) (time : BitVec 64) (s : State) : Host.Outcome State Fault Refusal :=
  .next (command cci 0x0301 len.toNat (.fixed 8) false false (.self ld) .engine (fun s =>
    if s.ldExists ld then answer cci .success [] (s.modLd ld fun d => { d with timeOffset := time - s.time.tb })
    else answer cci .invalidInput [] s) s)

/-- The opcodes of the standard commands that R96 marks supported. -/
def standardOpcodes : List Nat :=
  [0x0001, 0x0002, 0x0003, 0x0004, 0x0100, 0x0101, 0x0102, 0x0103, 0x0104, 0x0105, 0x0200, 0x0300, 0x0301, 0x0400, 0x0401,
   0x4000, 0x4200, 0x4201, 0x4202, 0x4300, 0x4301, 0x4302, 0x4303, 0x4304, 0x4305, 0x4800, 0x4801, 0x4802, 0x4803]

/-- The fabric-manager opcodes that R97 marks supported. -/
def fabricOpcodes : List Nat :=
  [0x5400, 0x5401, 0x5403, 0x5405, 0x5406, 0x5408, 0x5500, 0x5501, 0x5600, 0x5601, 0x5602, 0x5603, 0x5604, 0x5605]

/-- The vendor opcodes of R98. -/
def vendorOpcodes : List Nat :=
  [0xC000, 0xC001, 0xC002, 0xC003, 0xC010, 0xC011, 0xC012, 0xC020, 0xC021, 0xC030, 0xC040, 0xC041, 0xC050, 0xC060]

/-- The Command Effects Log of a command interface: opcode and effects of every command it accepts (R96, log 14). -/
def effectsLog (cci : Cci) : List Byte :=
  (standardOpcodes ++ (match cci with | .ld _ => [] | .mctp => fabricOpcodes) ++ vendorOpcodes).flatMap fun o =>
    leBytes 2 o ++ leBytes 2 (Config.commandEffect o).toNat

def execGetSupportedLogs (cci : Cci) (len : BitVec 32) (s : State) : Host.Outcome State Fault Refusal :=
  .next (command cci 0x0400 len.toNat .empty false false .any .engine (fun s =>
    answer cci .success (wordsLe [1, (effectsLog cci).length]) s) s)

/-- Get Log serves the Command Effects Log only (R96); a range past its end is too long (R93). -/
def execGetLog (cci : Cci) (len offset length : BitVec 32) (s : State) : Host.Outcome State Fault Refusal :=
  .next (command cci 0x0401 len.toNat (.fixed 24)
    (decide ((effectsLog cci).length < offset.toNat + length.toNat) || decide (payloadBuffer cci < length.toNat))
    false .any .engine (fun s =>
      answer cci .success (((effectsLog cci).drop offset.toNat).take length.toNat) s) s)

/-- Identify Memory Device reports volatile-only capacity 0 and persistent capacity 0: all memory is dynamic capacity (R77). -/
def execIdentifyMemoryDevice (cci : Cci) (len : BitVec 32) (ld : Fin 256) (s : State) : Host.Outcome State Fault Refusal :=
  .next (command cci 0x4000 len.toNat .empty false false (.self ld) .firmware (fun s =>
    if s.ldExists ld then answer cci .success (wordsLe [0, 0, 0]) s else answer cci .invalidInput [] s) s)

/-- Device Temperature: the highest valid junction reading (R524). -/
def State.deviceTemp (s : State) : BitVec 8 :=
  match ((List.range 4).filter fun q => (s.sensor q).valid).map fun q => (s.sensor q).temp.toNat with
  | [] => Config.noTemperature
  | t :: l => BitVec.ofNat 8 (l.foldl max t)

/-- Get Health Info, evaluated when it runs (R524): status, media, life used, temperature, shutdowns, CE counts. -/
def execGetHealthInfo (cci : Cci) (len : BitVec 32) (ld : Fin 256) (s : State) : Host.Outcome State Fault Refusal :=
  .next (command cci 0x4200 len.toNat .empty false false (.self ld) .firmware (fun s =>
    if s.ldExists ld then
      let media := if s.start.memActive ≠ 0 then 0 else Config.earlyMediaStatus.toNat
      answer cci .success (leBytes 1 s.health.toNat ++ leBytes 1 media ++ leBytes 1 0 ++ leBytes 1 s.deviceTemp.toNat ++
        leBytes 4 0 ++ leBytes 4 s.faults.ceTotal.toNat ++ leBytes 4 0) s
    else answer cci .invalidInput [] s) s)

def execGetAlertConfiguration (cci : Cci) (len : BitVec 32) (ld : Fin 256) (s : State) : Host.Outcome State Fault Refusal :=
  .next (command cci 0x4201 len.toNat .empty false false (.self ld) .firmware (fun s =>
    if s.ldExists ld then
      let a := (s.ld ld).alerts
      answer cci .success (leBytes 1 a.valid.toNat ++ leBytes 2 a.warnTemp.toNat ++ leBytes 2 a.lowTemp.toNat ++
        leBytes 2 a.ceThreshold.toNat) s
    else answer cci .invalidInput [] s) s)

def execSetAlertConfiguration (cci : Cci) (len : BitVec 32) (ld : Fin 256) (valid : BitVec 8)
    (warnTemp lowTemp ceThreshold : BitVec 16) (s : State) : Host.Outcome State Fault Refusal :=
  .next (command cci 0x4202 len.toNat (.fixed 12) false false (.self ld) .firmware (fun s =>
    if s.ldExists ld then
      answer cci .success [] (s.modLd ld fun d => { d with alerts := { valid, warnTemp, lowTemp, ceThreshold } })
    else answer cci .invalidInput [] s) s)

/-- Every opcode that is not supported completes with Unsupported and takes no action (R96 to R98). -/
def execUnsupportedCommand (cci : Cci) (len : BitVec 32) (opcode : BitVec 16) (s : State) : Host.Outcome State Fault Refusal :=
  .next (if s.cciLive cci && !(standardOpcodes ++ fabricOpcodes ++ vendorOpcodes).contains opcode.toNat then
      if s.cciBusy cci then answer cci .busy [] s
      else if payloadBuffer cci < len.toNat then answer cci .invalidPayloadLength [] s else answer cci .unsupported [] s
    else s)

/-! ### Vendor commands of the device as a whole -/

/-- A range of a table of bytes as Get Almanac asks for it: its checks, and the bytes (R62, R63, R106). -/
def rangeTooLong (cci : Cci) (total offset length : Nat) : Bool :=
  decide (total < offset + length) || decide (payloadBuffer cci < 8 + length) ||
    (match cci with | .ld _ => false | .mctp => decide (1024 < length))

/-- Get Almanac: bytes of the last completed publication with its generation (R62, R63). -/
def runGetAlmanac (cci : Cci) (len offset length : Nat) (s : State) : State :=
  command cci 0xC000 len (.fixed 8) (rangeTooLong cci (8 * s.alm.words.length) offset length)
    (decide (length = 0) || decide (offset % 8 ≠ 0) || decide (length % 8 ≠ 0)) .any .engine (fun s =>
      answer cci .success (leBytes 8 s.alm.generation.toNat ++
        ((s.alm.words.drop (offset / 8)).take (length / 8)).flatMap fun w => leBytes 8 w.toNat) s) s

/-- A Get Almanac that arrives while a publication runs waits until it completes (R59). -/
def execGetAlmanac (cci : Cci) (len offset length : BitVec 32) (s : State) : Host.Outcome State Fault Refusal :=
  .next (if s.alm.upd && s.cciLive cci && !s.cciBusy cci then
      s.modAlm fun a => { a with waiting := a.waiting ++ [(cci, len.toNat, offset.toNat, length.toNat)] }
    else runGetAlmanac cci len.toNat offset.toNat length.toNat s)

/-- A record of the Vigil report, 16 bytes (R498). -/
def VigilRec.bytes (r : VigilRec) : List Byte :=
  leBytes 1 r.code.toNat ++ leBytes 1 r.outcome.toNat ++ leBytes 2 r.inst.toNat ++ leBytes 4 r.durationUs.toNat ++
    leBytes 8 r.detail.toNat

/-- The Vigil report: its 32-byte header and its records (R498). -/
def State.vigilReport (s : State) : List Byte :=
  leBytes 4 0x4C494756 ++ [1] ++ leBytes 1 s.start.kind.toNat ++ leBytes 1 (flag (!s.start.reportPassed)) ++
    leBytes 1 s.start.reportCode.toNat ++ leBytes 8 s.start.reportBegan.toNat ++ leBytes 8 s.start.reportEnded.toNat ++
    leBytes 2 s.start.report.length ++ leBytes 6 0 ++ s.start.report.flatMap VigilRec.bytes

/-- Get Vigil Report follows Get Almanac, with the uptime at Vigil completion for the generation (R106). -/
def execGetVigilReport (cci : Cci) (len offset length : BitVec 32) (s : State) : Host.Outcome State Fault Refusal :=
  .next (command cci 0xC030 len.toNat (.fixed 8) (rangeTooLong cci s.vigilReport.length offset.toNat length.toNat)
    (decide (length = 0) || decide (offset.toNat % 8 ≠ 0) || decide (length.toNat % 8 ≠ 0)) .any .engine (fun s =>
      answer cci .success (leBytes 8 s.start.reportEnded.toNat ++ (s.vigilReport.drop offset.toNat).take length.toNat) s) s)

/-- What Slot Power Control returns (R102). -/
def State.slotReply (s : State) (n : Nat) : List Byte :=
  let u := s.slot n
  leBytes 1 n ++ leBytes 1 (s.slotPower n) ++ leBytes 1 u.retriesLeft.toNat ++ leBytes 1 u.lastFault.toNat ++ leBytes 4 u.i12.toNat

/-- Slot Power Control rejects the cases that the slot manager itself refuses (R102). -/
def slotControlBad (slot action : Nat) (c : ChanState) : Bool :=
  decide (47 < slot) || decide (3 < action) || (decide (action = 1) && !slotCommandAccepted true c) ||
    (decide (2 ≤ action) && !slotCommandAccepted false c)

/-- The slot command of an action: 1 off, 2 on, 3 re-arm (R102). -/
def slotAction (n action : Nat) (s : State) : State :=
  if action = 1 then slotCmdOff n s else if action = 2 then slotCmdOn n s else if action = 3 then slotCmdRearm n s else s

def execSlotPowerControl (cci : Cci) (len : BitVec 32) (slot action : BitVec 8) (s : State) : Host.Outcome State Fault Refusal :=
  .next (command cci 0xC010 len.toNat (.fixed 4) false false .mgmt .firmware (fun s =>
    if slotControlBad slot.toNat action.toNat (s.chan (slot.toNat / 2)).state then answer cci .invalidInput [] s
    else
      let s := slotAction slot.toNat action.toNat s
      answer cci .success (s.slotReply slot.toNat) s) s)

/-- Set Timebase (R108): not at a companion, and not back without leave. -/
def execSetTimebase (cci : Cci) (len : BitVec 32) (time : BitVec 64) (stepBack : Bool) (s : State) : Host.Outcome State Fault Refusal :=
  .next (command cci 0xC041 len.toNat (.fixed 16) false false .mgmt .firmware (fun s =>
    if !s.ident.role || (decide (time < s.time.tb) && !stepBack) then answer cci .invalidInput [] s
    else answer cci .success (leBytes 8 s.time.tb.toNat ++ leBytes 8 time.toNat) (setTimebase time s)) s)

/-- The settings and the pending settings that Configure Recorder returns (R105). -/
def Recorder.settings (r : Recorder) : List Byte :=
  [BitVec.ofNat 8 (flag r.large), 0] ++ leBytes 2 r.epoch.toNat ++ leBytes 4 r.ring.toNat ++
    [BitVec.ofNat 8 (flag r.pendLarge), 0] ++ leBytes 2 r.epoch.toNat ++ leBytes 4 r.pendRing.toNat

/-- The ranges of Configure Recorder (R105). -/
def recorderConfigOk (config epoch ring : Nat) : Bool :=
  decide (epoch ≠ 0) &&
    if config = 0 then decide (ring = 0)
    else decide (config = 1) && decide (16 ≤ ring) && decide (ring ≤ 1024) && decide (ring % 16 = 0)

def execConfigureRecorder (cci : Cci) (len : BitVec 32) (config : BitVec 8) (epoch : BitVec 16) (ring : BitVec 32) (s : State) :
    Host.Outcome State Fault Refusal :=
  .next (command cci 0xC021 len.toNat (.fixed 16) false false .mgmt .firmware (fun s =>
    if recorderConfigOk config.toNat epoch.toNat ring.toNat then
      let s := s.modRec fun r => { r with epoch, pendLarge := decide (config = 1), pendRing := ring.setWidth 11 }
      answer cci .success s.rec_.settings s
    else answer cci .invalidInput [] s) s)

/-! ### CRC-32 (R49) -/

/-- One bit of the reflected CRC-32. -/
def crc32Bit (c : BitVec 32) : BitVec 32 := if c.getLsbD 0 then (c >>> 1) ^^^ 0xEDB88320#32 else c >>> 1

/-- One byte of the reflected CRC-32. -/
def crc32Byte (c : BitVec 32) (b : Byte) : BitVec 32 :=
  (List.range 8).foldl (fun c _ => crc32Bit c) (c ^^^ b.setWidth 32)

/-- CRC-32, initial value all ones, result complemented (R49). -/
def crc32 (l : List Byte) : BitVec 32 := ~~~ (l.foldl crc32Byte 0xFFFFFFFF#32)

/-- A tally's 256 bytes (R530). -/
def Tally.bytes (t : Tally) : List Byte :=
  let body := leBytes 8 t.seq.toNat ++ leBytes 8 t.tbClose.toNat ++ leBytes 8 t.upClose.toNat ++ leBytes 8 t.upOpen.toNat ++
    leBytes 2 t.source.toNat ++ [t.severity, t.reason, t.device, t.shift] ++ leBytes 2 0 ++ leBytes 8 t.count.toNat ++
    leBytes 8 t.smallest.toNat ++ leBytes 8 t.largest.toNat ++ leBytes 8 t.sum.toNat ++
    t.buckets.flatMap (fun b => leBytes 8 b.toNat) ++ leBytes 8 t.arg1.toNat ++ leBytes 8 t.arg2.toNat ++
    leBytes 8 t.copySeq.toNat ++ leBytes 28 0
  body ++ leBytes 4 (crc32 body).toNat

/-- The tallies Get Tallies returns (R539). -/
def Recorder.pick (r : Recorder) (first : BitVec 64) (n : Nat) (filter : BitVec 16) : List Tally :=
  (r.store.filter fun t => decide (first ≤ t.seq) && (decide (filter = 0xFFFF#16) || decide (t.source = filter))).take n

/-- Some sequence number from the first wanted up to the first returned is not held: overwritten, discarded or lost (R539). -/
def Recorder.gap (r : Recorder) (first last : BitVec 64) : Bool :=
  decide ((r.store.filter fun t => decide (first ≤ t.seq) && decide (t.seq < last)).length < last.toNat - (max first.toNat 1))

/-- Get Tallies (R104, R539). -/
def execGetTallies (cci : Cci) (len : BitVec 32) (first : BitVec 64) (count : BitVec 32) (filter : BitVec 16) (s : State) :
    Host.Outcome State Fault Refusal :=
  .next (command cci 0xC020 len.toNat (.fixed 16) (decide (payloadBuffer cci < 16 + 256 * count.toNat)) (decide (count = 0))
    .mgmt .engine (fun s =>
      let l := s.rec_.pick first count.toNat filter
      let next := match l.getLast? with
        | some t => t.seq + 1
        | none => s.rec_.seq
      let upTo := match l.head? with
        | some t => t.seq
        | none => s.rec_.seq
      answer cci .success (leBytes 8 next.toNat ++ leBytes 4 l.length ++ leBytes 4 (flag (s.rec_.gap first upTo)) ++
        l.flatMap Tally.bytes) s) s)

/-- A comet's stamp of a stage; 0xFFFF_FFFF where it was not stamped (R549). -/
def Comet.offset (c : Comet) (stage : Nat) : BitVec 32 :=
  match c.stamps.find? fun e => e.1 = stage with
  | some e => e.2
  | none => 0xFFFFFFFF#32

/-- A comet sample's 128 bytes (R549). -/
def Comet.bytes (c : Comet) : List Byte :=
  let mask := c.stamps.foldl (fun m e => m ||| 2 ^ (e.1 - 1)) 0
  [c.kind, c.quadrant] ++ leBytes 2 mask ++ leBytes 4 0 ++ leBytes 8 c.timebase.toNat ++ leBytes 8 c.uptime.toNat ++
    (List.range 12).flatMap (fun i => leBytes 4 (c.offset (i + 1)).toNat) ++ leBytes 8 c.info.toNat ++ leBytes 8 c.place.toNat ++
    [c.line] ++ leBytes 31 0 ++ leBytes 8 c.seq.toNat

/-- Take up to `n` samples from each of these quadrants in turn. -/
def takeComets : List Nat → Nat → State → List Comet × State
  | [], _, s => ([], s)
  | q :: l, n, s =>
    let got := (s.cometQuad q).buffer.take n
    let s := s.modCometQuad q fun b => { b with buffer := b.buffer.drop n, lostSinceGet := 0 }
    let (rest, s) := takeComets l (n - got.length) s
    (got ++ rest, s)

/-- Get Comet Samples (R109). -/
def execGetCometSamples (cci : Cci) (len : BitVec 32) (quadrant : BitVec 8) (count : BitVec 16) (s : State) :
    Host.Outcome State Fault Refusal :=
  .next (command cci 0xC050 len.toNat (.fixed 4) (decide (payloadBuffer cci < 8 + 128 * count.toNat)) (decide (count = 0))
    .mgmt .engine (fun s =>
      if 256 < count.toNat ∨ (3 < quadrant.toNat ∧ quadrant ≠ 0xFF#8) then answer cci .invalidInput [] s
      else
        let qs := if quadrant = 0xFF#8 then [0, 1, 2, 3] else [quadrant.toNat]
        let lost := qs.foldl (fun n q => n + (s.cometQuad q).lostSinceGet.toNat) 0
        let (l, s) := takeComets qs count.toNat s
        answer cci .success (leBytes 4 l.length ++ leBytes 4 lost ++ l.flatMap Comet.bytes) s) s)

/-- The LD that a head and an LD-ID name; 0xFF means the LD's own, on its own mailbox (R94). -/
def namedLd (cci : Cci) (head ldId : Nat) : Option Nat :=
  match cci with
  | .ld i =>
    let h := if head = 0xFF then i.val / 16 else head
    let l := if ldId = 0xFF then i.val % 16 else ldId
    if h < 16 ∧ l < 16 then some (16 * h + l) else none
  | .mctp => if head < 16 ∧ ldId < 16 then some (16 * head + ldId) else none

/-- Counter Access Grant (R110). -/
def execCounterAccessGrant (cci : Cci) (len : BitVec 32) (head ldId action : BitVec 8) (mask : BitVec 64) (s : State) :
    Host.Outcome State Fault Refusal :=
  .next (command cci 0xC060 len.toNat (.fixed 16) false false .mgmt .firmware (fun s =>
    match namedLd cci head.toNat ldId.toNat with
    | none => answer cci .invalidInput [] s
    | some i =>
      if !s.ldExists i || decide (2 < action.toNat) then answer cci .invalidInput [] s
      else
        let s := s.modLd i fun d =>
          { d with ctrGrant := if action = 1 then d.ctrGrant ||| mask else if action = 2 then d.ctrGrant &&& ~~~ mask else d.ctrGrant }
        answer cci .success (leBytes 8 (s.ld i).ctrGrant.toNat) s) s)

end Sys2Proof.Machine
end

