-- ==== Sys2Proof/Machine/Almanac.lean ====
section
/-! DEFINITION. The Almanac: its words, and its publications (R45 to R64). -/
namespace Sys2Proof.Machine

/-! ### Entries (R50 to R55) -/

/-- Put fields side by side: each is its lowest bit and its value. -/
def bitsAt (l : List (Nat × Nat)) : Nat := l.foldl (fun w e => w + 2 ^ e.1 * e.2) 0

/-- What the device fixes of an entry type: its number, its instances, its common words and words per instance, the span of its
register block (0 for none), and whether the stride is 0. -/
structure EntryKind where
  type : Nat
  n : Nat
  c : Nat
  p : Nat
  span : Nat
  deriving DecidableEq, Repr

/-- The entry types in order, without End (R54, R557). -/
def entryKinds : List EntryKind :=
  [⟨0x0001, 1, 3, 0, 16384⟩, ⟨0x0002, 4, 0, 1, 4096⟩, ⟨0x0010, 24, 0, 1, 4096⟩, ⟨0x0011, 48, 0, 2, 0⟩, ⟨0x0020, 16, 1, 1, 4096⟩,
   ⟨0x0030, 3, 0, 1, 4096⟩, ⟨0x0040, 8, 1, 1, 4096⟩, ⟨0x0050, 8, 1, 1, 4096⟩, ⟨0x0060, 64, 1, 1, 256⟩, ⟨0x0070, 16, 0, 8, 8⟩,
   ⟨0x0080, 1, 2, 0, 4096⟩, ⟨0x0090, 48, 0, 1, 256⟩, ⟨0x00A0, 1, 3, 0, 0⟩, ⟨0x00B0, 4, 0, 1, 0⟩, ⟨0x00C0, 1, 2, 0, 8192⟩,
   ⟨0x00D0, 1, 1, 0, 4096⟩]

/-- BASE and STRIDE of an entry (R51, R52, R557). -/
def EntryKind.base (k : EntryKind) : Nat := if k.span = 0 then 0 else (Config.blockBase k.type).toNat
def EntryKind.stride (k : EntryKind) : Nat :=
  if k.span = 0 ∨ k.n = 1 then 0 else if k.type = 0x70 then 8 else (Config.blockStride k.type).toNat

/-- The three words of an entry header (R51). -/
def EntryKind.header (k : EntryKind) : List Nat :=
  [bitsAt [(0, k.type), (16, 1), (24, k.c), (32, 24 + 8 * k.c + 8 * k.p * k.n), (48, k.n)],
   bitsAt [(0, k.base), (32, k.stride)], k.p]

/-- Channels of a quadrant, ports and clusters as bit masks of a property. -/
def maskOf (n : Nat) (p : Nat → Bool) : Nat := ((List.range n).map fun i => 2 ^ i * flag (p i)).sum


/-- Lines of DRAM as GiB. -/
def gib (lines : Nat) : Nat := lines / 2 ^ 24

/-- The number that codes a channel's state. -/
def ChanState.code : ChanState → Nat
  | .absent => 0
  | .untrained => 1
  | .active => 2
  | .evacuating => 3
  | .evacuated => 4
  | .retired => 5
  | .trainFailed => 6

/-- The number that codes a Ulilet state (R403). -/
def LState.code : LState → Nat
  | .down => 0
  | .detect => 1
  | .train => 2
  | .param => 3
  | .session => 4
  | .active => 5
  | .discord => 6
  | .retired => 7

/-- The number that codes a member's state in entry 0x00B0. -/
def MemberState.number : MemberState → Nat
  | .absent => 0
  | .joined => 1
  | .lost => 2
  | .discord => 3

def State.quadrantWord (s : State) (q : Nat) : Nat :=
  bitsAt [(0, maskOf 6 fun i => s.activeChan (6 * q + i)), (6, maskOf 4 fun i => (s.port (4 * q + i)).up),
    (10, maskOf 2 fun i => s.clusterInService (2 * q + i)), (12, flag (decide (q < 3))), (13, flag (decide (q = 3)))]

/-- A channel's word. In the Lantern state it is UNTRAINED or ABSENT (R64). -/
def State.channelWord (s : State) (c : Nat) : Nat :=
  let h := s.chan c
  let held := (s.slot (2 * c)).prsnt || (s.slot (2 * c + 1)).prsnt
  bitsAt [(0, c), (5, if s.start.lantern then flag held else h.state.code), (8, flag h.express), (9, onesIn h.usable), (16, h.speed.toNat), (24, gib h.capacity)]

/-- Presence and power of a slot in entry 0x0011. -/
def State.presence (s : State) (m : Nat) : Nat :=
  let u := s.slot m
  if !u.prsnt then 0 else if u.state = .latched then 3 else if u.state = .on then 1 else 2

def State.dimmWords (s : State) (m : Nat) : List Nat :=
  let h := s.chan (m / 2)
  let spares := (s.integ.spares.filter fun e => e.slot = m).length
  match (if (s.slot m).prsnt then h.spd (m % 2) else none) with
  | some d =>
    [bitsAt [(0, m), (6, s.presence m), (8, if d.ok then (if d.mrdimm then 2 else 1) else 0), (12, flag (h.usable.getLsbD (m % 2))),
      (13, gib (spdLines d)), (22, d.ranks % 16), (32, d.speed)], bitsAt [(0, d.serial.toNat), (32, min 255 spares)]]
  | none => [bitsAt [(0, m), (6, s.presence m)], 0]

/-- The port word; its bits [21:0] are PORT_STATUS.LINK (R55, R70). -/
def State.portWord (s : State) (p : Nat) : Nat :=
  let q := s.port p
  let lead := s.leaderOf p
  bitsAt [(0, p), (4, q.width.toNat), (7, q.rate.toNat), (10, flag q.flit256), (11, flag (decide (lead ≠ p))), (12, lead),
    (16, if s.isHead p then q.trained.ldCount.toNat else 0), (21, flag (decide (q.ideState = 1 ∨ q.ideState = 2)))]

def State.uliletWord (s : State) (u : Nat) : Nat :=
  let p := s.uli u
  let st := match p.lstate with
    | .active => 1
    | .discord => 2
    | .retired => 3
    | _ => 0
  bitsAt [(0, u), (2, st), (4, if st = 1 then p.peerId.toNat else 0), (6, p.vcsActive.toNat), (10, p.lanes.toNat)]

def State.clusterWord (s : State) (e : Nat) : Nat :=
  let c := s.cluster e
  bitsAt [(0, e), (3, e / 2), (5, onesIn c.cmpIn), (7, onesIn c.dcmpIn), (10, onesIn c.xtsIn)]

/-- Threads of a core in service. -/
def State.coreWord (s : State) (c : Nat) : Nat :=
  bitsAt [(0, c), (3, ((List.range 4).filter fun i => decide ((s.thread (4 * c + i)).state ≠ .out)).length)]

/-- The kind and the instance of a counter block. -/
def ctrKind (b : Nat) : Nat × Nat :=
  if b < 24 then (0, b)
  else if b < 40 then (1, b - 24)
  else if b < 43 then (2, b - 40)
  else if b < 51 then (3, b - 43)
  else if b < 59 then (4, b - 51)
  else if b < 63 then (5, b - 59)
  else (6, 0)
def ctrWord (b : Nat) : Nat := bitsAt [(0, b), (6, (ctrKind b).1), (10, (ctrKind b).2)]

/-- One byte of the fault source map. -/
def sourceByte (n : Nat) : Nat := match sourceInfo n with
  | some i => i.cls + 8 * i.kind
  | none => 0xFF
/-- The eight words of a sticky register's sources. -/
def sourceWords (i : Nat) : List Nat :=
  (List.range 8).map fun w => bitsAt ((List.range 8).map fun b => (8 * b, sourceByte (64 * i + 8 * w + b)))

def State.memberWord (s : State) (i : Nat) : Nat :=
  if i = s.ident.devId.toNat then
    bitsAt [(0, i), (2, 1), (4, flag s.ident.role), (5, 1), (16, ((List.range 24).filter s.activeChan).length),
      (24, ((List.range 16).filter fun p => (s.port p).up).length)]
  else
    let m := s.member i
    bitsAt [(0, i), (2, m.state.number), (4, flag m.polestar), (6, m.port), (8, flag m.relay.isSome), (16, m.channels.toNat),
      (24, m.portsUp.toNat)]

/-- The common words of an entry (R55). -/
def State.commonWords (s : State) (type : Nat) : List Nat :=
  if type = 0x0001 then
    [bitsAt [(0, 0x2416), (32, s.ident.variant.toNat), (36, s.ident.stepping.toNat)], s.ident.serial.toNat,
     bitsAt [(0, s.ident.devId.toNat), (2, flag s.ident.role), (8, 64), (16, 6144)]]
  else if type = 0x0020 then [bitsAt [(0, 512), (16, 2048), (32, 8192)]]
  else if type = 0x0040 then [bitsAt [(0, 48), (16, 24)]]
  else if type = 0x0050 then [bitsAt [(0, 1200), (16, 64), (32, 4096), (48, 1024)]]
  else if type = 0x0060 then [bitsAt [(0, 8), (4, 48)]]
  else if type = 0x0080 then
    [bitsAt [(0, flag s.rec_.large), (32, s.rec_.capacity)], bitsAt [(0, s.rec_.epoch.toNat), (16, s.rec_.ring.toNat)]]
  else if type = 0x00A0 then [1, 0x01FF, bitsAt [(0, 256), (16, 4096)]]
  else if type = 0x00C0 then
    [bitsAt [(0, flag s.start.reportPassed), (8, s.start.reportCode.toNat), (16, 32 + 16 * s.start.report.length)],
     s.start.reportEnded.toNat]
  else if type = 0x00D0 then [bitsAt [(0, 2), (16, 1)]]
  else []

/-- The words of instance i of an entry. -/
def State.instanceWords (s : State) (type i : Nat) : List Nat :=
  if type = 0x0002 then [s.quadrantWord i]
  else if type = 0x0010 then [s.channelWord i]
  else if type = 0x0011 then s.dimmWords i
  else if type = 0x0020 then [s.portWord i]
  else if type = 0x0030 then [s.uliletWord i]
  else if type = 0x0040 then [s.clusterWord i]
  else if type = 0x0050 then [s.coreWord i]
  else if type = 0x0060 then [ctrWord i]
  else if type = 0x0070 then sourceWords i
  else if type = 0x0090 then [bitsAt [(0, i), (6, flag (s.slot i).prsnt), (7, s.slotPower i)]]
  else if type = 0x00B0 then [s.memberWord i]
  else []

/-- The words of every entry, End last. -/
def State.entryWords (s : State) : List (BitVec 64) :=
  ((entryKinds.flatMap fun k => k.header ++ s.commonWords k.type ++ (List.range k.n).flatMap fun i => s.instanceWords k.type i) ++
    [bitsAt [(0, 0xFFFF), (16, 1), (32, 24)], 0, 0]).map (BitVec.ofNat 64 ·)

/-- The header (R48), with its CRC field given. -/
def almHeader (gen : BitVec 64) (lantern : Bool) (total : Nat) (crc : BitVec 32) : List (BitVec 64) :=
  [BitVec.ofNat 64 (0x434D4C41 + 2 ^ 48), gen, BitVec.ofNat 64 (bitsAt [(0, 17), (17, flag lantern), (32, total)]),
   BitVec.ofNat 64 (bitsAt [(0, crc.toNat), (32, 0x40)]), 0, 0, 0, 0]

/-- The Almanac of a generation, whole (R48, R49). -/
def State.almanac (s : State) (gen : BitVec 64) : List (BitVec 64) :=
  let entries := s.entryWords
  let total := 64 + 8 * entries.length
  let bytes := (almHeader gen s.start.lantern total 0 ++ entries).flatMap fun w => leBytes 8 w.toNat
  almHeader gen s.start.lantern total (crc32 bytes) ++ entries

/-! ### Publications (R57 to R60) -/

/-- What the Almanac says has changed since the last publication. -/
def State.almChanged (s : State) : Bool :=
  decide (s.entryWords ≠ s.alm.words.drop 8) ||
    decide ((s.alm.words.getD 2 0).getLsbD 17 ≠ s.start.lantern)

/-- A publication starts: UPD is set, and what it carries is what the device is now (R58). DEDUCED, log 45. -/
def startPublication (early : Bool) (s : State) : State :=
  s.modAlm fun a => { a with upd := true, early, owed := false, started := s.now, next := s.almanac (a.generation + 1) }

/-- A publication starts when it is owed or something has changed, no sooner than 1 ms after the last one ended (R57, R58). -/
def execAlmanacPublication (s : State) : Host.Outcome State Fault Refusal :=
  .next (if s.running && s.alm.built && !s.alm.upd && decide (s.alm.nextFrom ≤ s.now) && (s.alm.owed || s.almChanged) then
      startPublication false s
    else s)

/-- The commands that waited are answered from the new generation (R59). -/
def answerWaiting (s : State) : State :=
  forEach s.alm.waiting (fun w => runGetAlmanac w.1 w.2.1 w.2.2.1 w.2.2.2) (s.modAlm fun a => { a with waiting := [] })

/-- A publication completes: the new generation, and the effects of R60. That of an early Vigil posts nothing to queue 1 (R57). -/
def finishPublication (s : State) : State :=
  let gen := s.alm.generation + 1
  let early := s.alm.early
  let s := s.modAlm fun a =>
    { a with upd := false, early := false, generation := gen, words := a.next, next := [], nextFrom := s.now + msNs }
  let s := placeAll .info (.vendor 1 gen) s
  let s := if early then s else postDevice 1 gen 0 0 0 s
  answerWaiting (sampleTally 0x100 0 gen 0 s)

def execAlmanacPublicationComplete (s : State) : Host.Outcome State Fault Refusal :=
  .next (if s.running && s.alm.upd then finishPublication s else s)

/-- A word of the Almanac region as a register read returns it. While a publication runs UPD reads 1, and whether a word that changes is
still the old one is open (R58, R61). -/
def State.almRead (s : State) (i : Nat) : Word :=
  if !s.alm.built then 0
  else
    let old := s.alm.words.getD i 0
    if !s.alm.upd then old
    else if i = 2 then old ||| 0x10000#64
    else if i < 8 then old
    else if (Config.freeWord s.free).getLsbD 0 then s.alm.next.getD i 0 else old

end Sys2Proof.Machine
end

