-- ==== Sys2Proof/Machine/Ecc.lean ====
section
/-! DEFINITION. The check code of a DRAM line and the outcome of a line read (R254 to R258, R278, R279). A read gives the bits that
the bus and the chips flipped: the code is linear, so the decoder's outcome depends on them alone. -/
namespace Sys2Proof.Machine

/-- One step of multiplication by α in GF(2^7), x^7 + x + 1 (R255). -/
def mulAlpha (x : BitVec 7) : BitVec 7 := (x <<< 1) ^^^ if x.getLsbD 6 then 3#7 else 0#7

/-- α to the power k. -/
def alphaPow : Nat → BitVec 7
  | 0 => 1
  | k + 1 => mulAlpha (alphaPow k)

/-- log(x): the k in 0 to 126 with α^k = x. -/
def alphaLog (x : BitVec 7) : Nat := ((List.range 127).find? fun k => alphaPow k = x).getD 0

/-- The XOR of the columns of the set positions 0 to 77: s1 for e = 1, s3 for e = 3. -/
def syndrome (e : Nat) (w : BitVec 80) : BitVec 7 :=
  (List.range 78).foldl (fun s j => if w.getLsbD j then s ^^^ alphaPow (e * j % 127) else s) 0

/-- The XOR of bits 0 to 78: c, d and p. -/
def parity79 (w : BitVec 80) : Bool := (List.range 79).foldl (fun b j => b ^^ w.getLsbD j) false

/-- What the decoder makes of one word (R257). -/
inductive WordOut where
  | clean
  | corrected
  | ue
  deriving DecidableEq, Repr

/-- A word with one position flipped. -/
def flipBit (w : BitVec 80) (j : Nat) : BitVec 80 := w ^^^ BitVec.ofNat 80 (2 ^ j)

/-- The positions of a double error: α^j1 + α^j2 = s1 and α^(j1+j2) = sigma. -/
def doubleError (s1 sigma : BitVec 7) : Option (Nat × Nat) :=
  (List.range 78).findSome? fun a =>
    ((List.range 78).find? fun b =>
      decide (a < b) && decide (alphaPow a ^^^ alphaPow b = s1) && decide (alphaPow ((a + b) % 127) = sigma)).map fun b => (a, b)

/-- Decode one word from its flipped bits: the outcome, and the bits that stay wrong (R257). `pair` says which double corrections
count (R279). -/
def decodeWord (pair : Nat → Nat → Bool) (w : BitVec 80) : WordOut × BitVec 80 :=
  let s1 := syndrome 1 w
  let s3 := syndrome 3 w
  let p := parity79 w
  if s1 = 0 ∧ s3 = 0 then (if p then (.corrected, flipBit w 78) else (.clean, w))
  else if s1 = 0 then (.ue, w)
  else if s3 = alphaPow (3 * alphaLog s1 % 127) then
    if 77 < alphaLog s1 then (.ue, w)
    else
      let v := flipBit w (alphaLog s1)
      (.corrected, if p then v else flipBit v 78)
  else if p then (.ue, w)
  else
    let sigma := alphaPow ((alphaLog (s3 ^^^ alphaPow (3 * alphaLog s1 % 127)) + 127 - alphaLog s1) % 127)
    match doubleError s1 sigma with
    | some (a, b) => if pair a b then (.corrected, flipBit (flipBit w a) b) else (.ue, w)
    | none => (.ue, w)

/-- The lane of a position: DQ 0 to 31, CB 32 to 39 (R254). -/
def posLane (j : Nat) : Nat :=
  if j < 8 then 32 + j else if j < 14 then 24 + j else if j < 46 then j - 14 else j - 46

/-- The device that a lane belongs to (R278). -/
def laneDevice (x8 : Bool) (lane : Nat) : Nat := if x8 then lane / 8 else lane / 4

/-- The device that a probe's mismatched lanes name, if they lie within one (R278). -/
def probeNames (x8 : Bool) (lanes : BitVec 40) : Option Nat :=
  let l := (List.range 40).filter fun i => lanes.getLsbD i
  match l with
  | [] => none
  | i :: t => if t.all fun k => laneDevice x8 k = laneDevice x8 i then some (laneDevice x8 i) else none

/-- What one read of a line gives. -/
structure LineRead where
  out : LineOut
  /-- Some word was corrected. -/
  corrected : Bool
  /-- The line's data with the bits that stay wrong. -/
  data : Line
  /-- The words that are UE, one bit each. -/
  bad : BitVec 8
  /-- UE by the tag alone. -/
  tagBad : Bool
  deriving DecidableEq, Repr

/-- The outcome of a line read (R258), from the stored line and the flipped bits of its eight words. -/
def readOutcome (pair : Nat → Nat → Bool) (d : Line) (poisoned : Bool) (flips : List (BitVec 80)) : LineRead :=
  let ws := (List.range 8).map fun i => decodeWord pair (flips.getD i 0)
  let bad := BitVec.ofNat 8 ((List.range 8).foldl (fun n i => if ((ws.getD i (.clean, 0)).1 = .ue) then n + 2 ^ i else n) 0)
  let tag := (List.range 8).foldl (fun (t : Nat) i => if (flips.getD i 0).getLsbD 79 then t ^^^ 2 ^ i else t) (if poisoned then 0xA5 else 0)
  let wrong := (List.range 8).foldl (fun (n : Nat) i => n + (((ws.getD i (.clean, 0)).2.extractLsb' 14 64).toNat) * 2 ^ (64 * i)) 0
  { out := if bad ≠ 0 then .ue else if tag = 0 then .clean else if tag = 0xA5 then .poison else .ue
    corrected := ws.any fun x => x.1 = .corrected
    data := d ^^^ BitVec.ofNat 512 wrong, bad, tagBad := decide (bad = 0) && tag != 0 && tag != 0xA5 }

/-- The double corrections that count in a rank: in one that is FAILING, only those within the failing device (R279). -/
def State.pairRule (s : State) (l : Nat) : Nat → Nat → Bool :=
  let h := s.chan (lineChan l)
  let p := h.place l
  if h.failing.getLsbD p.rankBit then
    let x8 := ((h.spd p.slot).map (·.x8)).getD false
    match (Tab.get ({} : RankHealth) h.ranks p.rankBit).device with
    | some d => fun a b =>
      decide (p.sub * 16 + laneDevice x8 (posLane a) = d) && decide (p.sub * 16 + laneDevice x8 (posLane b) = d)
    | none => fun _ _ => false
  else fun _ _ => true

/-- A line read as it stands now, under the flips of this read. -/
def State.readLine (s : State) (l : Nat) (flips : List (BitVec 80)) : LineRead :=
  readOutcome (s.pairRule l) (s.lineNow l).data (s.lineNow l).poisoned flips

end Sys2Proof.Machine
end

