-- ==== Sys2Proof/Machine/Health.lean ====
section
/-! DEFINITION. Faults of channels: evacuation requests, permanent faults and retirement, counted errors, probes, write CRC,
retraining results and row repair (R197 to R201, R251, R262 to R265, R276 to R284). -/
namespace Sys2Proof.Machine

/-! ### Evacuation requests (R197, R200) -/

/-- Another evacuation, or a pending retirement, stands in the channel's quadrant (R197, R280). -/
def State.quadBusy (s : State) (c : Nat) (force : Bool) : Bool :=
  (List.range 24).any fun d => decide (d ≠ c) && decide (chanQuad d = chanQuad c) &&
    (decide ((s.chan d).state = .evacuating) || (!force && (s.chan d).retirePending.isSome))

/-- Frames that an evacuation wants free elsewhere: the used footprint and 256 KiB for each slab class (R197). -/
def State.evacNeeds (s : State) (c : Nat) : Nat :=
  s.framesUsed c + 64 * ((s.alloc c).slabs.map (·.cls)).eraseDups.length

/-- Free frames on the other ACTIVE channels. -/
def State.freeElsewhere (s : State) (c : Nat) : Nat :=
  ((List.range 24).map fun d => if d ≠ c ∧ s.activeChan d then s.framesFree d else 0).sum

/-- The checks of R197 in order: 0, or the outcome of the first that fails. -/
def State.evacCode (s : State) (c : Nat) (force : Bool) : Nat :=
  if (s.chan c).state ≠ .active then 3
  else if s.quadBusy c force then 4
  else if s.freeElsewhere c < s.evacNeeds c then 2
  else if !force ∧ s.capU - (s.chan c).capacity < 0 then 2
  else 0

/-- An evacuation is accepted: the channel is EVACUATING and P falls (R197). -/
def acceptEvac (c : Nat) (force slotsOff retire : Bool) (queue : Option Nat) (s : State) : State :=
  channelLeft c (s.modChan c fun h =>
    { h with state := .evacuating, evac := some { force, slotsOff, retire, total := 4096 * s.framesUsed c, queue } })

/-- Mover records that work for the evacuation of a channel. -/
def State.evacRecords (s : State) (c : Nat) : List MoverRec :=
  (List.range 4).flatMap fun q => (s.quad q).records.filter fun r =>
    decide (r.op = .evacPage) && decide (lineChan (locLine r.srcLoc) = c)

/-- A cancelled evacuation whose claimed moves are done: the channel is ACTIVE again (R200). -/
def finishCancel (c : Nat) (s : State) : State :=
  match (s.chan c).evac with
  | some v =>
    if v.cancelled && (s.evacRecords c).isEmpty then
      let s := recomputeDelivery (updateCapacity (s.modChan c fun h => { h with state := .active, evac := none }))
      match v.queue with
      | some q => postDevice q (BitVec.ofNat 64 c) 5 0 0 s
      | none => s
    else s
  | none => s

/-- A cancel: accepted only while EVACUATING (R200). -/
def cancelEvac (c : Nat) (s : State) : Nat × State :=
  if (s.chan c).state = .evacuating then
    (5, finishCancel c (s.modChan c fun h => { h with evac := h.evac.map fun v => { v with cancelled := true } }))
  else (3, s)

/-! ### Permanent faults (R277, R280) -/

/-- Try to retire a channel by a forced evacuation; refused, it stays pending for 1 s (R280). -/
def tryRetire (c : Nat) (s : State) : State :=
  match (s.chan c).state with
  | .evacuating => s.modChan c fun h => { h with evac := h.evac.map fun v => { v with retire := true, cancelled := false } }
  | .active =>
    if s.evacCode c true = 0 then acceptEvac c true true true none s
    else s.modChan c fun h => { h with retryAt := s.now + secNs }
  | _ => s

/-- A count crosses its limit: the channel-fault event, and retirement when RETIRE_AUTO is 1 (R277, R280). -/
def permanentFault (c cause rank : Nat) (s : State) : State :=
  let s := postDevice 7 (BitVec.ofNat 64 c) (BitVec.ofNat 64 cause) (BitVec.ofNat 64 rank) 0 s
  if s.integ.retireAuto && decide ((s.chan c).state = .active ∨ (s.chan c).state = .evacuating) then
    tryRetire c (s.modChan c fun h => { h with retirePending := some (h.retirePending.getD cause) })
  else s

/-- A pending retirement is tried again (R280). -/
def execRetirementRetry (c : Fin 24) (s : State) : Host.Outcome State Fault Refusal :=
  .next (let h := s.chan c
    if s.running && h.retirePending.isSome && decide (h.state = .active) && decide (h.retryAt ≤ s.now) then tryRetire c s else s)

/-! ### Errors of a line read (R262, R263, R277 to R281) -/

/-- A correctable error: counted, and its source fires (R262). -/
def countCe (c : Nat) (s : State) : State :=
  let s := s.modChan c fun h => { h with ce := satAdd h.ce 1 }
  fireEvent (srcChannel c 0) (s.modFaults fun f => { f with ceTotal := satAdd f.ceTotal 1 })

/-- A rank's health (R279). -/
def State.rank (s : State) (c r : Nat) : RankHealth := Tab.get {} (s.chan c).ranks r
def modRank (c r : Nat) (f : RankHealth → RankHealth) (s : State) : State :=
  s.modChan c fun h => { h with ranks := Tab.set {} h.ranks r (f (s.rank c r)) }

/-- ROWS_WIN in ns. -/
def State.rowsWin (s : State) : Nat := s.integ.rowsWin.toNat * 60 * secNs

/-- A rank becomes FAILING: its bit, its fault and the retirement of its channel (R279). -/
def rankFails (c r : Nat) (s : State) : State :=
  let s := s.modChan c fun h => { h with failing := h.failing ||| BitVec.ofNat 16 (2 ^ r) }
  permanentFault c 1 r (condStart (srcChannel c 7) s)

/-- A probe names a device of a rank on a row (R279). -/
def nameDevice (c r row device : Nat) (s : State) : State :=
  let s := fireEvent (srcChannel c 6) s
  let k := s.rank c r
  let s :=
    if k.device = some device ∧ s.now < k.since + s.rowsWin then
      if k.rows.contains row then s else modRank c r (fun k => { k with rows := k.rows ++ [row] }) s
    else modRank c r (fun k => { k with device := some device, rows := [row], since := s.now }) s
  if s.integ.probeN.toNat ≤ (s.rank c r).rows.length ∧ !(s.chan c).failing.getLsbD r then rankFails c r s else s

/-- ROWS_WIN passes from a SUSPECT rank's first record (R279). -/
def execRankRecordExpiry (c : Fin 24) (r : Fin 16) (s : State) : Host.Outcome State Fault Refusal :=
  .next (let k := s.rank c r
    if s.running && k.device.isSome && !(s.chan c).failing.getLsbD r && decide (k.since + s.rowsWin ≤ s.now) then
      modRank c r (fun k => { k with device := none, rows := [], since := 0 }) s
    else s)

/-- A row of a rank has a UE: the rows limit (R277). -/
def countUeRow (c r row : Nat) (s : State) : State :=
  let fresh := (s.rank c r).ueRows.filter fun e => decide (s.now < e.2 + s.rowsWin)
  let had := fresh.any fun e => e.1 = row
  let new := if had then fresh else fresh ++ [(row, s.now)]
  let s := modRank c r (fun k => { k with ueRows := new }) s
  if !had ∧ new.length = s.integ.rowsN.toNat then permanentFault c 2 r s else s

/-- A UE that stands after retry: its counts, its source (1 user data, 2 one metadata copy, 3 free storage), the probe's finding,
and the limit of an unreadable channel (R263, R277 to R281). -/
def countUe (l source : Nat) (read : LineRead) (lanes : BitVec 40) (s : State) : State :=
  let c := lineChan l
  let p := (s.chan c).place l
  let s := s.modChan c fun h =>
    { h with ue := satAdd h.ue 1, ueRun := h.ueRun + 1, ueRunRows := insertNat (p.rankBit * 2 ^ 24 + p.rowId) h.ueRunRows }
  let s := fireEvent (srcChannel c source) s
  let several := decide (2 ≤ ((List.range 8).filter fun i => read.bad.getLsbD i).length) || read.tagBad
  let s := if several && !(s.chan c).failing.getLsbD p.rankBit then
      match probeNames (((s.chan c).spd p.slot).map (·.x8) |>.getD false) lanes with
      | some d => nameDevice c p.rankBit p.rowId (p.sub * 16 + d) s
      | none => s
    else s
  let s := countUeRow c p.rankBit p.rowId s
  let h := s.chan c
  if 64 ≤ h.ueRun ∧ 8 ≤ h.ueRunRows.length ∧ (h.state = .active ∨ h.state = .evacuating) then channelUnreadable c s else s

/-- A read of the channel that did not end in UE breaks the run of UEs (R281). -/
def breakRun (c : Nat) (s : State) : State :=
  if (s.chan c).ueRun = 0 then s else s.modChan c fun h => { h with ueRun := 0, ueRunRows := [] }

/-- A write to the line waits in write gather or at its channel: a write-back to the line is cancelled (R262). -/
def State.superseded (s : State) (l dlpn lineNo : Nat) : Bool :=
  (s.gather.entries.any fun g => decide (g.dlpn = dlpn) && decide (g.lineNo = lineNo)) ||
    ((s.chan (lineChan l)).queue ++ (s.chan (lineChan l)).gate.cmds).any fun x => decide (x.line = l) && x.write.isSome

/-- Mark what a UE in user data hit: a line of a PLAIN page, or a block of a PACKED one; list it and record it (R263 to R265). -/
def markUser (dlpn lineNo l tx : Nat) (s : State) : State :=
  let (st, _, _) := s.source dlpn
  if s.superseded l dlpn lineNo then s
  else if st = .plain then
    if s.poisonListed dlpn 0 lineNo then s else recordPoison dlpn 0 lineNo tx (markLine dlpn lineNo l 0 s)
  else
    let b := lineNo / 16
    if (s.desc dlpn).bpoison.getLsbD b then s
    else poisonIfWhole dlpn 0 (recordPoison dlpn 1 b tx (markBlock dlpn b 0 s))

/-! ### Whose line it is -/

/-- What a line of a channel belongs to. -/
inductive LineUse where
  /-- Line n, or slot n of the run, of a page. -/
  | page (dlpn n : Nat)
  | guest (index n : Nat)
  | structure_ (m : MegaUse)
  | free
  deriving DecidableEq, Repr

/-- The use of a line address. -/
def State.lineUse (s : State) (l : Nat) : LineUse :=
  let a := s.alloc (lineChan l)
  let f := lineFrame l
  match Tab.get none a.megas (f / 256) with
  | some m => .structure_ m
  | none =>
    match Tab.get none a.frames f with
    | some (.page d) => .page d (l % 64)
    | some (.dest d) => .page d (l % 64)
    | some (.guest i) => .guest i (l % 64)
    | some _ => .free
    | none =>
      match s.findRun l with
      | some (b, i) =>
        match Tab.get none b.runs i with
        | some (.page d) => .page d ((l % 2 ^ 33 - b.base * 64) % b.cls)
        | some (.dest d) => .page d ((l % 2 ^ 33 - b.base * 64) % b.cls)
        | some (.guest g) => .guest g ((l % 2 ^ 33 - b.base * 64) % b.cls)
        | _ => .free
      | none => .free

/-- The block of a page that slot n of its run belongs to. -/
def slotBlock (len : BitVec 20) (n : Nat) : Nat := ((List.range 4).find? fun b => decide (n < lenSum len (b + 1))).getD 3

/-- The line in its page that line or slot n of a page's storage stands for. -/
def State.pageLine (s : State) (dlpn n : Nat) : Nat :=
  let (st, _, len) := s.source dlpn
  if st = .packed then 16 * slotBlock len n else n

/-! ### Write CRC (R276) -/

/-- A structure copy whose write exhausted is relocated to a new frame at once (R198, R276). -/
def relocate (l : Nat) (m : MegaUse) (s : State) : State :=
  let c := lineChan l
  let old := c * 2 ^ 19 + lineFrame l / 256
  match m with
  | .descA e | .descB e =>
    let other := if m = .descA e then (s.extent e).mirrorB.toNat else (s.extent e).mirrorA.toNat
    let all := (List.range 24).filter fun d => d ≠ other / 2 ^ 19
    let far := s.mostMegas (all.filter fun d => chanQuad d != chanQuad (other / 2 ^ 19))
    match (if far.isSome then far else s.mostMegas all).bind s.megaOn with
    | some new =>
      (useMega new (some m) (useMega old none s)).modExtent e fun x =>
        if m = .descA e then { x with mirrorA := BitVec.ofNat 24 new } else { x with mirrorB := BitVec.ofNat 24 new }
    | none => s
  | _ => s

/-- Write CRC retries of a write are exhausted (R276). -/
def wcrcExhausted (l : Nat) (s : State) : State :=
  let c := lineChan l
  let times := s.now :: (s.chan c).wcrcTimes.filter fun t => s.now < t + s.integ.wcrcWin.toNat * msNs
  let s := s.modChan c fun h => { h with wcrcExhaust := satAdd h.wcrcExhaust 1, wcrcTimes := times, wcrc := Tab.erase h.wcrc l }
  let s := fireEvent (srcChannel c 5) s
  let s := match s.lineUse l with
    | .page d n =>
      let b := s.pageLine d n / 16
      let s := recordPoison d 1 b txManagement (markBlock d b 0 s)
      let s := match s.record d with
        | some (q, _) => modRecord q d (fun r => { r with race := r.race ||| BitVec.ofNat 4 (2 ^ b), rgen := r.rgen + 1 }) s
        | none => s
      poisonIfWhole d 0 s
    | .guest i n =>
      let r := Tab.get {} s.const.remotes i
      let b := if r.state = 2 then slotBlock r.blockLen n else n / 16
      s.modConst fun k => { k with remotes := Tab.set {} k.remotes i { r with bpoison := r.bpoison ||| BitVec.ofNat 4 (2 ^ b) } }
    | .structure_ m => relocate l m s
    | .free => s
  if times.length = s.integ.wcrcN.toNat then permanentFault c 3 0 s else s

/-- A DIMM signals a write CRC error on a line: the write is sent again, up to 4 times (R276). -/
def execWriteCrcError (line : BitVec 38) (s : State) : Host.Outcome State Fault Refusal :=
  .next (let l := line.toNat
    let c := lineChan l
    if s.running && decide (c < 24) && (s.chan c).refreshes then
      if Tab.get 0 (s.chan c).wcrc l < 4 then
        fireEvent (srcChannel c 4) (s.modChan c fun h =>
          { h with wcrcRetry := satAdd h.wcrcRetry 1, wcrc := Tab.set 0 h.wcrc l (Tab.get 0 h.wcrc l + 1) })
      else wcrcExhausted l s
    else s)

/-! ### Retraining windows (R251, R277) -/

/-- A window's last rank is done: results that pass are applied, else the previous settings stay (R251). -/
def execRetrainingWindowEnd (c : Fin 24) (pass : Bool) (s : State) : Host.Outcome State Fault Refusal :=
  .next (let h := s.chan c
    if s.running && h.retrainBusy && decide (h.retrainEnd ≤ s.now) then
      let s := s.modChan c fun h => { h with retrainBusy := false, retrainResult := if pass then 1 else 2 }
      if pass then s
      else
        let s := s.modChan c fun h => { h with retrainFails := satAdd h.retrainFails 1, failsActive := h.failsActive + 1 }
        let s := fireEvent (srcChannel c 8) s
        if (s.chan c).failsActive = s.integ.trainN.toNat then permanentFault c 4 0 s else s
    else s)

/-! ### Row repair (R283, R284) -/

/-- A target names a row that the channel has. -/
def Chan.rowExists (h : Chan) (r : RowName) : Bool :=
  match (h.spd r.slot).bind spdOrg with
  | some (_, row, _, _) => decide (r.rank < h.slotRanks r.slot) && decide (r.row < 2 ^ row)
  | none => false

/-- CH_REPAIR's fields as written with START. -/
def setRepair (c : Nat) (kind : BitVec 2) (t : RowName) (s : State) : State :=
  s.modChan c fun h => { h with repairKind := kind, target := t }
def repairResult (c : Nat) (n : BitVec 3) (s : State) : State := s.modChan c fun h => { h with repairResult := n }

/-- CH_REPAIR may start an action. -/
def State.mayRepair (s : State) (c : Nat) : Bool :=
  s.running && !(s.chan c).repairBusy && decide ((s.chan c).state = .active ∨ (s.chan c).state = .evacuating)

/-- The target a CH_REPAIR write names. -/
def repairTarget (slot : BitVec 1) (rank bg : BitVec 3) (bank : BitVec 2) (row : BitVec 17) : RowName :=
  { slot := slot.toNat, rank := rank.toNat, bg := bg.toNat, bank := bank.toNat, row := row.toNat }

/-- KIND 0 lifts the fence without repair. -/
def liftFence (c : Nat) (s : State) : State := s.modChan c fun h => { h with repairKind := 0, fence := none, repairResult := 1 }

def execRepairLiftFence (c : Fin 24) (s : State) : Host.Outcome State Fault Refusal :=
  .next (if s.mayRepair c then liftFence c s else s)

/-- KIND 1 fences the target row (R284 step 1). -/
def fenceRow (c : Nat) (t : RowName) (s : State) : State :=
  let s := setRepair c 1 t s
  let h := s.chan c
  if !h.rowExists t then repairResult c 6 s
  else if h.fence.isSome ∧ h.fence ≠ some t then repairResult c 6 s
  else repairResult c 1 (s.modChan c fun h => { h with fence := some t })

def execRepairFence (c : Fin 24) (slot : BitVec 1) (rank bg : BitVec 3) (bank : BitVec 2) (row : BitVec 17) (s : State) :
    Host.Outcome State Fault Refusal :=
  .next (if s.mayRepair c then fenceRow c (repairTarget slot rank bg bank row) s else s)

/-- Spare-map entries of a rank. -/
def State.rankSpares (s : State) (slot rank : Nat) : List Spare :=
  s.integ.spares.filter fun e => decide (e.slot = slot) && decide (e.rank = rank)

/-- KIND 2 or 3: the checks of R284 step 3 in order, then the channel stalls for the repair. -/
def startRepair (c : Nat) (hard : Bool) (t : RowName) (resource : Bool) (s : State) : State :=
  let s := setRepair c (if hard then 3 else 2) t s
  let h := s.chan c
  let inUse := (h.rowFrames t).any fun f => !clearOf (s.alloc c).used f 1
  if h.fence ≠ some t then repairResult c 6 s
  else if inUse then repairResult c 2 s
  else if 16 ≤ (s.rankSpares (2 * c + t.slot) t.rank).length then repairResult c 4 s
  else if !resource then repairResult c 3 s
  else s.modChan c fun h =>
    { prechargeAll h with repairBusy := true, repairHard := hard, repairAt := if h.retrainBusy then max s.now h.retrainEnd else s.now }

def execRepairSoft (c : Fin 24) (slot : BitVec 1) (rank bg : BitVec 3) (bank : BitVec 2) (row : BitVec 17) (resource : Bool)
    (s : State) : Host.Outcome State Fault Refusal :=
  .next (if s.mayRepair c then startRepair c false (repairTarget slot rank bg bank row) resource s else s)

def execRepairHard (c : Fin 24) (slot : BitVec 1) (rank bg : BitVec 3) (bank : BitVec 2) (row : BitVec 17) (resource : Bool)
    (s : State) : Host.Outcome State Fault Refusal :=
  .next (if s.mayRepair c then startRepair c true (repairTarget slot rank bg bank row) resource s else s)

/-- The repair is done: the fenced frames are written with zeros, the spare map has its entry and the fence is lifted; a repair that
the DIMM rejects keeps the fence (R284). -/
def execRepairDone (c : Fin 24) (ok : Bool) (s : State) : Host.Outcome State Fault Refusal :=
  .next (let h := s.chan c
    if s.running && h.repairBusy && decide (h.repairAt + 100 * usNs ≤ s.now) then
      if ok then
        let t := h.target
        let s := forEach (h.rowFrames t) (fun f s => clearLines (frameLine c f) 64 s) s
        let e : Spare := { serial := ((h.spd t.slot).map (·.serial)).getD 0, slot := 2 * c.val + t.slot, rank := t.rank, bg := t.bg
                           bank := t.bank, kind := if h.repairHard then 2 else 1, row := t.row }
        let s := s.modInteg fun i => { i with spares := i.spares ++ [e], flashWrites := satAdd i.flashWrites 1 }
        s.modChan c fun h => { h with repairBusy := false, repairResult := 1, fence := none }
      else s.modChan c fun h => { h with repairBusy := false, repairResult := 5 }
    else s)

end Sys2Proof.Machine
end

