-- ==== Sys2Proof/Machine/Gate.lean ====
section
/-! DEFINITION. The channel gates and command queues: weighted-fair picks, bank picks, write drains and page policy (R238 to R243,
R383 to R387). -/
namespace Sys2Proof.Machine

/-! ### Fractions -/

def Frac.norm (n d : Nat) : Frac := let g := Nat.gcd n d; if g = 0 then {} else { num := n / g, den := d / g }
def Frac.add (a b : Frac) : Frac := Frac.norm (a.num * b.den + b.num * a.den) (a.den * b.den)
/-- Subtract, stopping at 0. -/
def Frac.sub (a b : Frac) : Frac := Frac.norm (a.num * b.den - b.num * a.den) (a.den * b.den)
def Frac.le (a b : Frac) : Bool := decide (a.num * b.den ≤ b.num * a.den)
def Frac.lt (a b : Frac) : Bool := decide (a.num * b.den < b.num * a.den)
def Frac.max (a b : Frac) : Frac := if a.le b then b else a

/-! ### Weights (R384) -/

/-- The class a flow is configured in. -/
def State.flowClass (s : State) (flow : Nat) : Nat := if flow < 256 then s.param flow 0 else s.linkClass (flow - 256)

/-- The flows configured in a class. -/
def State.classFlows (s : State) (c : Nat) : List Nat := (s.allLds ++ [256, 257, 258]).filter fun f => s.flowClass f = c

/-- W_c and w_f. -/
def State.classWeight (s : State) (c : Nat) : Nat := s.excess c + ((s.classFlows c).map s.effective).sum
def State.flowWeight (s : State) (c flow : Nat) : Frac :=
  let n := max 1 (s.classFlows c).length
  let w := Frac.norm (s.effective flow * n + s.excess c) n
  if w.num < w.den then { num := 1 } else w

/-- 64 ÷ w. -/
def cost64 (w : Frac) : Frac := Frac.norm (64 * w.den) (Nat.max 1 w.num)

/-! ### Tags (R384, R385) -/

/-- A queue that has become non-empty, or that has a new head: its head's finish tag. -/
def GateTag.arrive (t : GateTag) (v : Frac) (w : Frac) : GateTag :=
  if t.head.isSome then t else { t with head := some ((Frac.max v t.last).add (cost64 w)) }

/-- A flow that wakes in BXD-0804 compatibility mode may lag virtual time by its burst (R385). -/
def State.flowStart (s : State) (flow : Nat) (v : Frac) (w : Frac) : Frac :=
  if s.qos.compat && decide (flow < 256) then v.sub (Frac.norm (s.param flow 3 * w.den) (Nat.max 1 w.num)) else v

/-- The key of a flow's tag within its class. -/
def flowKey (c flow : Nat) : Nat := c * 512 + flow

/-- A command arrives at the gate of its channel (R383 to R385); a channel in a lower power state wakes (R473). -/
def enqueueGate (x : LineCmd) (s : State) : State :=
  let c := lineChan x.line
  let s := wakeDomain (4 + c) s
  s.modChan c fun h =>
    let g := h.gate
    let g := if x.cls < 7 then
        let w := s.flowWeight x.cls x.flow
        let v := Tab.get {} g.vFlow x.cls
        { g with
          classes := Tab.set {} g.classes x.cls ((Tab.get {} g.classes x.cls).arrive g.vClass { num := s.classWeight x.cls })
          flows := Tab.set {} g.flows (flowKey x.cls x.flow)
            ((Tab.get {} g.flows (flowKey x.cls x.flow)).arrive (s.flowStart x.flow v w) w) }
      else g
    { h with gate := { g with cmds := g.cmds ++ [x] } }

/-! ### Gate picks (R36, R383 to R386) -/

/-- Entries of the command queue that a source holds, and all that host and forwarded work holds. -/
def Chan.entriesOf (h : Chan) (source : Nat) : Nat := (h.queue.filter fun x => x.source = source ∧ x.group ≠ 0).length
def Chan.hostEntries (h : Chan) : Nat := (h.queue.filter fun x => x.source < 19 ∧ x.group ≠ 0).length
def Chan.gateOpen (h : Chan) (x : LineCmd) : Bool :=
  decide (h.entriesOf x.source < 64) && (h.gate.cmds.takeWhile (· != x)).all fun y => y.line != x.line

/-- The least of a list of keys by a tag; ties keep the first. -/
def leastBy (f : Nat → Frac) : List Nat → Option Nat
  | [] => none
  | x :: t => some (t.foldl (fun m y => if (f y).lt (f m) then y else m) x)

/-- The flows with a command of a class that may be picked now, in ascending order. -/
def Chan.readyFlows (h : Chan) (c : Nat) : List Nat :=
  ((h.gate.cmds.filter fun x => x.cls = c ∧ h.gateOpen x).map (·.flow)).foldl (fun l f => insertNat f l) []

def Chan.classTag (h : Chan) (c : Nat) : Frac := (Tab.get ({} : GateTag) h.gate.classes c).head.getD {}
def Chan.flowTag (h : Chan) (c f : Nat) : Frac := (Tab.get ({} : GateTag) h.gate.flows (flowKey c f)).head.getD {}

/-- The command that the gate picks now. -/
def Chan.gatePick (h : Chan) : Option LineCmd :=
  let ready := h.gate.cmds.filter h.gateOpen
  match ready.find? fun x => decide (x.cls = 7) && decide (64 ≤ x.passed) with
  | some x => some x
  | none =>
    match leastBy h.classTag ((List.range 7).filter fun c => ready.any fun x => x.cls = c) with
    | some c => (leastBy (h.flowTag c) (h.readyFlows c)).bind fun f => ready.find? fun x => decide (x.cls = c) && decide (x.flow = f)
    | none => if h.gate.cmds.any fun x => x.cls < 7 then none else ready.head?

/-- The head of a queue has gone: the next head starts where it finished, a queue left empty keeps that finish (R385). -/
def GateTag.served (t : GateTag) (more : Bool) (w : Frac) : GateTag :=
  let f := t.head.getD t.last
  { head := if more then some (f.add (cost64 w)) else none, last := f }

/-- Take a picked command out of the gate: the tags and virtual times move on, and class 7 commands before it are passed. -/
def takeFromGate (x : LineCmd) (s : State) : State :=
  let c := lineChan x.line
  s.modChan c fun h =>
    let g := h.gate
    let before := g.cmds.takeWhile (· != x)
    let after := (g.cmds.dropWhile (· != x)).drop 1
    let cmds := (before.map fun y => if y.cls = 7 ∧ x.cls ≠ 7 then { y with passed := y.passed + 1 } else y) ++ after
    let g := if x.cls < 7 then
        let more := cmds.any fun y => y.cls = x.cls
        let moreFlow := cmds.any fun y => y.cls = x.cls ∧ y.flow = x.flow
        let ct := (Tab.get ({} : GateTag) g.classes x.cls).served more { num := s.classWeight x.cls }
        let ft := (Tab.get ({} : GateTag) g.flows (flowKey x.cls x.flow)).served moreFlow (s.flowWeight x.cls x.flow)
        { g with vClass := ct.last, vFlow := Tab.set {} g.vFlow x.cls ft.last
                 classes := Tab.set {} g.classes x.cls ct, flows := Tab.set {} g.flows (flowKey x.cls x.flow) ft }
      else g
    { h with gate := { g with cmds } }

/-- A command takes an entry of the command queue. -/
def enqueueCmd (x : LineCmd) (s : State) : State :=
  s.modChan (lineChan x.line) fun h =>
    let q := h.queue ++ [{ x with passed := 0 }]
    { h with queue := q, peak := if h.peak.toNat < q.length then BitVec.ofNat 9 q.length else h.peak }

/-! ### Write drains (R242) -/

/-- The writes queued on a subchannel. -/
def Chan.writes (h : Chan) (sub : Nat) : List LineCmd := h.queue.filter fun x => x.write.isSome ∧ x.line % 2 = sub

/-- A write of the subchannel has waited 2 µs. -/
def Chan.oldWrite (h : Chan) (sub now : Nat) : Bool := (h.writes sub).any fun x => decide (x.at_ + 2 * usNs ≤ now)

/-- The subchannel drains writes. -/
def Chan.drains (h : Chan) (sub : Nat) : Bool :=
  (Tab.get ({} : Subchannel) h.subs sub).draining || decide (h.wrHigh.toNat ≤ (h.writes sub).length)

def setDrain (sub : Nat) (b : Bool) (h : Chan) : Chan :=
  { h with subs := Tab.set {} h.subs sub { Tab.get ({} : Subchannel) h.subs sub with draining := b } }

/-- The oldest write of a subchannel has waited 2 µs (R242). -/
def execWriteDrainTimeout (c : Fin 24) (sub : Fin 2) (s : State) : Host.Outcome State Fault Refusal :=
  .next (if s.running && (s.chan c).refreshes && (s.chan c).oldWrite sub s.now then s.modChan c (setDrain sub true) else s)

/-! ### Bank picks (R239 to R241) -/

/-- No older command of the queue is for the same line (R239). -/
def Chan.inOrder (h : Chan) (x : LineCmd) : Bool := ((h.queue.takeWhile (· != x)).all fun y => y.line != x.line)

/-- The commands of a subchannel that may be served now: writes only in a drain (R242). -/
def Chan.servable (h : Chan) (sub : Nat) : List LineCmd :=
  h.queue.filter fun x => decide (x.line % 2 = sub) && h.inOrder x && (x.write.isNone || h.drains sub)

/-- The order of a request within its bank: 64 times passed class 7, then metadata, classes 0 to 6, class 7; in a drain writes come
first within each, otherwise reads (R240). -/
def bankRank (drain : Bool) (x : LineCmd) : Nat :=
  if x.group = 2 ∧ 64 ≤ x.passed then 0
  else 1 + 2 * x.group + (if x.write.isSome = drain then 0 else 1)

/-- The first of the lowest rank. -/
def firstByRank (f : LineCmd → Nat) : List LineCmd → Option LineCmd
  | [] => none
  | x :: t => some (t.foldl (fun m y => if f y < f m then y else m) x)

def Chan.bankOf (h : Chan) (x : LineCmd) : Nat := (h.place x.line).bankId
def Chan.bankState (h : Chan) (b : Nat) : DramBank := Tab.get {} h.banks b

/-- The command hits the row open in its bank. -/
def Chan.hits (h : Chan) (x : LineCmd) : Bool := decide ((h.bankState (h.bankOf x)).row = some (h.place x.line).row)

/-- Rotating pick: the first bank after the one served last (R240). -/
def Chan.rotatingPick (h : Chan) (sub : Nat) : Option LineCmd :=
  let l := h.servable sub
  let banks := (l.map h.bankOf).foldl (fun t b => insertNat b t) []
  let last := (Tab.get ({} : Subchannel) h.subs sub).lastBank
  let next := match banks.find? fun b => decide (last < b) with
    | some b => some b
    | none => banks.head?
  next.bind fun b => firstByRank (bankRank (h.drains sub)) (l.filter fun x => h.bankOf x = b)

/-- Express pick: a request that 64 younger ones passed, then row hits, then the oldest, in each group (R241). -/
def Chan.expressPick (h : Chan) (sub : Nat) : Option LineCmd :=
  let l := h.servable sub
  match l.find? fun x => decide (64 ≤ x.passed) with
  | some x => some x
  | none => firstByRank (fun x => 2 * bankRank (h.drains sub) x + (if h.hits x then 0 else 1)) l

/-- The channel issues commands: not in self-refresh, refresh, a retraining window or a repair. -/
def State.issues (s : State) (c : Nat) : Bool :=
  let h := s.chan c
  s.running && h.refreshes && !h.refreshing && !h.retrainBusy && !h.repairBusy && s.domAwake (4 + c)

/-- What a picker issues for a request. -/
inductive BusCmd where
  | act | column | pre
  deriving DecidableEq, Repr

def Chan.busCmd (h : Chan) (x : LineCmd) : BusCmd :=
  match (h.bankState (h.bankOf x)).row with
  | none => .act
  | some r => if r = (h.place x.line).row then .column else .pre

/-- The row stays open after the column command (R243). -/
def Chan.keepsOpen (h : Chan) (x : LineCmd) (pred : Nat) : Bool :=
  let hint := if x.hint = 0 then h.pageDefault.toNat else x.hint
  if hint = 1 then true
  else if hint = 2 then false
  else
    let b := h.bankOf x
    let others := (h.queue.filter fun y => h.bankOf y = b ∧ y ≠ x)
    let last := !others.any fun y => (h.place y.line).row = (h.place x.line).row
    let conflict := others.any fun y => (h.place y.line).row ≠ (h.place x.line).row
    decide (2 ≤ pred) && !(last && conflict)

/-- A bank after a command for a request. -/
def Chan.nextBank (h : Chan) (x : LineCmd) (now : Nat) : DramBank :=
  let b := h.bankState (h.bankOf x)
  match h.busCmd x with
  | .act => { b with row := some (h.place x.line).row, fresh := true, closedByPredict := false, lastUse := now
                     predictor := if b.closedByPredict then b.predictor - 1 else b.predictor }
  | .pre => { b with row := none, fresh := false, closedByPredict := false, lastUse := now, predictor := b.predictor - 1 }
  | .column =>
    let p := if b.fresh then b.predictor else min 3 (b.predictor + 1)
    let openRow := h.keepsOpen x p
    { row := if openRow then b.row else none, predictor := p, fresh := false, lastUse := now
      closedByPredict := !openRow && decide ((if x.hint = 0 then h.pageDefault.toNat else x.hint) = 3) }

/-- The counter events of a bus command: 1 ACT, 2 RD, 3 WR, 4 PRE; 6 a row hit, 7 a conflict (R544). -/
def busEvents (h : Chan) (x : LineCmd) : List Nat :=
  match h.busCmd x with
  | .act => [1]
  | .pre => [4, 7]
  | .column => [if x.write.isSome then 3 else 2] ++ if (h.bankState (h.bankOf x)).fresh then [] else [6]

/-- Issue the next command of a request: the rank leaves power-down, the bank moves on, and a column command completes the queue
entry: a write is stored, a read is under way (R240 to R243, R248). -/
def issueCmd (c : Nat) (x : LineCmd) (s : State) : State :=
  let h := s.chan c
  let p := h.place x.line
  let s := (busEvents h x).foldl (fun s e => countEvent c e none s) s
  let column := decide (h.busCmd x = .column)
  let s := s.modChan c fun h =>
    let h : Chan := { h with
      banks := Tab.set {} h.banks p.bankId (h.nextBank x s.now)
      powerDown := h.powerDown.erase p.subRank, lastCmd := Tab.set 0 h.lastCmd p.subRank s.now
      subs := Tab.set {} h.subs p.sub { Tab.get ({} : Subchannel) h.subs p.sub with lastBank := p.bankId, draining := h.drains p.sub } }
    if column then
      let before := (h.queue.takeWhile (· != x)).map fun y => if y.line % 2 = p.sub ∧ (y.group ≠ 2 ∨ x.group ≠ 2 ∨ h.express) then { y with passed := y.passed + 1 } else y
      let h : Chan := { h with queue := before ++ (h.queue.dropWhile (· != x)).drop 1 }
      if x.write.isSome then
        if (h.writes p.sub).length < h.wrLow.toNat ∧ !h.oldWrite p.sub s.now then setDrain p.sub false h else h
      else { h with flight := h.flight ++ [(x.req, x.line, Tab.get {} s.dram x.line)] }
    else h
  if column then
    match x.write with
    | some d => storeLine x.line d s
    | none => s
  else s

/-- A subchannel picker's command-bus slot (R240, R241). DESIGN CHOICE, log 30. -/
def execDramCommandPick (c : Fin 24) (sub : Fin 2) (s : State) : Host.Outcome State Fault Refusal :=
  .next (if s.issues c then
      match (if (s.chan c).express then (s.chan c).expressPick sub else (s.chan c).rotatingPick sub) with
      | some x => issueCmd c x s
      | none => s
    else s)

/-- An open row without an access for ROW_IDLE is closed (R243). -/
def execRowIdleClose (c : Fin 24) (bank : BitVec 12) (s : State) : Host.Outcome State Fault Refusal :=
  .next (let b := (s.chan c).bankState bank.toNat
    if s.issues c && b.row.isSome && decide (b.lastUse + 8 * (s.chan c).rowIdle.toNat ≤ s.now) then
      countEvent c 4 none (s.modChan c fun h =>
        { h with banks := Tab.set {} h.banks bank.toNat { b with row := none, fresh := false, closedByPredict := false } })
    else s)

end Sys2Proof.Machine
end

