-- ==== Sys2Proof/Machine/Pools.lean ====
section
/-! DEFINITION. The shared pools, comet sampling and the responses to requests (R35 to R41, R379, R389, R547 to R549). -/
namespace Sys2Proof.Machine

/-! ### Requests -/

def State.req (s : State) (id : Nat) : Option Req := s.path.reqs.find? fun r => r.id = id

/-- A request's record is replaced. -/
def putReq (r : Req) (s : State) : State :=
  s.modPath fun p => { p with reqs := p.reqs.map fun x => if x.id = r.id then r else x }
def dropReq (id : Nat) (s : State) : State := s.modPath fun p => { p with reqs := p.reqs.filter fun r => r.id != id }

/-- The request waits at a stage. -/
def waitAt (r : Req) (st : Stage) (s : State) : State := putReq { r with stage := st } s

/-- The requester of a request, for the pools: a head, 16 + u for a link, 19 for the mover and Rilia. -/
def Req.requester (r : Req) : Nat := if r.source < 19 then r.source else 19

/-- The quadrant a request came in at (R19). -/
def Req.quad (r : Req) : Nat := if r.source < 16 then portQuad r.source else if r.source < 19 then r.source - 16 else 0

/-- The flow of its DRAM commands (R383). -/
def Req.flow (r : Req) : Nat := if r.source < 16 then r.ld else 256 + (r.source - 16)

/-! ### Pools (R36 to R38)

Numbered 0 trackers (for a link, forward-buffer entries, R436), 1 write gather, 2 + q metadata misses, 6 + q compression scratch. -/

/-- The ports of a head that lie in a quadrant. -/
def State.headPortsIn (s : State) (h q : Nat) : Nat := if portQuad h = q then s.headPorts h else 0

/-- Entries reserved for a requester. -/
def State.poolReserve (s : State) (pool x : Nat) : Nat :=
  if pool = 0 then (if x < 16 then s.trackerReserve x else if x < 19 then 4096 else 0)
  else if pool = 1 then (if x < 16 then 4096 * s.headPorts x else if x < 19 then 4096 else 0)
  else if pool < 6 then (if x < 16 then 128 * s.headPortsIn x (pool - 2) else if x = 19 then 128 else 0)
  else if x = 19 ∨ x = 20 then 256 else 0

/-- Shared entries that a requester may hold. -/
def State.poolCap (s : State) (pool x : Nat) : Nat :=
  if pool = 0 then (if x < 16 then s.trackerCap x else if x < 19 then 4096 else 0)
  else if pool = 1 then (if x < 16 then 32768 * s.headPorts x else if x < 19 then 32768 else 0)
  else if pool < 6 then (if x < 16 then 192 * max 1 (s.headPortsIn x (pool - 2)) else 192)
  else if x < 16 then 512 * s.headPorts x else if x < 19 then 512 else 0

/-- The shared entries of the pool that a requester draws on. -/
def poolShared (pool x : Nat) : Nat :=
  if pool = 0 then (if x < 16 then 8192 else 4096) else if pool = 1 then 184320 else if pool < 6 then 384 else 1536

/-- The requesters that share with this one. -/
def poolPeers (pool x : Nat) : List Nat :=
  if pool = 0 then (if x < 16 then List.range 16 else [16, 17, 18]) else List.range 21

def State.heldOf (s : State) (pool x : Nat) : Nat := Tab.get 0 s.path.held (pool * 32 + x)
/-- Shared entries that a requester holds: what it holds beyond its reserve (R36, R37). -/
def State.sharedOf (s : State) (pool x : Nat) : Nat := s.heldOf pool x - s.poolReserve pool x

/-- A requester may take an entry: its reserve first, then the shared part up to its cap (R36). -/
def State.mayClaim (s : State) (pool x : Nat) : Bool :=
  decide (s.heldOf pool x < s.poolReserve pool x) ||
    (decide (s.sharedOf pool x < s.poolCap pool x) &&
      decide (((poolPeers pool x).map (s.sharedOf pool)).sum < poolShared pool x))

def claimEntry (pool x : Nat) (s : State) : State :=
  s.modPath fun p => { p with held := Tab.set 0 p.held (pool * 32 + x) (s.heldOf pool x + 1) }

/-- The work of n entries is done: they are free once released (R38). -/
def freeEntries (pool x n : Nat) (s : State) : State :=
  s.modPath fun p => { p with freed := Tab.set 0 p.freed (pool * 32 + x) (Tab.get 0 p.freed (pool * 32 + x) + n) }

/-- One entry is released. -/
def releaseEntry (pool x : Nat) (s : State) : State :=
  s.modPath fun p =>
    { p with freed := Tab.set 0 p.freed (pool * 32 + x) (Tab.get 0 p.freed (pool * 32 + x) - 1)
             held := Tab.set 0 p.held (pool * 32 + x) (s.heldOf pool x - 1) }

/-! ### The hold buffer and DevLoad (R40, R378, R379, R395) -/

/-- Requests of a head in its ingress hold buffer, and its size. -/
def Req.inHold (r : Req) : Bool := decide (r.stage = .limit ∨ r.stage = .tracker)
def State.holdCount (s : State) (h : Nat) : Nat := (s.path.reqs.filter fun r => r.source = h ∧ r.inHold).length
def State.holdSize (s : State) (h : Nat) : Nat := 256 * s.headPorts h

/-- The occupancy of the hold buffers is summed over one more ns; at the end of each 1 ms the sums become the last ones (R395). -/
def sumHold (s : State) : State :=
  let sums := s.heads.foldl (fun t h => Tab.set 0 t h (Tab.get 0 t h + s.holdCount h)) s.qos.holdSum
  if s.now % msNs = 0 then s.modQos fun q => { q with holdLast := sums, holdSum := [] } else s.modQos fun q => { q with holdSum := sums }

/-- Requests of an LD that hold trackers (R378). -/
def State.outstanding (s : State) (ld : Nat) : Nat := (s.path.reqs.filter fun r => r.source < 16 ∧ r.ld = ld ∧ r.tracked).length

/-- The DevLoad of a response: 0 light, 1 optimal, 2 moderate, 3 severe (R379). -/
def State.devLoad (s : State) (ld : Nat) : Nat :=
  let h := ld / 16
  let full := fun (pct : Nat) => decide (pct * s.holdSize h ≤ 100 * s.holdCount h)
  let limit := s.param ld 1
  let above := s.path.reqs.any fun r => decide (r.source < 16 ∧ r.ld = ld ∧ r.stage = .limit)
  let shaped := (s.path.reqs.filter fun r => r.source < 16 ∧ r.ld = ld ∧ r.stage = .shaper).length
  if above || full s.qos.devloadSev.toNat then 3
  else if full s.qos.devloadMod.toNat || decide (limit ≤ 2 * shaped) then 2
  else if limit ≤ 2 * s.outstanding ld then 1 else 0

/-! ### Comets (R547 to R549) -/

/-- One step of the Galois LFSR of R547. DEDUCED, log 44. -/
def lfsrStep (x : BitVec 32) : BitVec 32 := (x >>> 1) ^^^ if x.getLsbD 0 then 0x80200003#32 else 0#32

/-- The low k bits of an LFSR are zero. -/
def lfsrTags (x : BitVec 32) (k : Nat) : Bool := decide (x.toNat % 2 ^ k = 0)

/-- Stamp a stage on the request's comet. -/
def Req.stamp (r : Req) (stage now : Nat) : Req := { r with comet := r.comet.map fun c => c.stamp stage now }

/-- Set a flag bit of byte 79 on the request's comet, or what stage 4 found. -/
def Req.cometFlag (r : Req) (bit : Nat) : Req :=
  { r with comet := r.comet.map fun c => { c with info := c.info ||| BitVec.ofNat 64 (2 ^ (56 + bit)) } }
def Req.cometPage (r : Req) (st chan : Nat) : Req :=
  { r with comet := r.comet.map fun c =>
      { c with info := (c.info &&& 0xFFFF0000FFFFFFFF#64) ||| BitVec.ofNat 64 (2 ^ 32 * st + 2 ^ 40 * chan)
               place := BitVec.ofNat 64 r.dlpn, line := BitVec.ofNat 8 r.lineNo } }

/-- Stamp and store. -/
def stampReq (r : Req) (stage : Nat) (s : State) : State := putReq (r.stamp stage s.now) s

/-- A request takes a tracker: its quadrant's LFSR steps, and the request may be tagged (R547). -/
def tagComet (r : Req) (s : State) : Req × State :=
  let q := r.quad
  let x := lfsrStep (s.cometQuad q).lfsr
  let s := s.modCometQuad q fun b => { b with lfsr := x }
  if s.comets.reqEn && lfsrTags x s.comets.reqK.toNat && (!s.comets.ldFilter || decide (s.comets.ld.toNat = r.ld)) then
    if 64 ≤ (s.cometQuad q).inflight then (r, s.modCometQuad q fun b => { b with skipped := satAdd b.skipped 1 })
    else
      let c : Comet := { kind := if r.write then 1 else 0, timebase := s.time.tb, uptime := BitVec.ofNat 64 s.now
                         info := BitVec.ofNat 64 (r.source + 2 ^ 8 * r.ld + 2 ^ 40 * 255) }
      ({ r with comet := some (c.stamp 1 s.now) }, s.modCometQuad q fun b => { b with inflight := b.inflight + 1 })
  else (r, s)

/-! ### Responses (R41, R86, R90, R389) -/

/-- The request's comet ends with its tracker: class, colour and home are known by now. -/
def endComet (r : Req) (poison : Bool) (s : State) : State :=
  match r.comet with
  | none => s
  | some c =>
    let c := (c.stamp 11 s.now).stamp 12 s.now
    let bits := 2 ^ 16 * r.cls + 2 ^ 24 * r.colour + 2 ^ 48 * r.home + (if poison then 2 ^ 60 else 0) + (if r.dead then 2 ^ 61 else 0)
    writeComet r.quad { c with info := c.info ||| BitVec.ofNat 64 bits } s

/-- A request ends: what it answers goes out, and its tracker or forward-buffer entry is free (R41). -/
def finishReq (r : Req) (data : Line) (poison : Bool) (s : State) : State :=
  let s := if r.source < 16 then
      let load := s.devLoad r.ld
      let s := if r.dead then s
        else if r.write then s.emit (.writeDone r.source r.ld r.tag load)
        else s.emit (.readData r.source r.ld r.tag data poison load)
      if r.dead then s
      else s.modQos fun q => { q with bytes := Tab.set 0 q.bytes r.cls (Tab.get 0 q.bytes r.cls + 64) }
    else if r.source < 19 then
      if r.write then sendResponse r.ld 2 r.tag 0 [] [] s
      else sendResponse r.ld 1 r.tag (if poison then 1 else 0) [data] [] s
    else s
  let s := endComet r poison s
  freeEntries 0 r.requester 1 (dropReq r.id s)

/-- A request is served; no completion goes out before the MAC that covers it has passed (R90). -/
def respond (r : Req) (data : Line) (poison : Bool) (s : State) : State :=
  if r.verified || r.dead then finishReq r data poison s
  else putReq { r with stage := .verify, answer := some (data, poison) } s

end Sys2Proof.Machine
end

