-- ==== Sys2Proof/Machine/Reads.lean ====
section
/-! DEFINITION. Reads from step 4 on: the metadata cache, what a line reads as, its DRAM lines and the engines' work (R27 to R30,
R124 to R132, R164, R167, R170, R191, R208, R219). -/
namespace Sys2Proof.Machine

/-! ### The metadata cache (R130 to R132) -/

/-- The number of sets. -/
def State.metaSets (s : State) : Nat := if s.rec_.large then 52736 else 49152
def State.metaSet (s : State) (n : Nat) : MetaSet := Tab.get {} s.mdata.sets n

/-- Point every node on a way's path to the way's side, or away from it. -/
def treeMark (away : Bool) (w : Nat) (t : BitVec 15) : BitVec 15 :=
  (List.range 4).foldl (fun (t : BitVec 15) lvl =>
    let node := 2 ^ lvl - 1 + w / 2 ^ (4 - lvl)
    let side := w / 2 ^ (3 - lvl) % 2 = 1
    let bit := BitVec.ofNat 15 (2 ^ node)
    if side != away then t ||| bit else t &&& ~~~ bit) t

/-- The way the tree points to: the pseudo-least-recently-used one. DEDUCED, log 64. -/
def treeVictim (t : BitVec 15) : Nat :=
  (List.range 4).foldl (fun (w : Nat) lvl =>
    let node := 2 ^ lvl - 1 + w
    2 * w + flag (t.getLsbD node)) 0

/-- A descriptor line may be replaced: not dirty, and no LOCK in it (R130). -/
def State.replaceable (s : State) (k : Nat) : Bool := (s.dirty k).isNone && (lineDlpns k).all fun d => !(s.desc d).lock

/-- The way that a miss takes: a free one, the tree's, or else a replaceable one, which the spec leaves open. -/
def State.missWay (s : State) (m : MetaSet) : Option Nat :=
  let can := fun w => match m.ways.getD w none with
    | none => true
    | some k => s.replaceable k
  match (List.range 16).find? fun w => (m.ways.getD w none).isNone with
  | some w => some w
  | none =>
    if can (treeVictim m.tree) then some (treeVictim m.tree)
    else
      let l := (List.range 16).filter can
      if l.isEmpty then none else l[(Config.freeWord s.free).toNat % l.length]?

/-- The outcome of a metadata line read: ECC clean, UE, or a validation failure (R123, R131). -/
def metaError (c : Nat) (bad : BitVec 2) (s : State) : State :=
  if bad = 1 then fireEvent (srcChannel c 2) (s.modChan c fun h => { h with ue := satAdd h.ue 1 })
  else if bad = 2 then fireEvent 12 s else s

/-- Metadata commands queued on a channel. -/
def State.metaQueued (s : State) (c : Nat) : Nat := ((s.chan c).queue.filter fun x => x.group = 0).length

/-- The read of a descriptor line on a miss: from the copy whose channel has fewer metadata commands queued, and from the other when
that one fails; both at once on the first miss after a reset (R131, R132). It fails when both copies do. -/
def readMeta (k : Nat) (a b : BitVec 2) (s : State) : Bool × State :=
  let x := s.extent (k / 16384)
  let ca := x.mirrorA.toNat / 2 ^ 19
  let cb := x.mirrorB.toNat / 2 ^ 19
  let both := s.mdata.lazy_ && !s.mdata.compared.contains k
  let aFirst := decide (s.metaQueued ca ≤ s.metaQueued cb)
  let s := if both then s.modMeta fun m => { m with compared := insertNat k m.compared } else s
  let first := if aFirst then a else b
  let s := if both || aFirst || decide (first ≠ 0) then metaError ca a s else s
  let s := if both || !aFirst || decide (first ≠ 0) then metaError cb b s else s
  if a ≠ 0 ∧ b ≠ 0 then (false, fireEvent 2 s)
  else
    let differ := (lineDlpns k).any fun d => decide (s.descA d ≠ s.descB d)
    (true, if both && a = 0 && b = 0 && differ then fireEvent 11 s else s)

/-- Place a descriptor line in its set. -/
def setWay (k w : Nat) (s : State) : State :=
  let n := k % s.metaSets
  s.modMeta fun m =>
    let t := Tab.get ({} : MetaSet) m.sets n
    { m with sets := Tab.set {} m.sets n { ways := t.ways.set w (some k), tree := treeMark true w t.tree } }

/-- What a descriptor lookup found. -/
inductive Lookup where
  | hit | miss
  /-- No way of the set can be replaced. -/
  | wait
  /-- Both copies failed: the device is in an immediate reset. -/
  | lost
  deriving DecidableEq, Repr

/-- The lookup of step 4 (R130). DESIGN CHOICE, log 26. -/
def lookupMeta (dlpn : Nat) (a b : BitVec 2) (s : State) : Lookup × State :=
  let k := dlpn / 4
  let n := k % s.metaSets
  let m := s.metaSet n
  match (List.range 16).find? fun w => m.ways.getD w none = some k with
  | some w => (.hit, setWay k w s)
  | none =>
    match s.missWay m with
    | none => (.wait, s)
    | some w =>
      let s := countEvent (59 + chanQuad ((s.extent (k / 16384)).mirrorA.toNat / 2 ^ 19)) 0x502 none s
      let (ok, s) := readMeta k a b s.takeFree
      if ok then (.miss, setWay k w s) else (.lost, s)

/-! ### Magnitude and heat (R181, R185, R186) -/

def sketchK (r : Nat) : Nat :=
  if r = 0 then 0x8F3A61C52D974E0B else if r = 1 then 0xB5D10E73A6C928F7 else if r = 2 then 0x6C4EB392F015D7A3 else 0xE2A75D184B3C96E1
/-- The counter of a page in row r. -/
def sketchIndex (dlpn r : Nat) : Nat := r * 2 ^ 22 + dlpn * sketchK r % 2 ^ 64 / 2 ^ 42

/-- A counter whose parity is wrong is rewritten as 0, and noted (R181). -/
def fixParity (i : Nat) (s : State) : State :=
  if s.sketch.parity.contains i then
    fireEvent 13 (s.modSketch fun k => { k with parity := k.parity.filter (· != i), counters := Tab.set 0 k.counters i 0 })
  else s

/-- A host or forwarded request is counted at step 4 (R181). -/
def countAccess (dlpn : Nat) (s : State) : State :=
  if !s.sketch.en then s
  else
    let n := s.sketch.requests + 1
    let s := s.modSketch fun k => { k with requests := n }
    if n.toNat % 2 ^ s.sketch.sample.toNat ≠ 0 then s
    else
      let l := (List.range 4).map (sketchIndex dlpn)
      let s := forEach l fixParity s
      forEach l (fun i s => s.modSketch fun k =>
        { k with counters := Tab.set 0 k.counters i (satAdd (Tab.get 0 k.counters i) 1) }) s

/-- A page has lines in write gather. -/
def State.gathered (s : State) (dlpn : Nat) : Bool := s.gather.entries.any fun g => g.dlpn = dlpn

/-- The quadrant whose channel holds a page, or its extent's FILL_CHANNEL's. -/
def State.pageChan (s : State) (dlpn : Nat) : Nat :=
  let (st, loc, _) := s.source dlpn
  if st = .plain ∨ st = .packed then lineChan (locLine loc) else (s.extent (extentOf dlpn)).fillChannel.toNat
def State.pageQuad (s : State) (dlpn : Nat) : Nat := chanQuad (s.pageChan dlpn)

/-- The heat table with a counted write: the entry's new count, and the table (R185). -/
def heatCount (q : Quad) (dlpn now : Nat) : Nat × List HeatEntry :=
  let win := q.heatWindow.toNat * usNs
  match q.heat.find? fun e => e.dlpn = dlpn with
  | some e =>
    let n := if now < e.start + win then e.count + 1 else 1
    (n, q.heat.map fun x => if x.dlpn = dlpn then { x with count := n, start := if n = 1 then now else x.start } else x)
  | none =>
    let new : HeatEntry := { dlpn, count := 1, start := now }
    if q.heat.length < 4096 then (1, q.heat ++ [new])
    else
      let victim := match q.heat.find? fun e => decide (e.start + win ≤ now) with
        | some e => some e
        | none => q.heat.foldl (fun (m : Option HeatEntry) e => match m with
            | none => some e
            | some x => if e.start < x.start then some e else m) none
      (1, (match victim with | some v => q.heat.erase v | none => q.heat) ++ [new])

/-- The write-heat rule at step 4 of a write (R185, R186). -/
def writeHeat (dlpn : Nat) (s : State) : State :=
  let qn := s.pageQuad dlpn
  let q := s.quad qn
  if !q.heatEn || decide ((s.desc dlpn).state ≠ .packed) || s.gathered dlpn then s
  else
    let (n, l) := heatCount q dlpn s.now
    if q.heatW.toNat < n then
      let s := s.modQuad qn fun q => { q with heat := l.filter fun e => e.dlpn != dlpn }
      if s.cap.distress then s.modQuad qn fun q => { q with suppressed := satAdd q.suppressed 1 }
      else s.modQuad qn fun q => { q with heatJobs := q.heatJobs ++ [{ dlpn, op := .heatUnpack }] }
    else s.modQuad qn fun q => { q with heat := l }

/-! ### Engines (R27, R170) -/

/-- A cluster has an engine of the kind in service. -/
def Cluster.inService (c : Cluster) (k : EngineKind) : Bool := match k with
  | .compress => c.cmpIn != 0
  | .decompress => c.dcmpIn != 0
  | .xts => c.xtsIn != 0

/-- The cluster of a quadrant that work of a kind goes to (R27). -/
def State.clusterFor (s : State) (q : Nat) (k : EngineKind) : Nat :=
  let a := s.cluster (2 * q)
  let b := s.cluster (2 * q + 1)
  let n := fun (c : Cluster) => (c.queue.filter fun x => x.1 = k).length
  if b.inService k && (!a.inService k || decide (n b < n a)) then 2 * q + 1 else 2 * q

/-- Queue work of a class for a request; the cluster's domain wakes (R473). -/
def queueWork (q : Nat) (k : EngineKind) (cls id : Nat) (s : State) : State :=
  let e := s.clusterFor q k
  wakeDomain (47 + e) (s.modCluster e fun c => { c with queue := c.queue ++ [(k, cls, id)] })

/-! ### Answers -/

/-- A read's answer: what write gather holds of the line lies over it (R29). -/
def answerRead (r : Req) (data : Line) (poison : Bool) (s : State) : State :=
  let d := match r.overlay with
    | some (x, m) => mergeLine data x m
    | none => data
  let s := match r.scratch with
    | some p => freeEntries p r.requester 1 s
    | none => s
  respond (if poison then r.cometFlag 4 else r) d poison s

/-- A read issued to the source of a MOVING page has returned (R191). -/
def readerDone (r : Req) (s : State) : State :=
  if !r.reader then s
  else
    match (List.range 4).find? fun q => (s.quad q).records.any fun x => x.dlpn = r.dlpn ∧ 0 < x.readers with
    | some q => s.modQuad q fun d => { d with records := d.records.map fun x =>
        if x.dlpn = r.dlpn ∧ 0 < x.readers then { x with readers := x.readers - 1 } else x }
    | none => s

/-- What a request's unit was encrypted under, by the salt that travels with it (R205, R208). A unit of another home has no cipher here. -/
def Req.cipher (r : Req) (k : Nat) : Option Cipher :=
  r.salt.map fun salt =>
    { salt, ld := r.cipherLd, addr := r.cipherAddr, form := if r.slots = 0 then 0 else 1
      unit := if r.slots = 0 then r.lineNo else r.lineNo / 16, sequence := if r.slots = 0 then 0 else k, key := r.keyLoad }

/-- All lines of a request have returned: poison goes back at once, data to an XTS pipeline (R27, R164). -/
def linesDone (r : Req) (s : State) : State :=
  let s := readerDone r s
  let r := { r.stamp 7 s.now with reader := false }
  if r.lines.any fun l => match l.data with
      | some (_, .clean) => false
      | _ => true then answerRead r 0 true s
  else queueWork (if r.stage = .far then r.quad else chanQuad (lineChan ((r.lines.head?.map (·.line)).getD 0))) .xts 1 r.id
    (putReq { r with stage := .xts } s)

/-- One line of a request has returned. -/
def lineBack (id line : Nat) (data : Line) (out : LineOut) (s : State) : State :=
  match s.req id with
  | none => s
  | some r =>
    let r := { r with lines := r.lines.map fun l => if l.line = line then { l with data := some (data, out) } else l }
    if r.lines.all fun l => l.data.isSome then linesDone r s else putReq r s

/-! ### What a line reads as (R29, R86, R124, R125, R164, R191) -/

/-- The gathered bytes of a line, older entries under newer ones, and whether an entry is poisoned (R192). -/
def State.overlay (s : State) (dlpn n : Nat) : Line × BitVec 64 × Bool :=
  (s.gather.entries.filter fun g => g.dlpn = dlpn ∧ g.lineNo = n).foldl
    (fun (t : Line × BitVec 64 × Bool) g => (mergeLine t.1 g.data g.mask, t.2.1 ||| g.mask, g.poisoned || (t.2.2 && g.mask != BitVec.allOnes 64)))
    (0, 0, false)

/-- Another requester's unverified write holds the line back (R90). -/
def State.unverifiedFor (s : State) (r : Req) : Bool :=
  s.gather.entries.any fun g => g.dlpn = r.dlpn ∧ g.lineNo = r.lineNo ∧ !g.verified ∧ g.source ≠ r.source

/-- A channel's DIMMs can be read. -/
def State.readable (s : State) (c : Nat) : Bool :=
  decide (c < 24) && decide ((s.chan c).state = .active ∨ (s.chan c).state = .evacuating)

/-- The repeated pattern of a PATTERN page. -/
def patternLine (d : Desc) : Line :=
  let w : BitVec 64 := d.blockLen ++ d.location
  w ++ w ++ w ++ w ++ w ++ w ++ w ++ w

/-- The DRAM lines of a read go to their channel's gate (R164, R191, R383). -/
def issueLines (r : Req) (lines : List Nat) (slots : Nat) (s : State) : State :=
  let c := lineChan (lines.headD 0)
  if !s.readable c then answerRead { r with slots } 0 true s
  else
    let moving := (s.record r.dlpn).isSome
    let s := match s.record r.dlpn with
      | some (q, _) => modRecord q r.dlpn (fun x => { x with readers := x.readers + 1 }) s
      | none => s
    let h := s.chan c
    let r := (if h.refreshing then r.cometFlag 2 else r).stamp 5 s.now
    let s := putReq { r with stage := .lines, slots, reader := moving, lines := lines.map fun l => { line := l } } s
    forEach lines (fun l s => enqueueGate
      { line := l, req := r.id, group := if r.cls = 7 then 2 else 1, hint := r.hint, source := r.source, flow := r.flow, cls := r.cls, at_ := s.now } s) s

/-- A block's decompressed context is held (R30). -/
def State.context (s : State) (dlpn b : Nat) : Option (List Line) :=
  (s.path.contexts.find? fun c => c.1 = dlpn ∧ c.2.1 = b).map (·.2.2)

/-- Contexts of a block are discarded (R164). -/
def dropContext (dlpn b : Nat) (s : State) : State :=
  s.modPath fun p => { p with contexts := p.contexts.filter fun c => c.1 != dlpn || c.2.1 != b }

/-- Hold a decompressed block; what claims and contexts of the pool exceed, the oldest held contexts give up (R30, R36). -/
def holdContext (dlpn b : Nat) (lines : List Line) (s : State) : State :=
  let s := dropContext dlpn b s
  s.modPath fun p => { p with contexts := (p.contexts ++ [(dlpn, b, lines)]).drop (p.contexts.length + 1 - 8192) }

/-- A line of a PACKED page (R164). -/
def readPacked (r : Req) (loc : BitVec 44) (len : BitVec 20) (s : State) : State :=
  let b := r.lineNo / 16
  let n := blockLen len b
  if n = 0 then answerRead r 0 false s
  else
    match s.context r.dlpn b with
    | some l => answerRead r (l.getD (r.lineNo % 16) 0) false s
    | none =>
      let pool := 6 + chanQuad (lineChan (locLine loc))
      if !s.mayClaim pool r.requester then waitAt r .scratch s
      else issueLines { r with scratch := some pool } ((List.range n).map fun i => locLine loc + lenSum len b + i) n
        (claimEntry pool r.requester s)

/-- A line of a FAR page: FAR_RD of the line, or of the slots of its block (R440); a lost guest gives poison (R442). DEDUCED, log 72. -/
def readFar (r : Req) (loc : BitVec 44) (s : State) : State :=
  let g := locGuest loc
  let (st, len) := Tab.get (1, 0) s.const.farForms r.dlpn
  let b := r.lineNo / 16
  let n := if st = 2 then blockLen len b else 0
  if (s.route g).isNone then answerRead r 0 true s
  else if st = 2 ∧ n = 0 then answerRead r 0 false s
  else
    let units := if st = 2 then (List.range n).map fun i => lenSum len b + i else [r.lineNo]
    let pool := 6 + s.pageQuad r.dlpn
    if 0 < n ∧ !s.mayClaim pool r.requester then waitAt r .scratch s
    else
      let s := if 0 < n then claimEntry pool r.requester s else s
      let s := match s.record r.dlpn with
        | some (q, _) => modRecord q r.dlpn (fun x => { x with readers := x.readers + 1 }) s
        | none => s
      let r := { r.stamp 9 s.now with stage := .far, slots := n, reader := (s.record r.dlpn).isSome, salt := none
                                      scratch := if 0 < n then some pool else none
                                      lines := units.map fun u => { line := u } }
      forEach units (fun u s => openTxn g { op := 4, index := locRemote loc, unit := u } r.colour r.cls r.id r.dlpn [] s) (putReq r s)

/-- A read from step 5 on. -/
def serveRead (r : Req) (s : State) : State :=
  let d := s.desc r.dlpn
  let b := r.lineNo / 16
  let (x, m, bad) := s.overlay r.dlpn r.lineNo
  if d.state ≠ .poisoned ∧ d.bpoison.getLsbD b then answerRead r 0 true s
  else if s.unverifiedFor r then waitAt r .gather s
  else if bad then answerRead r 0 true s
  else if m = BitVec.allOnes 64 then answerRead (r.cometFlag 1) x false s
  else
    let r := { r with overlay := if m = 0 then none else some (x, m) }
    let (st, loc, len) := s.source r.dlpn
    match st with
    | .unmapped => answerRead r 0 false s
    | .zero => answerRead r 0 false s
    | .pattern => answerRead r (patternLine d) false s
    | .poisoned => answerRead r 0 true s
    | .plain => issueLines r [locLine loc + r.lineNo] 0 s
    | .packed => readPacked r loc len s
    | .far => readFar r loc s
    | .moving => answerRead r 0 true s

/-! ### DRAM reads return (R257 to R264, R281) -/

/-- The first read under way on a subchannel that has been retried, or not. -/
def State.nextFlight (s : State) (c sub : Nat) (retried : Bool) : Option (Nat × Nat × DLine) :=
  (s.chan c).flight.find? fun f => decide (f.2.1 % 2 = sub) &&
    decide ((((s.req f.1).bind fun r => r.lines.find? fun l => l.line = f.2.1).map (·.retried)).getD false = retried)

/-- The read is over. -/
def endFlight (c : Nat) (f : Nat × Nat × DLine) (s : State) : State :=
  s.modChan c fun h => { h with flight := removeFirst (fun x => x = f) h.flight }

/-- A read's outcome is UE: it is read once more (R259). -/
def retryLine (id line : Nat) (s : State) : State :=
  match s.req id with
  | some r => putReq { r with lines := r.lines.map fun l => if l.line = line then { l with retried := true } else l } s
  | none => s

/-- What a request's line decrypts to: its plaintext, unless a bit of it is wrong or it was encrypted under another key or tweak, when
the value is open (log 13). -/
def State.lineValue (s : State) (id l : Nat) (d : DLine) (read : Line) : Line :=
  match s.req id with
  | none => read
  | some r =>
    let want := r.cipher (r.lines.findIdx fun x => x.line = l)
    if d.cipher = want ∧ read = d.data then read else Config.garble ((want.map fun c => c.salt).getD 0) read

/-- A DRAM line read returns (R258). A UE is read once more; a correctable error is counted and corrected. -/
def execDramReadData (c : Fin 24) (sub : Fin 2) (flips : List (BitVec 80)) (s : State) : Host.Outcome State Fault Refusal :=
  .next (if !s.running then s
    else match s.nextFlight c sub false with
      | none => s
      | some f =>
        let (id, l, d) := f
        if !s.readable c then lineBack id l 0 .poison (endFlight c f s)
        else
          let read := readOutcome (s.pairRule l) d.data d.poisoned flips
          match read.out with
          | .ue => retryLine id l s
          | .poison => lineBack id l read.data .poison (breakRun c (endFlight c f s))
          | .clean =>
            let s := breakRun c (endFlight c f s)
            lineBack id l (s.lineValue id l d read.data) .clean (if read.corrected then countCe c s else s))

/-- The second read of a line whose first was UE (R259, R263). -/
def execUeRetryRead (c : Fin 24) (sub : Fin 2) (flips : List (BitVec 80)) (lanes : BitVec 40) (s : State) :
    Host.Outcome State Fault Refusal :=
  .next (if !s.running then s
    else match s.nextFlight c sub true with
      | none => s
      | some f =>
        let (id, l, d) := f
        if !s.readable c then lineBack id l 0 .poison (endFlight c f s)
        else
          let read := readOutcome (s.pairRule l) d.data d.poisoned flips
          let s := endFlight c f s
          match read.out with
          | .clean => lineBack id l (s.lineValue id l d read.data) .clean (breakRun c (countCe c s))
          | .poison => lineBack id l read.data .poison (breakRun c s)
          | .ue =>
            let s := countUe l 1 read lanes s
            let s := match s.req id with
              | some r => markUser r.dlpn r.lineNo l txHostRead s
              | none => s
            lineBack id l read.data .ue s)

/-! ### The engines' work (R164, R170) -/

/-- The next job of a cluster: of the kind, the lowest class, the oldest (R170). -/
def Cluster.nextJob (c : Cluster) (k : EngineKind) : Option (EngineKind × Nat × Nat) :=
  (List.range 6).findSome? fun cls => c.queue.find? fun x => decide (x.1 = k) && decide (x.2.1 = cls)

/-- A malformed block is found: the cluster's counters and source (R157, R173). -/
def malformedBlock (e cause : Nat) (s : State) : State :=
  fireEvent (srcCluster e 0) (s.modCluster e fun c => { c with malformed := satAdd c.malformed 1, lastCause := BitVec.ofNat 3 cause })

/-- A block is decompressed: counted (R173, R544). -/
def countDecoded (e : Nat) (s : State) : State :=
  countEvent (43 + e) 0x302 none (s.modCluster e fun c => { c with decoded := c.decoded + 1 })

/-- The plaintext lines of a request, as its unit decrypts. -/
def Req.plain (r : Req) : List Line :=
  (List.range r.lines.length).map fun i => ((r.lines[i]?.bind (·.data)).map (·.1)).getD 0

/-- An XTS pipeline has decrypted a request's unit: a line or a raw block's slot is the answer, another block is decompressed. -/
def xtsDone (e : Nat) (r : Req) (s : State) : State :=
  let s := countEvent (43 + e) 0x303 none s
  if r.slots = 0 then answerRead (r.stamp 8 s.now) (r.plain.headD 0) false s
  else if r.slots = 16 then answerRead (r.stamp 8 s.now) (r.plain.getD (r.lineNo % 16) 0) false s
  else queueWork (e / 2) .decompress 1 r.id (putReq { r with stage := .decompress } s)

/-- A decompressor has decoded a request's block: the line is the answer and the block is held as a context (R30, R157). -/
def decompressDone (e : Nat) (r : Req) (s : State) : State :=
  let s := countDecoded e s
  let r := r.stamp 8 s.now
  match decodeBlock r.slots (r.plain.flatMap bytesOfLine) with
  | .data bytes =>
    let lines := linesOfBytes 16 bytes
    answerRead r (lines.getD (r.lineNo % 16) 0) false (if r.salt.isSome then holdContext r.dlpn (r.lineNo / 16) lines s else s)
  | .malformed cause =>
    let s := malformedBlock e cause s
    let s := markUser r.dlpn r.lineNo ((r.lines.head?.map (·.line)).getD 0) txHostRead s
    answerRead r 0 true s

/-- An engine kind by its operand. -/
def engineKind (n : Nat) : EngineKind := if n = 0 then .compress else if n = 1 then .decompress else .xts

/-- An engine finishes its job and takes the next of its queue in class order (R170). -/
def execEngineWorkDone (e : Fin 8) (kind : Fin 3) (s : State) : Host.Outcome State Fault Refusal :=
  .next (if s.running && s.domAwake (47 + e) && (s.cluster e).inService (engineKind kind) then
      match (s.cluster e).nextJob (engineKind kind) with
      | none => s
      | some j =>
        let s := s.modCluster e fun c => { c with queue := removeFirst (fun x => x = j) c.queue }
        match s.req j.2.2 with
        | none => s
        | some r => match r.stage with
          | .xts => xtsDone e r s
          | .decompress => decompressDone e r s
          | _ => s
    else s)

/-! ### The gate picks (R239, R383 to R386) -/

/-- The newest write to a line that is queued at its channel. -/
def State.queuedWrite (s : State) (l : Nat) : Option DLine :=
  ((s.chan (lineChan l)).queue.filter fun x => x.line = l).foldl (fun m x => if x.write.isSome then x.write else m) none

/-- A gate picks a request for a free entry; a read that finds a write to its line queued takes its data from it (R239). -/
def execChannelGatePick (c : Fin 24) (s : State) : Host.Outcome State Fault Refusal :=
  .next (if s.running && s.readable c && s.domAwake (4 + c) && decide ((s.chan c).hostEntries < 208) then
      match (s.chan c).gatePick with
      | none => s
      | some x =>
        let s := countEvent c 8 (if x.flow < 256 then some x.flow else none) (takeFromGate x s)
        match x.write, s.queuedWrite x.line with
        | none, some d => lineBack x.req x.line (s.lineValue x.req x.line d d.data) (if d.poisoned then .poison else .clean) s
        | _, _ => enqueueCmd x s
    else s)

end Sys2Proof.Machine
end

