-- ==== Sys2Proof/Machine/Writes.lean ====
section
/-! DEFINITION. Writes from step 5 on: charges, write gather, and evictions to DRAM and to guests (R31 to R34, R125, R126, R140,
R144, R159, R165 to R168, R189, R190, R192, R267 to R269, R300, R440). -/
namespace Sys2Proof.Machine

/-! ### Entries of a page -/

/-- The entries of a page that an eviction may take: verified, and either frozen or not (R90, R192). -/
def State.entriesOf (s : State) (dlpn : Nat) (frozen : Bool) : List GEntry :=
  s.gather.entries.filter fun g => g.dlpn = dlpn ∧ g.frozen = frozen ∧ g.verified

/-- The bytes that a list of entries holds of a line: data, mask, and whether it arrived poisoned. -/
def lineOf (l : List GEntry) (n : Nat) : Line × BitVec 64 × Bool :=
  (l.filter fun g => g.lineNo = n).foldl
    (fun (t : Line × BitVec 64 × Bool) g => (mergeLine t.1 g.data g.mask, t.2.1 ||| g.mask, g.poisoned || (t.2.2 && g.mask != BitVec.allOnes 64)))
    (0, 0, false)

/-- A list of entries holds a line fully; a block; a page. -/
def fullLine (l : List GEntry) (n : Nat) : Bool := decide ((lineOf l n).2.1 = BitVec.allOnes 64)
def fullBlock (l : List GEntry) (b : Nat) : Bool := (List.range 16).all fun i => fullLine l (16 * b + i)
def fullPage (l : List GEntry) : Bool := (List.range 64).all (fullLine l)

/-- Some entry lies in a block. -/
def touches (l : List GEntry) (b : Nat) : Bool := l.any fun g => g.lineNo / 16 = b

/-- Entries leave write gather: their pool entries are free. -/
def dropEntries (p : GEntry → Bool) (s : State) : State :=
  let gone := s.gather.entries.filter p
  let s := forEach gone (fun g s => freeEntries 1 g.source 1 s) s
  s.modGather fun t => { t with entries := t.entries.filter fun g => !p g }

/-! ### Charges (R140) -/

/-- The page has no storage. -/
def PageState.bare (st : PageState) : Bool := match st with
  | .unmapped | .zero | .pattern | .poisoned => true
  | _ => false

def State.charge (s : State) (key : Nat) : Nat := Tab.get 0 s.gather.charges key

/-- What a write to a block of a page in this state is charged: the key of its charge and its lines. DEDUCED, log 63. -/
def chargeFor (st : PageState) (len : BitVec 20) (dlpn b : Nat) : Option (Nat × Nat) :=
  if st.bare then some (dlpn * 8 + 4, 64)
  else if st = .packed then some (dlpn * 8 + b, 16 - blockLen len b) else none

/-- The charge a write still has to take. -/
def State.chargeDue (s : State) (dlpn b : Nat) : Option (Nat × Nat) :=
  let (st, _, len) := s.source dlpn
  match chargeFor st len dlpn b with
  | some (k, n) => if s.gather.charges.any fun c => c.1 = k then none else some (k, n)
  | none => none

/-- The keys of a page's charges. -/
def pageKeys (dlpn : Nat) : List Nat := (List.range 5).map fun i => dlpn * 8 + i

/-- A page's eviction is settled: its charges give way to the real change of its footprint, and entries that arrived since keep the
charge that the new state asks for (R140). -/
def settlePage (dlpn old new : Nat) (s : State) : State :=
  let held := ((pageKeys dlpn).map s.charge).sum
  let rest := s.gather.entries.filter fun g => g.dlpn = dlpn
  let d := s.desc dlpn
  let keep := (rest.filterMap fun g => chargeFor d.state d.blockLen dlpn (g.lineNo / 16)).eraseDups
  let s := s.modGather fun g =>
    { g with charges := keep.foldl (fun t k => Tab.set 0 t k.1 k.2) (g.charges.filter fun c => c.1 / 8 != dlpn) }
  updateCapacity (addFootprint (extentOf dlpn) ((new : Int) + (keep.map (·.2)).sum - old - held) s)

/-! ### What storage holds -/

/-- A DRAM line's plaintext, as a merge reads it. -/
def State.plainAt (s : State) (l : Nat) (want : Option Cipher) : Line := decrypt want (s.lineNow l)

/-- The decoded data of a stored block. -/
def State.oldBlock (s : State) (dlpn b : Nat) (loc : BitVec 44) (len : BitVec 20) : Decoded :=
  let n := blockLen len b
  decodeBlock n ((List.range n).flatMap fun i =>
    bytesOfLine (s.plainAt (locLine loc + lenSum len b + i) (s.cipherOf dlpn 1 b i)))

/-- A line as storage gives it, without its gathered bytes. -/
def State.storedLine (s : State) (dlpn n : Nat) : Line :=
  let (st, loc, len) := s.source dlpn
  match st with
  | .plain => s.plainAt (locLine loc + n) (s.cipherOf dlpn 0 n 0)
  | .packed =>
    match s.oldBlock dlpn (n / 16) loc len with
    | .data bytes => lineOfBytes (bytes.drop (64 * (n % 16)))
    | .malformed _ => 0
  | .pattern => patternLine (s.desc dlpn)
  | _ => 0

/-! ### Watches and counts (R534, R544) -/

/-- An eviction of a page is counted and sampled: L lines read and written, H host lines stored. -/
def countEviction (dlpn l h : Nat) (s : State) : State :=
  let s := countEvent (59 + s.pageQuad dlpn) 0x503 none s
  forEach ((List.range 16).filter fun k =>
      (Tab.get ({} : Watch) s.rec_.watch k).en ∧ (Tab.get ({} : Watch) s.rec_.watch k).extent.toNat = extentOf dlpn ∧ 0 < h)
    (fun k s => sampleTally (0x200 + k) (BitVec.ofNat 64 (64 * l / h)) 0 0 s) s

/-- A block is compressed under PACK_CTL of a quadrant: counted at one of its clusters (R158, R173). -/
def compressBlock (q : Nat) (bytes : List Byte) (s : State) : (Nat × List Byte) × State :=
  let k := s.quad q
  let r := encodeBlock k.m0 k.m1 k.m2 bytes
  let e := s.clusterFor q .compress
  (r, countEvent (43 + e) 0x301 none (s.modCluster e fun c =>
    { c with encoded := c.encoded + 1, slotsOut := c.slotsOut + BitVec.ofNat 40 r.1 }))

/-! ### Evictions of PACKED pages (R166, R269) -/

/-- What an eviction makes of one block. -/
structure BlockOut where
  len : Nat := 0
  lines : List DLine := []
  poison : Bool := false
  /-- It is newly marked, with this source of the poison list. -/
  mark : Option Nat := none
  /-- It is rewritten: its context is discarded and WGEN rises. -/
  wrote : Bool := false
  reads : Nat := 0
  stored : Nat := 0
  deriving DecidableEq, Repr

/-- Encrypt an encoded block's slots. -/
def State.seal (s : State) (dlpn b : Nat) (bytes : List Byte) (n : Nat) : List DLine :=
  (List.range n).map fun i => { data := lineOfBytes (bytes.drop (64 * i)), cipher := s.cipherOf dlpn 1 b i }

/-- The bytes of 16 lines, gathered ones over old ones. -/
def mergeBlock (l : List GEntry) (b : Nat) (old : List Byte) : List Byte :=
  (List.range 16).flatMap fun i =>
    let (x, m, _) := lineOf l (16 * b + i)
    bytesOfLine (mergeLine (lineOfBytes (old.drop (64 * i))) x m)

/-- The bytes that a block without storage reads as. -/
def bareBytes (d : Desc) (st : PageState) : List Byte :=
  if st = .pattern then (List.range 16).flatMap fun _ => bytesOfLine (patternLine d) else List.replicate 1024 0

/-- Block b of a page evicted as PACKED, from entries `l`; `ue` says that the read of its old data ends in UE. -/
def evictBlock (dlpn b : Nat) (l : List GEntry) (ue : Bool) (s : State) : BlockOut × State :=
  let d := s.desc dlpn
  let (st, loc, len) := s.source dlpn
  let n := if st = .packed then blockLen len b else 0
  let keep : BlockOut :=
    { len := n, poison := d.bpoison.getLsbD b, reads := n
      lines := (List.range n).map fun i => s.lineNow (locLine loc + lenSum len b + i) }
  let h := (l.filter fun g => g.lineNo / 16 = b).length
  let enc := fun (bytes : List Byte) (reads : Nat) (s : State) =>
    let ((k, out), s) := compressBlock (s.pageQuad dlpn) bytes s
    (({ len := k, lines := s.seal dlpn b out k, wrote := true, reads, stored := h } : BlockOut), s)
  if !touches l b then
    if st = .pattern then
      let r := enc (bareBytes d st) 0 s
      ({ r.1 with poison := d.bpoison.getLsbD b }, r.2)
    else (keep, s)
  else if l.any fun g => decide (g.lineNo / 16 = b) && (lineOf l g.lineNo).2.2 then
    ({ poison := true, mark := if d.bpoison.getLsbD b then none else some 1, wrote := true }, s)
  else if fullBlock l b then enc (mergeBlock l b []) 0 s
  else if d.bpoison.getLsbD b then (keep, s)
  else if st ≠ .packed then enc (mergeBlock l b (bareBytes d st)) 0 s
  else if ue then
    let read : LineRead := { out := .ue, corrected := false, data := 0, bad := 1, tagBad := false }
    ({ poison := true, mark := some 0, wrote := true, reads := n }, countUe (locLine loc + lenSum len b) 1 read 0 s)
  else
    let e := s.clusterFor (s.pageQuad dlpn) .decompress
    match s.oldBlock dlpn b loc len with
    | .data bytes => enc (mergeBlock l b bytes) n (if n = 0 then s else countDecoded e s)
    | .malformed cause => ({ poison := true, mark := some 0, wrote := true, reads := n }, malformedBlock e cause s)

/-- The swap of an eviction: the descriptor, its poison, and what the page's frozen entries held (R163, R166, R167, R192). -/
def swapEviction (dlpn loc : Nat) (outs : List BlockOut) (s : State) : State :=
  let d := s.desc dlpn
  let (st, oldLoc, oldLen) := s.source dlpn
  let old := pageLines st oldLen
  let lens := outs.map (·.len)
  let new := lens.sum
  let bp := BitVec.ofNat 4 ((List.range 4).foldl (fun n b => if (outs.getD b {}).poison then n + 2 ^ b else n) 0)
  let reads := (outs.map (·.reads)).sum
  let stored := (outs.map (·.stored)).sum
  let s := countEviction dlpn (reads + new) stored s
  let s := setDesc dlpn { d with
    state := if new = 0 then .zero else .packed, location := if new = 0 then 0 else BitVec.ofNat 44 loc, lock := false
    blockLen := if new = 0 then 0 else packLens lens, bpoison := bp
    wgen := d.wgen + BitVec.ofNat 12 (outs.filter (·.wrote)).length } s
  let s := if st = .packed ∧ 0 < old then freeAfter dlpn (locLine oldLoc) old s else s
  let s := dropEntries (fun g => decide (g.dlpn = dlpn) && g.frozen) s
  let s := settlePage dlpn old new s
  let s := forEach (List.range 4) (fun b s =>
    let o := outs.getD b {}
    let s := if o.wrote then dropContext dlpn b s else s
    if !o.poison then unlistPoison dlpn 1 b s
    else match o.mark with
      | some src => recordPoison dlpn 1 b txHostWrite (listPoison dlpn 1 b src s)
      | none => s) s
  poisonIfWhole dlpn 0 { s with waiters := s.waiters.filter fun w => match w with
    | .packed e _ => e != dlpn
    | .first e => e != dlpn
    | _ => true }

/-- Evict the frozen entries of a page as PACKED (R166). It waits when no run is free (R162). -/
def evictPacked (dlpn : Nat) (ue : BitVec 4) (s : State) : State :=
  let l := s.entriesOf dlpn true
  let (outs, t) := (List.range 4).foldl (fun (x : List BlockOut × State) b =>
    let r := evictBlock dlpn b l (ue.getLsbD b) x.2
    (x.1 ++ [r.1], r.2)) ([], s)
  let n := (outs.map (·.len)).sum
  if n = 0 then swapEviction dlpn 0 outs t
  else match takeStorage (s.pageChan dlpn) n false (.page dlpn) t with
    | none => waitFor (.packed dlpn n) (s.pageQuad dlpn) n s
    | some (loc, t) => swapEviction dlpn loc outs (putLines loc (outs.flatMap (·.lines)) t)

/-- A page's gathered lines become the eviction's: frozen, under LOCK (R192). -/
def startEviction (dlpn : Nat) (s : State) : State :=
  if (s.desc dlpn).lock ∨ (s.entriesOf dlpn false).isEmpty then s
  else
    let s := s.modGather fun g =>
      { g with entries := g.entries.map fun x => if x.dlpn = dlpn ∧ x.verified then { x with frozen := true } else x }
    setLock dlpn true s

/-- The page's evictions as PACKED may start: PACKED and not MOVING (R189). -/
def State.packedNow (s : State) (dlpn : Nat) : Bool := decide ((s.desc dlpn).state = .packed)

/-- The page takes its first storage as PACKED (R125). -/
def State.firstPacked (s : State) (dlpn : Nat) : Bool :=
  let x := s.extent (extentOf dlpn)
  let st := (s.desc dlpn).state
  decide (st = .unmapped ∨ st = .zero ∨ st = .pattern) && x.newPacked && !x.fixed

/-! ### PLAIN lines (R32, R126, R267, R269) -/

/-- The words of an old line that count as UE: all of them under a poisoned or a wrong tag. -/
def badWords (r : LineRead) : BitVec 8 := if r.out = .poison ∨ r.tagBad then 255 else r.bad

/-- A word that is UE is not covered by the written bytes. -/
def uncovered (r : LineRead) (m : BitVec 64) : Bool :=
  (List.range 8).any fun w => (badWords r).getLsbD w && m.extractLsb' (8 * w) 8 != 255#8

/-- What an eviction writes for a line of a PLAIN page, and the lines it read (R267). -/
def plainLine (dlpn n l : Nat) (e : List GEntry) (flips : List (BitVec 80)) (s : State) : DLine × Nat × State :=
  let (x, m, bad) := lineOf e n
  let want := s.cipherOf dlpn 0 n 0
  if m = BitVec.allOnes 64 then ({ data := x, cipher := want, poisoned := bad }, 0, s)
  else
    let read := s.readLine l flips
    let old := if read.data = (s.lineNow l).data then decrypt want (s.lineNow l) else Config.garble ((want.map fun c => c.salt).getD 0) read.data
    let s := if read.out = .ue then countUe l 1 read 0 s else if read.corrected then countCe (lineChan l) s else s
    ({ data := mergeLine old x m, cipher := want, poisoned := bad || uncovered read m }, 1, s)

/-- A line is written to DRAM by its channel, and its place in the poison list follows (R267, R271). -/
def writePlain (dlpn n l : Nat) (d : DLine) (source : Nat) (g : GEntry) (s : State) : State :=
  let s := enqueueGate { line := l, write := some d, group := if g.cls = 7 then 2 else 1, source := g.source, flow := g.flow
                         cls := g.cls, at_ := s.now } s
  if !d.poisoned then unlistPoison dlpn 0 n s
  else if s.poisonListed dlpn 0 n then s
  else recordPoison dlpn 0 n txHostWrite (listPoison dlpn 0 n source s)

/-- BPOISON of a PLAIN page's blocks that are gathered whole is cleared (R269). -/
def clearWhole (dlpn : Nat) (e : List GEntry) (s : State) : State :=
  forEach ((List.range 4).filter fun b => (s.desc dlpn).bpoison.getLsbD b && fullBlock e b) (fun b s =>
    unlistPoison dlpn 1 b (modDesc dlpn (fun d => { d with bpoison := d.bpoison &&& ~~~ BitVec.ofNat 4 (2 ^ b) }) s)) s

/-- The blocks of a MOVING page that an eviction wrote race with its mover (R189). -/
def raceBlocks (dlpn : Nat) (e : List GEntry) (s : State) : State :=
  match s.record dlpn with
  | none => s
  | some (q, _) =>
    let l := (List.range 4).filter (touches e)
    modRecord q dlpn (fun r =>
      { r with race := l.foldl (fun m b => m ||| BitVec.ofNat 4 (2 ^ b)) r.race, rgen := r.rgen + BitVec.ofNat 12 l.length }) s

/-- Evict the verified gathered lines of a page that lies in a PLAIN frame, all of them or those of an eviction (R32). -/
def evictPlain (dlpn : Nat) (frozen : Bool) (flips : List (Nat × List (BitVec 80))) (s : State) : State :=
  let e := s.entriesOf dlpn frozen
  if e.isEmpty then s
  else
    let (_, loc, _) := s.source dlpn
    let lines := (List.range 64).filter fun n => e.any fun g => g.lineNo = n
    let (reads, s) := lines.foldl (fun (t : Nat × State) n =>
      let l := locLine loc + n
      let g := (e.find? fun x => x.lineNo = n).getD { dlpn, lineNo := n, data := 0, mask := 0, at_ := 0, source := 0, flow := 0 }
      let (d, k, s) := plainLine dlpn n l e (((flips.find? fun f => f.1 = n).map (·.2)).getD []) t.2
      (t.1 + k, writePlain dlpn n l d (if (lineOf e n).2.2 then 1 else 0) g s)) (0, s)
    let s := countEviction dlpn (reads + lines.length) lines.length s
    let s := raceBlocks dlpn e (clearWhole dlpn e s)
    dropEntries (fun g => decide (g.dlpn = dlpn) && decide (g.frozen = frozen) && g.verified) s

/-- A page without storage takes its first frame: the written lines and the fill of the others go to DRAM together (R125, R126). -/
def firstPlain (dlpn : Nat) (s : State) : State :=
  let e := s.entriesOf dlpn false
  if e.isEmpty then s
  else match takeFrameOn (.page dlpn) s (s.placeOrder (s.extent (extentOf dlpn)).fillChannel.toNat false) with
    | none => waitFor (.first dlpn) (chanQuad (s.extent (extentOf dlpn)).fillChannel.toNat) 0 s
    | some (l, s) =>
      let d := s.desc dlpn
      let base := if d.state = .pattern then patternLine d else 0
      let line := fun (n : Nat) =>
        let (x, m, bad) := lineOf e n
        ({ data := mergeLine base x m, cipher := s.cipherOf dlpn 0 n 0
           poisoned := bad || (decide (d.state = .poisoned) && decide (m ≠ BitVec.allOnes 64)) } : DLine)
      let src := ((s.integ.poison.find? fun p => p.dlpn = dlpn ∧ p.unit = 2).map (·.source)).getD 0
      let s := putLines l ((List.range 64).map line) s
      let s := setDesc dlpn { d with state := .plain, location := BitVec.ofNat 44 l, blockLen := 0 } s
      let s := clearWhole dlpn e s
      let s := if d.state = .poisoned then unlistPage dlpn s else s
      let s := forEach ((List.range 64).filter fun n => (line n).poisoned) (fun n s =>
        if (lineOf e n).2.2 then recordPoison dlpn 0 n txHostWrite (listPoison dlpn 0 n 1 s) else listPoison dlpn 0 n src s) s
      let s := countEviction dlpn 64 ((List.range 64).filter fun n => e.any fun g => g.lineNo = n).length s
      let s := dropEntries (fun g => decide (g.dlpn = dlpn) && g.verified && !g.frozen) s
      let s := settlePage dlpn 0 64 s
      { s with waiters := s.waiters.filter (· != .first dlpn) }

/-! ### FAR pages (R440 to R442) -/

/-- Lines of a page join the indeterminate list; a full list falls back on its extent, and then on the whole home (R441). -/
def addIndet (dlpn device : Nat) (far : Bool) (mask : BitVec 64) (s : State) : State :=
  let same := fun (i : Indet) => decide (i.dlpn = dlpn) && decide (i.device = device) && decide (i.far = far)
  if s.const.indet.any same then
    s.modConst fun c => { c with indet := c.indet.map fun i => if same i then { i with mask := i.mask ||| mask } else i }
  else if s.const.indet.length < 65536 then
    s.modConst fun c => { c with indet := c.indet ++ [{ dlpn, device, far, mask }] }
  else if s.const.overflow.contains (extentOf dlpn, device + 4 * flag far) then s
  else if s.const.overflow.length < 256 then
    condStart 689 (s.modConst fun c => { c with overflow := c.overflow ++ [(extentOf dlpn, device + 4 * flag far)] })
  else condStart 690 (s.modConst fun c => { c with homeWide := c.homeWide ||| BitVec.ofNat 4 (2 ^ device) })

/-- The lines that entries hold, as a mask. -/
def lineMask (l : List GEntry) : BitVec 64 :=
  l.foldl (fun m g => m ||| BitVec.ofNat 64 (2 ^ g.lineNo)) 0

/-- The stored units that the eviction of a FAR page reads at its guest: the lines gathered in part; or the whole run. -/
def State.farReads (s : State) (dlpn : Nat) (e : List GEntry) : List Nat :=
  let (st, len) := Tab.get (1, 0) s.const.farForms dlpn
  if st = 2 then List.range (lenSum len 4)
  else (List.range 64).filter fun n => (e.any fun g => g.lineNo = n) && !fullLine e n

/-- Send four stored units at a time (R433). -/
def sendPuts (g index dlpn : Nat) (lines : List Line) (s : State) : State :=
  forEach (List.range ((lines.length + 3) / 4)) (fun i s =>
    openTxn g { op := 6, index, unit := 4 * i, lines := (lines.drop (4 * i)).take 4 } 0 0 0 dlpn [lines.length] s) s

/-- The eviction of a FAR page, its reads done: the new units go to the guest (R440). `got` are the units read, by number. -/
def farEvicted (dlpn : Nat) (got : List (Nat × Line)) (s : State) : State :=
  let d := s.desc dlpn
  let e := s.entriesOf dlpn true
  let g := locGuest d.location
  let index := locRemote d.location
  let (st, len) := Tab.get (1, 0) s.const.farForms dlpn
  let read := fun n => ((got.find? fun x => x.1 = n).map (·.2)).getD 0
  let bad := (List.range 64).filter fun n => (lineOf e n).2.2
  let s := forEach ((List.range 4).filter fun b => bad.any fun n => n / 16 = b) (fun b s =>
    recordPoison dlpn 1 b txHostWrite (markBlock dlpn b 1 s)) s
  let s := if st = 2 then
      let q := s.pageQuad dlpn
      let (outs, s) := (List.range 4).foldl (fun (t : List (Nat × List Line) × State) b =>
        let n := blockLen len b
        let old := (List.range n).map fun i => read (lenSum len b + i)
        if !touches e b then (t.1 ++ [(n, old)], t.2)
        else match (if fullBlock e b then Decoded.data [] else decodeBlock n (old.flatMap bytesOfLine)) with
          | .data bytes =>
            let ((k, out), s) := compressBlock q (mergeBlock e b bytes) t.2
            (t.1 ++ [(k, linesOfBytes k out)], s)
          | .malformed _ => (t.1 ++ [(0, [])], recordPoison dlpn 1 b txHostWrite (markBlock dlpn b 0 t.2))) ([], s)
      let lens := packLens (outs.map (·.1))
      let s := clearWhole dlpn e s
      if lenSum lens 4 = 0 then
        sendFarFree g index dlpn (setDesc dlpn { s.desc dlpn with state := .zero, location := 0, blockLen := 0, lock := false } s)
      else
        let s := sendPuts g index dlpn (outs.flatMap (·.2)) s
        let s := openTxn g { op := 7, index, words := [2, lens.toNat] } 0 0 0 dlpn [2, lens.toNat] s
        s.modConst fun c => { c with farForms := Tab.set (1, 0) c.farForms dlpn (2, lens) }
    else
      let s := clearWhole dlpn e s
      forEach ((List.range 64).filter fun n => e.any fun x => x.lineNo = n) (fun n s =>
        let (x, m, _) := lineOf e n
        openTxn g { op := 5, index, unit := n, lines := [mergeLine (read n) x m] } 0 0 0 dlpn [] s) s
  let s := countEviction dlpn got.length ((List.range 64).filter fun n => e.any fun g => g.lineNo = n).length s
  setLock dlpn false (settlePage dlpn 0 0 (dropEntries (fun x => decide (x.dlpn = dlpn) && x.frozen) s))

/-- Evict the gathered lines of a FAR page: what it needs of the old units is read first (R440). -/
def evictFar (dlpn : Nat) (s : State) : State :=
  let d := s.desc dlpn
  let g := locGuest d.location
  if (s.entriesOf dlpn false).isEmpty ∨ d.lock then s
  else if (s.route g).isNone then
    let s := addIndet dlpn g true (lineMask (s.entriesOf dlpn false)) s
    dropEntries (fun x => decide (x.dlpn = dlpn) && x.verified && !x.frozen) s
  else
    let s := startEviction dlpn s
    let units := s.farReads dlpn (s.entriesOf dlpn true)
    if units.isEmpty then farEvicted dlpn [] s
    else
      let id := s.path.nextReq
      let r : Req := { id, source := 21, ld := 0, tag := 0, write := true, stage := .far, dlpn, lines := units.map fun u => { line := u } }
      let s := s.modPath fun p => { p with reqs := p.reqs ++ [r], nextReq := id + 1 }
      forEach units (fun u s => openTxn g { op := 4, index := locRemote d.location, unit := u } 0 0 id dlpn [] s) s

/-! ### The commands of evictions -/

/-- Evict one page's gathered lines as its state requires (R32); a PACKED page's lines are frozen first. -/
def evictPage (dlpn : Nat) (flips : List (Nat × List (BitVec 80))) (s : State) : State :=
  let (st, _, _) := s.source dlpn
  let moving := decide ((s.desc dlpn).state = .moving)
  if st = .plain then evictPlain dlpn false flips s
  else if moving then s
  else if st = .packed then
    let s := startEviction dlpn s
    if (s.entriesOf dlpn true).isEmpty then s else evictPacked dlpn 0 s
  else if st = .far then evictFar dlpn s
  else if s.firstPacked dlpn then
    let s := startEviction dlpn s
    if (s.entriesOf dlpn true).isEmpty then s else evictPacked dlpn 0 s
  else firstPlain dlpn s

/-- Data moves only while the extent stands: ACTIVE or RELEASE_REQ. -/
def State.pageLive (s : State) (dlpn : Nat) : Bool :=
  decide ((s.extent (extentOf dlpn)).state = .active ∨ (s.extent (extentOf dlpn)).state = .releaseReq)

/-- Gathered lines of a page leave write gather (R32). A PACKED page is left to PACKED_EVICTION. -/
def execGatherEviction (dlpn : BitVec 34) (flips : List (Nat × List (BitVec 80))) (s : State) : Host.Outcome State Fault Refusal :=
  .next (if s.running && s.pageLive dlpn.toNat && !s.packedNow dlpn.toNat && !s.firstPacked dlpn.toNat then
      evictPage dlpn.toNat flips s
    else s)

/-- A PACKED page's frozen lines are merged, encoded, placed and swapped (R166); bit b of `ue` says that block b's old data reads as UE.
The first eviction of a page that takes storage as PACKED starts here. DEDUCED, log 102. -/
def execPackedEviction (dlpn : BitVec 34) (ue : BitVec 4) (s : State) : Host.Outcome State Fault Refusal :=
  .next (let d := dlpn.toNat
    if s.running && s.pageLive d && (s.packedNow d || s.firstPacked d) then
      let s := if s.firstPacked d then startEviction d s else s
      if (s.entriesOf d true).isEmpty then s else evictPacked d ue s
    else s)

/-- HOLD has passed since the oldest gathered line of a PACKED page arrived (R165). -/
def execHoldExpiry (dlpn : BitVec 34) (s : State) : Host.Outcome State Fault Refusal :=
  .next (let d := dlpn.toNat
    let hold := (s.quad (s.pageQuad d)).hold.toNat * 250
    if s.running && s.packedNow d && (s.entriesOf d false).any (fun g => decide (g.at_ + hold ≤ s.now)) then startEviction d s else s)

/-! ### Step 5 (R31, R90, R140, R144, R165, R190, R192, R300) -/

/-- Unfrozen entries of a quadrant's PACKED pages: what PRESSURE counts. -/
def State.pressureEntries (s : State) (q : Nat) : List GEntry :=
  s.gather.entries.filter fun g => !g.frozen && g.verified && s.packedNow g.dlpn && decide (s.pageQuad g.dlpn = q)

/-- PRESSURE is reached: pages are evicted, the oldest first, until the count falls below it. -/
def relievePressure (q : Nat) : Nat → State → State
  | 0, s => s
  | fuel + 1, s =>
    let l := s.pressureEntries q
    if l.length < (s.quad q).pressure.toNat * 256 then s
    else match l with
      | [] => s
      | g :: _ => relievePressure q fuel (startEviction g.dlpn s)

/-- The triggers of R165 that a write sets off. -/
def packedTriggers (dlpn : Nat) (s : State) : State :=
  if !s.packedNow dlpn then s
  else if fullPage (s.entriesOf dlpn false) then startEviction dlpn s
  else relievePressure (s.pageQuad dlpn) s.gather.entries.length s

/-- A write to the hint page of a tenant's image posts a hint event with the line's first 16 bytes as they stand (R300). -/
def hintEvent (r : Req) (s : State) : State :=
  forEach (s.ril.hints.filterMap fun h => match h.2 with
      | some (d, q) => if d = r.dlpn then some q else none
      | none => none)
    (fun q s =>
      let (x, m, _) := s.overlay r.dlpn r.lineNo
      let line := if m.extractLsb' 0 16 = 0xFFFF then x else mergeLine (s.storedLine r.dlpn r.lineNo) x m
      postDevice q (BitVec.ofNat 64 r.dlpn) (BitVec.ofNat 64 r.lineNo) (line.extractLsb' 0 64) (line.extractLsb' 64 64) s) s

/-- The newest entry of a line takes more bytes: unfrozen, and under the same MAC as the write. -/
def Req.joins (r : Req) (g : GEntry) : Bool := !g.frozen && decide (g.verified = r.verified) && (g.verified || decide (g.source = r.source))

/-- The data and the byte mask enter write gather. -/
def storeEntry (r : Req) (s : State) : State :=
  let mine := fun (g : GEntry) => decide (g.dlpn = r.dlpn) && decide (g.lineNo = r.lineNo)
  match (s.gather.entries.filter mine).getLast? with
  | some g =>
    if r.joins g then
      let new := { g with data := mergeLine g.data r.data r.mask, mask := g.mask ||| r.mask
                          poisoned := r.poisonIn || (g.poisoned && r.mask != BitVec.allOnes 64) }
      s.modGather fun t => { t with entries := t.entries.map fun x => if x = g then new else x }
    else addEntry s
  | none => addEntry s
where
  /-- A new entry. -/
  addEntry (s : State) : State :=
    let g : GEntry := { dlpn := r.dlpn, lineNo := r.lineNo, data := r.data, mask := r.mask, at_ := s.now, source := r.source, flow := r.flow
                        cls := r.cls, verified := r.verified, poisoned := r.poisonIn }
    claimEntry 1 r.source (s.modGather fun t => { t with entries := t.entries ++ [g] })

/-- The write needs a new entry of the pool. -/
def State.needsEntry (s : State) (r : Req) : Bool :=
  match (s.gather.entries.filter fun g => g.dlpn = r.dlpn ∧ g.lineNo = r.lineNo).getLast? with
  | some g => !r.joins g
  | none => true

/-- Step 5 of a write: it waits while STALL is set or for an entry; its charge is taken or refused; then it is stored and completes. -/
def serveWrite (r : Req) (s : State) : State :=
  let stall := ((s.record r.dlpn).map fun x => x.2.stall).getD false
  if stall then waitAt r .stalled s
  else if s.needsEntry r ∧ !s.mayClaim 1 r.source then waitAt r .gather s
  else
    let e := extentOf r.dlpn
    let b := r.lineNo / 16
    let due := s.chargeDue r.dlpn b
    match due with
    | some (k, n) =>
      if s.chargeOk e n then
        done (takeCharge e n (s.modGather fun g => { g with charges := Tab.set 0 g.charges k n }))
      else
        respond (r.stamp 5 s.now) 0 false
          (refuseWrite r.dlpn b (if r.source < 16 then some (r.ld, r.dpa / 2 ^ 28) else none) s)
    | none => done s
where
  /-- The write is stored. -/
  done (s : State) : State :=
    let s := if r.poisonIn ∧ r.source < 16 then fireEvent (srcPort r.source 4) s else s
    let s := packedTriggers r.dlpn (hintEvent r (storeEntry r s))
    respond (r.stamp 5 s.now) 0 false s

/-! ### Allocations that waited (R162) -/

/-- A waiting allocation finds a place and resumes; one that finds none waits on. -/
def execAllocationResume (n : BitVec 32) (s : State) : Host.Outcome State Fault Refusal :=
  .next (if s.running && !s.start.rebuilding then
      match s.waiters[n.toNat]? with
      | none => s
      | some (.packed d _) => if s.pageLive d then evictPacked d 0 s else s
      | some (.first d) => if s.pageLive d then firstPlain d s else s
      | some (.fill e) => fillNext e s
      | some (.evac c) =>
        { s.modChan c fun h => { h with evac := h.evac.map fun v => { v with waiting := false, placed := false } } with
          waiters := s.waiters.filter (· != .evac c) }
    else s)

end Sys2Proof.Machine
end

