-- ==== Sys2Proof/Machine/Path.lean ====
section
/-! DEFINITION. The read and write paths from the port on: IDE, trackers, the regulator, translation, coherence, forwarding and the
descriptor lookup; and what resumes a request that waits (R27 to R41, R84, R85, R90, R111, R118, R208, R376 to R382, R434 to R438). -/
namespace Sys2Proof.Machine

/-! ### Step 4 onward -/

/-- Step 5 and what follows. -/
def serve (r : Req) (s : State) : State := if r.write then serveWrite r s else serveRead r s

/-- A request that meets no valid mapping (R118). -/
def unmappedRequest (r : Req) (s : State) : State :=
  let s := s.modCap fun c => { c with noMapping := c.noMapping + 1 }
  let s := if r.source < 16 then fireEvent (srcPort r.source 5) s else s
  respond (if r.write then r else r.cometFlag 4) 0 (!r.write) s

/-- Step 4: the descriptor lookup; the salt and the key travel with the request from here (R130, R181, R185, R208). -/
def lookup (r : Req) (a b : BitVec 2) (s : State) : State :=
  let pool := 2 + r.quad
  if !s.pageLive r.dlpn then unmappedRequest r s
  else match lookupMeta r.dlpn a b s with
    | (.wait, s) =>
      if r.stage = .metaWay then s
      else if s.mayClaim pool r.requester then waitAt r .metaWay (claimEntry pool r.requester s)
      else waitAt r .metaEntry s
    | (.lost, s) => s
    | (found, s) =>
      let s := if r.stage = .metaWay then freeEntries pool r.requester 1 s else s
      let x := s.extent (extentOf r.dlpn)
      let st := (s.desc r.dlpn).state
      let r := if found = .miss then r.cometFlag 0 else r
      let r := (r.stamp 4 s.now).cometPage st.code (if st.bare ∨ st = .far then 255 else s.pageChan r.dlpn)
      let r := { r with stage := .gather, looked := true, salt := x.salt, keyLoad := s.keyLoad (s.desc r.dlpn).keySlot.toNat
                        cipherLd := x.ld.toNat, cipherAddr := s.canonical r.dlpn }
      let s := countAccess r.dlpn (putReq r s)
      serve r (if r.write then writeHeat r.dlpn s else s)

/-! ### Coherence of shared lines (R84, R85, R438) -/

/-- The key of a line in the snoop directory, and its set; how a line selects its set is the model's choice (log 24). -/
def lineKey (home dlpn n : Nat) : Nat := home * 2 ^ 40 + dlpn * 64 + n
def dirSet (key : Nat) : Nat := key % 524288

/-- The heads of a bitmap. -/
def headsOf (m : BitVec 16) : List Nat := (List.range 16).filter fun h => m.getLsbD h
def bit16 (h : Nat) : BitVec 16 := BitVec.ofNat 16 (2 ^ h)

def State.dirEntry (s : State) (key : Nat) : BitVec 16 := Tab.get 0 s.path.directory key
def setDir (key : Nat) (m : BitVec 16) (s : State) : State :=
  s.modPath fun p => { p with directory := Tab.set 0 p.directory key m }

/-- A snoop of the line is outstanding. -/
def State.snooping (s : State) (key : Nat) : Bool := s.path.snoops.any fun n => n.line = key

/-- The lines of a set of the directory. -/
def State.dirLines (s : State) (key : Nat) : List Nat :=
  s.path.directory.filterMap fun e => if dirSet e.1 = dirSet key then some e.1 else none

/-- Snoops of a line go to heads. -/
def snoopHeads (key : Nat) (m : BitVec 16) (inv : Bool) (s : State) : State :=
  sendSnoops ((headsOf m).map fun h => { head := h, line := key, inv }) s

/-- The directory acts on a request to a shared line: whether the request goes on, and the state (R84, R85). DEDUCED, log 65. -/
def coherence (r : Req) (s : State) : Bool × State :=
  let key := lineKey r.home r.dlpn r.lineNo
  let me := if r.source < 16 then bit16 r.source else 0
  let m := s.dirEntry key
  let takes := r.own || r.write
  if r.writeBack then (true, if r.own then setDir key (m &&& ~~~ me) s else s)
  else if s.snooping key then (false, s)
  else if m ≠ 0 then
    let others := m &&& ~~~ me
    if others = 0 ∨ r.snoopSent then (true, setDir key (if takes then me else m ||| me) s)
    else (false, snoopHeads key others takes (putReq { r with stage := .snoop, snoopSent := true } s))
  else if me = 0 then (true, s)
  else
    let l := s.dirLines key
    if l.length < 16 then (true, setDir key me s)
    else
      let can := l.filter fun k => !s.snooping k
      match can[(Config.freeWord s.free).toNat % can.length]? with
      | none => (false, waitAt r .snoop s)
      | some v => (false, snoopHeads v (s.dirEntry v) true (waitAt r .snoop s.takeFree))

/-- The other devices that map an extent homed here, beside the one that asks (R438). -/
def State.peersOf (s : State) (r : Req) : List Nat :=
  ((s.const.remoteMaps.filterMap fun m => if m.1 = extentOf r.dlpn ∧ !(16 ≤ r.source ∧ m.2 = r.ld) then some m.2 else none).eraseDups).filter
    fun d => (s.route d).isSome

/-- SNOOPs of a request are not answered yet. -/
def State.peersOpen (s : State) (r : Req) : Bool := s.const.opened.any fun o => decide (o.op = 9) && decide (o.req = r.id)

/-- A request to a line homed here, after translation: a shared line is snooped first (R84, R438). -/
def admitLine (r : Req) (a b : BitVec 2) (s : State) : State :=
  if !(s.extent (extentOf r.dlpn)).shared then lookup r a b s
  else
    let kind := if r.own || r.write then 1 else 0
    let s := if r.peersSent || r.writeBack then s
      else forEach (s.peersOf r) (fun d s =>
        openTxn d { op := 9, index := r.dlpn, unit := r.lineNo, words := [kind] } 0 0 r.id r.dlpn [] s) s
    let r := { r with peersSent := true }
    let (go, s) := coherence r (putReq r s)
    if !go then s
    else if s.peersOpen r then waitAt r .peers s
    else lookup r a b s

/-! ### Forwarding (R434, R435) -/

/-- A request goes to the home of its line. A write takes a journal entry first. -/
def forward (r : Req) (s : State) : State :=
  if r.write ∧ 32768 ≤ s.const.journal.length then waitAt r .journal s
  else
    let r := (r.stamp 9 s.now).cometFlag 3
    let s := putReq { r with stage := .forwarded } s
    let tag := if r.write then s.const.nextSeq else s.const.nextTag
    let x : Txn := if r.write then
        { op := 2, tag, index := r.dlpn, unit := r.lineNo, lines := [r.data]
          words := if r.mask = BitVec.allOnes 64 then [] else [r.mask.toNat] }
      else { op := 1, tag, index := r.dlpn, unit := r.lineNo }
    let ready := (s.route r.home).isSome && !(s.member r.home).reconciling
    let o : Open := { tag, op := x.op, target := r.home, req := r.id, dlpn := r.dlpn, unit := r.lineNo, at_ := r.at_, txn := x
                      colour := r.colour, cls := r.cls, sent := ready }
    let j : Journal := { seq := tag, home := r.home, req := r.id, dlpn := r.dlpn, lineNo := r.lineNo, data := r.data, mask := r.mask }
    let s := s.modConst fun c =>
      { c with nextSeq := if r.write then c.nextSeq + 1 else c.nextSeq, nextTag := if r.write then c.nextTag else c.nextTag + 1
               journal := if r.write then c.journal ++ [j] else c.journal, opened := c.opened ++ [o] }
    if ready then sendRequest r.home x r.colour r.cls s else s

/-- A request to an extent of another home: this device's own directory acts first (R438). -/
def forwardShared (r : Req) (s : State) : State :=
  let (go, s) := coherence r s
  if go then forward r s else s

/-! ### Step 3: translation (R8, R28, R114 to R118) -/

/-- The entry comes into the head's translation cache (R28). -/
def cacheEntry (h ld block : Nat) (s : State) : State :=
  s.modPath fun p =>
    let l := (ld, block) :: (Tab.get [] p.cache h).filter (· != (ld, block))
    { p with cache := Tab.set [] p.cache h (l.take (512 * s.headPorts h)) }

def translate (r : Req) (a b : BitVec 2) (s : State) : State :=
  let r := r.stamp 2 s.now
  match s.dpaFind r.ld (r.dpa / 2 ^ 28) with
  | none => unmappedRequest r s
  | some m =>
    let s := cacheEntry r.source r.ld (r.dpa / 2 ^ 28) s
    let r := { r.stamp 3 s.now with home := m.home.toNat, dlpn := m.extent.toNat * 65536 + r.dpa / 4096 % 65536, lineNo := r.dpa / 64 % 64 }
    let s := putReq r s
    if m.home ≠ s.ident.devId then forwardShared r s
    else if s.pageLive r.dlpn then admitLine r a b s
    else unmappedRequest r s

/-! ### Step 2: the regulator (R377 to R381) -/

/-- A request leaves the shaper, or waits there for credit behind those of its LD. -/
def shape (r : Req) (a b : BitVec 2) (s : State) : State :=
  if s.credit r.ld < 0 ∨ s.path.reqs.any (fun x => x.ld = r.ld ∧ x.source < 16 ∧ x.stage = .shaper ∧ x.id ≠ r.id) then waitAt r .shaper s
  else translate r a b (spendCredit r.ld s)

/-- A request takes its tracker: it is counted, may be tagged, and is coloured (R36, R380, R547). -/
def takeTracker (r : Req) (a b : BitVec 2) (s : State) : State :=
  let shared := decide (s.poolReserve 0 r.source ≤ s.heldOf 0 r.source)
  let blk := 24 + r.source
  let s := countEvent blk (if r.write then 0x102 else 0x101) (some r.ld) (claimEntry 0 r.source s)
  let s := if shared then countEvent blk 0x105 none s else s
  let (r, s) := tagComet r s
  let (colour, s) := meterFlow r.ld 0 s
  let r := { r with tracked := true, stage := .gather, colour, cls := if colour = 2 then 7 else s.param r.ld 0, hint := s.param r.ld 6 }
  let s := if colour = 2 then countEvent blk 0x103 (some r.ld) (s.modQos fun q => { q with red := satAdd q.red 1 }) else s
  shape r a b (putReq r s)

/-- A request in the hold buffer takes a tracker when its LD is under its limit and an entry is there for its head (R40, R378). -/
def tryTracker (r : Req) (a b : BitVec 2) (s : State) : State :=
  let older := s.path.reqs.filter fun x => x.source = r.source ∧ x.id < r.id
  if s.param r.ld 1 ≤ s.outstanding r.ld ∨ older.any (fun x => x.ld = r.ld ∧ x.stage = .limit) then waitAt r .limit s
  else if older.any (fun x => x.stage = .tracker) ∨ !s.mayClaim 0 r.source then waitAt r .tracker s
  else takeTracker r a b s

/-! ### Step 1: arrival (R31, R40, R90) -/

/-- A head's link brings requests in. DEDUCED, log 55. -/
def State.accepts (s : State) (p : Nat) : Bool :=
  s.running && s.isHead p && (s.port p).up && s.start.memActive.getLsbD p && decide ((s.port p).ideState ≠ 3) &&
    decide (s.holdCount p < s.holdSize p)

/-- A request arrives: in containment mode it waits for its MAC; in skid mode it goes on unverified (R90). -/
def arrive (r : Req) (a b : BitVec 2) (s : State) : State :=
  let mode := (s.port r.source).ideState
  let r := { r with id := s.path.nextReq, at_ := s.now, verified := decide (mode ≠ 2), stage := if mode = 1 then .mac else .limit }
  let s := s.modPath fun p => { p with reqs := p.reqs ++ [r], nextReq := p.nextReq + 1 }
  if mode = 1 then s else tryTracker r a b s

/-- A host read arrives (R29). `metaA` and `metaB` are what reads of the two copies of its descriptor line meet: 0 a good line, 1 an
uncorrectable error, 2 a validation failure. -/
def execHostRead (p ld : Fin 16) (dpa : BitVec 52) (tag : BitVec 16) (own : Bool) (metaA metaB : BitVec 2) (s : State) :
    Host.Outcome State Fault Refusal :=
  .next (if s.accepts p && s.ldExists (16 * p + ld) then
      arrive { id := 0, source := p, ld := 16 * p + ld, tag, write := false, own, dpa := dpa.toNat, stage := .limit } metaA metaB s
    else s)

/-- A host write arrives (R31): `kind` 0 a write, 1 a write-back of an owned line, 2 one whose line the host releases (R84). -/
def execHostWrite (p ld : Fin 16) (dpa : BitVec 52) (tag : BitVec 16) (data : BitVec 512) (mask : BitVec 64) (poison : Bool)
    (kind : Fin 3) (metaA metaB : BitVec 2) (s : State) : Host.Outcome State Fault Refusal :=
  .next (if s.accepts p && s.ldExists (16 * p + ld) then
      arrive { id := 0, source := p, ld := 16 * p + ld, tag, write := true, own := decide (kind = 2), writeBack := decide (kind ≠ 0)
               dpa := dpa.toNat, data, mask, poisonIn := poison, stage := .limit } metaA metaB s
    else s)

/-! ### Forwarded requests at their home (R118, R387, R434) -/

/-- A forwarded request takes a forward-buffer entry and is served from step 4 on. -/
def startForwarded (r : Req) (s : State) : State :=
  let u := r.source - 16
  let s := claimEntry 0 r.source s
  let s := s.modUli u fun l => { l with freed := Tab.set 0 l.freed r.linkVc (Tab.get 0 l.freed r.linkVc + r.units) }
  let (colour, s) := meterFlow (256 + u) r.colour s
  let r := { r with tracked := true, stage := .gather, colour, cls := if colour = 2 then 7 else s.linkClass u, home := s.self, units := 0 }
  let s := putReq r s
  if s.pageLive r.dlpn then admitLine r 0 0 s else unmappedRequest r s

/-- A forwarded request arrives over link u; with no entry free it keeps its link units (R436). -/
def arriveForwarded (r : Req) (s : State) : State :=
  let r := { r with id := s.path.nextReq, at_ := s.now, stage := .tracker }
  let s := s.modPath fun p => { p with reqs := p.reqs ++ [r], nextReq := p.nextReq + 1 }
  if s.mayClaim 0 r.source then startForwarded r s else s

/-! ### Resuming what waits -/

/-- A request that waits takes its step again. -/
def advance (r : Req) (s : State) : State :=
  match r.stage with
  | .limit | .tracker => if r.source < 16 then tryTracker r 0 0 s else startForwarded r s
  | .snoop | .peers => if r.home = s.self then admitLine r 0 0 s else forwardShared r s
  | .metaWay | .metaEntry => lookup r 0 0 s
  | .gather | .scratch | .stalled => serve r s
  | .journal => forward r s
  | _ => s

/-- The requests at some stages take their steps again, in order of arrival. -/
def resume (stages : List Stage) (s : State) : State :=
  forEach ((s.path.reqs.filter fun r => stages.contains r.stage).map (·.id)) (fun id s =>
    match s.req id with
    | some r => if stages.contains r.stage then advance r s else s
    | none => s) s

/-- The stages that wait for a pool. -/
def poolStages (pool : Nat) : List Stage :=
  if pool = 0 then [.limit, .tracker] else if pool = 1 then [.gather] else if pool < 6 then [.metaEntry] else [.scratch]

/-- The first request of a requester that waits for a pool and may have an entry. -/
def State.poolWaiter (s : State) (pool x : Nat) : Option Req :=
  if !s.mayClaim pool x then none
  else s.path.reqs.find? fun r => decide (r.requester = x) && (poolStages pool).contains r.stage &&
    (decide (pool ≠ 0) || decide (16 ≤ x) || decide (s.outstanding r.ld < s.param r.ld 1))

/-- Requesters in rotating order after the one served last (R38). DEDUCED, log 101. -/
def rotation (last : Nat) : List Nat := (List.range 21).map fun i => (last + 1 + i) % 21

/-- A freed pool entry is handed to the next waiting requester in rotating order (R38). -/
def execPoolEntryRelease (pool : Fin 10) (x : Fin 21) (s : State) : Host.Outcome State Fault Refusal :=
  .next (if s.running && decide (0 < Tab.get 0 s.path.freed (pool.val * 32 + x)) then
      let s := releaseEntry pool x s
      match (rotation (Tab.get 20 s.path.turn pool)).findSome? fun y => (s.poolWaiter pool y).map fun r => (y, r) with
      | some (y, r) => advance r (s.modPath fun p => { p with turn := Tab.set 20 p.turn pool y })
      | none => s
    else s)

/-- An LD's shaper has credit: its oldest waiting request is released (R381). -/
def execShaperRelease (ld : Fin 256) (s : State) : Host.Outcome State Fault Refusal :=
  .next (if s.running && decide (0 ≤ s.credit ld) then
      match s.path.reqs.find? fun r => decide (r.source < 16 ∧ r.ld = ld.val ∧ r.stage = .shaper) with
      | some r => translate r 0 0 (spendCredit ld s)
      | none => s
    else s)

/-- The first 8 ns tick after a commit (R376). Requests that a raised limit admits go on (R378). -/
def execQosSetApply (s : State) : Host.Outcome State Fault Refusal :=
  .next (if s.running && !s.qos.pending.isEmpty && decide (s.qos.pendingAt / 8 < s.now / 8) then
      resume [.limit] ((applySet s.qos.pending s).modQos fun q => { q with pending := [] })
    else s)

/-- A descriptor copy write goes out: copy B follows A, and then the change is acknowledged (R195). A line that is clean again can be
replaced, so a miss that waits for a way goes on (R130). -/
def execDescriptorCopyWritten (k : BitVec 32) (s : State) : Host.Outcome State Fault Refusal :=
  .next (if s.running then resume [.metaWay] (finishErase (k.toNat / 16384) (stepDescriptor k.toNat s)) else s)

/-! ### Snoop responses (R84, R85, R438) -/

/-- A SNOOP of another device is answered once this device's own snoops of the line are, and the writes of its heads to it are
acknowledged by the home (R438). -/
def answerSnoops (s : State) : State :=
  let busy := fun (key : Nat) => s.snooping key ||
    s.const.journal.any fun j => decide (lineKey j.home j.dlpn j.lineNo = key)
  let done := s.const.snooped.filter fun x => !busy x.2.2
  let s := s.modConst fun c => { c with snooped := c.snooped.filter fun x => busy x.2.2 }
  forEach done (fun x s => sendResponse x.1 9 x.2.1 0 [] [] s) s

/-- What follows when snoops have been answered: releases complete, SNOOPs are answered, requests go on. -/
def snoopsAnswered (s : State) : State := resume [.snoop] (answerSnoops (finishReleases s))

/-- A snoop to a head is over. -/
def endSnoop (n : Snoop) (s : State) : State :=
  let s := s.modPath fun p => { p with snoops := p.snoops.filter (· != n) }
  if n.inv then setDir n.line (s.dirEntry n.line &&& ~~~ bit16 n.head) s else s

/-- A host's BIRsp completes a snoop (R85). -/
def execBirsp (h : Fin 16) (home : BitVec 2) (dlpn : BitVec 34) (line : BitVec 6) (s : State) : Host.Outcome State Fault Refusal :=
  .next (if s.running then
      match s.path.snoops.find? fun n => decide (n.head = h.val) && decide (n.line = lineKey home.toNat dlpn.toNat line.toNat) with
      | some n => snoopsAnswered (endSnoop n s)
      | none => s
    else s)

/-! ### IDE and port reset (R90, R111) -/

/-- Requests of a head. -/
def State.headReqs (s : State) (h : Nat) : List Req := s.path.reqs.filter fun r => r.source = h

/-- The MAC that covers a head's requests has passed: writes are verified, requests enter, completions go out (R90). DEDUCED, log 56. -/
def verifyWrites (h : Nat) (s : State) : State :=
  let pages := ((s.gather.entries.filter fun g => g.source = h ∧ !g.verified).map (·.dlpn)).eraseDups
  let s := s.modGather fun t => { t with entries := t.entries.map fun g => if g.source = h then { g with verified := true } else g }
  let s := s.modPath fun p => { p with reqs := p.reqs.map fun r => if r.source = h then { r with verified := true } else r }
  let s := forEach ((s.headReqs h).filter fun r => r.stage = .verify) (fun r s =>
    finishReq r ((r.answer.map (·.1)).getD 0) ((r.answer.map (·.2)).getD false) s) s
  let s := forEach ((s.headReqs h).filter fun r => r.stage = .mac) (fun r s => tryTracker r 0 0 s) s
  resume [.gather] (forEach pages packedTriggers s)

/-- A request ends without an answer. -/
def dropRequest (r : Req) (s : State) : State :=
  let s := match r.scratch with
    | some p => freeEntries p r.requester 1 s
    | none => s
  let s := if r.stage = .metaWay then freeEntries (2 + r.quad) r.requester 1 s else s
  let s := endComet { r with dead := true } false (dropReq r.id s)
  if r.tracked then freeEntries 0 r.requester 1 s else s

/-- Charges of pages that have no line left in write gather are given back. -/
def returnCharges (s : State) : State :=
  let idle := s.gather.charges.filter fun c => !s.gathered (c.1 / 8)
  let s := s.modGather fun g => { g with charges := g.charges.filter fun c => g.entries.any fun e => e.dlpn = c.1 / 8 }
  forEach idle (fun c s => giveBack (extentOf (c.1 / 8)) c.2 s) s

/-- A MAC check fails: unverified writes are discarded and their completions withheld (R90). -/
def discardUnverified (h : Nat) (s : State) : State :=
  let s := dropEntries (fun g => decide (g.source = h) && !g.verified) s
  let s := forEach ((s.headReqs h).filter fun r => !r.verified ∨ r.stage = .mac) dropRequest s
  resume [.gather] (returnCharges s)

/-- A write that is not in write gather yet. -/
def Req.notGathered (r : Req) : Bool := r.write && match r.stage with
  | .verify | .forwarded => false
  | _ => true

/-- Port reset: reads go on and their data is discarded when it returns; writes not yet in write gather are discarded, as is what
holds no tracker; forwarded requests complete and their results are discarded; the head leaves the directory (R111). -/
def portResetRequests (h : Nat) (s : State) : State :=
  let s := forEach ((s.headReqs h).filter fun r => r.notGathered ∨ !r.tracked) dropRequest s
  let s := s.modPath fun p => { p with reqs := p.reqs.map fun r => if r.source = h then { r with dead := true } else r }
  let s := forEach ((s.headReqs h).filter fun r => r.stage = .verify) (fun r s => finishReq r 0 false s) s
  let s := s.modGather fun t => { t with entries := t.entries.map fun g => if g.source = h then { g with verified := true } else g }
  let s := s.modPath fun p =>
    { p with directory := p.directory.filterMap fun e =>
               let m := e.2 &&& ~~~ bit16 h
               if m = 0 then none else some (e.1, m)
             snoops := p.snoops.filter fun n => n.head != h
             cache := Tab.erase p.cache h }
  snoopsAnswered s

/-- Some extent that a region of the LD maps is shared: the region's shareable flag (R82, R83). -/
def State.regionShared (s : State) (ld : Nat) (g : Region) : Bool :=
  s.cap.dpaMap.any fun x => x.2.any fun m =>
    decide (m.ld.toNat = ld) && decide (g.base ≤ m.block.toNat) && decide (m.block.toNat < g.base + g.len) &&
      (m.shared || (decide (m.home = s.ident.devId) && (s.extent m.extent.toNat).shared))

end Sys2Proof.Machine
end

