-- ==== Sys2Proof/Machine/Dcd.lean ====
section
/-! DEFINITION. The commands of logical devices and of dynamic capacity (R77 to R83, R97, R107, R115, R133 to R135, R395, R431). -/
namespace Sys2Proof.Machine

/-! ### Extents as an LD sees them -/

/-- Put an entry before the first of a higher DPA block. -/
def insertByBlock (m : DpaEntry) : List DpaEntry → List DpaEntry
  | [] => [m]
  | x :: t => if m.block < x.block then m :: x :: t else x :: insertByBlock m t

/-- The DPA map's entries of an LD, in ascending DPA. -/
def State.ldEntries (s : State) (ld : Nat) : List DpaEntry :=
  (s.cap.dpaMap.flatMap fun x => x.2.filter fun m => m.ld.toNat = ld).foldl (fun l m => insertByBlock m l) []

/-- The entry maps an extent of this device. -/
def State.isLocal (s : State) (m : DpaEntry) : Bool := decide (m.home = s.ident.devId)

/-- The LD holds the mapping: its host has accepted it and has not released it. -/
def State.accepted (s : State) (m : DpaEntry) : Bool :=
  !s.isOffer m.ld.toNat m.block.toNat && (!s.isLocal m ||
    ((decide ((s.extent m.extent.toNat).state = .active) || decide ((s.extent m.extent.toNat).state = .releaseReq)) &&
      !(s.extent m.extent.toNat).releasing))

/-- The mapping has been offered to the LD's host, which has not answered. -/
def State.openOffer (s : State) (m : DpaEntry) : Bool :=
  s.isOffer m.ld.toNat m.block.toNat || (s.isLocal m && decide ((s.extent m.extent.toNat).state = .offered) &&
    (s.extent m.extent.toNat).announced)

/-- The tag of an entry's extent. -/
def State.entryTag (s : State) (m : DpaEntry) : BitVec 64 := if s.isLocal m then (s.extent m.extent.toNat).tag else 0

/-- An extent in a reply: DPA, length and tag. -/
def State.extentWords (s : State) (m : DpaEntry) : List Nat := [m.block.toNat * 2 ^ 28, 2 ^ 28, (s.entryTag m).toNat, 0, 0]

/-- A listed extent is one whole block of a region (R80). -/
def State.wholeBlock (s : State) (ld : Nat) (x : BitVec 64 × BitVec 64) : Bool :=
  decide (x.1.toNat % 2 ^ 28 = 0) && decide (x.2.toNat = 2 ^ 28) && s.inRegion ld (x.1.toNat / 2 ^ 28)

/-- The entries a list names, or none where an extent is not a whole block of a region with a fitting entry (R80). -/
def State.named (s : State) (ld : Nat) (fits : DpaEntry → Bool) : List (BitVec 64 × BitVec 64) → Option (List DpaEntry)
  | [] => some []
  | x :: t =>
    match (if s.wholeBlock ld x then s.dpaFind ld (x.1.toNat / 2 ^ 28) else none), s.named ld fits t with
    | some m, some l => if fits m then some (if l.contains m then l else m :: l) else none
    | _, _ => none

/-! ### Regions and lists (R77, R96, R97, R115) -/

/-- The regions of an LD from a first index, as configuration words. -/
def State.regionWords (s : State) (ld first count : Nat) : List Nat :=
  ((List.range 8).filter fun i => decide (first ≤ i) && decide (i < first + count)).flatMap fun i =>
    let r := Tab.get ({} : Region) (s.ld ld).regions i
    [r.base * 2 ^ 28, r.len * 2 ^ 28, r.len * 2 ^ 28, 2 ^ 28, 0]

def execGetDynamicCapacityConfiguration (cci : Cci) (len : BitVec 32) (ld : Fin 256) (first count : BitVec 8) (s : State) :
    Host.Outcome State Fault Refusal :=
  .next (command cci 0x4800 len.toNat (.fixed 2) (decide (8 < first.toNat + count.toNat)) false (.self ld) .firmware (fun s =>
    if s.ldExists ld then answer cci .success (wordsLe (8 :: s.regionWords ld first.toNat count.toNat)) s
    else answer cci .invalidInput [] s) s)

/-- Extents in a reply that lists them from a first index: how many there are, how many follow, and their words. -/
def State.extentList (s : State) (l : List DpaEntry) (first count : Nat) : List Byte :=
  let got := (l.drop first).take count
  wordsLe ([got.length, l.length] ++ got.flatMap s.extentWords)

def execGetDynamicCapacityExtentList (cci : Cci) (len : BitVec 32) (ld : Fin 256) (first count : BitVec 32) (s : State) :
    Host.Outcome State Fault Refusal :=
  .next (command cci 0x4801 len.toNat (.fixed 8)
    (decide (((s.ldEntries ld).filter s.accepted).length < first.toNat) || decide (payloadBuffer cci < 16 + 40 * count.toNat)) false
    (.self ld) .firmware
    (fun s =>
      if s.ldExists ld then answer cci .success (s.extentList ((s.ldEntries ld).filter s.accepted) first.toNat count.toNat) s
      else answer cci .invalidInput [] s) s)

/-! ### Add Dynamic Capacity Response (R80, R133) -/

/-- An offered extent of this device is accepted, or the offer of a further mapping is. -/
def acceptOffer (m : DpaEntry) (s : State) : State :=
  if s.isOffer m.ld.toNat m.block.toNat then
    s.modCap fun c => { c with offers := c.offers.filter fun o => o.1 != m.ld.toNat || o.2.1 != m.block.toNat }
  else s.modExtent m.extent.toNat fun x => { x with state := .active }

/-- The extents still OFFERED of a grant. -/
def State.grantOffered (s : State) (first : Nat) : List Nat :=
  ((List.range (s.extent first).grantCount).map (first + ·)).filter fun e =>
    decide ((s.extent e).state = .offered) && decide ((s.extent e).grantFirst = first)

/-- The grants whose extents a list names, by their first extent. -/
def State.answeredGrants (s : State) (l : List DpaEntry) : List Nat :=
  ((l.filter fun m => !s.isOffer m.ld.toNat m.block.toNat).map fun m => (s.extent m.extent.toNat).grantFirst).eraseDups

/-- The host accepts what it names of the grants it answers; the rest of them returns to FREE (R80). -/
def acceptList (l : List DpaEntry) (s : State) : State :=
  let grants := s.answeredGrants l
  let taken := l.filterMap fun m => if s.isOffer m.ld.toNat m.block.toNat then none else some m.extent.toNat
  let out := (grants.flatMap s.grantOffered).filter fun e => !taken.contains e
  forEach out withdraw (forEach l acceptOffer s)

/-- The oldest grant or further mapping of an LD that is still offered: its order, and what it is. -/
def State.oldestOffer (s : State) (ld : Nat) : Option (Nat × (Nat ⊕ Nat)) :=
  let grants : List (Nat × (Nat ⊕ Nat)) := s.cap.extents.filterMap fun x =>
    if x.2.state = .offered ∧ x.2.ld.toNat = ld then some (x.2.grantOrder, Sum.inl x.2.grantFirst) else none
  let maps : List (Nat × (Nat ⊕ Nat)) := s.cap.offers.filterMap fun o => if o.1 = ld then some (o.2.2, Sum.inr o.2.1) else none
  (grants ++ maps).foldl (fun (m : Option (Nat × (Nat ⊕ Nat))) x => match m with
    | some y => if x.1 < y.1 then some x else m
    | none => some x) none

/-- An empty list declines the oldest grant that is still OFFERED (R80). -/
def declineOldest (ld : Nat) (s : State) : State :=
  match s.oldestOffer ld with
  | none => s
  | some (_, .inl first) => forEach (s.grantOffered first) withdraw s
  | some (_, .inr block) => releaseMapping ld block s

def execAddDynamicCapacityResponse (cci : Cci) (len : BitVec 32) (ld : Fin 256) (list : List (BitVec 64 × BitVec 64)) (s : State) :
    Host.Outcome State Fault Refusal :=
  .next (command cci 0x4802 len.toNat (.fixed (8 + 24 * list.length)) (decide (4096 < list.length)) false (.self ld) .firmware
    (fun s =>
      if !s.ldExists ld then answer cci .invalidInput [] s
      else match s.named ld s.openOffer list with
        | none => answer cci .invalidExtentList [] s
        | some [] => answer cci .success [] (declineOldest ld s)
        | some l => answer cci .success [] (acceptList l s)) s)

/-! ### Release (R79, R80, R133) -/

/-- Release Dynamic Capacity: every mapping named is released (R133). DEDUCED, log 57. -/
def execReleaseDynamicCapacity (cci : Cci) (len : BitVec 32) (ld : Fin 256) (list : List (BitVec 64 × BitVec 64)) (s : State) :
    Host.Outcome State Fault Refusal :=
  .next (command cci 0x4803 len.toNat (.fixed (8 + 24 * list.length)) (decide (4096 < list.length)) false (.self ld) .firmware
    (fun s =>
      if !s.ldExists ld then answer cci .invalidInput [] s
      else match s.named ld s.accepted list with
        | none => answer cci .invalidExtentList [] s
        | some l => answer cci .success [] (forEach l (fun m => releaseMapping m.ld.toNat m.block.toNat) s)) s)

/-- The fabric manager asks for one mapping back: an offer is withdrawn; a forced removal releases it at once with its record; and
without force its host is asked (R79, R133). -/
def fmRelease (forced : Bool) (m : DpaEntry) (s : State) : State :=
  let ld := m.ld.toNat
  let block := m.block.toNat
  let ask := fun (n : Nat) => placeRecord ld .dynamicCapacity (.dynamicCapacity n (BitVec.ofNat 64 (block * 2 ^ 28)) (s.entryTag m))
  if s.isOffer ld block then releaseMapping ld block s
  else if s.isLocal m && decide ((s.extent m.extent.toNat).state = .offered) then withdraw m.extent.toNat s
  else if forced then releaseMapping ld block (ask 2 s)
  else if s.isLocal m then requestRelease m.extent.toNat s
  else ask 1 s

def execInitiateDynamicCapacityRelease (cci : Cci) (len : BitVec 32) (ld : Fin 256) (forced : Bool)
    (list : List (BitVec 64 × BitVec 64)) (s : State) : Host.Outcome State Fault Refusal :=
  .next (command cci 0x5605 len.toNat (.atLeast 8) (decide (4096 < list.length)) false .mctp .firmware (fun s =>
    if !s.ldExists ld then answer cci .invalidInput [] s
    else match s.named ld (fun _ => true) list with
      | none => answer cci .invalidExtentList [] s
      | some l => answer cci .success [] (forEach l (fmRelease forced) s)) s)

/-! ### Initiate Dynamic Capacity Add (R78, R83, R134, R211, R431) -/

/-- The slot may give its key to a grant of the LD (R211). -/
def State.keyGives (s : State) (slot ld : Nat) : Bool :=
  let k := s.keySlot slot
  decide (slot ≠ 0) && (decide (k.state = .loaded) || decide (k.state = .bound)) &&
    (match k.owner with
     | none => true
     | some o => decide (o = ld))

/-- What a grant says in the payload of an ADMIT. -/
def Grant.words (g : Grant) : List Nat := [g.ld, g.block, g.count, (g.map.map (· + 1)).getD 0]

/-- Ask admission: at the polestar it decides; at a companion the polestar confirms first (R431), and an admission that is
frozen refuses at once (R442). The outcome is none while the confirmation is awaited. -/
def askAdmission (g : Grant) (thread : Option (Nat × Nat)) (cci : Option Cci) (s : State) : Option (Nat × Nat) × State :=
  if s.ident.role then
    let r := admitGrant g s
    (some (r.1, r.2.1), r.2.2)
  else if s.frozen then (some (1, 0), s)
  else
    let tag := s.const.nextTag
    (none, openTxn 0 { op := 11, words := g.words } 0 0 0 0 g.words
      (s.modConst fun c => { c with admits := c.admits ++ [{ tag, thread, cci, grant := g }] }))

/-- How the outcome of admission ends the fabric manager's command: a refusal is Resources Exhausted (R78). -/
def grantAnswer (cci : Cci) (code : Nat) (s : State) : State :=
  answer cci (if code = 0 then .success else .resourcesExhausted) [] s

/-- The fabric manager's command to add capacity runs admission; refused, it fails with Resources Exhausted and no record is placed
(R78). The firmware program chooses the policy of the grant: loaned, FIXED, packed, the fill channel and the key slot. -/
def execInitiateDynamicCapacityAdd (cci : Cci) (len : BitVec 32) (ld : Fin 256) (block : BitVec 24) (count : BitVec 32)
    (loaned fixed packed : Bool) (fill : Option (Fin 24)) (map : Option (BitVec 18)) (slot : BitVec 12) (tag : BitVec 64)
    (s : State) : Host.Outcome State Fault Refusal :=
  .next (command cci 0x5604 len.toNat (.atLeast 8) (decide (4096 < count.toNat)) (decide (count = 0)) .mctp .firmware (fun s =>
    if !s.ldExists ld || !s.start.phase9Done || (map.isNone && !s.keyGives slot.toNat ld) then answer cci .invalidInput [] s
    else
      let g : Grant := { ld := ld.val, block := block.toNat, count := count.toNat, loaned, fixed, packed, slot := slot.toNat, tag
                         fill := fill.map (·.val), map := map.map (·.toNat) }
      match askAdmission g none (some cci) s with
      | (some (code, _), s) => grantAnswer cci code s
      | (none, s) => s) s)

/-! ### What the fabric manager reads (R97, R395) -/

def execGetLdInfo (cci : Cci) (len : BitVec 32) (s : State) : Host.Outcome State Fault Refusal :=
  .next (command cci 0x5400 len.toNat .empty false false .mctp .firmware (fun s =>
    answer cci .success (wordsLe [64 * s.capP, s.allLds.length, 0]) s) s)

/-- LDs from the start-th assigned one, at most `limit`. -/
def State.ldRange (s : State) (start limit : Nat) : List Nat := (s.allLds.drop start).take limit

/-- The allocation of an LD is the sum of its extents (R97), in 256 MiB. DEDUCED, log 58. -/
def execGetLdAllocations (cci : Cci) (len : BitVec 32) (start limit : BitVec 8) (s : State) : Host.Outcome State Fault Refusal :=
  .next (command cci 0x5401 len.toNat (.fixed 2) (decide (s.allLds.length < start.toNat)) false .mctp .firmware (fun s =>
    let l := s.ldRange start.toNat limit.toNat
    answer cci .success (wordsLe ([s.allLds.length, 2 ^ 28, start.toNat, l.length] ++
      l.flatMap fun i => [i, (s.ldEntries i).length])) s) s)

/-- Egress Moderate and Severe Percentage; the other fields are 0 (R395). -/
def execGetQosControl (cci : Cci) (len : BitVec 32) (s : State) : Host.Outcome State Fault Refusal :=
  .next (command cci 0x5403 len.toNat .empty false false .mctp .firmware (fun s =>
    answer cci .success (leBytes 1 0 ++ leBytes 1 s.qos.devloadMod.toNat ++ leBytes 1 s.qos.devloadSev.toNat ++ leBytes 4 0) s) s)

/-- Backpressure Average Percentage: the occupancy of the head's hold buffer over the last 1 ms (R395). -/
def State.holdPercent (s : State) (h : Nat) : Nat :=
  100 * Tab.get 0 s.qos.holdLast h / (max 1 (s.holdSize h) * msNs)

def execGetQosStatus (cci : Cci) (len : BitVec 32) (head : Fin 16) (s : State) : Host.Outcome State Fault Refusal :=
  .next (command cci 0x5405 len.toNat .empty false false .mctp .firmware (fun s =>
    answer cci .success (leBytes 1 (s.holdPercent head)) s) s)

/-- A bandwidth of an LD in 1/256 of U_h, rounded down and saturating at 255 (R395). -/
def State.bwShare (s : State) (param ld : Nat) : Nat :=
  let u := s.usableHead (ld / 16)
  if u = 0 then (if s.param ld param = 0 then 0 else 255) else min 255 (256 * s.param ld param / u)

/-- What Get QoS Allocated BW and Get QoS BW Limit return. -/
def State.bwReply (s : State) (param start count : Nat) : List Byte :=
  let l := s.ldRange start count
  leBytes 1 l.length ++ leBytes 1 start ++ l.flatMap fun i => leBytes 1 (s.bwShare param i)

def execGetQosAllocatedBw (cci : Cci) (len : BitVec 32) (start count : BitVec 8) (s : State) : Host.Outcome State Fault Refusal :=
  .next (command cci 0x5406 len.toNat (.fixed 2) (decide (s.allLds.length < start.toNat + count.toNat)) (decide (count = 0)) .mctp
    .firmware (fun s => answer cci .success (s.bwReply 4 start.toNat count.toNat) s) s)

def execGetQosBwLimit (cci : Cci) (len : BitVec 32) (start count : BitVec 8) (s : State) : Host.Outcome State Fault Refusal :=
  .next (command cci 0x5408 len.toNat (.fixed 2) (decide (s.allLds.length < start.toNat + count.toNat)) (decide (count = 0)) .mctp
    .firmware (fun s => answer cci .success (s.bwReply 5 start.toNat count.toNat) s) s)

def execGetMultiHeadedInfo (cci : Cci) (len : BitVec 32) (start limit : BitVec 8) (s : State) : Host.Outcome State Fault Refusal :=
  .next (command cci 0x5500 len.toNat (.fixed 2) (decide (s.allLds.length < start.toNat)) false .mctp .firmware (fun s =>
    let l := s.ldRange start.toNat limit.toNat
    answer cci .success (wordsLe ([s.allLds.length, s.heads.length, start.toNat, l.length] ++ l.map (· / 16))) s) s)

/-- Heads from the start-th: number, member ports, and width and rate as trained. -/
def execGetHeadInfo (cci : Cci) (len : BitVec 32) (start count : BitVec 8) (s : State) : Host.Outcome State Fault Refusal :=
  .next (command cci 0x5501 len.toNat (.fixed 2) (decide (s.heads.length < start.toNat + count.toNat)) false .mctp .firmware (fun s =>
    let l := (s.heads.drop start.toNat).take count.toNat
    answer cci .success (wordsLe (l.length :: l.flatMap fun h =>
      [h, s.headPorts h, (s.port h).width.toNat, (s.port h).rate.toNat, flag (s.port h).up])) s) s)

def execGetDcdInfo (cci : Cci) (len : BitVec 32) (s : State) : Host.Outcome State Fault Refusal :=
  .next (command cci 0x5600 len.toNat .empty false false .mctp .firmware (fun s =>
    answer cci .success (wordsLe [s.allLds.length, 8, 64 * s.capP, 2 ^ 28]) s) s)

def execGetHostDcRegionConfiguration (cci : Cci) (len : BitVec 32) (ld : Fin 256) (start count : BitVec 8) (s : State) :
    Host.Outcome State Fault Refusal :=
  .next (command cci 0x5601 len.toNat (.fixed 4) (decide (8 < start.toNat + count.toNat)) false .mctp .firmware (fun s =>
    if s.ldExists ld then answer cci .success (wordsLe (8 :: s.regionWords ld start.toNat count.toNat)) s
    else answer cci .invalidInput [] s) s)

/-- A region of an LD may be configured so: whole 256 MiB blocks, below DPA bit 52, and at most 48 TiB of DPA in all (R77, R115). -/
def State.regionOk (s : State) (ld region : Nat) (base length : BitVec 64) : Bool :=
  let others := ((s.ld ld).regions.filter fun r => r.1 != region).map fun r => (r.2.base, r.2.base + r.2.len)
  let all := (base.toNat / 2 ^ 28, (base.toNat + length.toNat) / 2 ^ 28) :: others.filter fun r => r.1 != r.2
  decide (region < 8) && decide (base.toNat % 2 ^ 28 = 0) && decide (length.toNat % 2 ^ 28 = 0) &&
    decide (base.toNat + length.toNat ≤ 2 ^ 52) &&
    decide ((all.map (·.2)).foldl max 0 - (all.map (·.1)).foldl min (2 ^ 24) ≤ 196608)

def execSetDcRegionConfiguration (cci : Cci) (len : BitVec 32) (ld : Fin 256) (region : BitVec 8) (base length : BitVec 64)
    (s : State) : Host.Outcome State Fault Refusal :=
  .next (command cci 0x5602 len.toNat (.atLeast 8) false false .mctp .firmware (fun s =>
    if s.ldExists ld && s.regionOk ld region.toNat base length then
      answer cci .success [] (s.modLd ld fun d =>
        { d with regions := Tab.set {} d.regions region.toNat { base := base.toNat / 2 ^ 28, len := length.toNat / 2 ^ 28 } })
    else answer cci .invalidInput [] s) s)

def execGetDcRegionExtentLists (cci : Cci) (len : BitVec 32) (ld : Fin 256) (first count : BitVec 32) (s : State) :
    Host.Outcome State Fault Refusal :=
  .next (command cci 0x5603 len.toNat (.fixed 12)
    (decide ((s.ldEntries ld).length < first.toNat) || decide (payloadBuffer cci < 16 + 40 * count.toNat)) false .mctp .firmware
    (fun s =>
      if s.ldExists ld then answer cci .success (s.extentList (s.ldEntries ld) first.toNat count.toNat) s
      else answer cci .invalidInput [] s) s)

/-! ### Constellation Status (R107) -/

def MemberState.code : MemberState → Nat
  | .absent => 0
  | .joined => 1
  | .lost => 2
  | .discord => 3

/-- Extents homed on a member, as this device knows them. -/
def State.homed (s : State) (i : Nat) : Nat :=
  if i = s.self then (s.cap.extents.filter fun e => decide (e.2.state ≠ .free)).length
  else (s.const.register.filter fun e => decide (e.1 / 2 ^ 18 = i)).length

/-- Far pages of this device on a member. -/
def State.farOn (s : State) (i : Nat) : Nat :=
  (s.mdata.desc.filter fun d => decide (d.2.state = .far) && decide (locGuest d.2.location = i)).length

/-- A member record of Constellation Status. -/
def State.memberBytes (s : State) (i : Nat) : List Byte :=
  let m := s.member i
  let me := decide (i = s.self)
  let st := if me then 1 else m.state.code
  let polestar := if me then s.ident.role else m.polestar
  leBytes 1 st ++ leBytes 1 (flag polestar + 2 * flag me + 4 * flag m.relay.isSome) ++ leBytes 1 ((s.directPort i).getD 0xFF) ++ [0] ++
    leBytes 4 (s.homed i) ++ leBytes 4 (s.const.journal.filter fun j => j.home = i).length ++ leBytes 4 m.orphans.toNat ++
    leBytes 8 (s.farOn i) ++ leBytes 8 0

/-- The timebase and a record for each device ID (R107). -/
def execConstellationStatus (cci : Cci) (len : BitVec 32) (s : State) : Host.Outcome State Fault Refusal :=
  .next (command cci 0xC040 len.toNat .empty false false .mgmt .firmware (fun s =>
    answer cci .success (leBytes 8 s.time.tb.toNat ++ (List.range 4).flatMap s.memberBytes) s) s)

/-- Get FW Info: the firmware image version of the active bank as slot 1 (R96). -/
def execGetFwInfo (cci : Cci) (len : BitVec 32) (s : State) : Host.Outcome State Fault Refusal :=
  .next (command cci 0x0200 len.toNat .empty false false .any .firmware (fun s =>
    answer cci .success (wordsLe [1, 1, s.img.fwVersion.toNat]) s) s)

/-! ### Get Rilia Status (R101) -/

/-- The state of a staged firmware or operator image, coded as in R99: the newest load. -/
def State.stagedState (s : State) : Nat :=
  match (s.img.loads.filter fun l => l.target < 2).getLast? with
  | some l => l.state
  | none => 0xFF

/-- Threads in service: bit 4c + t. -/
def State.threadsIn (s : State) : Nat :=
  ((List.range 32).map fun t => if (s.thread t).state = .out then 0 else 2 ^ t).sum

def execGetRiliaStatus (cci : Cci) (len : BitVec 32) (s : State) : Host.Outcome State Fault Refusal :=
  .next (command cci 0xC003 len.toNat .empty false false .any .engine (fun s =>
    let r := s.ril
    answer cci .success (leBytes 1 (if s.start.lantern || r.bank0.words.isEmpty && r.bank1.words.isEmpty then 0xFF else flag r.active) ++
      leBytes 1 s.stagedState ++ leBytes 2 0 ++ leBytes 4 s.threadsIn ++ leBytes 8 s.img.fwVersion.toNat ++
      leBytes 8 (if s.img.opRuns then s.img.opVersion.toNat else 0) ++ leBytes 8 s.img.lastSwap.toNat ++
      (List.range 10).flatMap (fun i => leBytes 2 (Tab.get 0 r.trapCounts (i + 1)).toNat) ++ leBytes 1 r.lastTrap.toNat ++
      leBytes 1 r.lastTrapThread.toNat ++ leBytes 2 0 ++ leBytes 4 r.lastTrapPc.toNat ++ leBytes 4 0) s) s)

end Sys2Proof.Machine
end

