-- ==== Sys2Proof/Machine/Mover.lean ====
section
/-! DEFINITION. The movers: claims, copies, checks, swaps and frees of page operations, evacuation of channels, and the halving of the
access sketch (R174 to R201, R218, R220, R440). -/
namespace Sys2Proof.Machine

/-! ### Claims (R143, R174 to R177, R179, R188, R192 to R194, R331) -/

/-- The operation a MOVE to a channel is: the source state decides between a move and a recall (R331). -/
def resolveOp (op : MoverOp) (st : PageState) : MoverOp :=
  match op with
  | .move c => if st = .far then .recall c else .move c
  | .recall c => if st = .far then .recall c else .move c
  | o => o

/-- The page holds storage on this device. -/
def PageState.stored (st : PageState) : Bool := decide (st = .plain) || decide (st = .packed)

/-- What refuses an operation on a page in its present state (R174 to R176, R193, R331). -/
def State.opCode (s : State) (op : MoverOp) (d : Desc) : Option Nat :=
  match op with
  | .move c => if !d.state.stored then some 1 else if !s.activeChan c then some 7 else none
  | .recall c =>
    if d.state ≠ .far then some 1 else if !s.activeChan c then some 7
    else if (s.route (locGuest d.location)).isNone then some 5 else none
  | .pack => if !d.state.stored then some 1 else if d.fixed then some 2 else none
  | .demote g =>
    if !d.state.stored then some 1 else if d.fixed then some 2
    else if g = s.self ∨ (s.member g).state ≠ .joined then some 7 else none
  | .unpack => if d.state ≠ .packed then some 1 else none
  | .heatUnpack => if d.state ≠ .packed then some 1 else none
  | .evacPage => if !d.state.stored then some 1 else none
  | .zero => if d.state = .moving then some 1 else if d.fixed then some 2 else none

/-- The form and the block lengths of a page's stored data, here or at its guest: 1 PLAIN, 2 PACKED. -/
def State.storedForm (s : State) (dlpn : Nat) (d : Desc) : Nat × BitVec 20 :=
  if d.state = .far then Tab.get (1, 0) s.const.farForms dlpn else (d.state.code, d.blockLen)

/-- Lines of a stored form. -/
def formLines (f : Nat × BitVec 20) : Nat := if f.1 = 2 then lenSum f.2 4 else 64

/-- The lines an operation is charged at its claim (R179). -/
def opCharge (op : MoverOp) (f : Nat × BitVec 20) : Nat :=
  match op with
  | .move _ => formLines f
  | .recall _ => formLines f
  | .pack => 64
  | .unpack => 64
  | .heatUnpack => 64
  | _ => 0

/-- How many of n charged lines count in M: all of a loaned extent's, and of an assured one's what goes beyond 256 MiB (R179). -/
def State.inM (s : State) (e n : Nat) : Nat :=
  if (s.extent e).loaned then n else min n (s.footprint e + n - extentLines)

/-- A mover charge that counts `k` lines in M is granted (R142, R143, R145). -/
def State.moverOk (s : State) (k : Nat) : Bool :=
  decide (k = 0) || (!s.cap.shortfall && decide (0 ≤ s.capU - k))

/-- Order of an evacuation's channels: ring distance, then used footprint, then number (R198). -/
def insertKey (k : Nat × Nat) : List (Nat × Nat) → List (Nat × Nat)
  | [] => [k]
  | x :: t => if k.1 < x.1 then k :: x :: t else x :: insertKey k t

/-- The ACTIVE channels that an evacuation of channel c places pages on, in order (R198). -/
def State.evacOrder (s : State) (c : Nat) : List Nat :=
  (((List.range 24).filter fun d => d != c && s.activeChan d).foldl (fun l d =>
    insertKey (ringDistance (chanQuad d) (chanQuad c) * 2 ^ 40 + s.framesUsed d, d) l) []).map (·.2)

/-- The channels an operation's destination may lie on, in order; none are given where nothing is allocated at the claim. -/
def State.opChannels (s : State) (op : MoverOp) (own : Nat) : List Nat :=
  match op with
  | .move c => s.placeOrder c true
  | .recall c => s.placeOrder c true
  | .unpack => s.placeOrder own false
  | .heatUnpack => s.placeOrder own false
  | .pack => s.placeOrder own false
  | .evacPage => s.evacOrder own
  | _ => []

/-- The STATE that an operation's destination gives the page, before the content is known. -/
def opState (op : MoverOp) (f : Nat × BitVec 20) : Nat :=
  match op with
  | .pack => 2
  | .unpack => 1
  | .heatUnpack => 1
  | .demote _ => 3
  | _ => f.1

/-- Storage on the first of these channels that has it: a frame for n = 0, else a run. DEDUCED, log 67. -/
def takeOn (n : Nat) (o : Owner) (l : List Nat) (s : State) : Option (Nat × State) :=
  if n = 0 then takeFrameOn o s l else takeRunOn n o s l

/-- The claim itself: the charge, STATE and LOCK, and the record (R187, R188). -/
def claimPage (q : Nat) (r : MoverRec) (s : State) : State :=
  let d := s.desc r.dlpn
  let f := s.storedForm r.dlpn d
  let n := opCharge r.op f
  let m := s.inM (extentOf r.dlpn) n
  let s := updateCapacity (s.modCap fun c => { c with m := c.m + m })
  let s := setDesc r.dlpn { d with state := .moving, lock := true } s
  modRecord q r.dlpn (fun _ => { r with
    phase := .copy, srcState := d.state.code, srcLoc := d.location, srcLen := d.blockLen, rgen := d.wgen, passGen := d.wgen
    charge := n, inM := m, limit := (s.quad q).maxRestarts.toNat
    dstState := opState r.op f, dstLen := if r.placed ∧ opState r.op f = 2 then f.2 else r.dstLen }) s

/-- A recall reads every stored unit at its guest (R440). -/
def startRecall (dlpn : Nat) (s : State) : State :=
  let d := s.desc dlpn
  let units := List.range (formLines (Tab.get (1, 0) s.const.farForms dlpn))
  let id := s.path.nextReq
  let r : Req := { id, source := 22, ld := 0, tag := 0, write := false, stage := .far, dlpn, lines := units.map fun u => { line := u } }
  let s := s.modPath fun p => { p with reqs := p.reqs ++ [r], nextReq := id + 1 }
  forEach units (fun u s => openTxn (locGuest d.location) { op := 4, index := locRemote d.location, unit := u } 0 0 id dlpn [] s) s

/-- ZERO takes effect in one descriptor change: gathered writes go with the page's storage (R175). DEDUCED, log 66. -/
def zeroPage (dlpn : Nat) (s : State) : State :=
  let d := s.desc dlpn
  let n := pageLines d.state d.blockLen
  let s := dropEntries (fun g => g.dlpn = dlpn) s
  let s := settlePage dlpn n 0 s
  let s := setDesc dlpn { d with state := .zero, location := 0, blockLen := 0 } s
  let s := s.modInteg fun i => { i with poison := i.poison.filter fun p => p.dlpn != dlpn || p.unit = 1 }
  let s := s.modPath fun p => { p with contexts := p.contexts.filter fun c => c.1 != dlpn }
  match d.state with
  | .plain => freeAfter dlpn (locLine d.location) 0 s
  | .packed => freeAfter dlpn (locLine d.location) n s
  | .far => sendFarFree (locGuest d.location) (locRemote d.location) dlpn s
  | _ => s

/-- The record of an operation that ends at its claim is given up, and the operation completes. -/
def endClaim (q : Nat) (r : MoverRec) (code : Nat) (s : State) : State :=
  let s := if r.op = .heatUnpack ∧ code = 1 ∧ (s.desc r.dlpn).state = .moving then
      s.modQuad q fun d => { d with suppressed := satAdd d.suppressed 1 }
    else s
  endRecord q r code s

/-- The evacuation that a page's claim works for is over or cancelled: the claim is given up and nothing is reported (R200). -/
def State.evacGone (s : State) (r : MoverRec) : Bool :=
  r.op = .evacPage && !(((s.chan (lineChan (locLine r.srcLoc))).evac.map fun v => !v.cancelled).getD false)

/-- An evacuated page was placed: its pass has placed something. -/
def evacPlaced (c : Nat) (s : State) : State :=
  s.modChan c fun h => { h with evac := h.evac.map fun v => { v with placed := true } }

/-- Remove a record that is still in CLAIM. -/
def dropClaim (q dlpn : Nat) (s : State) : State :=
  s.modQuad q fun d => { d with records := d.records.filter fun x => x.dlpn != dlpn || x.phase ≠ .claim }

/-- The destination is allocated and the page claimed, or the operation ends with code 4 (R176, R188). -/
def claimLocal (q : Nat) (r : MoverRec) (s : State) : State :=
  let d := s.desc r.dlpn
  let f := s.storedForm r.dlpn d
  let own := lineChan (locLine d.location)
  match r.op with
  | .pack => claimPage q r s
  | op =>
    let n := if opState op f = 2 then lenSum f.2 4 else 0
    match takeOn n (.dest r.dlpn) (s.opChannels op own) s with
    | none => if op = .evacPage then dropClaim q r.dlpn s else endClaim q r 4 s
    | some (l, s) =>
      let s := if op = .evacPage then evacPlaced own s else s
      let s := claimPage q { r with placed := true, dstSlots := n, dstLoc := BitVec.ofNat 44 l } s
      match op with
      | .recall _ => startRecall r.dlpn s
      | _ => s

/-- A MOVE to a guest asks it for storage, and claims once it has it (R440). -/
def claimGuest (q g : Nat) (r : MoverRec) (s : State) : State :=
  let d := s.desc r.dlpn
  let f := s.storedForm r.dlpn d
  if r.placed then
    if r.dstLen = f.2 ∧ r.dstState = f.1 then claimPage q r s
    else modRecord q r.dlpn (fun x => { x with placed := false }) (sendFarFree g (locRemote r.dstLoc) r.dlpn s)
  else if s.const.opened.any fun o => o.op = 3 ∧ o.dlpn = r.dlpn then s
  else openTxn g { op := 3, index := r.dlpn, words := [f.1, f.2.toNat, formLines f] } 0 0 0 r.dlpn [f.1, f.2.toNat] s

/-- Carry the claim of a record on: it waits for LOCK and for gathered lines, which are evicted (R188). -/
def tryClaim (q : Nat) (flips : List (Nat × List (BitVec 80))) (r : MoverRec) (s : State) : State :=
  let d := s.desc r.dlpn
  let op := resolveOp r.op d.state
  let r := { r with op }
  if s.evacGone r then
    let c := lineChan (locLine r.srcLoc)
    finishCancel c (dropClaim q r.dlpn s)
  else if !s.pageLive r.dlpn then endClaim q r 6 s
  else match s.opCode op d with
    | some 1 => if op = .evacPage then dropClaim q r.dlpn s else endClaim q r 1 s
    | some code => endClaim q r code s
    | none =>
      if d.lock then s
      else if op = .zero then finishOp q op r.ticket 0 (zeroPage r.dlpn (dropClaim q r.dlpn s))
      else if s.gathered r.dlpn then evictPage r.dlpn flips s
      else if op ≠ .evacPage ∧ !s.moverOk (s.inM (extentOf r.dlpn) (opCharge op (s.storedForm r.dlpn d))) then
        endClaim q r 3 (s.modCap fun c => { c with poolExhausted := true })
      else match op with
        | .demote g => claimGuest q g r s
        | _ => claimLocal q r s

/-! ### Which operation is served (R194, R198) -/

/-- Storage on a channel that an evacuation moves: line address, slots and owner. -/
def State.evacUnits (s : State) (c : Nat) : List (Nat × Nat × Owner) :=
  let a := s.alloc c
  (a.frames.filterMap fun f => f.2.map fun o => (frameLine c f.1, 0, o)) ++
    a.slabs.flatMap fun b => b.runs.filterMap fun r => r.2.map fun o => (frameLine c b.base + b.cls * r.1, b.cls, o)

/-- An owner that can be moved now. -/
def State.movable (s : State) : Owner → Bool
  | .page d => decide ((s.desc d).state ≠ .moving) && !(List.range 4).any fun q => (s.quad q).records.any fun r => r.dlpn = d ∧ r.phase = .claim
  | .guest _ => true
  | _ => false

/-- The next storage to move, in ascending order from the cursor. -/
def State.evacNext (s : State) (c cursor : Nat) : Option (Nat × Nat × Owner) :=
  ((s.evacUnits c).filter fun u => decide (cursor ≤ u.1 % 2 ^ 33) && s.movable u.2.2).foldl (fun (m : Option (Nat × Nat × Owner)) u =>
    match m with
    | some x => if u.1 < x.1 then some u else m
    | none => some u) none

/-- A channel of the quadrant whose evacuation has a page to claim: its structures have moved, and it neither waits nor is cancelled. -/
def State.evacChan (s : State) (q : Nat) : Option Nat :=
  (List.range 24).find? fun c => decide (chanQuad c = q) && decide ((s.chan c).state = .evacuating) &&
    ((s.chan c).evac.map fun v => !v.cancelled && !v.waiting).getD false && (s.alloc c).megas.isEmpty &&
      (s.evacUnits c).any fun u => s.movable u.2.2

/-- Storage held for another home moves as a page does, and the home's descriptor does not change (R198). -/
def moveGuest (c l n index : Nat) (s : State) : State :=
  match takeOn n (.guest index) (s.evacOrder c) s with
  | none => s
  | some (new, s) =>
    let k := if n = 0 then 64 else n
    let s := putLines new ((List.range k).map fun i => s.lineNow (l + i)) s
    let s := s.modConst fun t =>
      let r := Tab.get {} t.remotes index
      { t with remotes := Tab.set {} t.remotes index { r with location := new } }
    evacPlaced c (freeStorage l n s)

/-- A new record in CLAIM. -/
def newRecord (dlpn : Nat) (op : MoverOp) (ticket : Option (BitVec 16)) (loc : BitVec 44) : MoverRec :=
  { dlpn, op, srcState := 0, phase := .claim, srcLoc := loc, ticket }

/-- Start an operation: its record in CLAIM, and what it can do at once. -/
def startOp (q : Nat) (flips : List (Nat × List (BitVec 80))) (dlpn : Nat) (op : MoverOp) (ticket : Option (BitVec 16)) (s : State) : State :=
  let r := newRecord dlpn op ticket (s.desc dlpn).location
  tryClaim q flips r (s.modQuad q fun d => { d with records := d.records ++ [r] })

/-- Claim the next page of an evacuation; at the end of a pass that placed nothing it waits (R198). -/
def claimEvac (q : Nat) (flips : List (Nat × List (BitVec 80))) (c : Nat) (s : State) : State :=
  let v := ((s.chan c).evac).getD {}
  match s.evacNext c v.cursor with
  | some (l, n, o) =>
    let s := s.modChan c fun h => { h with evac := h.evac.map fun v => { v with cursor := l % 2 ^ 33 + 1 } }
    (match o with
      | .page d => startOp q flips d .evacPage none s
      | .guest i => moveGuest c l n i s
      | _ => s)
  | none =>
    let s := s.modChan c fun h => { h with evac := h.evac.map fun v => { v with cursor := 0, placed := false, waiting := !v.placed } }
    if v.placed then s else waitFor (.evac c) q (((s.evacUnits c).head?.map (·.2.1)).getD 0) s

/-- A page that has a record in CLAIM: another operation on it waits its turn. -/
def State.claiming (s : State) (dlpn : Nat) : Bool :=
  (List.range 4).any fun q => (s.quad q).records.any fun r => r.dlpn = dlpn ∧ r.phase = .claim

/-- The oldest Rilia operation of the quadrant is taken. -/
def claimJob (q : Nat) (flips : List (Nat × List (BitVec 80))) (s : State) : State :=
  match (s.quad q).jobs with
  | j :: t => if s.claiming j.dlpn then s else startOp q flips j.dlpn j.op j.ticket (s.modQuad q fun d => { d with jobs := t })
  | [] => s

/-- A new operation of the quadrant is taken in the order of R194: promotions; then EVAC pages and Rilia operations, EVAC taking
EVAC_SHARE of every four claims when both wait. -/
def claimNext (q : Nat) (flips : List (Nat × List (BitVec 80))) (s : State) : State :=
  let d := s.quad q
  if d.maxInflight.toNat ≤ d.records.length then s
  else match d.heatJobs with
    | j :: t =>
      if s.claiming j.dlpn then s else startOp q flips j.dlpn .heatUnpack none (s.modQuad q fun d => { d with heatJobs := t })
    | [] =>
      match s.evacChan q with
      | some c =>
        if d.jobs.isEmpty then claimEvac q flips c s
        else
          let s := s.modQuad q fun d => { d with shareTurn := (d.shareTurn + 1) % 4 }
          if d.shareTurn < d.evacShare.toNat then claimEvac q flips c s else claimJob q flips s
      | none => claimJob q flips s

/-- A record in CLAIM that can go on now: its page is not locked. -/
def State.readyClaim (s : State) (q : Nat) : Option MoverRec :=
  (s.quad q).records.find? fun r => decide (r.phase = .claim) && !(s.desc r.dlpn).lock &&
    !s.const.opened.any fun o => o.op = 3 ∧ o.dlpn = r.dlpn

/-- A quadrant's mover claims: what waits in CLAIM goes on first, and then the next operation is taken (R188, R194). -/
def execMoverClaim (q : Fin 4) (flips : List (Nat × List (BitVec 80))) (s : State) : Host.Outcome State Fault Refusal :=
  .next (if s.running && s.start.phase9Done then
      match s.readyClaim q with
      | some r => tryClaim q flips r s
      | none => claimNext q flips s
    else s)

/-! ### Copy (R159, R178, R180, R220) -/

/-- The stored units of a page being recalled, as its guest returned them. -/
def State.recalled (s : State) (dlpn : Nat) : List (Line × LineOut) :=
  match s.path.reqs.find? fun r => r.source = 22 ∧ r.dlpn = dlpn with
  | some r => r.lines.map fun l => l.data.getD (0, .poison)
  | none => []

/-- The form and lengths of the data that an operation copies. -/
def State.srcForm (s : State) (r : MoverRec) : Nat × BitVec 20 :=
  if r.srcState = 3 then Tab.get (1, 0) s.const.farForms r.dlpn else (r.srcState, r.srcLen)

/-- Line n of a page copied from a PLAIN form: its data, and whether it is poisoned. -/
def State.copyLine (s : State) (r : MoverRec) (n : Nat) : Line × Bool :=
  let bp := (s.desc r.dlpn).bpoison.getLsbD (n / 16)
  if r.srcState = 3 then
    let x := (s.recalled r.dlpn).getD n (0, .poison)
    (x.1, bp || x.2 != .clean)
  else
    let x := s.lineNow (locLine r.srcLoc + n)
    (decrypt (s.cipherOf r.dlpn 0 n 0) x, bp || x.poisoned)

/-- The slots of block b of a page copied from a PACKED form, as plaintext of their slots, and whether one of them is poisoned. -/
def State.copySlots (s : State) (r : MoverRec) (b : Nat) : List Line × Bool :=
  let f := s.srcForm r
  let n := blockLen f.2 b
  let bp := (s.desc r.dlpn).bpoison.getLsbD b
  if r.srcState = 3 then
    let l := ((s.recalled r.dlpn).drop (lenSum f.2 b)).take n
    (l.map (·.1), bp || l.any fun x => x.2 != .clean)
  else
    let l := (List.range n).map fun i => (i, s.lineNow (locLine r.srcLoc + lenSum f.2 b + i))
    (l.map fun x => decrypt (s.cipherOf r.dlpn 1 b x.1) x.2, bp || l.any fun x => x.2.poisoned)

/-- The bytes of block b, or none where the block is poisoned or malformed. -/
def State.copyBlock (s : State) (r : MoverRec) (b : Nat) : Option (List Byte) :=
  if (s.srcForm r).1 = 2 then
    let (l, bad) := s.copySlots r b
    if bad then none
    else match decodeBlock (blockLen (s.srcForm r).2 b) (l.flatMap bytesOfLine) with
      | .data bytes => some bytes
      | .malformed _ => none
  else
    let l := (List.range 16).map fun i => s.copyLine r (16 * b + i)
    if l.any (·.2) then none else some (l.flatMap fun x => bytesOfLine x.1)

/-- The operation keeps the stored units of a PACKED page: within a quadrant, to a guest, and from one (R178, R220). -/
def State.keepsUnits (s : State) (r : MoverRec) (target : Nat) : Bool :=
  decide ((s.srcForm r).1 = 2) && match r.op with
    | .move _ => decide (chanQuad target = chanQuad (lineChan (locLine r.srcLoc)))
    | .evacPage => decide (chanQuad target = chanQuad (lineChan (locLine r.srcLoc)))
    | .recall _ => true
    | .demote _ => true
    | _ => false

/-- The copy decodes the blocks of a PACKED source. -/
def State.decodes (s : State) (r : MoverRec) (target : Nat) : Bool := decide (r.srcState = 2) && !s.keepsUnits r target

/-- What the copy of a page meets in its source: units that read as UE and malformed blocks are marked (R180, R263, R157). -/
def markSource (r : MoverRec) (ue : BitVec 64) (target : Nat) (s : State) : State :=
  let lines := (List.range 64).filter fun n => ue.getLsbD n && decide (n < formLines (s.srcForm r)) && decide (r.srcState ≠ 3)
  let read : LineRead := { out := .ue, corrected := false, data := 0, bad := 1, tagBad := false }
  let s := forEach lines (fun n s =>
    let l := locLine r.srcLoc + n
    markUser r.dlpn (s.pageLine r.dlpn n) l txManagement (countUe l 1 read 0 s)) s
  if !s.decodes r target then s
  else forEach (List.range 4) (fun b s =>
    if (s.copySlots r b).2 then s
    else match s.oldBlock r.dlpn b r.srcLoc r.srcLen with
      | .data _ => s
      | .malformed cause =>
        markUser r.dlpn (16 * b) (locLine r.srcLoc + lenSum r.srcLen b) txManagement
          (malformedBlock (s.clusterFor (chanQuad (lineChan (locLine r.srcLoc))) .decompress) cause s)) s

/-- Block b of a PACKED destination (R178, R180). -/
def copyOut (r : MoverRec) (target b : Nat) (s : State) : BlockOut × State :=
  if s.keepsUnits r target then
    let (l, bad) := s.copySlots r b
    let n := l.length
    let out := if r.srcState = 2 ∧ (s.srcForm r).1 = 2 ∧ !(match r.op with | .demote _ => true | _ => false) then
        (List.range n).map fun i => s.lineNow (locLine r.srcLoc + lenSum r.srcLen b + i)
      else s.seal r.dlpn b (l.flatMap bytesOfLine) n
    (if bad then { poison := true } else { len := n, lines := out }, s)
  else match s.copyBlock r b with
    | none => ({ poison := true }, s)
    | some bytes =>
      let s := if r.srcState = 2 then countDecoded (s.clusterFor (chanQuad (lineChan (locLine r.srcLoc))) .decompress) s else s
      let ((n, out), s) := compressBlock (chanQuad target) bytes s
      ({ len := n, lines := s.seal r.dlpn b out n }, s)

/-- The blocks of a PACKED destination: those of `fresh` are made again, the others are as the destination holds them. -/
def copyOuts (r : MoverRec) (target : Nat) (fresh : BitVec 4) (s : State) : List BlockOut × State :=
  (List.range 4).foldl (fun (t : List BlockOut × State) b =>
    if fresh.getLsbD b then let x := copyOut r target b t.2; (t.1 ++ [x.1], x.2)
    else
      let n := blockLen r.dstLen b
      (t.1 ++ [{ len := n, poison := r.poison.getLsbD b
                 lines := (List.range n).map fun i => s.lineNow (locLine r.dstLoc + lenSum r.dstLen b + i) }], t.2)) ([], s)

/-- A mask of four flags. -/
def mask4 (f : Nat → Bool) : BitVec 4 := BitVec.ofNat 4 ((List.range 4).foldl (fun n b => if f b then n + 2 ^ b else n) 0)

/-- The destination's storage is given back. -/
def dropDst (r : MoverRec) (s : State) : State :=
  if r.placed then freeStorage (locLine r.dstLoc) r.dstSlots s else s

/-- Page content that PACK turns into a state of its own: ZERO or PATTERN (R159). -/
def State.uniformPage (s : State) (r : MoverRec) : Option (Nat × Word) :=
  if r.op ≠ .pack then none
  else match (List.range 4).mapM (s.copyBlock r) with
    | none => none
    | some l =>
      let bytes := l.flatten
      if bytes.all (· = 0) then some (4, 0) else (uniformWord bytes).map fun w => (5, w)

/-- Write a PACKED destination: a run of the present length, or a new one of another (R162, R188). -/
def copyPacked (q : Nat) (r : MoverRec) (fresh : BitVec 4) (s : State) : State :=
  let own := lineChan (locLine r.srcLoc)
  let target := if r.placed then lineChan (locLine r.dstLoc) else (s.opChannels r.op own).headD own
  match s.uniformPage r with
  | some (st, w) =>
    modRecord q r.dlpn (fun x => { x with
      placed := false, dstSlots := 0, dstState := st, poison := 0
      dstLoc := if st = 5 then w.extractLsb' 0 44 else 0, dstLen := if st = 5 then w.extractLsb' 44 20 else 0 }) (dropDst r s)
  | none =>
    let (outs, s) := copyOuts r target fresh s
    let lens := outs.map (·.len)
    let n := lens.sum
    let poison := mask4 fun b => (outs.getD b {}).poison
    let put := fun (l : Nat) (s : State) =>
      modRecord q r.dlpn (fun x => { x with
        placed := true, dstSlots := n, dstState := 2, dstLoc := BitVec.ofNat 44 l, dstLen := packLens lens, poison })
        (putLines l (outs.flatMap (·.lines)) s)
    if n = 0 then
      modRecord q r.dlpn (fun x => { x with placed := false, dstSlots := 0, dstState := 4, dstLoc := 0, dstLen := 0, poison }) (dropDst r s)
    else if r.placed ∧ r.dstSlots = n then put (locLine r.dstLoc) s
    else match takeOn n (.dest r.dlpn) (if r.placed then target :: (s.opChannels r.op own).filter (· != target) else s.opChannels r.op own) s with
      | none => endRecord q r (if r.op = .evacPage then 6 else 4) s
      | some (l, s) => put l (dropDst r s)

/-- Write a PLAIN destination: the lines of the blocks of `fresh` (R178, R180). -/
def copyPlain (r : MoverRec) (fresh : BitVec 4) (s : State) : State :=
  let l := locLine r.dstLoc
  let same := decide (r.srcState = 1) && decide (chanQuad (lineChan l) = chanQuad (lineChan (locLine r.srcLoc)))
  forEach ((List.range 64).filter fun n => fresh.getLsbD (n / 16)) (fun n s =>
    let want := s.cipherOf r.dlpn 0 n 0
    let d : DLine :=
      if same then
        let x := s.lineNow (locLine r.srcLoc + n)
        { x with poisoned := x.poisoned || (s.desc r.dlpn).bpoison.getLsbD (n / 16) }
      else if (s.srcForm r).1 = 1 then
        let x := s.copyLine r n
        { data := x.1, cipher := want, poisoned := x.2 }
      else match s.copyBlock r (n / 16) with
        | some bytes => { data := lineOfBytes (bytes.drop (64 * (n % 16))), cipher := want }
        | none => { cipher := want, poisoned := true }
    putLine (l + n) d s) s

/-- Send a page's stored units to its guest: all of them, or the lines of a PLAIN page's blocks of `fresh` (R220, R440). -/
def copyGuest (q g : Nat) (r : MoverRec) (fresh : BitVec 4) (s : State) : State :=
  let put := fun (unit : Nat) (l : List Line) (s : State) =>
    openTxn g { op := 6, index := locRemote r.dstLoc, unit, lines := l } 0 0 0 r.dlpn [formLines (s.srcForm r)] s
  if (s.srcForm r).1 = 2 then
    let blocks := (List.range 4).map (s.copySlots r)
    let l := blocks.flatMap (·.1)
    modRecord q r.dlpn (fun x => { x with dstState := 3, poison := mask4 fun b => ((blocks.getD b ([], false)).2) })
      (forEach (List.range ((l.length + 3) / 4)) (fun i => put (4 * i) ((l.drop (4 * i)).take 4)) s)
  else
    let bad := mask4 fun b => (List.range 16).any fun i => (s.copyLine r (16 * b + i)).2
    modRecord q r.dlpn (fun x => { x with dstState := 3, poison := (x.poison &&& ~~~ fresh) ||| (bad &&& fresh) })
      (forEach ((List.range 16).filter fun i => fresh.getLsbD (i / 4)) (fun i s =>
        put (4 * i) ((List.range 4).map fun j => (s.copyLine r (4 * i + j)).1) s) s)

/-- Copy the blocks of `fresh` (R188, COPY). -/
def copyBlocks (q : Nat) (r : MoverRec) (fresh : BitVec 4) (s : State) : State :=
  match r.op with
  | .demote g => copyGuest q g r fresh s
  | _ => if r.dstState = 1 then copyPlain r fresh s else copyPacked q r fresh s

/-! ### Check and swap (R188 to R190) -/

/-- A block that is poisoned at its destination: its unit in the list becomes the block (R180, R264, R271). -/
def blockListed (dlpn : Nat) (new : BitVec 4) (s : State) : State :=
  forEach ((List.range 4).filter fun b => new.getLsbD b) (fun b s =>
    let mine := fun (p : Poison) => decide (p.dlpn = dlpn) && decide (p.unit = 0) && decide (p.place / 16 = b)
    let src := ((s.integ.poison.find? mine).map (·.source)).getD 0
    listPoison dlpn 1 b src (s.modInteg fun i => { i with poison := i.poison.filter fun p => !mine p })) s

/-- Writes that were gathered while the page was FAR and are now on a page that is charged take their charge, or are refused (R140, R144). -/
def chargeGathered (dlpn : Nat) (s : State) : State :=
  forEach (List.range 4) (fun b s =>
    if s.gather.entries.any fun g => g.dlpn = dlpn ∧ g.lineNo / 16 = b then
      match s.chargeDue dlpn b with
      | some (k, n) =>
        if s.chargeOk (extentOf dlpn) n then takeCharge (extentOf dlpn) n (s.modGather fun g => { g with charges := Tab.set 0 g.charges k n })
        else refuseWrite dlpn b none s
      | none => s
    else s) s

/-- The swap: one change of the descriptor, after which stalled writes and deferred evictions go on (R188, R190). -/
def swapPage (q : Nat) (r : MoverRec) (s : State) : State :=
  let d := s.desc r.dlpn
  let s := match r.op with
    | .demote g =>
      let f := s.srcForm r
      openTxn g { op := 7, index := locRemote r.dstLoc, words := [f.1, f.2.toNat] } 0 0 0 r.dlpn [f.1, f.2.toNat]
        (s.modConst fun c => { c with farForms := Tab.set (1, 0) c.farForms r.dlpn f })
    | _ => if r.placed then ownStorage (locLine r.dstLoc) r.dstSlots (.page r.dlpn) s else s
  let packed := decide (r.dstState ≠ 1)
  let bp := if packed then d.bpoison ||| r.poison else d.bpoison
  let s := setDesc r.dlpn { d with
    state := stateOf r.dstState, location := r.dstLoc, blockLen := if r.dstState = 3 then 0 else r.dstLen
    wgen := r.rgen, lock := false, bpoison := bp } s
  let s := modRecord q r.dlpn (fun x => { x with phase := .free }) (dropRecall r.dlpn s)
  let s := if packed then blockListed r.dlpn (r.poison &&& ~~~ d.bpoison) s else s
  let s := poisonIfWhole r.dlpn 0 s
  packedTriggers r.dlpn (resume [.stalled] (chargeGathered r.dlpn s))

/-- A race was seen: one restart more, and STALL at MAX_RESTARTS (R188, R202). -/
def restartMove (q : Nat) (r : MoverRec) (s : State) : State :=
  let stall := r.stall || decide (r.limit ≤ r.restarts + 1)
  let s := modRecord q r.dlpn (fun x => { x with phase := .check, restarts := x.restarts + 1, stall, passGen := x.rgen }) s
  s.modQuad q fun d => { d with
    restarts := satAdd d.restarts 1, stalls := if stall && !r.stall then satAdd d.stalls 1 else d.stalls }

/-- The check: gathered lines of a PLAIN source are evicted to it, and without a race the swap is made (R188). -/
def checkMove (q dlpn : Nat) (s : State) : State :=
  let s := match s.record dlpn with
    | some (_, r) => if r.srcState = 1 then evictPlain dlpn false [] s else s
    | none => s
  match s.record dlpn with
  | none => s
  | some (_, r) => if r.rgen = r.passGen ∧ r.race = 0 then swapPage q r s else restartMove q r s

/-- The units that the copy needs or sends are all there. -/
def State.copyReady (s : State) (r : MoverRec) : Bool :=
  !(s.const.opened.any fun o => o.dlpn = r.dlpn ∧ o.op = 6) &&
    (decide (r.srcState ≠ 3) || (s.path.reqs.any fun x => x.source = 22 ∧ x.dlpn = r.dlpn ∧ x.lines.all fun l => l.data.isSome))

/-- The copy, or the recopy of the blocks that raced, is complete, and the operation checks (R188). Bit n of `ue`: source line or slot n
read as UE. A transfer to a guest checks once its units are acknowledged. -/
def execMoverCopyDone (q : Fin 4) (dlpn : BitVec 34) (ue : BitVec 64) (s : State) : Host.Outcome State Fault Refusal :=
  .next (match (s.quad q).records.find? fun r => r.dlpn = dlpn.toNat ∧ (r.phase = .copy ∨ r.phase = .check) with
    | none => s
    | some r =>
      if !s.running || !s.copyReady r then s
      else
        let d := dlpn.toNat
        let own := lineChan (locLine r.srcLoc)
        let target := if r.placed then lineChan (locLine r.dstLoc) else own
        let fresh := if r.phase = .copy then 15 else r.race
        let sent : Bool := match r.op with
          | .demote _ => decide (r.phase = .check) && decide (fresh = 0)
          | _ => false
        if sent then checkMove q d s
        else
          let s := markSource r ue target s
          match s.record d with
          | none => s
          | some (_, r) =>
            let n := if r.srcState = 3 then 0 else if r.srcState = 1 then 16 * onesIn fresh else formLines (s.srcForm r)
            let s := copyBlocks q r fresh (countEvents (59 + q) 0x504 none n s)
            match s.record d with
            | none => s
            | some _ =>
              let s := modRecord q d (fun x => { x with phase := .check, race := x.race &&& ~~~ fresh }) s
              (match r.op with
                | .demote _ => s
                | _ => checkMove q d s))

/-! ### Free (R163, R179, R188, R191) -/

/-- Lines that a page's storage counts in its extent's footprint after an operation. -/
def dstLines (r : MoverRec) : Nat := if r.dstState = 1 then 64 else if r.dstState = 2 then lenSum r.dstLen 4 else 0

/-- Lines that the source counted. -/
def srcLines (r : MoverRec) : Nat := if r.srcState = 1 then 64 else if r.srcState = 2 then lenSum r.srcLen 4 else 0

/-- READERS is 0 after the swap and both descriptor copies are written: the source is freed, the charge settled, and the operation
completes with code 0 (R188). -/
def freeSource (q : Nat) (r : MoverRec) (s : State) : State :=
  let s := s.modQuad q fun d => { d with records := removeFirst (fun x => x = r) d.records }
  let s := match r.srcState with
    | 1 => freeStorage (locLine r.srcLoc) 0 s
    | 2 => freeStorage (locLine r.srcLoc) (lenSum r.srcLen 4) s
    | _ => sendFarFree (locGuest r.srcLoc) (locRemote r.srcLoc) r.dlpn s
  let s := s.modCap fun c => { c with m := c.m - r.inM }
  let s := if (s.desc r.dlpn).state = .poisoned then updateCapacity s
    else updateCapacity (addFootprint (extentOf r.dlpn) ((dstLines r : Int) - srcLines r) s)
  let s := finishOp q r.op r.ticket 0 s
  if r.op = .evacPage then finishCancel (lineChan (locLine r.srcLoc)) s else s

def execMoverFree (q : Fin 4) (dlpn : BitVec 34) (s : State) : Host.Outcome State Fault Refusal :=
  .next (match (s.quad q).records.find? fun r => r.dlpn = dlpn.toNat ∧ r.phase = .free with
    | some r => if s.running && decide (r.readers = 0) && (s.dirty (dlpn.toNat / 4)).isNone then freeSource q r s else s
    | none => s)

/-! ### The structures of an evacuating channel, and its end (R198, R199) -/

/-- The lowest 1 MiB frame of a channel that a structure uses. -/
def State.firstMega (s : State) (c : Nat) : Option (Nat × MegaUse) :=
  match (s.alloc c).megas with
  | (f, some u) :: _ => some (f, u)
  | _ => none

/-- Move n consecutive 1 MiB frames of one use from a channel to the first of these channels that has room: the new first frame. -/
def moveMegas (c n : Nat) (u : MegaUse) (dest : List Nat) (s : State) : Option (Nat × State) :=
  (dest.findSome? fun d => if s.activeChan d then (s.lowestRun d (256 * n) 256 (2 ^ 26)).map fun f => d * 2 ^ 19 + f / 256 else none).map fun m =>
    let s := s.modAlloc c fun a => { a with megas := a.megas.filter fun x => x.2 != some u }
    (m, forEach (List.range n) (fun i => useMega (m + i) (some u)) s)

/-- A device structure finishes copying: its pointer names the new place and the old place is free (R198 step 1). -/
def moveStructure (c f : Nat) (u : MegaUse) (s : State) : State :=
  let all := (List.range 24).filter (· != c)
  let root := fun (other : Option (BitVec 24)) =>
    let o := ((other.map fun m => m.toNat / 2 ^ 19)).getD c
    let l := all.filter (· != o)
    l.filter (fun d => chanQuad d != chanQuad o) ++ l.filter fun d => chanQuad d = chanQuad o
  match u with
  | .rootA => match moveMegas c 8 u (root s.cap.rootB) s with
    | some (m, s) => s.modCap fun k => { k with rootA := some (BitVec.ofNat 24 m) }
    | none => s
  | .rootB => match moveMegas c 8 u (root s.cap.rootA) s with
    | some (m, s) => s.modCap fun k => { k with rootB := some (BitVec.ofNat 24 m) }
    | none => s
  | .ring i => match moveMegas c 16 u (all.filter s.activeChan) s with
    | some (m, s) => s.modRec fun r => { r with segments := r.segments.set i (m / 2 ^ 19) }
    | none => s
  | .remoteDesc _ =>
    let others := all.filter fun d => !(s.alloc d).megas.any fun x => x.2 = some u
    match moveMegas c 1 u (others.filter s.activeChan) s with
    | some (_, s) => s
    | none => s
  | _ => relocate (frameLine c (256 * f)) u s

/-- A device structure on an evacuating or unreadable channel finishes copying (R198, R281). One that finds no place waits (R162). -/
def execEvacuationStructureMoved (c : Fin 24) (s : State) : Host.Outcome State Fault Refusal :=
  .next (let h := s.chan c
    if s.running && s.start.phase9Done && (h.unreadable || (decide (h.state = .evacuating) && !((h.evac.map (·.cancelled)).getD true))) then
      match s.firstMega c with
      | none => s
      | some (f, u) =>
        let t := moveStructure c f u s
        if (t.alloc c).megas = (s.alloc c).megas then waitFor (.evac c) (chanQuad c) 0 s else t
    else s)

/-- Nothing that moves is left on the channel. -/
def State.evacEmpty (s : State) (c : Nat) : Bool :=
  (s.alloc c).megas.isEmpty &&
    ((s.alloc c).owners.all fun o => match o with
      | .page _ => false
      | .guest _ => false
      | .dest _ => false
      | _ => true) &&
    (s.evacRecords c).isEmpty

/-- The evacuation ends: banks precharged, refresh stopped, the DIMMs in reset, the slots off where asked, EVACUATED or RETIRED (R199). -/
def execEvacuationEnd (c : Fin 24) (s : State) : Host.Outcome State Fault Refusal :=
  .next (let h := s.chan c
    match h.evac with
    | none => s
    | some v =>
      if !s.running || decide (h.state ≠ .evacuating) then s
      else if v.cancelled then finishCancel c s
      else if !s.evacEmpty c || h.retrainBusy || h.repairBusy then s
      else
        let s := s.modChan c fun h => { prechargeAll h with
          state := if v.retire then .retired else .evacuated, evac := none, retirePending := none, refreshing := false
          selfRefresh := false, srPending := false, powerDown := [], usable := 0, speed := 0, evacLast := some 1 }
        let s := if v.retire then condStart (srcChannel c 10) s else s
        let s := if v.slotsOff then
            forEach [2 * c.val, 2 * c.val + 1] (fun n s => if (s.slot n).state.powered then switchSlotOff n .off s else s) s
          else s
        let s := partLeaves (4 + c) { s with waiters := s.waiters.filter (· != .evac c) }
        match v.queue with
        | some q => postDevice q (BitVec.ofNat 64 c.val) 1 0 0 s
        | none => s)

/-! ### The sketch (R183) -/

/-- A halving sweep starts; a second one waits for the one that runs. -/
def startSweep (s : State) : State :=
  s.modSketch fun k => if k.sweeping then { k with second := true } else { k with sweeping := true }

/-- The DECAY period has passed (R183). -/
def execMagnitudeDecay (s : State) : Host.Outcome State Fault Refusal :=
  .next (if s.running && decide (s.sketch.lastDecay + s.sketch.decay.toNat * msNs ≤ s.now) then
      startSweep (s.modSketch fun k => { k with lastDecay := s.now })
    else s)

/-- A sweep has halved every counter; a second sweep that waits starts (R183). -/
def execHalvingSweepDone (s : State) : Host.Outcome State Fault Refusal :=
  .next (if s.running && s.sketch.sweeping then
      s.modSketch fun k => { k with
        counters := k.counters.filterMap fun e => if e.2.toNat < 2 then none else some (e.1, e.2.ushiftRight 1)
        sweeping := k.second, second := false }
    else s)

end Sys2Proof.Machine
end

