-- ==== Sys2Proof/Machine/Evacuate.lean ====
section
/-! DEFINITION. The commands Channel Evacuate and Channel Restore (R103, R197 to R201). -/
namespace Sys2Proof.Machine

/-- The reply of Channel Evacuate: channel, outcome, and the bytes still to move (R103). -/
def evacReply (c outcome bytes : Nat) : List Byte := leBytes 1 c ++ leBytes 1 outcome ++ leBytes 6 0 ++ leBytes 8 bytes

/-- Bytes that an evacuation still has to move: every frame in use on the channel (R197). -/
def State.evacLeft (s : State) (c : Nat) : Nat := if (s.chan c).evac.isSome then 4096 * s.framesUsed c else 0

/-- The outcome a query reads: running, done, or that of the last request; before any request the spec states none (R103). -/
def State.evacOutcome (s : State) (c : Nat) : Nat :=
  if (s.chan c).evac.isSome then 0
  else if (s.chan c).state = .evacuated ∨ (s.chan c).state = .retired then 1
  else (s.chan c).evacLast.getD ((Config.freeWord s.free).toNat % 256)

/-- A request to evacuate: accepted under the checks of R197, or refused with their outcome. DEDUCED, log 70. -/
def requestEvac (c : Nat) (slotsOff : Bool) (s : State) : Nat × State :=
  let code := s.evacCode c false
  if code = 0 then (0, acceptEvac c false slotsOff false none s)
  else (code, s.modChan c fun h => { h with evacLast := some code })

def execChannelEvacuate (cci : Cci) (len : BitVec 32) (c action flags : BitVec 8) (s : State) : Host.Outcome State Fault Refusal :=
  .next (command cci 0xC011 len.toNat (.fixed 4) false false .mgmt .firmware (fun s =>
    let c := c.toNat
    if 23 < c ∨ 2 < action.toNat then answer cci .invalidInput [] s
    else
      let r := if action = 0 then requestEvac c (flags.getLsbD 0) s
        else if action = 1 then (s.evacOutcome c, s.takeFree)
        else
          let (code, s) := cancelEvac c s
          (code, s.modChan c fun h => { h with evacLast := some code })
      answer cci .success (evacReply c r.1 (r.2.evacLeft c)) r.2) s)

/-- A channel whose domain leaves P3 has its registers at their reset values (R466). -/
def Chan.lost (variant : BitVec 4) (h : Chan) : Chan :=
  { freshChan variant with state := h.state, spd0 := h.spd0, spd1 := h.spd1, retirePending := h.retirePending, evacLast := h.evacLast }

/-- Why a restore is refused, or 0 (R103, R228). -/
def State.restoreCode (s : State) (c : Nat) : Nat :=
  let h := s.chan c
  if !(decide (h.state ∈ [ChanState.absent, .evacuated, .retired, .trainFailed])) then 1
  else if (s.presentSlots c).isEmpty then 2
  else if h.state = .trainFailed ∧ h.cause = 2 then 3
  else 0

/-- Steps 1 and 2 of R201: UNTRAINED, and power for each occupied slot in ascending order. -/
def startRestore (c : Nat) (s : State) : State :=
  let s := leaveP3 (4 + c) (fun s => s.modChan c (Chan.lost s.ident.variant)) s
  let s := s.modChan c fun h =>
    { h with state := .untrained, cause := 0, usable := 0, speed := 0, frontier := 0, unreadable := false, retirePending := none
             train := { restore := true } }
  let s := condEnd (srcChannel c 9) (condEnd (srcChannel c 10) s)
  requestSlots ((s.presentSlots c).map fun k => 2 * c + k) (s.modAlloc c fun _ => {})

def execChannelRestore (cci : Cci) (len : BitVec 32) (c : BitVec 8) (s : State) : Host.Outcome State Fault Refusal :=
  .next (command cci 0xC012 len.toNat (.fixed 4) false false .mgmt .firmware (fun s =>
    let c := c.toNat
    if 23 < c then answer cci .invalidInput [] s
    else
      let code := s.restoreCode c
      answer cci .success (leBytes 1 c ++ leBytes 1 code ++ leBytes 6 0) (if code = 0 then startRestore c s else s)) s)

end Sys2Proof.Machine
end

