-- ==== Sys2Proof/Machine/Recorder.lean ====
section
/-! DEFINITION. The event recorder's epochs and watches, and comet sampling (R532 to R534, R547 to R549). -/
namespace Sys2Proof.Machine

/-- A multiple of the epoch in force has been reached since the last boundary (R532). DEDUCED, log 42. -/
def State.epochDue (s : State) : Bool :=
  let e := s.rec_.epochNow.toNat * msNs
  decide (s.rec_.lastEpoch < s.now / e * e)

/-- An epoch boundary: every open tally closes in ascending order of source, with reason 0, and a new epoch length comes into force
(R532). -/
def execEpochBoundary (s : State) : Host.Outcome State Fault Refusal :=
  .next (if s.start.powered && !s.faults.halted && s.epochDue then (closeAll 0 s).modRec fun r => { r with lastEpoch := s.now, epochNow := r.epoch }
    else s)

/-- A core issues an instruction: its LFSR steps, and the instruction is tagged or not (R547). -/
def tagInstr (core : Nat) (s : State) : Bool × State :=
  let x := lfsrStep (Tab.get 0 s.comets.coreLfsr core)
  let s := { s with comets := { s.comets with coreLfsr := Tab.set 0 s.comets.coreLfsr core x } }
  let c := s.comets
  if c.insEn && lfsrTags x c.insK.toNat then
    if (s.cometQuad (core / 2)).inflight < 64 then
      (true, s.modCometQuad (core / 2) fun b => { b with inflight := b.inflight + 1 })
    else (false, s.modCometQuad (core / 2) fun b => { b with skipped := satAdd b.skipped 1 })
  else (false, s)

end Sys2Proof.Machine
end

