-- ==== Sys2Proof/Machine/Operands.lean ====
section
/-! DEFINITION. How a thread of a policy core issues an instruction: fetch, fields, trap order, the data address space, and what
a thread may name (R288 to R298, R314 to R321). -/
namespace Sys2Proof.Machine

/-! ### Encodings (R314 to R317) -/

/-- The fields of an instruction word. -/
structure Fields where
  op : Nat
  a : Nat
  b : Nat
  c : Nat
  func : Nat
  /-- L of the device groups (R315). -/
  lit : Nat
  imm : Nat
  long : Nat
  word : BitVec 32
  deriving DecidableEq, Repr

/-- Pull the fields of the three formats out of a word. -/
def fieldsOf (w : BitVec 32) : Fields :=
  { op := (w.extractLsb' 26 6).toNat, a := (w.extractLsb' 21 5).toNat, b := (w.extractLsb' 16 5).toNat
    c := (w.extractLsb' 11 5).toNat, func := (w.extractLsb' 0 11).toNat, lit := (w.extractLsb' 0 8).toNat
    imm := (w.extractLsb' 0 16).toNat, long := (w.extractLsb' 0 21).toNat, word := w }

/-- What selects an instruction within its major opcode (R317). -/
def Fields.select (f : Fields) : Nat :=
  if f.op ≤ 1 then f.func
  else if f.op = 6 then f.imm / 64 % 4
  else if 0x30 ≤ f.op then f.func / 256
  else 0

/-- An instruction's key: its opcode and its selection. -/
def insKey (op select : Nat) : Nat := op * 2048 + select
def Fields.key (f : Fields) : Nat := insKey f.op f.select

/-- The keys of a major opcode. -/
def opKeys (op : Nat) (l : List Nat) : List Nat := l.map (insKey op)

/-- Every listed instruction (R317, R322 to R345). -/
def listedKeys : List Nat :=
  opKeys 0 [0, 1, 2, 3, 4, 5, 6] ++
  opKeys 1 [0, 1, 2, 3, 4, 5, 6, 7, 8, 9, 10, 0x10, 0x11, 0x12, 0x13, 0x18, 0x19, 0x20, 0x21] ++
  [2, 3, 4, 5].flatMap (fun o => opKeys o [0]) ++ opKeys 6 [0, 1, 2] ++ opKeys 7 [0] ++ opKeys 8 [0] ++
  [0x10, 0x11, 0x12, 0x13, 0x14, 0x15, 0x16, 0x17, 0x18, 0x19].flatMap (fun o => opKeys o [0]) ++
  [0x20, 0x21, 0x22, 0x23, 0x24, 0x25, 0x26, 0x27, 0x28].flatMap (fun o => opKeys o [0]) ++
  opKeys 0x30 [0, 1, 2, 3] ++ opKeys 0x31 [0, 1, 2, 3, 4, 5] ++ opKeys 0x32 [0, 1, 2] ++ opKeys 0x33 [0, 1, 2] ++
  opKeys 0x34 [0, 1, 2, 3] ++ opKeys 0x35 [0, 1, 2] ++ opKeys 0x36 [0, 1] ++ opKeys 0x37 [0, 1, 2] ++ opKeys 0x38 [0, 1, 2]

/-- A field sign-extended to 64 bits, and zero-extended (R317). -/
def sext (w n : Nat) : Word := (BitVec.ofNat w n).signExtend 64
def zext (n : Nat) : Word := BitVec.ofNat 64 n

/-! ### Fetch (R293, R294) -/

/-- The bank an invocation fetches from. -/
def State.bank (s : State) (b : Bool) : Bank := if b then s.ril.bank1 else s.ril.bank0

/-- An unplaced word: the always-illegal opcode 0x3F. -/
def unplaced : BitVec 32 := 0xFC000000

/-- The word at a region address of a bank. -/
def Bank.fetch (b : Bank) (pc : BitVec 19) : BitVec 32 := Tab.get unplaced b.words (pc.toNat / 4)

/-- The LD whose image owns the unit of tenant text that an address lies in. -/
def Bank.unitOwner (b : Bank) (pc : Nat) : Option Nat := Tab.get none b.units ((pc - 0x70000) / 1024)

/-- The privilege of a region address (R293). -/
def regionPriv (pc : Nat) : Priv := if pc < 0x40000 then .firmware else if pc < 0x70000 then .operator else .tenant

/-- A region address lies in the region, or for a tenant in the units, of an invocation (R294). DEDUCED, log 79. -/
def State.inText (s : State) (u : Thread) (pc : Nat) : Bool :=
  decide (pc < 0x80000) && decide (regionPriv pc = u.priv) &&
    (decide (u.priv ≠ .tenant) || decide ((s.bank u.bank).unitOwner pc = some u.ld))

/-! ### Issue (R288, R309, R322) -/

/-- A thread is ready: it runs, and every thread its YIELD lets pass has issued or waits (R288, R322). -/
def State.threadReady (s : State) (t : Nat) : Bool :=
  decide ((s.thread t).state = .running) && (s.thread t).yieldFor.all fun v => decide ((s.thread v).state ≠ .running)

/-- A thread may issue now. -/
def State.mayIssue (s : State) (t : Nat) : Bool := s.running && !s.power.dozing && s.domAwake 3 && s.threadReady t

/-- The comet of an instruction: its core, thread, region and word, its address and its queue (R549). -/
def insComet (t : Nat) (w : BitVec 32) (s : State) : Comet :=
  let u := s.thread t
  { kind := 2, timebase := s.time.tb, uptime := BitVec.ofNat 64 s.now, stamps := [(1, 0)]
    info := BitVec.ofNat 64 (t / 4 + 256 * (t % 4) + 65536 * u.priv.code + 2 ^ 32 * w.toNat)
    place := BitVec.ofNat 64 (u.pc.toNat + 2 ^ 32 * (u.queue % 256)) }

/-- The other threads of a core. -/
def coreMates (t : Nat) : List Nat := (List.range 4).filterMap fun i => if t / 4 * 4 + i = t then none else some (t / 4 * 4 + i)

/-- An instruction issues: the core's LFSR steps, its event is counted, and the threads that yielded to this one count it. -/
def issueWord (t : Nat) (w : BitVec 32) (s : State) : State :=
  let (tag, s) := tagInstr (coreOf t) s
  let s := countEvent (51 + coreOf t) 0x401 none s
  let s := forEach (coreMates t) (fun v s => s.modThread v fun u => { u with yieldFor := u.yieldFor.erase t }) s
  let s := s.modRil fun r => { r with lastIssued := Tab.set 3 r.lastIssued (coreOf t) (t % 4) }
  s.modThread t fun u => { u with yieldFor := [], comet := if tag then some (insComet t w s) else none }

/-- What follows the effect of an instruction: its comet's last stages, unless the thread waits. -/
def afterWord (t : Nat) (dev : Bool) (s : State) : State :=
  match (s.thread t).state with
  | .deviceOp | .wait | .mwait =>
    s.modThread t fun u => { u with comet := u.comet.map fun c => if dev then c.stamp 3 s.now else c }
  | _ => closeComet t (if dev then [2, 3, 4] else [2]) s

/-- The next instruction in sequence. -/
def stepPc (t : Nat) (s : State) : State := s.modThread t fun u => { u with pc := u.pc + 4 }

/-- The first trap condition that holds (R318). -/
def firstTrap : List (Bool × Nat) → Option Nat
  | [] => none
  | (b, c) :: l => if b then some c else firstTrap l

/-- Thread t issues the instruction with this key, if that is the word at its program counter: it traps without effect, or its
effect comes with the program counter at the next word (R308, R318). An address that control has run on to outside the invocation's
own text traps PRIV. DESIGN CHOICE, log 28. -/
def instr (key : Nat) (dev : Bool) (t : Nat) (traps : Fields → Thread → State → List (Bool × Nat)) (run : Fields → Thread → State → State)
    (s : State) : State :=
  if s.mayIssue t then
    let u := s.thread t
    let f := fieldsOf ((s.bank u.bank).fetch u.pc)
    if f.key = key then
      let s := issueWord t f.word s
      match firstTrap ((!s.inText u u.pc.toNat, trapPriv) :: traps f u s) with
      | some c => takeTrap t c s
      | none => afterWord t dev (run f u (stepPc t s))
    else s
  else s

/-- Give register a its value. -/
def setReg (t n : Nat) (v : Word) (s : State) : State := s.modThread t fun u => u.setReg n v

/-! ### The data address space (R290, R305) -/

/-- The mailbox command whose payload buffer an invocation has mapped. -/
def State.mapped (s : State) (u : Thread) : Option MboxCmd :=
  u.tag.bind fun g => s.ril.mbox.find? fun m => m.tag = g

/-- An address lies in a region the privilege of the code forbids (R290). -/
def addrPriv (u : Thread) (x : Nat) : Bool :=
  match u.priv with
  | .firmware => false
  | .operator => (decide (0x400000 ≤ x) && decide (x < 0x500000)) || (decide (0x1000000 ≤ x) && decide (x < 0x1100000))
  | .tenant =>
    (decide (0x400000 ≤ x) && decide (x < 0x700000)) || (decide (0x1000000 ≤ x) && decide (x < 0x1100000)) ||
      (decide (0x700000 ≤ x) && decide (x < 0x800000) && decide ((x - 0x700000) / 4096 ≠ u.ld))

/-- An address that holds nothing: outside the table of R290, or past the buffer that is mapped (R305). -/
def State.addrUnmapped (s : State) (u : Thread) (x : Nat) : Bool :=
  if x < 0x10000 then false
  else if 0x400000 ≤ x ∧ x < 0x800000 then false
  else if 0x1000000 ≤ x ∧ x < 0x1100000 then
    match s.mapped u with
    | some m => decide (payloadBuffer m.cci ≤ x - 0x1000000)
    | none => true
  else true

/-- The traps of an access of `n` bytes at x, in the order of R318. -/
def State.accessTraps (s : State) (u : Thread) (x n : Nat) : List (Bool × Nat) :=
  [(addrPriv u x || addrPriv u (x + n - 1), trapPriv), (decide (x % n ≠ 0), trapAlign),
   (s.addrUnmapped u x || s.addrUnmapped u (x + n - 1), trapBounds)]

/-- Load `n` bytes. -/
def State.load (s : State) (t x n : Nat) : Word :=
  let u := s.thread t
  BitVec.ofNat 64 (if x < 0x10000 then Memory.readLe u.scratch x n
    else if x < 0x1000000 then Memory.readLe s.ril.window x n
    else Memory.readLe (((s.mapped u).map (·.buffer)).getD []) (x - 0x1000000) n)

/-- Store the low `n` bytes of a word. -/
def store (t x n : Nat) (v : Word) (s : State) : State :=
  let u := s.thread t
  if x < 0x10000 then s.modThread t fun u => { u with scratch := Memory.writeLe u.scratch x n v.toNat }
  else if x < 0x1000000 then s.modRil fun r => { r with window := Memory.writeLe r.window x n v.toNat }
  else
    let put : MboxCmd → MboxCmd := fun m => { m with buffer := Memory.writeLe m.buffer (x - 0x1000000) n v.toNat }
    s.modRil fun r => { r with mbox := r.mbox.map fun m => if u.tag = some m.tag then put m else m }

/-- Store words one after the other, 8 bytes apart. -/
def storeWords (t : Nat) : Nat → List Word → State → State
  | _, [], s => s
  | x, v :: l, s => storeWords t (x + 8) l (store t x 8 v s)

/-! ### What an instruction may name (R295, R296, R329) -/

/-- Tenant code, and code that is not firmware. -/
def Thread.tenant (u : Thread) : Bool := decide (u.priv = .tenant)
def Thread.notFirmware (u : Thread) : Bool := decide (u.priv ≠ .firmware)

/-- A tenant's LD maps an extent (R296). -/
def State.ldMaps (s : State) (ld e : Nat) : Bool :=
  s.cap.dpaMap.any fun x => x.2.any fun m => decide (m.ld.toNat = ld) && decide (m.home = s.ident.devId) && decide (m.extent.toNat = e)

/-- A tenant names a DLPN range that does not lie wholly in extents its LD maps. -/
def State.foreignRange (s : State) (u : Thread) (first n : Nat) : Bool :=
  u.tenant && !((List.range ((first + n - 1) / 65536 - first / 65536 + 1)).all fun i => s.ldMaps u.ld (first / 65536 + i))

/-- A DLPN that names no extent homed here in OFFERED, ACTIVE or RELEASE_REQ (R329). -/
def State.badDlpn (s : State) (d : Nat) : Bool := decide (2 ^ 34 ≤ d) || !(s.extent (extentOf d)).counts

end Sys2Proof.Machine
end

