-- ==== Sys2Proof/Machine/RilCompute.lean ====
section
/-! DEFINITION. Rilia instructions of the system, integer, memory and branch groups (R322 to R328). -/
namespace Sys2Proof.Machine

/-! ### System group (R322) -/

/-- Fields that an instruction's definition marks unused must be zero (R316). -/
def unusedA (f : Fields) : Bool × Nat := (decide (f.a ≠ 0), trapIllegal)
def unusedB (f : Fields) : Bool × Nat := (decide (f.b ≠ 0), trapIllegal)
def unusedC (f : Fields) : Bool × Nat := (decide (f.c ≠ 0), trapIllegal)
def unusedL (f : Fields) : Bool × Nat := (decide (f.lit ≠ 0), trapIllegal)
def unusedFunc (f : Fields) : Bool × Nat := (decide (f.func ≠ 0), trapIllegal)

def execNop (t : Fin 32) (s : State) : Host.Outcome State Fault Refusal :=
  .next (instr (insKey 0 0) false t (fun f _ _ => [unusedA f, unusedB f, unusedC f]) (fun _ _ s => s) s)

/-- YIELD: the thread is not ready until every other ready thread of its core has issued once. -/
def execYield (t : Fin 32) (s : State) : Host.Outcome State Fault Refusal :=
  .next (instr (insKey 0 1) false t (fun f _ _ => [unusedA f, unusedB f, unusedC f])
    (fun _ _ s => s.modThread t fun u => { u with yieldFor := (coreMates t).filter s.threadReady }) s)

/-- FENCE: every earlier access and device operation of the thread has taken effect when the next instruction issues (R292).
DEDUCED, log 80. -/
def execFence (t : Fin 32) (s : State) : Host.Outcome State Fault Refusal :=
  .next (instr (insKey 0 2) false t (fun f _ _ => [unusedA f, unusedB f, unusedC f]) (fun _ _ s => s) s)

/-- HALT: the invocation ends and the thread is out of service (R304). -/
def execHalt (t : Fin 32) (s : State) : Host.Outcome State Fault Refusal :=
  .next (instr (insKey 0 3) false t (fun f u _ => [unusedA f, unusedB f, unusedC f, (u.notFirmware, trapPriv)])
    (fun _ _ s => endInvocation t .out s) s)

/-- TRAP: the trap whose code is the field c. -/
def execTrap (t : Fin 32) (s : State) : Host.Outcome State Fault Refusal :=
  .next (instr (insKey 0 4) false t
    (fun f _ _ => [unusedA f, unusedB f, (decide (f.c = 0 ∨ 10 < f.c), trapIllegal), (true, f.c)]) (fun _ _ s => s) s)

/-- TIME: the timebase, or the uptime. -/
def execTime (t : Fin 32) (s : State) : Host.Outcome State Fault Refusal :=
  .next (instr (insKey 0 5) false t (fun f _ _ => [unusedB f, (decide (1 < f.c), trapIllegal)])
    (fun f _ s => setReg t f.a (if f.c = 0 then s.time.tb else BitVec.ofNat 64 s.now) s) s)

/-- ERET: the invocation ends and the thread is free (R304). -/
def execEret (t : Fin 32) (s : State) : Host.Outcome State Fault Refusal :=
  .next (instr (insKey 0 6) false t (fun f _ _ => [unusedA f, unusedB f, unusedC f]) (fun _ _ s => endInvocation t .free s) s)

/-! ### Integer operations (R323, R324) -/

/-- An instruction that computes g[a] from g[b] and g[c]. -/
def aluOp (func t : Nat) (v : Word → Word → Word) (s : State) : State :=
  instr (insKey 1 func) false t (fun _ _ _ => []) (fun f u s => setReg t f.a (v (u.reg f.b) (u.reg f.c)) s) s

/-- One that uses g[b] only. -/
def aluOne (func t : Nat) (v : Word → Word) (s : State) : State :=
  instr (insKey 1 func) false t (fun f _ _ => [unusedC f]) (fun f u s => setReg t f.a (v (u.reg f.b)) s) s

/-- A truth value in a register. -/
def boolWord (b : Bool) : Word := if b then 1 else 0

/-- The shift amount of a register operand. -/
def shamt (x : Word) : Nat := (x.extractLsb' 0 6).toNat

/-- The number of set bits. -/
def popCount (x : Word) : Nat := ((List.range 64).filter fun i => x.getLsbD i).length

def execAdd (t : Fin 32) (s : State) : Host.Outcome State Fault Refusal := .next (aluOp 0 t (fun x y => x + y) s)
def execSub (t : Fin 32) (s : State) : Host.Outcome State Fault Refusal := .next (aluOp 1 t (fun x y => x - y) s)
def execAnd (t : Fin 32) (s : State) : Host.Outcome State Fault Refusal := .next (aluOp 2 t (fun x y => x &&& y) s)
def execOr (t : Fin 32) (s : State) : Host.Outcome State Fault Refusal := .next (aluOp 3 t (fun x y => x ||| y) s)
def execXor (t : Fin 32) (s : State) : Host.Outcome State Fault Refusal := .next (aluOp 4 t (fun x y => x ^^^ y) s)
def execShl (t : Fin 32) (s : State) : Host.Outcome State Fault Refusal := .next (aluOp 5 t (fun x y => x <<< shamt y) s)
def execShr (t : Fin 32) (s : State) : Host.Outcome State Fault Refusal := .next (aluOp 6 t (fun x y => x >>> shamt y) s)
def execSar (t : Fin 32) (s : State) : Host.Outcome State Fault Refusal := .next (aluOp 7 t (fun x y => x.sshiftRight (shamt y)) s)
def execSlt (t : Fin 32) (s : State) : Host.Outcome State Fault Refusal := .next (aluOp 8 t (fun x y => boolWord (x.slt y)) s)
def execSltu (t : Fin 32) (s : State) : Host.Outcome State Fault Refusal := .next (aluOp 9 t (fun x y => boolWord (x.ult y)) s)
def execSeq (t : Fin 32) (s : State) : Host.Outcome State Fault Refusal := .next (aluOp 10 t (fun x y => boolWord (x == y)) s)
def execMul (t : Fin 32) (s : State) : Host.Outcome State Fault Refusal := .next (aluOp 0x10 t (fun x y => x * y) s)
def execMulhu (t : Fin 32) (s : State) : Host.Outcome State Fault Refusal :=
  .next (aluOp 0x11 t (fun x y => BitVec.ofNat 64 (x.toNat * y.toNat / 2 ^ 64)) s)
def execDivu (t : Fin 32) (s : State) : Host.Outcome State Fault Refusal :=
  .next (aluOp 0x12 t (fun x y => if y = 0 then BitVec.allOnes 64 else x / y) s)
def execRemu (t : Fin 32) (s : State) : Host.Outcome State Fault Refusal :=
  .next (aluOp 0x13 t (fun x y => if y = 0 then x else x % y) s)
def execMin (t : Fin 32) (s : State) : Host.Outcome State Fault Refusal := .next (aluOp 0x18 t (fun x y => if x.slt y then x else y) s)
def execMax (t : Fin 32) (s : State) : Host.Outcome State Fault Refusal := .next (aluOp 0x19 t (fun x y => if x.slt y then y else x) s)
def execPopc (t : Fin 32) (s : State) : Host.Outcome State Fault Refusal :=
  .next (aluOne 0x20 t (fun x => BitVec.ofNat 64 (popCount x)) s)
def execClz (t : Fin 32) (s : State) : Host.Outcome State Fault Refusal :=
  .next (aluOne 0x21 t (fun x => BitVec.ofNat 64 (64 - bitlen x.toNat)) s)

/-- An instruction that computes g[a] from g[b] and the immediate. -/
def immOp (op sel t : Nat) (v : Word → Nat → Word) (s : State) : State :=
  instr (insKey op sel) false t (fun f _ _ => [(decide (op = 6) && decide (256 ≤ f.imm), trapIllegal)])
    (fun f u s => setReg t f.a (v (u.reg f.b) f.imm) s) s

def execAddi (t : Fin 32) (s : State) : Host.Outcome State Fault Refusal := .next (immOp 2 0 t (fun x i => x + sext 16 i) s)
def execAndi (t : Fin 32) (s : State) : Host.Outcome State Fault Refusal := .next (immOp 3 0 t (fun x i => x &&& zext i) s)
def execOri (t : Fin 32) (s : State) : Host.Outcome State Fault Refusal := .next (immOp 4 0 t (fun x i => x ||| zext i) s)
def execXori (t : Fin 32) (s : State) : Host.Outcome State Fault Refusal := .next (immOp 5 0 t (fun x i => x ^^^ zext i) s)
def execShli (t : Fin 32) (s : State) : Host.Outcome State Fault Refusal := .next (immOp 6 0 t (fun x i => x <<< (i % 64)) s)
def execShri (t : Fin 32) (s : State) : Host.Outcome State Fault Refusal := .next (immOp 6 1 t (fun x i => x >>> (i % 64)) s)
def execSari (t : Fin 32) (s : State) : Host.Outcome State Fault Refusal := .next (immOp 6 2 t (fun x i => x.sshiftRight (i % 64)) s)
def execSlti (t : Fin 32) (s : State) : Host.Outcome State Fault Refusal :=
  .next (immOp 7 0 t (fun x i => boolWord (x.slt (sext 16 i))) s)
def execLui (t : Fin 32) (s : State) : Host.Outcome State Fault Refusal :=
  .next (instr (insKey 8 0) false t (fun f _ _ => [unusedB f]) (fun f _ s => setReg t f.a (zext f.imm <<< 16) s) s)

/-! ### Loads and stores (R325, R326) -/

/-- The effective address. -/
def effAddr (f : Fields) (u : Thread) : Nat := (u.reg f.b + sext 16 f.imm).toNat

/-- A load of n bytes. -/
def loadOp (op n t : Nat) (s : State) : State :=
  instr (insKey op 0) false t (fun f u s => s.accessTraps u (effAddr f u) n)
    (fun f u s => setReg t f.a (s.load t (effAddr f u) n) s) s

/-- A store of n bytes. -/
def storeOp (op n t : Nat) (s : State) : State :=
  instr (insKey op 0) false t (fun f u s => s.accessTraps u (effAddr f u) n)
    (fun f u s => store t (effAddr f u) n (u.reg f.a) s) s

def execLd8 (t : Fin 32) (s : State) : Host.Outcome State Fault Refusal := .next (loadOp 0x10 1 t s)
def execLd16 (t : Fin 32) (s : State) : Host.Outcome State Fault Refusal := .next (loadOp 0x11 2 t s)
def execLd32 (t : Fin 32) (s : State) : Host.Outcome State Fault Refusal := .next (loadOp 0x12 4 t s)
def execLd64 (t : Fin 32) (s : State) : Host.Outcome State Fault Refusal := .next (loadOp 0x13 8 t s)
def execSt8 (t : Fin 32) (s : State) : Host.Outcome State Fault Refusal := .next (storeOp 0x14 1 t s)
def execSt16 (t : Fin 32) (s : State) : Host.Outcome State Fault Refusal := .next (storeOp 0x15 2 t s)
def execSt32 (t : Fin 32) (s : State) : Host.Outcome State Fault Refusal := .next (storeOp 0x16 4 t s)
def execSt64 (t : Fin 32) (s : State) : Host.Outcome State Fault Refusal := .next (storeOp 0x17 8 t s)

/-- The traps of an atomic operation on the word at g[b] (R326). -/
def atomicTraps (f : Fields) (u : Thread) : List (Bool × Nat) :=
  let x := (u.reg f.b).toNat
  [unusedFunc f, (addrPriv u x, trapPriv), (decide (x % 8 ≠ 0), trapAlign),
   (decide (x < 0x400000) || decide (0x800000 ≤ x), trapBounds)]

/-- CAS: the word becomes g[c] when it equals g[a]; g[a] takes what the word held. -/
def execCas (t : Fin 32) (s : State) : Host.Outcome State Fault Refusal :=
  .next (instr (insKey 0x18 0) false t (fun f u _ => atomicTraps f u)
    (fun f u s =>
      let x := (u.reg f.b).toNat
      let old := s.load t x 8
      setReg t f.a old (if old = u.reg f.a then store t x 8 (u.reg f.c) s else s)) s)

/-- FADD: the word rises by g[c]; g[a] takes what it held. -/
def execFadd (t : Fin 32) (s : State) : Host.Outcome State Fault Refusal :=
  .next (instr (insKey 0x19 0) false t (fun f u _ => atomicTraps f u)
    (fun f u s =>
      let x := (u.reg f.b).toNat
      let old := s.load t x 8
      setReg t f.a old (store t x 8 (old + u.reg f.c) s)) s)

/-! ### Branches and jumps (R321, R327, R328) -/

/-- The target of a relative transfer: pc + 4 × a signed offset, as an integer. -/
def target (u : Thread) (off : Word) : Int := (u.pc.toNat : Int) + 4 * off.toInt

/-- A target outside the instruction's region, or its tenant's units (R294, R321). -/
def State.badTarget (s : State) (u : Thread) (x : Int) : Bool := decide (x < 0) || !s.inText u x.toNat

/-- Control goes to a region address. -/
def jumpTo (t : Nat) (x : Int) (s : State) : State := s.modThread t fun u => { u with pc := BitVec.ofNat 19 x.toNat }

/-- A branch that is taken when the comparison of g[a] and g[b] holds; only a taken branch traps on its target. -/
def branchOp (op t : Nat) (c : Word → Word → Bool) (s : State) : State :=
  let taken := fun (f : Fields) (u : Thread) => c (u.reg f.a) (u.reg f.b)
  instr (insKey op 0) false t (fun f u s => [(taken f u && s.badTarget u (target u (sext 16 f.imm)), trapPriv)])
    (fun f u s => if taken f u then jumpTo t (target u (sext 16 f.imm)) s else s) s

def execBeq (t : Fin 32) (s : State) : Host.Outcome State Fault Refusal := .next (branchOp 0x20 t (fun x y => x == y) s)
def execBne (t : Fin 32) (s : State) : Host.Outcome State Fault Refusal := .next (branchOp 0x21 t (fun x y => x != y) s)
def execBlt (t : Fin 32) (s : State) : Host.Outcome State Fault Refusal := .next (branchOp 0x22 t (fun x y => x.slt y) s)
def execBge (t : Fin 32) (s : State) : Host.Outcome State Fault Refusal := .next (branchOp 0x23 t (fun x y => !x.slt y) s)
def execBltu (t : Fin 32) (s : State) : Host.Outcome State Fault Refusal := .next (branchOp 0x24 t (fun x y => x.ult y) s)
def execBgeu (t : Fin 32) (s : State) : Host.Outcome State Fault Refusal := .next (branchOp 0x25 t (fun x y => !x.ult y) s)

/-- The link value: the address of the instruction after this one. -/
def linkValue (u : Thread) : Word := zext (u.pc.toNat + 4)

def execJ (t : Fin 32) (s : State) : Host.Outcome State Fault Refusal :=
  .next (instr (insKey 0x26 0) false t (fun f u s => [unusedA f, (s.badTarget u (target u (sext 21 f.long)), trapPriv)])
    (fun f u s => jumpTo t (target u (sext 21 f.long)) s) s)

def execJal (t : Fin 32) (s : State) : Host.Outcome State Fault Refusal :=
  .next (instr (insKey 0x27 0) false t (fun f u s => [(s.badTarget u (target u (sext 21 f.long)), trapPriv)])
    (fun f u s => jumpTo t (target u (sext 21 f.long)) (setReg t f.a (linkValue u) s)) s)

def execJr (t : Fin 32) (s : State) : Host.Outcome State Fault Refusal :=
  .next (instr (insKey 0x28 0) false t
    (fun f u s => [unusedC f, unusedFunc f, (s.badTarget u ((u.reg f.b).toNat : Int), trapPriv),
      (decide ((u.reg f.b).toNat % 4 ≠ 0), trapAlign)])
    (fun f u s => jumpTo t ((u.reg f.b).toNat : Int) (setReg t f.a (linkValue u) s)) s)

/-! ### Words that are no instruction (R308, R317) -/

/-- A word with an unlisted opcode or selection, opcode 0x3F among them: the thread traps ILLEGAL. -/
def execIllegalOpcode (t : Fin 32) (s : State) : Host.Outcome State Fault Refusal :=
  .next (if s.mayIssue t then
      let u := s.thread t
      let f := fieldsOf ((s.bank u.bank).fetch u.pc)
      if listedKeys.contains f.key then s else takeTrap t trapIllegal (issueWord t f.word s)
    else s)

end Sys2Proof.Machine
end

