-- ==== Sys2Proof/Machine/RilMove.lean ====
section
/-! DEFINITION. Rilia instructions on descriptors, the movers and the access sketch (R329 to R335). -/
namespace Sys2Proof.Machine

/-! ### Descriptor group (R329, R330) -/

/-- The instruction at the thread's program counter needs a metadata-cache line whose set has no way it may take: it is held (R130). -/
def State.metaHolds (s : State) (t key : Nat) : Bool :=
  let u := s.thread t
  let f := fieldsOf ((s.bank u.bank).fetch u.pc)
  let d := (u.reg f.b).toNat
  decide (f.key = key) && !s.badDlpn d && decide ((lookupMeta d 0 0 s).1 = .wait)

/-- Run an instruction that reads a descriptor, once its line can be in the metadata cache. -/
def metaInstr (key t : Nat) (traps : Fields → Thread → State → List (Bool × Nat)) (run : Fields → Thread → State → State) (s : State) :
    State :=
  if s.metaHolds t key then s else instr key true t traps run s

/-- The DLPN operand. -/
def dlpnOf (f : Fields) (u : Thread) : Nat := (u.reg f.b).toNat

/-- Word n of a remote descriptor, as this home knows the page; where the guest keeps the run is open here (R439). -/
def State.remoteWord (s : State) (d n : Nat) : Word :=
  let x := Tab.get (0, 0#20) s.const.farForms d
  let w0 : BitVec 64 := x.2 ++ (s.desc d).bpoison ++ BitVec.ofNat 34 d ++ s.ident.devId ++ BitVec.ofNat 4 x.1
  let w1 : BitVec 48 := 0#10 ++ (Config.freeWord s.free).extractLsb' 0 38
  let bits : BitVec 112 := w1 ++ w0
  if n = 2 then w0 else crc16 ((List.range 14).map fun i => bits.extractLsb' (8 * i) 8) ++ w1

/-- A word of a descriptor as DLD returns it: at tenant level without KEY_SLOT and LOCATION (R296). -/
def State.descWord (s : State) (u : Thread) (d n : Nat) : Word :=
  let w := encodeDesc (s.desc d)
  if n = 0 then (if u.tenant then w.extractLsb' 0 64 &&& 0xFF#64 else w.extractLsb' 0 64)
  else if n = 1 then w.extractLsb' 64 64
  else if (s.desc d).state = .far then s.remoteWord d n
  else 0

/-- The guest of a FAR page is lost. -/
def State.guestLost (s : State) (d : Nat) : Bool :=
  decide ((s.desc d).state = .far) && decide ((s.member (locGuest (s.desc d).location)).state = .lost)

def execDld (t : Fin 32) (metaA metaB : BitVec 2) (s : State) : Host.Outcome State Fault Refusal :=
  .next (metaInstr (insKey 0x30 0) t
    (fun f u s => let d := dlpnOf f u
      [unusedC f, (decide (3 < f.lit), trapIllegal), (s.foreignRange u d 1 || (u.tenant && decide (1 < f.lit)), trapPriv),
       (s.badDlpn d, trapBounds), (decide (1 < f.lit) && s.guestLost d, trapFar)])
    (fun f u s => let d := dlpnOf f u
      let s := (lookupMeta d metaA metaB s).2
      setReg t f.a (s.descWord u d f.lit) (if f.lit = 3 then s.takeFree else s)) s)

/-- The changes that DCAS allows (R330). -/
def dcasAllowed (d : Desc) (code : Nat) (loc : BitVec 44) (len : BitVec 20) : Bool :=
  let bare := decide (d.state ∈ [PageState.unmapped, .zero, .pattern])
  (bare && decide (code = 0 ∨ code = 4) && decide (loc = 0) && decide (len = 0)) || (bare && decide (code = 5)) ||
    (decide (code = d.state.code) && decide (loc = d.location) && decide (len = d.blockLen))

/-- What DCAS compares: word 0 and word 1 without its CRC. -/
def dcasMatch (w : BitVec 128) (lo hi : Word) : Bool :=
  decide (w.extractLsb' 0 64 = lo) && decide (w.extractLsb' 64 48 = hi.extractLsb' 0 48)

/-- DCAS: 1 MISMATCH, 2 BUSY, 3 REFUSED at once; SWAPPED once copy B is written, until when the thread waits (R129, R330). -/
def execDcas (t : Fin 32) (metaA metaB : BitVec 2) (s : State) : Host.Outcome State Fault Refusal :=
  .next (metaInstr (insKey 0x30 1) t
    (fun f u s => let d := dlpnOf f u
      let new := decodeDesc (u.reg (f.c + 1) ++ u.reg f.c)
      [(decide (f.a % 2 = 1) || decide (f.c % 2 = 1) || decide (1 < f.lit), trapIllegal), (u.tenant, trapPriv),
       (s.badDlpn d, trapBounds), ((s.desc d).lock && decide (f.lit = 1), trapDescLock),
       (!(s.desc d).lock && dcasMatch (encodeDesc (s.desc d)) (u.reg f.a) (u.reg (f.a + 1)) &&
          decide (new.keySlot ≠ (s.extent (extentOf d)).keySlot), trapKey)])
    (fun f u s => let d := dlpnOf f u
      let s := (lookupMeta d metaA metaB s).2
      let old := s.desc d
      let w : BitVec 128 := u.reg (f.c + 1) ++ u.reg f.c
      let new := decodeDesc w
      if old.lock then setReg t f.a 2 s
      else if !dcasMatch (encodeDesc old) (u.reg f.a) (u.reg (f.a + 1)) then setReg t f.a 1 s
      else if s.gathered d then setReg t f.a 2 s
      else if !dcasAllowed old (w.extractLsb' 0 4).toNat new.location new.blockLen then setReg t f.a 3 s
      else
        let s := setDesc d { old with state := new.state, keySlot := new.keySlot, location := new.location, blockLen := new.blockLen } s
        let s := s.modMeta fun m =>
          let x := (Tab.get none m.dirty (d / 4)).getD {}
          { m with dirty := Tab.set none m.dirty (d / 4) (some { x with acks := x.acks ++ [t.val] }) }
        (setReg t f.a 0 s).modThread t fun v => { v with state := .deviceOp }) s)

/-- A range of descriptors from g[b] for the count in g[c][15:0] (R319). -/
def rangeCount (f : Fields) (u : Thread) : Nat := ((u.reg f.c).extractLsb' 0 16).toNat + 1
def rangeTraps (f : Fields) (u : Thread) (s : State) (reserved : Bool) : Bool :=
  let d := dlpnOf f u
  reserved || s.badDlpn d || decide (extentOf d ≠ extentOf (d + rangeCount f u - 1))

/-- Point the tree of a cached line's set at the line, unless it must stay (R130); the count of lines marked. -/
def markFirst (k : Nat) (r : Nat × State) : Nat × State :=
  let s := r.2
  let n := k % s.metaSets
  let m := s.metaSet n
  match (List.range 16).find? fun w => m.ways.getD w none = some k with
  | none => r
  | some w =>
    if s.replaceable k then
      (r.1 + 1, s.modMeta fun x => { x with sets := Tab.set {} x.sets n { m with tree := treeMark false w m.tree } })
    else r

/-- DREL: the cached lines of a range are the first to replace. -/
def execDrel (t : Fin 32) (s : State) : Host.Outcome State Fault Refusal :=
  .next (instr (insKey 0x30 2) true t
    (fun f u s => [unusedL f, (u.tenant, trapPriv), (rangeTraps f u s (decide ((u.reg f.c).extractLsb' 16 48 ≠ 0)), trapBounds)])
    (fun f u s => let d := dlpnOf f u
      let last := d + rangeCount f u - 1
      let r := ((List.range (last / 4 - d / 4 + 1)).map fun i => d / 4 + i).foldl (fun r k => markFirst k r) (0, s)
      setReg t f.a (BitVec.ofNat 64 r.1) r.2) s)

/-- The lowest DLPN of a range whose state is in the mask; each line is looked up as it is reached. -/
def findState (mask : BitVec 8) : Nat → Nat → List (BitVec 2 × BitVec 2) → State → Option Nat × State
  | 0, _, _, s => (none, s)
  | n + 1, d, errors, s =>
    let r := lookupMeta d (errors.headD (0, 0)).1 (errors.headD (0, 0)).2 s
    let s := r.2
    if mask.getLsbD (s.desc d).state.code then (some d, s)
    else findState mask n (d + 1) (if r.1 = .hit then errors else errors.drop 1) s

/-- DFIND: the lowest DLPN whose STATE bit is set in the mask, or all ones. -/
def execDfind (t : Fin 32) (errors : List (BitVec 2 × BitVec 2)) (s : State) : Host.Outcome State Fault Refusal :=
  .next (metaInstr (insKey 0x30 3) t
    (fun f u s => [(s.foreignRange u (dlpnOf f u) (rangeCount f u), trapPriv),
      (rangeTraps f u s (decide ((u.reg f.c).extractLsb' 16 48 ≠ 0)), trapBounds)])
    (fun f u s =>
      let r := findState (BitVec.ofNat 8 f.lit) (rangeCount f u) (dlpnOf f u) errors s
      setReg t f.a ((r.1.map (BitVec.ofNat 64 ·)).getD (BitVec.allOnes 64)) r.2) s)

/-! ### Mover group (R306, R331 to R333) -/

/-- The completion queue that L names: L = 0 names none, L from 1 to 31 is reserved. -/
def doneQueue (f : Fields) : Option Nat := if f.lit = 0 then none else some f.lit
def badDoneQueue (f : Fields) : Bool := decide (1 ≤ f.lit) && decide (f.lit ≤ 31)

/-- Keep the tickets of the invocation's last 64 operations (R332). -/
def keepTicket (t : Nat) (k : BitVec 16) (s : State) : State :=
  let l := k :: (s.thread t).tickets
  (dropTickets (l.drop 64) s).modThread t fun u => { u with tickets := l.take 64 }

/-- Queue an operation on a quadrant's mover, and give its ticket to register a. -/
def queueOp (t q : Nat) (op : MoverOp) (d : Nat) (f : Fields) (s : State) : State :=
  let k : BitVec 16 := BitVec.ofNat 2 q ++ (s.quad q).nextTicket
  let s := s.modQuad q fun x => { x with jobs := x.jobs ++ [{ dlpn := d, op, ticket := some k }], nextTicket := x.nextTicket + 1 }
  let s := s.modRil fun r => { r with tickets := Tab.set none r.tickets k.toNat (some { thread := some t, queue := doneQueue f, dlpn := d }) }
  setReg t f.a (k.setWidth 64) (keepTicket t k s)

/-- The quadrant whose mover takes an operation on a page (R174): a recall goes to its destination's. -/
def State.opQuad (s : State) (op : MoverOp) (d : Nat) : Nat :=
  match op with
  | .move c => if (s.desc d).state = .far then chanQuad c else s.pageQuad d
  | _ => s.pageQuad d

/-- A mover instruction on the page g[b]. -/
def moverInstr (sub t : Nat) (metaA metaB : BitVec 2) (op : Fields → Thread → MoverOp) (more : Fields → Thread → List (Bool × Nat))
    (s : State) : State :=
  metaInstr (insKey 0x31 sub) t
    (fun f u s => let d := dlpnOf f u
      (more f u).filter (·.2 = trapIllegal) ++ [(u.tenant, trapPriv), (s.badDlpn d || badDoneQueue f, trapBounds)] ++
        (more f u).filter (·.2 = trapBounds) ++
        [(decide (4096 ≤ (s.quad (s.opQuad (op f u) d)).jobs.length), trapQueueFull)])
    (fun f u s => let d := dlpnOf f u
      let s := (lookupMeta d metaA metaB s).2
      queueOp t (s.opQuad (op f u) d) (op f u) d f s) s

/-- The destination operand of MOVE (R331). -/
def moveOp (f : Fields) (u : Thread) : MoverOp :=
  let x := u.reg f.c
  if x.getLsbD 7 then .demote (x.extractLsb' 0 2).toNat else .move (x.extractLsb' 0 5).toNat
def badMoveOp (f : Fields) (u : Thread) : Bool :=
  let x := u.reg f.c
  decide (x.extractLsb' 8 56 ≠ 0) || decide (x.extractLsb' 5 2 ≠ 0) ||
    (if x.getLsbD 7 then decide (x.extractLsb' 2 3 ≠ 0) else decide (23 < (x.extractLsb' 0 5).toNat))

def execMove (t : Fin 32) (metaA metaB : BitVec 2) (s : State) : Host.Outcome State Fault Refusal :=
  .next (moverInstr 0 t metaA metaB moveOp (fun f u => [(badMoveOp f u, trapBounds)]) s)
def execPack (t : Fin 32) (metaA metaB : BitVec 2) (s : State) : Host.Outcome State Fault Refusal :=
  .next (moverInstr 1 t metaA metaB (fun _ _ => .pack) (fun f _ => [unusedC f]) s)
def execUnpack (t : Fin 32) (metaA metaB : BitVec 2) (s : State) : Host.Outcome State Fault Refusal :=
  .next (moverInstr 2 t metaA metaB (fun _ _ => .unpack) (fun f _ => [unusedC f]) s)
def execZero (t : Fin 32) (metaA metaB : BitVec 2) (s : State) : Host.Outcome State Fault Refusal :=
  .next (moverInstr 3 t metaA metaB (fun _ _ => .zero) (fun f _ => [unusedC f]) s)

/-- EVAC: the outcome of starting or cancelling the evacuation of channel g[b] (R333). -/
def execEvac (t : Fin 32) (s : State) : Host.Outcome State Fault Refusal :=
  .next (instr (insKey 0x31 4) true t
    (fun f u _ => let fl := u.reg f.c
      [(u.tenant || (u.notFirmware && fl.getLsbD 1 && !fl.getLsbD 2), trapPriv),
       (decide (23 < (u.reg f.b).toNat) || decide (fl.extractLsb' 3 61 ≠ 0) || badDoneQueue f, trapBounds)])
    (fun f u s => let c := (u.reg f.b).toNat
      let fl := u.reg f.c
      if fl.getLsbD 2 then
        let r := cancelEvac c s
        setReg t f.a (BitVec.ofNat 64 r.1) r.2
      else
        let code := s.evacCode c (fl.getLsbD 1)
        setReg t f.a (BitVec.ofNat 64 code)
          (if code = 0 then acceptEvac c (fl.getLsbD 1) (fl.getLsbD 0) false (doneQueue f) s else s)) s)

/-- MWAIT: the code of a ticket of this invocation, at once or when it completes (R332). -/
def execMwait (t : Fin 32) (s : State) : Host.Outcome State Fault Refusal :=
  .next (instr (insKey 0x31 5) true t
    (fun f u _ => [unusedC f, unusedL f, (u.tenant, trapPriv),
      (!(u.tickets.any fun k => k.setWidth 64 == u.reg f.b), trapBounds)])
    (fun f u s => let k := (u.reg f.b).setWidth 16
      match (Tab.get none s.ril.tickets k.toNat).bind (·.code) with
      | some code => setReg t f.a (BitVec.ofNat 64 code) s
      | none => s.modThread t fun v => { v with state := .mwait, mwaitTicket := k, mwaitReg := f.a }) s)

/-! ### Magnitude group (R182, R183, R334, R335) -/

/-- The thresholds of R182. -/
def magThresholds : List Nat := [0, 1, 2, 3, 4, 6, 8, 12, 16, 24, 32, 48, 64, 96, 128, 192]

/-- The magnitude for a count. DEDUCED, log 71. -/
def magnitudeOf (c : Nat) : Nat := 16 - (magThresholds.filter fun h => decide (h ≤ c)).length

/-- The magnitude of a page, and the state with its counters' parity errors put right (R181, R182). -/
def magnitude (d : Nat) (s : State) : Nat × State :=
  let idx := (List.range 4).map (sketchIndex d)
  let good := idx.filter fun i => !s.sketch.parity.contains i
  let s := forEach (idx.filter fun i => s.sketch.parity.contains i) fixParity s
  let counts := good.map fun i => (Tab.get 0 s.sketch.counters i).toNat
  (magnitudeOf (match counts with
    | [] => 0
    | c :: l => l.foldl min c), s)

def execMagr (t : Fin 32) (s : State) : Host.Outcome State Fault Refusal :=
  .next (instr (insKey 0x32 0) true t
    (fun f u s => [unusedC f, unusedL f, (s.foreignRange u (dlpnOf f u) 1, trapPriv), (s.badDlpn (dlpnOf f u), trapBounds)])
    (fun f u s =>
      let r := magnitude (dlpnOf f u) s
      setReg t f.a (BitVec.ofNat 64 r.1) r.2) s)

/-- The region of R290 that an address lies in. -/
def dataRegion (x : Nat) : Nat :=
  if x < 0x10000 then 0
  else if x < 0x400000 then 5
  else if x < 0x500000 then 1
  else if x < 0x700000 then 2
  else if x < 0x800000 then 3
  else if 0x1000000 ≤ x ∧ x < 0x1100000 then 4
  else 5

/-- The traps of a buffer of n bytes at x: PRIV, ALIGN, BOUNDS (R319, R335, R344). -/
def State.bufferTraps (s : State) (u : Thread) (x n : Nat) : List (Bool × Nat) :=
  let bad := s.addrUnmapped u x || s.addrUnmapped u (x + n - 1) || decide (dataRegion x ≠ dataRegion (x + n - 1))
  [(addrPriv u x || addrPriv u (x + n - 1), trapPriv), (decide (x % 8 ≠ 0), trapAlign), (bad, trapBounds)]

/-- The loop of R335: the pages at or below the bound, up to the capacity; and the next page to examine. -/
def scanPages (bound : Nat) : Nat → Nat → Nat → State → List Word × Nat × State
  | 0, p, _, s => ([], p, s)
  | _ + 1, p, 0, s => ([], p, s)
  | n + 1, p, cap + 1, s =>
    let m := magnitude p s
    if m.1 ≤ bound then
      let r := scanPages bound n (p + 1) cap m.2
      (BitVec.ofNat 64 p :: r.1, r.2)
    else scanPages bound n (p + 1) (cap + 1) m.2

/-- The entries that a MAGSCAN buffer holds. -/
def scanCap (f : Fields) (u : Thread) : Nat := ((u.reg f.c).extractLsb' 16 9).toNat + 1

def execMagscan (t : Fin 32) (s : State) : Host.Outcome State Fault Refusal :=
  .next (instr (insKey 0x32 1) true t
    (fun f u s => let b := s.bufferTraps u (u.reg f.a).toNat (8 * scanCap f u + 8)
      [(decide (15 < f.lit), trapIllegal), (s.foreignRange u (dlpnOf f u) (rangeCount f u), trapPriv)] ++ b ++
        [(rangeTraps f u s (decide ((u.reg f.c).extractLsb' 25 39 ≠ 0)), trapBounds)])
    (fun f u s =>
      let r := scanPages f.lit (rangeCount f u) (dlpnOf f u) (scanCap f u) s
      let x := (u.reg f.a).toNat
      setReg t f.a (BitVec.ofNat 64 r.2.1) (storeWords t x (BitVec.ofNat 64 r.1.length :: r.1) r.2.2)) s)

def execMagdecay (t : Fin 32) (s : State) : Host.Outcome State Fault Refusal :=
  .next (instr (insKey 0x32 2) true t (fun f u _ => [unusedA f, unusedB f, unusedC f, unusedL f, (u.tenant, trapPriv)])
    (fun _ _ s => startSweep s) s)

end Sys2Proof.Machine
end

