-- ==== Sys2Proof/Machine/RilPolicy.lean ====
section
/-! DEFINITION. Rilia instructions on QoS profiles, tallies, capacity and keys (R211, R336, R337, R339, R341 to R345). -/
namespace Sys2Proof.Machine

/-! ### QoS group (R336, R337, R391) -/

/-- The LD index operand, and whether it is reserved. -/
def ldOperand (f : Fields) (u : Thread) : Nat := (u.reg f.b).toNat
def State.badLd (s : State) (i : Nat) : Bool := decide (255 < i) || !s.ldExists i

/-- QSET: stage a value; a value staged before for the same parameter is replaced. -/
def execQset (t : Fin 32) (s : State) : Host.Outcome State Fault Refusal :=
  .next (instr (insKey 0x33 0) true t
    (fun f u s => let i := ldOperand f u
      let again := u.staged.any fun e => decide (e.1 = i) && decide (e.2.1 = f.lit)
      [unusedA f, (decide (10 < f.lit), trapIllegal), (u.tenant, trapPriv),
       (s.badLd i || !paramOk f.lit (u.reg f.c).toNat, trapBounds), (decide (64 ≤ u.staged.length) && !again, trapQuota)])
    (fun f u s => let i := ldOperand f u
      let e := (i, f.lit, (u.reg f.c).toNat)
      s.modThread t fun v => { v with staged := (v.staged.filter fun x => decide (x.1 ≠ i) || decide (x.2.1 ≠ f.lit)) ++ [e] }) s)

def execQget (t : Fin 32) (s : State) : Host.Outcome State Fault Refusal :=
  .next (instr (insKey 0x33 1) true t
    (fun f u s => let i := ldOperand f u
      [unusedC f, (decide (10 < f.lit), trapIllegal), (u.tenant && decide (i ≠ u.ld), trapPriv), (s.badLd i, trapBounds)])
    (fun f u s => setReg t f.a (BitVec.ofNat 64 (s.paramWith s.qos.pending (ldOperand f u) f.lit)) s) s)

/-- A committed set that has not taken effect yet does so before the next one is judged. -/
def settleSet (s : State) : State :=
  if s.qos.pending.isEmpty then s else (applySet s.qos.pending s).modQos fun q => { q with pending := [] }

/-- QCOMMIT: the staged set is judged as one unit, applies from the next 8 ns tick or not at all, and the staging is empty. -/
def execQcommit (t : Fin 32) (s : State) : Host.Outcome State Fault Refusal :=
  .next (instr (insKey 0x33 2) true t (fun f u _ => [unusedB f, unusedC f, unusedL f, (u.tenant, trapPriv)])
    (fun f u s =>
      let s := s.modThread t fun v => { v with staged := [] }
      if u.staged.isEmpty then setReg t f.a 0 s
      else
        let s := settleSet s
        let r := s.judgeSet u.staged
        setReg t f.a (BitVec.ofNat 64 r) (if r = 0 then s.modQos fun q => { q with pending := u.staged, pendingAt := s.now } else s)) s)

/-! ### Tallies (R339) -/

/-- TALLY: one sample of a software source. -/
def execTally (t : Fin 32) (s : State) : Host.Outcome State Fault Refusal :=
  .next (instr (insKey 0x35 2) true t
    (fun f u _ => [unusedA f, unusedL f, (u.tenant, trapPriv), (decide (63 < (u.reg f.b).toNat), trapBounds)])
    (fun f u s => sampleTally (u.reg f.b).toNat (u.reg f.c) 0 0 s) s)

/-! ### Capacity group (R341 to R344) -/

/-- The operands of EXTGRANT that are reserved. -/
def badGrant (f : Fields) (u : Thread) : Bool :=
  let x := u.reg f.c
  decide ((u.reg f.b).extractLsb' 32 32 ≠ 0) || decide (x.extractLsb' 28 36 ≠ 0) ||
    (if x.getLsbD 27 then decide (x.extractLsb' 18 9 ≠ 0)
     else decide (x.extractLsb' 22 2 ≠ 0) || decide (x.extractLsb' 12 4 ≠ 0) ||
       (x.getLsbD 21 && decide (23 < (x.extractLsb' 16 5).toNat)))

/-- What EXTGRANT asks for (R342). -/
def grantOf (f : Fields) (u : Thread) : Grant :=
  let x := u.reg f.c
  let ld := ((u.reg f.b).extractLsb' 24 8).toNat
  let block := ((u.reg f.b).extractLsb' 0 24).toNat
  let slot := u.ksel.getD 0
  if x.getLsbD 27 then
    { ld, block, count := 1, map := some (x.extractLsb' 0 18).toNat, slot, queue := doneQueue f }
  else
    { ld, block, count := (x.extractLsb' 0 12).toNat + 1, loaned := x.getLsbD 24, fixed := x.getLsbD 25, packed := x.getLsbD 26
      fill := if x.getLsbD 21 then some (x.extractLsb' 16 5).toNat else none, slot, queue := doneQueue f }

/-- What EXTGRANT puts in g[a]: the code, and the first extent number of a grant. -/
def grantWord (code first : Nat) : Word := BitVec.ofNat 64 (code + if code = 0 then 256 * first else 0)

/-- EXTGRANT: admission decides; at a companion the thread waits for the polestar's answer (R342, R431). -/
def execExtgrant (t : Fin 32) (s : State) : Host.Outcome State Fault Refusal :=
  .next (instr (insKey 0x37 0) true t
    (fun f u s => let g := grantOf f u
      [(u.tenant, trapPriv), (badGrant f u || badDoneQueue f, trapBounds),
       (!(u.ksel.isSome && s.keyGives g.slot g.ld), trapKey)])
    (fun f u s =>
      match askAdmission (grantOf f u) (some (t.val, f.a)) none s with
      | (some r, s) => setReg t f.a (grantWord r.1 r.2) s
      | (none, s) => s.modThread t fun v => { v with state := .deviceOp, resultReg := f.a }) s)

/-- The result of EXTRECALL, the first that applies in the order 1, 4, 2, 3 (R343). -/
def State.recallCode (s : State) (e action : Nat) : Nat :=
  let listed := s.cap.releaseList.contains e
  if (s.extent e).state ≠ .active then 1
  else if (action = 0 && listed) || (action = 2 && !listed) then 4
  else if action = 0 && !(s.extent e).loaned then 2
  else if action = 0 && decide (1024 ≤ s.cap.releaseList.length) then 3
  else 0

def execExtrecall (t : Fin 32) (s : State) : Host.Outcome State Fault Refusal :=
  .next (instr (insKey 0x37 1) true t
    (fun f u _ => [unusedC f, (decide (2 < f.lit), trapIllegal), (u.tenant, trapPriv), (decide (2 ^ 18 ≤ (u.reg f.b).toNat), trapBounds)])
    (fun f u s => let e := (u.reg f.b).toNat
      let code := s.recallCode e f.lit
      let s := if code ≠ 0 then s
        else if f.lit = 0 then s.modCap fun c => { c with releaseList := c.releaseList ++ [e] }
        else if f.lit = 1 then requestRelease e s
        else s.modCap fun c => { c with releaseList := c.releaseList.erase e }
      setReg t f.a (BitVec.ofNat 64 code) s) s)

/-- CAP_STATUS (R147). -/
def State.capStatus (s : State) : Word :=
  BitVec.ofNat 64 (flag s.cap.distress + 2 * flag s.cap.poolExhausted + 4 * flag s.cap.shortfall + 8 * flag s.frozen +
    256 * flag s.cap.distressSeen + 512 * flag s.cap.unstoredSeen + 2 ^ 32 * s.cap.unstored.toNat)

/-- The ten words of CAPQ, from one instant (R137, R344). -/
def State.capSnapshot (s : State) : List Word :=
  ([s.capP, s.capF, s.capAR, s.capLU, s.cap.g, s.cap.z, s.cap.m].map (BitVec.ofNat 64 ·)) ++
    [BitVec.ofInt 64 s.capU, BitVec.ofNat 64 s.logicalExtents, BitVec.ofNat 64 s.logicalCap]

def execCapq (t : Fin 32) (s : State) : Host.Outcome State Fault Refusal :=
  .next (instr (insKey 0x37 2) true t
    (fun f u s => [unusedC f, unusedL f, (u.tenant, trapPriv)] ++ s.bufferTraps u (u.reg f.b).toNat 80)
    (fun f u s => setReg t f.a (s.capStatus &&& 0xF#64) (storeWords t (u.reg f.b).toNat s.capSnapshot s)) s)

/-! ### Key group (R211, R345) -/

/-- A slot that grants may name: not slot 0, and LOADED or BOUND. -/
def State.slotUsable (s : State) (k : Nat) : Bool :=
  decide (k ≠ 0) && (decide ((s.keySlot k).state = .loaded) || decide ((s.keySlot k).state = .bound))

/-- Zeroize a slot. -/
def clearKey (k : Nat) (s : State) : State := s.modKeySlot k fun _ => {}

def execKsel (t : Fin 32) (s : State) : Host.Outcome State Fault Refusal :=
  .next (instr (insKey 0x38 0) true t
    (fun f u s => let k := (u.reg f.b).toNat
      [unusedA f, unusedC f, unusedL f, (u.tenant, trapPriv), (decide (4095 < k), trapBounds), (!s.slotUsable k, trapKey)])
    (fun f u s => s.modThread t fun v => { v with ksel := some (u.reg f.b).toNat }) s)

/-- The staged key with a handle. -/
def State.stagedKey (s : State) (h : Word) : Option Staged := s.keys.staged.find? fun k => k.handle.setWidth 64 == h

/-- KLOAD: a staged key moves into an EMPTY slot. -/
def execKload (t : Fin 32) (s : State) : Host.Outcome State Fault Refusal :=
  .next (instr (insKey 0x38 1) true t
    (fun f u s => let k := (u.reg f.c).toNat
      [unusedA f, unusedL f, (u.notFirmware, trapPriv), (decide (4095 < k), trapBounds),
       (decide (k = 0) || (s.stagedKey (u.reg f.b)).isNone || decide ((s.keySlot k).state ≠ .empty), trapKey)])
    (fun f u s =>
      match s.stagedKey (u.reg f.b) with
      | none => s
      | some x =>
        let s := s.modKeys fun k => { k with staged := k.staged.filter (· != x), loads := k.loads + 1 }
        s.modKeySlot (u.reg f.c).toNat fun _ => { state := .loaded, owner := x.owner, key := x.key, load := s.keys.loads }) s)

/-- KZERO: a LOADED slot is zeroized; an EMPTY one is left. -/
def execKzero (t : Fin 32) (s : State) : Host.Outcome State Fault Refusal :=
  .next (instr (insKey 0x38 2) true t
    (fun f u s => let k := (u.reg f.b).toNat
      [unusedA f, unusedC f, unusedL f, (u.tenant, trapPriv), (decide (4095 < k), trapBounds),
       (decide (k = 0) || decide ((s.keySlot k).state = .bound ∨ (s.keySlot k).state = .closing), trapKey)])
    (fun f u s => clearKey (u.reg f.b).toNat s) s)

end Sys2Proof.Machine
end

