-- ==== Sys2Proof/Machine/Keys.lean ====
section
/-! DEFINITION. Key messages in SPDM sessions, and the staging of keys (R91, R210, R213 to R216). -/
namespace Sys2Proof.Machine

/-! ### Sessions (R91, R214) -/

/-- A requester establishes a secure session: its SPDM version, and whether it is authenticated mutually by a chain that ends at the
enrolled operator key. -/
def execSpdmSecureSession (cci : Cci) (v13 authenticated : Bool) (s : State) : Host.Outcome State Fault Refusal :=
  .next (if s.cciLive cci then
      s.modCci (cciIndex cci) fun c =>
        { c with spdm := { established := true, version13 := v13, mutualAuth := authenticated && s.img.opKey.isSome } }
    else s)

/-- The session carries key messages (R214). -/
def State.keySession (s : State) (cci : Cci) : Bool :=
  let p := (s.cci (cciIndex cci)).spdm
  p.established && p.version13 && p.mutualAuth

/-- Run a key message, or answer it with UnexpectedRequest (R214). -/
def keyMessage (cci : Cci) (run : State → State) (s : State) : State :=
  if !s.cciLive cci then s
  else if s.keySession cci then run s
  else s.emit (.spdmUnexpected cci)

/-- A slot's state as the response gives it. -/
def KeyState.code : KeyState → Nat
  | .empty => 0
  | .loaded => 1
  | .bound => 2
  | .closing => 3

/-- The body of a response (R214). -/
def keyBody (op status state count : Nat) : List Byte :=
  leBytes 1 op ++ leBytes 1 status ++ leBytes 2 state ++ leBytes 4 count ++ leBytes 8 0

def keyAnswer (cci : Cci) (op status state count : Nat) (s : State) : State := s.emit (.spdm cci (keyBody op status state count))

/-- The owner that a request names: the DOE's LD, or on the MCTP endpoint the LD index given, 0xFFFF for "operator"; none when the
value is invalid. -/
def ownerOf (cci : Cci) (ld : BitVec 16) : Option (Option Nat) :=
  match cci with
  | .ld i => some (some i.val)
  | .mctp => if ld = 0xFFFF then some none else if ld.toNat < 256 then some (some ld.toNat) else none

/-! ### KEY_PUT (R214 to R216) -/

/-- Stage a key here: the status, and the event to queue 5 (R215). -/
def stageKey (owner : Option Nat) (handle : BitVec 32) (key : BitVec 512) (s : State) : Nat × State :=
  if s.keys.staged.any fun k => k.handle = handle then (5, s)
  else if 64 ≤ s.keys.staged.length then (3, s)
  else
    (0, postDevice 5 (handle.setWidth 64) (BitVec.ofNat 64 (owner.getD 0xFFFF)) 0 0
      (s.modKeys fun k => { k with staged := k.staged ++ [{ handle, owner, key, at_ := s.now }] }))

/-- The device that an enclave message for a device goes to first: itself, or the polestar (R216). -/
def State.enclaveHop (s : State) (dst : Nat) : Nat := if s.ident.role ∨ dst = 0 then dst else 0

/-- Send a message to another enclave. A key takes three payload units, any other message one. -/
def sendEnclave (dst : Nat) (m : EnclaveMsg) (s : State) : State :=
  let len := match m with
    | .keyPut .. => 3
    | _ => 1
  sendPkt (s.enclaveHop dst) { type := 5, vc := 0, len, msg := some m } s

/-- Another device can stage a key: it and the polestar are joined (R216, R442). -/
def State.keyReach (s : State) (d : Nat) : Bool :=
  decide ((s.member d).state = .joined) && (s.ident.role || decide ((s.member 0).state = .joined))

/-- A KEY_PUT for another device travels there; its status comes back (R216). DEDUCED, log 61. -/
def forwardKey (cci : Cci) (target : Nat) (owner : Option Nat) (handle : BitVec 32) (key : BitVec 512) (s : State) : State :=
  let n := s.keys.nextPut
  sendEnclave target (.keyPut s.self n target owner handle key)
    (s.modKeys fun k => { k with puts := k.puts ++ [(n, cci, target)], nextPut := n + 1 })

def execKeyPut (cci : Cci) (len : BitVec 16) (ld : BitVec 16) (target : BitVec 8) (handle : BitVec 32) (k1 k2 : BitVec 256)
    (s : State) : Host.Outcome State Fault Refusal :=
  .next (keyMessage cci (fun s =>
    match ownerOf cci ld with
    | none => keyAnswer cci 1 6 0 0 s
    | some owner =>
      if len ≠ 80 ∨ handle = 0 ∨ 3 < target.toNat then keyAnswer cci 1 6 0 0 s
      else if k1 = k2 then keyAnswer cci 1 2 0 0 s
      else if target.toNat = s.self then
        let (status, s) := stageKey owner handle (k2 ++ k1) s
        keyAnswer cci 1 status 0 0 s
      else if !s.keyReach target.toNat then keyAnswer cci 1 4 0 0 s
      else forwardKey cci target.toNat owner handle (k2 ++ k1) s) s)

/-- The status of a KEY_PUT for another device comes back to its requester. -/
def finishPut (n status : Nat) (s : State) : State :=
  match s.keys.puts.find? fun p => p.1 = n with
  | none => s
  | some p => keyAnswer p.2.1 1 status 0 0 (s.modKeys fun k => { k with puts := k.puts.filter fun x => x.1 != n })

/-- A key message of another enclave arrives: it is staged, passed on by the polestar, or its status is returned (R216). -/
def enclaveKey (m : EnclaveMsg) (s : State) : State :=
  match m with
  | .keyPut origin tag target owner handle key =>
    if target = s.self then
      let (status, s) := stageKey owner handle key s
      sendEnclave origin (.keyStatus origin tag status) s
    else if s.keyReach target then sendEnclave target m s
    else sendEnclave origin (.keyStatus origin tag 4) s
  | .keyStatus origin tag status => if origin = s.self then finishPut tag status s else sendEnclave origin m s
  | _ => s

/-- A staging entry that no KLOAD takes within 10 s is zeroized (R215). -/
def execKeyStagingTimeout (handle : BitVec 32) (s : State) : Host.Outcome State Fault Refusal :=
  .next (if s.start.powered then
      s.modKeys fun k => { k with staged := k.staged.filter fun x => x.handle != handle || decide (s.now < x.at_ + 10 * secNs) }
    else s)

/-! ### KEY_QUERY and KEY_CLOSE (R210, R214) -/

/-- The status of a request on a slot: 6 invalid, 1 not this DOE's slot, 0. -/
def State.slotStatus (s : State) (cci : Cci) (len ld slot : BitVec 16) : Nat :=
  if len ≠ 16 ∨ slot = 0 ∨ 4095 < slot.toNat ∨ (ownerOf cci ld).isNone then 6
  else match cci with
    | .mctp => 0
    | .ld i =>
      let k := s.keySlot slot.toNat
      if k.state ≠ .empty ∧ k.owner = some i.val then 0 else 1

def execKeyQuery (cci : Cci) (len ld slot : BitVec 16) (s : State) : Host.Outcome State Fault Refusal :=
  .next (keyMessage cci (fun s =>
    let st := s.slotStatus cci len ld slot
    let k := s.keySlot slot.toNat
    if st = 0 then keyAnswer cci 2 0 k.state.code k.count s else keyAnswer cci 2 st 0 0 s) s)

/-- KEY_CLOSE of a slot: LOADED is zeroized, BOUND becomes CLOSING, EMPTY and CLOSING stay. -/
def closeKey (k : Nat) (s : State) : State :=
  match (s.keySlot k).state with
  | .loaded => clearKey k s
  | .bound => s.modKeySlot k fun x => { x with state := .closing }
  | _ => s

def execKeyClose (cci : Cci) (len ld slot : BitVec 16) (s : State) : Host.Outcome State Fault Refusal :=
  .next (keyMessage cci (fun s =>
    let st := s.slotStatus cci len ld slot
    if st = 0 then
      let s := closeKey slot.toNat s
      let k := s.keySlot slot.toNat
      keyAnswer cci 3 0 k.state.code k.count s
    else keyAnswer cci 3 st 0 0 s) s)

end Sys2Proof.Machine
end

