-- ==== Sys2Proof/Machine/Members.lean ====
section
/-! DEFINITION. The members of the constellation: routes and relays, loss, joining and reconcile (R429 to R431, R438, R441 to R446). -/
namespace Sys2Proof.Machine

/-- The event of a member's change to queue 8 (R430). -/
def postMember (d prev : Nat) (changed : Bool) (s : State) : State :=
  let m := s.member d
  postDevice 8 (BitVec.ofNat 64 d) (BitVec.ofNat 64 m.state.code) (BitVec.ofNat 64 prev)
    (BitVec.ofNat 64 (flag m.relay.isSome + 2 * flag changed)) s

/-- A member's state changes, and queue 8 says so. -/
def setMemberState (d : Nat) (st : MemberState) (s : State) : State :=
  let prev := (s.member d).state
  if prev = st then s else postMember d prev.code false (updateHealth (s.modMember d fun m => { m with state := st }))

/-! ### Requests on another route (R444) -/

/-- Send a request that is outstanding, once more or for the first time. -/
def resendOpen (o : Open) (s : State) : State :=
  sendRequest o.target o.txn o.colour o.cls
    (s.modConst fun c => { c with opened := c.opened.map fun x => if x = o then { x with sent := true } else x })

/-- The requests outstanding to a member that pass a test are sent on the route it has now. -/
def resendWhere (d : Nat) (p : Open → Bool) (s : State) : State :=
  forEach (s.const.opened.filter fun o => decide (o.target = d) && p o) resendOpen s

/-! ### Loss (R193, R424, R438, R441, R442) -/

/-- A far read whose guest is lost: a host's read gets poison; an eviction's write is indeterminate; a recall aborts (R193, R442). -/
def loseFarRead (o : Open) (s : State) : State :=
  match s.req o.req with
  | none => s
  | some r =>
    if r.source = 21 then
      let s := addIndet r.dlpn o.target true (lineMask (s.entriesOf r.dlpn true)) (dropReq r.id s)
      setLock r.dlpn false (settlePage r.dlpn 0 0 (dropEntries (fun x => decide (x.dlpn = r.dlpn) && x.frozen) s))
    else if r.source = 22 then abortMove r.dlpn s
    else lineBack r.id o.unit 0 .poison s

/-- Moves to a lost guest abort and their pages stay where they are (R193). -/
def abortDemotes (d : Nat) (s : State) : State :=
  let pages := (List.range 4).flatMap fun q => ((s.quad q).records.filter fun r => r.op = .demote d).map (·.dlpn)
  forEach pages abortMove s

/-- A confirmation that the polestar cannot give any more: the grant is refused with FROZEN (R444). -/
def refuseAdmit (code : Nat) (w : AdmitWait) (s : State) : State :=
  let s := s.modConst fun c => { c with admits := c.admits.filter (· != w) }
  let s := match w.thread with
    | some (t, reg) => deviceDone t reg (grantWord code 0) s
    | none => s
  match w.cci with
  | some cci => grantAnswer cci code s
  | none => s

/-- CONST_XMAP ends with a result (R437). -/
def xmapDone (code : Nat) (s : State) : State :=
  s.modConst fun c => { c with xmap := { c.xmap with busy := false, result := BitVec.ofNat 4 code } }

/-- What a device does when a member is lost to it (R442): what it asked of it ends, but for forwarded requests, which wait for a route
until their own timeout (R441). -/
def loseMember (d : Nat) (s : State) : State :=
  let s := setMemberState d .lost (s.modMember d fun m => { m with reconciling := false })
  let gone := s.const.opened.filter fun o => o.target = d ∧ 2 < o.op
  let s := s.modConst fun c => { c with opened := c.opened.filter fun o => !(o.target = d ∧ 2 < o.op)
                                        snooped := c.snooped.filter fun x => x.1 != d }
  let s := forEach (gone.filter fun o => o.op = 4) loseFarRead s
  let s := abortDemotes d s
  let s := resume [.peers] s
  let s := if s.const.xmap.busy ∧ s.const.xmap.home = d then xmapDone 11 s else s
  let s := forEach ((s.keys.puts.filter fun p => p.2.2 = d ∨ (d = 0 ∧ !s.ident.role)).map (·.1)) (fun n s => finishPut n 4 s) s
  if d = 0 ∧ !s.ident.role then
    let s := if s.const.xmap.busy then xmapDone 1 s else s
    condStart 691 (forEach s.const.admits (refuseAdmit 1) s)
  else s

/-! ### Joining (R430, R431, R443) -/

/-- Extents homed here, which a join places in the constellation register. -/
def State.homedExtents (s : State) : List Nat := s.cap.extents.filterMap fun x => if x.2.state = .free then none else some x.1

/-- What JOIN carries: device ID, ROLE, epoch, the fields of the member word, and the extents homed here (R430). DEDUCED, log 90. -/
def State.joinWords (s : State) : List Nat :=
  [s.self, flag s.ident.role, s.const.epoch.toNat, ((List.range 24).filter s.activeChan).length,
   ((List.range 16).filter fun p => (s.port p).up).length] ++ s.homedExtents

/-- This device asks another to join: a companion asks the polestar, and the lower of two companions the other. A companion with ID 0
joins no constellation (R429). -/
def State.asksJoin (s : State) (d : Nat) : Bool :=
  !s.ident.role && decide (s.self ≠ 0) && (decide (d = 0) || decide (s.self < d))

/-- Send JOIN; an older one is given up. -/
def startJoin (d : Nat) (s : State) : State :=
  let s := s.modConst fun c => { c with opened := c.opened.filter fun o => !(o.target = d ∧ o.op = 13) }
  if s.asksJoin d then openTxn d { op := 13, words := s.joinWords } 0 0 0 0 [] s else s

/-- A member whose epoch has changed has lost its DRAM: far pages there are POISONED with source 1, map entries that name it are stale,
what was indeterminate against it is void, and its mappings are gone (R443 step 1). -/
def epochLost (d : Nat) (s : State) : State :=
  let far := s.mdata.desc.filterMap fun x => if x.2.state = .far ∧ locGuest x.2.location = d then some x.1 else none
  let s := forEach far (fun p s =>
    listPoison p 2 0 1 (unlistPage p (setDesc p { s.desc p with state := .poisoned, location := 0, blockLen := 0, bpoison := 0 } s))) s
  let s := forEach (s.cap.dpaMap.flatMap fun x => x.2.filter fun m => m.home.toNat = d) (fun m s => dropMapping m.ld.toNat m.block.toNat s) s
  let mine := s.const.remoteMaps.filter fun m => m.2 = d
  let s := s.modConst fun c =>
    { c with indet := c.indet.filter fun i => i.device != d, overflow := c.overflow.filter fun x => x.2 % 4 != d
             homeWide := c.homeWide &&& ~~~ BitVec.ofNat 4 (2 ^ d), remoteMaps := c.remoteMaps.filter fun m => m.2 != d
             register := c.register.map fun r => (r.1, r.2.filter (· != d)) }
  let s := s.modMember d fun m => { m with owedFree := [] }
  forEach mine (fun m s =>
    if (s.extent m.1).mappings.toNat ≤ 1 then releaseLast m.1 s else s.modExtent m.1 fun x => { x with mappings := x.mappings - 1 }) s

/-- The indeterminate entries against a home, as RECON carries them: DLPN, kind and lines; an extent of the overflow set with kind 2; the
home-wide flag with kind 3 (R441, R443). -/
def State.reconEntries (s : State) (d : Nat) : List (Nat × Nat) :=
  (s.const.indet.filterMap fun i => if i.device = d ∧ !i.far then some (i.dlpn + d * 2 ^ 34, i.mask.toNat) else none) ++
    (s.const.overflow.filterMap fun x => if x.2 = d then some (x.1 * 65536 + d * 2 ^ 34 + 2 * 2 ^ 36, 0) else none) ++
    (if s.const.homeWide.getLsbD d then [(d * 2 ^ 34 + 3 * 2 ^ 36, 0)] else [])

/-- The blocks that a line mask touches. -/
def maskBlocks (m : BitVec 64) : List Nat := (List.range 4).filter fun b => m.extractLsb' (16 * b) 16 != 0

/-- A far page's blocks in doubt are poisoned. -/
def doubtFar (d dlpn : Nat) (blocks : List Nat) (s : State) : State :=
  if (s.desc dlpn).state = .far ∧ locGuest (s.desc dlpn).location = d then
    poisonIfWhole dlpn 4 (forEach blocks (fun b s => markBlock dlpn b 4 s) s)
  else s

/-- The own entries of kind 1: BPOISON of the blocks; of every block of the extent's far pages there for the overflow set, and of every
far page there for the home-wide flag (R443 step 3). DEDUCED, log 93. -/
def markOwnFar (d : Nat) (s : State) : State :=
  let all := fun (p : Nat → Bool) (s : State) =>
    forEach ((s.mdata.desc.filterMap fun x => if x.2.state = .far ∧ p x.1 then some x.1 else none)) (fun x s => doubtFar d x [0, 1, 2, 3] s) s
  let s := forEach (s.const.indet.filter fun i => i.device = d ∧ i.far) (fun i s => doubtFar d i.dlpn (maskBlocks i.mask) s) s
  let s := forEach (s.const.overflow.filter fun x => x.2 = d + 4) (fun x s => all (fun p => extentOf p = x.1) s) s
  if s.const.homeWide.getLsbD d then all (fun _ => true) s else s

/-- Reconcile ends: the entries are cleared, owed FAR_FREEs go out, and new requests go on (R443 steps 3 to 6). -/
def finishReconcile (d : Nat) (s : State) : State :=
  let m := s.member d
  let s := s.modConst fun c =>
    { c with indet := c.indet.filter fun i => i.device != d, overflow := c.overflow.filter fun x => x.2 % 4 != d
             homeWide := c.homeWide &&& ~~~ BitVec.ofNat 4 (2 ^ d) }
  let s := if s.const.overflow.isEmpty then condEnd 689 s else s
  let s := if s.const.homeWide = 0 then condEnd 690 s else s
  let s := s.modMember d fun m => { m with reconciling := false, owedFree := [] }
  let s := forEach m.owedFree (fun i s => sendFarFree d i 0 s) s
  let s := resendWhere d (fun o => !o.sent || decide (o.op = 1)) s
  resume [.journal] (postMember d m.before.code m.epochChanged s)

/-- Reconcile begins: the journal is resent, and the indeterminate entries go to the home, sixteen in a packet (R443 steps 2 and 3).
DEDUCED, log 92. -/
def startReconcile (d : Nat) (s : State) : State :=
  let s := s.modMember d fun m => { m with reconciling := true }
  let s := resendWhere d (fun o => decide (o.op = 2) && o.sent) s
  let s := markOwnFar d s
  let l := s.reconEntries d
  if l.isEmpty then finishReconcile d s
  else forEach (List.range ((l.length + 15) / 16)) (fun i s =>
    openTxn d { op := 14, words := ((l.drop (16 * i)).take 16).flatMap fun e => [e.1, e.2] } 0 0 0 0 [] s) s

/-- JOIN is complete with a member (R430): its state, its extents in the register, and queue 8; a member that was joined before is
reconciled first (R443). -/
def joinMember (d : Nat) (w : List Nat) (s : State) : State :=
  let m := s.member d
  let epoch := BitVec.ofNat 64 (w.getD 2 0)
  let changed := (m.epoch.map fun e => decide (e ≠ epoch)).getD false
  let s := if changed then epochLost d s else s
  let s := s.modMember d fun m =>
    { m with state := .joined, polestar := w.getD 1 0 = 1, epoch := some epoch, channels := BitVec.ofNat 8 (w.getD 3 0)
             portsUp := BitVec.ofNat 8 (w.getD 4 0), port := (s.directPort d).getD m.port, via := s.route d, epochChanged := changed, before := m.state }
  let was := s.const.register
  let s := s.modConst fun c =>
    { c with register := was.filter (fun r => r.1 / 2 ^ 18 != d) ++
               (w.drop 5).map fun e => (d * 2 ^ 18 + e, ((was.find? fun r => r.1 = d * 2 ^ 18 + e).map (·.2)).getD []) }
  let s := if d = 0 ∧ !s.ident.role then condEnd 691 s else s
  if m.state = .joined ∨ m.epoch.isSome then startReconcile d s else postMember d m.state.code false s

/-- The polestar refuses JOIN from a device whose ID is joined through another link (R431). -/
def State.refusesJoin (s : State) (d u : Nat) : Bool :=
  let m := s.member d
  decide (m.state = .joined) && m.relay.isNone && decide (m.port ≠ u) &&
    decide ((s.uli m.port).lstate = .active) && decide ((s.uli m.port).peerId.toNat = d) && !(s.uli m.port).foreign

/-! ### Routes (R445, R446) -/

/-- The lowest-numbered joined member whose REACH of the last 16 µs shows d (R446). -/
def State.relayFor (s : State) (d : Nat) : Option Nat :=
  (List.range 4).find? fun c => decide (c ≠ d) && decide (c ≠ s.self) && decide ((s.member c).state = .joined) &&
    match s.directPort c with
    | some u => (s.uli u).reach.getLsbD d && ((s.uli u).reachAt.map fun t => decide (s.now ≤ t + 16 * usNs)).getD false
    | none => false

/-- The relay that carries a member's packets still reaches it: its direct link is ACTIVE, and its last REACH shows the member.
DEDUCED, log 91. -/
def State.relayHolds (s : State) (c d : Nat) : Bool :=
  match s.directPort c with
  | some u => (s.uli u).reach.getLsbD d
  | none => false

/-- The relay of a member: none beside a direct link; the one it has while that holds; else the one R446 chooses. -/
def State.chooseRelay (s : State) (d : Nat) : Option Nat :=
  if (s.directPort d).isSome then none
  else match (s.member d).relay with
    | some c => if s.relayHolds c d then some c else s.relayFor d
    | none => s.relayFor d

/-- The route to a member is settled: lost without one; its outstanding requests are resent on a new one; a member that is not joined is
asked to join once there is one. -/
def updateRoute (d : Nat) (s : State) : State :=
  let s := s.modMember d fun m => { m with relay := s.chooseRelay d }
  let m := s.member d
  let new := s.route d
  if new = m.via then s
  else
    let s := s.modMember d fun m => { m with via := new, port := (s.directPort d).getD m.port }
    let alive := (s.directPort d).isSome && (m.via.map fun u => decide ((s.uli u).lstate = .active)).getD false
    match m.state, new with
    | .joined, none => loseMember d s
    | .joined, some _ => if alive then s else resendWhere d (·.sent) s
    | _, none => s.modConst fun c => { c with opened := c.opened.filter fun o => !(o.target = d ∧ o.op = 13) }
    | _, some _ => startJoin d s

/-- Every member's route is settled after a link or a REACH has changed; the members joined first can relay to the others. -/
def updateMembers (s : State) : State := forEach ((List.range 4).filter (· != s.self)) updateRoute s

end Sys2Proof.Machine
end

