-- ==== Sys2Proof/Machine/Ulilet.lean ====
section
/-! DEFINITION. Ulilet ports as receivers: link states, training, PARAM, sessions, the checks of a packet, beacons, silence, retrains and
retirement (R221 to R223, R400 to R428). -/
namespace Sys2Proof.Machine

/-! ### Link states (R403, R424 to R426) -/

/-- The strap error holds every port in DOWN (R429); the pads of the port run once they are released. -/
def State.linkMayRun (s : State) : Bool := s.running && !s.ident.strapErr && !s.power.latched

/-- A device that a discord link shows is no longer shown as discord (R445). -/
def endDiscord (u : Nat) (s : State) : State :=
  let p := s.uli u
  if p.lstate ≠ .discord then s
  else
    let d := p.peerId.toNat
    let s := if (s.member d).state = .discord then setMemberState d .absent s else s
    condEnd (srcUlilet u 6) s

/-- The link leaves its state for another: nothing but its registers is left, and the members' routes are settled anew (R424, R425). -/
def leaveLink (u : Nat) (dest : LState) (s : State) : State :=
  updateMembers ((endDiscord u s).modUli u fun p => p.dropped dest s.now)

/-- To PARAM on lanes that stay trained (R425). -/
def toParam (u : Nat) (s : State) : State :=
  updateMembers ((endDiscord u s).modUli u fun p =>
    { p.dropped .param s.now with lanes := p.lanes, reversed := p.reversed, lastGood := s.now, lastStart := s.now })

/-- ACK as a packet carries it: the last SEQ accepted in order (R417). -/
def Uli.ackNow (p : Uli) : BitVec 12 := p.rxExpect - 1

/-- CR_CUM of the VC whose turn it is (R414). -/
def Uli.cumNow (p : Uli) : BitVec 12 := BitVec.ofNat 12 (Tab.get 0 p.freed p.crNext)

/-- A packet has been started: the credit rotation, the counter of the next invocation from ACTIVE on, and the time (R222, R414, R418). -/
def Uli.started (p : Uli) (now : Nat) : Uli :=
  { p with crNext := if p.vcsActive = 0 then 0 else (p.crNext + 1) % p.vcsActive.toNat, lastStart := now
           txCounter := if p.lstate = .active then p.txCounter + 1 else p.txCounter }

/-- A packet occupies 48 + 32 × LEN bytes on the link (R406). -/
def wireBytes (len : Nat) : Nat := 48 + 32 * len

/-- A packet of n bytes may start now: the time lies outside a slot, and its last byte leaves before the next one; a lane carries 8 bytes
in a nanosecond (R400, R422). -/
def State.slotFits (s : State) (u n : Nat) : Bool :=
  let t := s.time.tb.toNat % 1024
  let w := (s.uli u).lanes.toNat * 8
  decide (64 ≤ t) && decide (t * w + n ≤ 1024 * w)

/-- Send an unnumbered packet. -/
def sendUnnumbered (u type : Nat) (fields : List Nat) (s : State) : State :=
  let p := s.uli u
  (s.emit (.unnumbered u type p.ackNow p.crNext p.cumNow fields)).modUli u fun p => p.started s.now

/-- The link is retired: a notice when it is ACTIVE, lanes idle, and the fault (R426). -/
def retireLink (u : Nat) (cause : BitVec 3) (s : State) : State :=
  let s := if (s.uli u).lstate = .active then sendUnnumbered u 4 [2] s else s
  let s := leaveLink u .retired (s.modUli u fun p => { p with retired := true, cause })
  partLeaves (44 + u) (condStart (srcUlilet u 5) s)

/-- A port that is DOWN with no peer present is out of service (R465, R466). -/
def uliAbsent (u : Nat) (s : State) : State :=
  if (s.uli u).lstate = .down ∧ !(s.uli u).prsnt then partLeaves (44 + u) s else s

/-- The link retrains, or is retired at RETRAIN_N retrains within RETRAIN_WIN (R425, R426). -/
def retrainLink (u : Nat) (s : State) : State :=
  let s := s.modUli u fun p =>
    { p with retrains := satAdd p.retrains 1, totalRetrains := satAdd p.totalRetrains 1
             retrainTimes := s.now :: p.retrainTimes.filter fun t => s.now < t + p.retrainWin.toNat * secNs }
  let s := fireEvent (srcUlilet u 2) s
  let p := s.uli u
  if p.retrainN.toNat ≤ p.retrainTimes.length then retireLink u 1 s else leaveLink u .train s

/-- A protocol error resets the link (R411, R425). -/
def protocolError (u : Nat) (s : State) : State :=
  let s := s.modUli u fun p => { p with protoErr := satAdd p.protoErr 1 }
  fireEvent (srcUlilet u 3) (if (s.uli u).lstate = .discord then s else toParam u s)

/-- The peer is lost: the port goes DOWN (R424). -/
def losePeer (u : Nat) (s : State) : State :=
  let had := match (s.uli u).lstate with
    | .param | .session | .active | .discord => true
    | _ => false
  let s := leaveLink u .down s
  uliAbsent u (if had then fireEvent (srcUlilet u 7) s else s)

/-! ### Training (R402, R403) -/

/-- A port whose domain leaves P3 has its registers at their reset values; what the always-on domain keeps stays (R428, R466). -/
def Uli.lostRegs (p : Uli) : Uli :=
  { lstate := p.lstate, retired := p.retired, cause := p.cause, totalRetrains := p.totalRetrains, prsnt := p.prsnt
    prsntSince := p.prsntSince, retrainTimes := p.retrainTimes, trainFails := p.trainFails, since := p.since }

/-- ULT_PRSNT_N[u] has been low for 1 ms. A port that is not retired leaves P3 for it (R466). -/
def execUliletPresence (u : Fin 3) (s : State) : Host.Outcome State Fault Refusal :=
  .next (if !s.start.powered then s
    else
      let s := if (s.uli u).prsnt || s.faults.halted then s else wakeDoze 2 s
      let s := s.modUli u fun p => { p with prsnt := true, prsntSince := if p.prsnt then p.prsntSince else s.now }
      if s.linkMayRun && !(s.uli u).retired && decide ((s.uli u).lstate = .down) then
        let s := leaveP3 (44 + u) (fun s => s.modUli u Uli.lostRegs) s
        if (s.uli u).enable then s.modUli u fun p => { p with lstate := .detect, since := s.now } else s
      else s)

/-- The receiver detects the peer's lanes. -/
def execUliletReceiverDetect (u : Fin 3) (s : State) : Host.Outcome State Fault Refusal :=
  .next (if s.linkMayRun && decide ((s.uli u).lstate = .detect) then s.modUli u fun p => { p with lstate := .train, since := s.now } else s)

/-- The lane groups in order of preference: first lane and width (R402). -/
def laneGroups : List (Nat × Nat) := [(0, 16), (0, 8), (8, 8), (0, 4), (4, 4), (8, 4), (12, 4)]

/-- The width of the first group whose every lane passes in both directions. -/
def trainedWidth (ok : BitVec 16) : Nat :=
  ((laneGroups.find? fun g => (List.range g.2).all fun i => ok.getLsbD (g.1 + i)).map (·.2)).getD 0

/-- Training ends: `ok` names the lanes that passed BERT in both directions; or no group passes, and the second failure in a row retires
the link (R402, R403, R426). -/
def execUliletTrainingDone (u : Fin 3) (ok : BitVec 16) (reversed : Bool) (s : State) : Host.Outcome State Fault Refusal :=
  .next (if s.linkMayRun && decide ((s.uli u).lstate = .train) then
      if trainedWidth ok ≠ 0 then
        toParam u (s.modUli u fun p => { p with lanes := BitVec.ofNat 5 (trainedWidth ok), reversed, trainFails := 0 })
      else
        let s := fireEvent (srcUlilet u 9) (s.modUli u fun p => { p with trainFails := p.trainFails + 1 })
        if 2 ≤ (s.uli u).trainFails then retireLink u 2 s else s.modUli u fun p => { p with lstate := .detect, since := s.now }
    else s)

/-! ### The checks of a packet (R405, R408, R411 to R417, R420) -/

/-- What the checks decide. -/
inductive RxOut where
  | accept | drop | protocol | badTag
  deriving DecidableEq, Repr

/-- Packets of TYPE 1, 2 and 5 are numbered. -/
def numbered (ty : Nat) : Bool := decide (ty = 1) || decide (ty = 2) || decide (ty = 5)

/-- The states in which a type is taken: before ACTIVE only TYPE 0, 4 and 5, and in DISCORD only PARAM (R404, R405, R423).
DEDUCED, log 86. -/
def takesType (st : LState) (ty : Nat) : Bool :=
  match st with
  | .active => true
  | .session => decide (ty = 0) || decide (ty = 4) || decide (ty = 5)
  | .param => decide (ty = 0) || decide (ty = 4)
  | .discord => decide (ty = 4)
  | _ => false

/-- LEN, COLOUR and VC are as R408 and R411 want them. -/
def shapeOk (v ty : Nat) (h : Header) : Bool :=
  (if ty = 0 then decide (h.len = 0) else if ty = 3 ∨ ty = 4 then decide (h.len = 1) else if ty = 5 then decide (1 ≤ h.len ∧ h.len ≤ 8)
    else decide (h.len ≤ 8)) &&
  (decide (ty ≠ 1) || decide (h.colour ≠ 3)) && (!numbered ty || decide (h.vc < v))

/-- How far a value lies ahead of another, modulo 4,096. -/
def ahead (a b : BitVec 12) : Nat := (a - b).toNat

/-- The credit of a VC in units (R404). -/
def Uli.vcCredit (p : Uli) : Nat := 2048 / p.vcsActive.toNat

/-- Units ahead of the value held that a CR_CUM frees: taken from 1 to 2,048 (R414). -/
def Uli.creditBack (p : Uli) (h : Header) : Nat :=
  let k := ahead h.crCum (BitVec.ofNat 12 (Tab.get 0 p.credited h.crVc))
  if k ≤ 2048 then k else 0

/-- Packets that an ACK acknowledges: taken from 1 to 512 ahead of the value held (R417). -/
def Uli.acks (p : Uli) (h : Header) : Nat :=
  let k := ahead h.ack p.acked
  if k ≤ 512 then k else 0

/-- ACK and CR_CUM name only packets and units that exist. -/
def Uli.returnsOk (p : Uli) (h : Header) : Bool :=
  decide (p.acks h ≤ ahead p.txSeq p.acked - 1) && decide (h.crVc < p.vcsActive.toNat) &&
    decide (p.creditBack h ≤ Tab.get 0 p.charged h.crVc - Tab.get 0 p.credited h.crVc)

/-- The link has sequence numbers and credits. -/
def LState.counts : LState → Bool
  | .session => true
  | .active => true
  | _ => false

/-- The order of R411, after the CRC and the TYPE; counters and tags are checked from ACTIVE on (R405). -/
def Uli.check (p : Uli) (ty : Nat) (h : Header) : RxOut :=
  if p.resync then .drop
  else if !shapeOk p.vcsActive.toNat ty h then .protocol
  else if numbered ty && h.seq != p.rxExpect then .drop
  else if !numbered ty && decide (p.lstate = .active) && (p.highCounter.map fun c => decide (h.counter ≤ c)).getD false then .drop
  else if decide (p.lstate = .active) && !h.tagOk then .badTag
  else if numbered ty && decide (p.vcCredit < Tab.get 0 p.received h.vc - Tab.get 0 p.freed h.vc + h.len + 1) then .protocol
  else if p.lstate.counts && !p.returnsOk h then .protocol
  else .accept

/-- An accepted packet's ACK takes packets out of the replay buffer; progress restarts the timer (R417, R420, R421). -/
def Uli.takeAck (p : Uli) (now : Nat) (h : Header) : Uli :=
  let k := p.acks h
  if k = 0 then p
  else
    let l := p.replay.drop k
    { p with acked := h.ack, replay := l, expiries := 0
             timer := if l.isEmpty then none else some (now + p.replayTo.toNat * 100)
             replayAt := match p.replayAt with
               | some i => if i - k < l.length then some (i - k) else none
               | none => none }

/-- An accepted packet takes effect on the link (R411, R414). The old receive key goes once all that was sent under it is acknowledged
(R223). -/
def Uli.accepted (p : Uli) (now ty : Nat) (h : Header) : Uli :=
  let p := if p.lstate.counts then
      { p.takeAck now h with credited := Tab.set 0 p.credited h.crVc (Tab.get 0 p.credited h.crVc + p.creditBack h) } else p
  let p := { p with lastGood := now }
  if numbered ty then
    { p with rxExpect := p.rxExpect + 1, received := Tab.set 0 p.received h.vc (Tab.get 0 p.received h.vc + h.len + 1)
             oldKeyTo := if p.oldKeyTo = some h.seq then none else p.oldKeyTo }
  else if p.lstate = .active then { p with highCounter := some h.counter } else p

/-- The transaction layer takes a packet of `n` units out of its VC's buffer (R413). -/
def freeUnits (u vc n : Nat) (s : State) : State :=
  s.modUli u fun p => { p with freed := Tab.set 0 p.freed vc (Tab.get 0 p.freed vc + n) }

/-- A packet with a good CRC arrives: the checks in order, and what an accepted one does. -/
def receive (u ty : Nat) (h : Header) (body : State → State) (s : State) : State :=
  if !s.linkMayRun || !takesType (s.uli u).lstate ty then s
  else match (s.uli u).check ty h with
    | .drop => s
    | .protocol => protocolError u s
    | .badTag => fireEvent (srcUlilet u 4) (toParam u (s.modUli u fun p => { p with tagErr := satAdd p.tagErr 1 }))
    | .accept =>
      let s := if numbered ty then countEvent (40 + u) 0x202 none s else s
      body (s.modUli u fun p => p.accepted s.now ty h)

/-- A packet for another device goes on to it on the same VC, with its SRC, COLOUR and CLASS (R407, R446). -/
def relayPkt (p : OutPkt) (s : State) : State :=
  match s.directPort p.dst with
  | some u => s.modUli u fun l => { l with tx := l.tx ++ [p] }
  | none => s

/-- A packet of the transaction layer or of the enclave is taken out of its buffer: relayed, or handled here. -/
def takePacket (u ty : Nat) (h : Header) (x : Txn) (m : Option EnclaveMsg) (own : State → State) (s : State) : State :=
  let s := freeUnits u h.vc (h.len + 1) s
  if h.dst.toNat = s.self then own s
  else relayPkt { type := ty, vc := h.vc, len := h.len, dst := h.dst.toNat, src := h.src.toNat, colour := h.colour.toNat
                  cls := h.cls.toNat, txn := x, msg := m } s

/-- An ack-only packet arrives (R417). -/
def execAckOnly (u : Fin 3) (h : Header) (s : State) : Host.Outcome State Fault Refusal :=
  .next (receive u 0 h (fun s => s) s)

/-- A packet with a malformed TYPE, LEN, COLOUR or subtype arrives with a good CRC (R404, R408, R411). -/
def execUliletMalformedPacket (u : Fin 3) (s : State) : Host.Outcome State Fault Refusal :=
  .next (let p := s.uli u
    let live := match p.lstate with
      | .param | .session | .active | .discord => true
      | _ => false
    if s.linkMayRun && live && !p.resync then protocolError u s else s)

/-- A packet or a framing unit fails its CRC: RESYNC (R410, R411). -/
def execUliletCrcFailure (u : Fin 3) (s : State) : Host.Outcome State Fault Refusal :=
  .next (let live := match (s.uli u).lstate with
      | .param | .session | .active | .discord => true
      | _ => false
    if s.linkMayRun && live then
      fireEvent (srcUlilet u 0) (s.modUli u fun p =>
        { p with crcErr := satAdd p.crcErr 1, resync := true, resyncAt := if p.resync then p.resyncAt else s.now })
    else s)

/-! ### PARAM (R404, R445) -/

/-- The two sides conflict: both polestars, or both of one device ID. -/
def State.paramConflict (s : State) (id : BitVec 2) (role : Bool) : Bool := (s.ident.role && role) || decide (id = s.ident.devId)

/-- Both sides have their PARAM packets: the VC count and SESSION (R403). Numbering starts anew. DEDUCED, log 87. -/
def toSession (u : Nat) (vcs : Nat) (s : State) : State :=
  s.modUli u fun p =>
    { p with lstate := .session, since := s.now, vcsActive := BitVec.ofNat 4 (min p.vcs.toNat vcs), paramSent := none
             txSeq := 0, rxExpect := 0, acked := 4095, charged := [], credited := [], received := [], freed := [], crNext := 0 }

/-- Once a PARAM packet has been sent and one received, the link goes on, unless its session waits to be retried. -/
def paramDone (u : Nat) (s : State) : State :=
  let p := s.uli u
  if p.paramSeen && p.paramSent.isSome && p.refusedAt.isNone then toSession u p.vcsActive.toNat s else s

/-- A conflict: DISCORD, and the peer's member state (R445). A device cannot show its own ID as discord. -/
def toDiscord (u : Nat) (d : Nat) (s : State) : State :=
  let s := s.modUli u fun p => { p with lstate := .discord, since := s.now }
  let s := if d ≠ s.self ∧ (s.member d).state = .absent then setMemberState d .discord s else s
  condStart (srcUlilet u 6) s

/-- What a PARAM packet says. -/
def takeParam (u : Nat) (id : BitVec 2) (role : Bool) (vcs : Nat) (serial : BitVec 64) (s : State) : State :=
  let conflict := s.paramConflict id role
  let note := fun (s : State) => s.modUli u fun p =>
    { p with peerId := id, peerPolestar := role, peerSerial := serial, paramSeen := true, vcsActive := BitVec.ofNat 4 (min p.vcs.toNat vcs) }
  match (s.uli u).lstate with
  | .param => if conflict then toDiscord u id.toNat (note s) else paramDone u (note s)
  | .discord => if conflict then note s else let s := endDiscord u s; toSession u vcs (note s)
  | _ => s

/-- A PARAM packet arrives (R404). One that arrives in ACTIVE says that the peer has restarted, whatever its counter (R425). -/
def execParam (u : Fin 3) (h : Header) (devId : BitVec 2) (role : Bool) (vcs : BitVec 8) (serial : BitVec 64) (s : State) :
    Host.Outcome State Fault Refusal :=
  .next (if s.linkMayRun && decide ((s.uli u).lstate = .active) && !(s.uli u).resync then toParam u s
    else receive u 4 h (takeParam u devId role vcs.toNat serial) s)

/-- Its interval has passed: 10 µs in PARAM until the peer's packet is there, 1 ms in DISCORD. A packet that would not leave before the
next slot waits (R422). -/
def execParamSend (u : Fin 3) (s : State) : Host.Outcome State Fault Refusal :=
  .next (let p := s.uli u
    let due := fun (gap : Nat) => (p.paramSent.map fun t => decide (t + gap ≤ s.now)).getD true
    let send := fun (s : State) => (sendUnnumbered u 4
      [1, s.self, flag s.ident.role, p.vcs.toNat, s.ident.serial.toNat] s).modUli u fun p => { p with paramSent := some s.now }
    if !s.linkMayRun || !s.slotFits u (wireBytes 1) then s
    else match p.lstate with
      | .param => if (!p.paramSeen || p.paramSent.isNone) && due (10 * usNs) then paramDone u (send s) else s
      | .discord => if due msNs then send s else s
      | _ => s)

/-! ### Sessions (R221 to R223, R403, R416) -/

/-- The link enters ACTIVE: SEQ, ACK, credits and the GCM counters restart. A second link to a device that is joined through another one
carries no transaction (R431, R445). -/
def toActive (u : Nat) (s : State) : State :=
  let d := (s.uli u).peerId.toNat
  let foreign := decide ((s.member d).state = .joined) && (s.directPort d).isSome
  let s := s.modUli u fun p =>
    { p with lstate := .active, since := s.now, txSeq := 0, rxExpect := 0, acked := 4095, replay := [], replayAt := none, timer := none
             expiries := 0, charged := [], credited := [], received := [], freed := [], crNext := 0, lastVc := 0, highCounter := none
             txCounter := 0, lastGood := s.now, lastStart := s.now, lastSlot := none, peerSync := none, ownSync := none, secure := true
             keyAt := s.now, oldKeyTo := none, foreign, tx := [], hops := 0xFF, peerSynced := false, reach := 0, reachAt := none
             reachSent := s.now }
  updateMembers (condEnd (srcUlilet u 8) s)

/-- The two enclaves' handshake ends: a session, or a refusal, for a certificate chain that fails or another operator key (R221). -/
def execSessionEstablished (u : Fin 3) (ok : Bool) (s : State) : Host.Outcome State Fault Refusal :=
  .next (if s.linkMayRun && decide ((s.uli u).lstate = .session) then
      if ok then toActive u s
      else
        let d := (s.uli u).peerId.toNat
        let s := s.modUli u fun p => { p with lstate := .param, since := s.now, refusedAt := some s.now }
        let s := if (s.member d).state = .lost ∧ (s.route d).isNone then setMemberState d .absent s else s
        condStart (srcUlilet u 8) s
    else s)

/-- A refused session is retried 1 s later (R403). -/
def execSessionRetry (u : Fin 3) (s : State) : Host.Outcome State Fault Refusal :=
  .next (let p := s.uli u
    if s.linkMayRun && decide (p.lstate = .param) && (p.refusedAt.map fun t => decide (t + secNs ≤ s.now)).getD false then
      paramDone u (s.modUli u fun p => { p with refusedAt := none, paramSent := some s.now })
    else s)

/-- Both directions have new keys: their counters start at 0, and the old receive key is kept for what was sent under it (R222, R223). -/
def rekey (u : Nat) (s : State) : State :=
  s.modUli u fun p =>
    { p with txCounter := 0, highCounter := none, keyAt := s.now, oldKeyTo := some (p.rxExpect - 1) }

/-- The requester of the link's session, the device of the lower ID, runs KEY_UPDATE (R222). -/
def execLinkKeyUpdate (u : Fin 3) (s : State) : Host.Outcome State Fault Refusal :=
  .next (let p := s.uli u
    if s.linkMayRun && decide (p.lstate = .active) && decide (s.self < p.peerId.toNat) then
      rekey u (s.modUli u fun p =>
        { p with tx := p.tx ++ [{ type := 5, vc := 0, len := 1, dst := p.peerId.toNat, src := s.self, msg := some .keyUpdate }] })
    else s)

/-- An enclave message arrives on VC 0 (R216, R221, R222, R405). The messages of the handshake themselves are summed up in
SESSION_ESTABLISHED. -/
def execEnclaveMessage (u : Fin 3) (h : Header) (msg : EnclaveMsg) (s : State) : Host.Outcome State Fault Refusal :=
  .next (receive u 5 { h with vc := 0 } (takePacket u 5 { h with vc := 0 } { op := 0 } (some msg) fun s =>
    match msg with
    | .session => s
    | .keyUpdate => if (s.uli u).lstate = .active then rekey u s else s
    | m => if (s.uli u).lstate = .active then enclaveKey m s else s) s)

/-! ### Beacons (R411, R423, R487, R488) -/

/-- The link of the companion's parent: ACTIVE, its peer synchronised, the fewest hops, the lower ID. -/
def State.parentLink (s : State) : Option Nat :=
  let l := (List.range 3).filter fun u =>
    let p := s.uli u
    decide (p.lstate = .active) && !p.foreign && p.peerSynced
  (l.foldl (fun (m : Option (Nat × Nat)) u =>
    let k := (s.uli u).hops.toNat * 4 + (s.uli u).peerId.toNat
    match m with
    | some x => if k < x.1 then some (k, u) else m
    | none => some (k, u)) none).map (·.2)

/-- The parent's beacon: free run ends, the hops count one more, and an offset is taken once each side has seen the other's SYNC.
DEDUCED, log 88. -/
def followParent (u : Nat) (t1 t2 t3 : BitVec 64) (s : State) : State :=
  let p := s.uli u
  let s := condEnd 693 (s.modTime fun t =>
    { t with parent := p.peerId, hops := if p.hops = 0xFF then 0xFF else p.hops + 1, freeRun := false, parentAt := s.now })
  if p.ownSync.isNone ∨ t2 = 0 then s
  else steer (((t3 - t2).toInt + (t1 - s.time.tb).toInt) / 2) s

/-- A beacon arrives (R423). A beacon with a good CRC behind a SYNC unit ends RESYNC (R411). -/
def execBeacon (u : Fin 3) (h : Header) (t1 t2 t3 : BitVec 64) (hops : BitVec 8) (sync : Bool) (s : State) :
    Host.Outcome State Fault Refusal :=
  .next (if s.linkMayRun && decide ((s.uli u).lstate = .active) then
      receive u 3 h (fun s =>
        let s := s.modUli u fun p => { p with peerSync := some (t1, s.time.tb), hops, peerSynced := sync }
        if !s.ident.role && decide (s.parentLink = some u.val) then followParent u t1 t2 t3 s else s)
        (s.modUli u fun p => { p with resync := false })
    else s)

/-! ### Timers and losses (R412, R420, R421, R424 to R426) -/

/-- The peer retires the link (R426). -/
def execRetireNotice (u : Fin 3) (h : Header) (s : State) : Host.Outcome State Fault Refusal :=
  .next (receive u 4 h (fun s => if (s.uli u).lstate = .discord then s else retireLink u 4 s) s)

/-- The replay timer expires: everything unacknowledged is resent, or the port retrains (R420, R421). -/
def execReplayTimerExpiry (u : Fin 3) (s : State) : Host.Outcome State Fault Refusal :=
  .next (let p := s.uli u
    if s.linkMayRun && p.lstate.counts && (p.timer.map fun t => decide (t ≤ s.now)).getD false then
      let s := fireEvent (srcUlilet u 1) (s.modUli u fun p =>
        { p with replays := satAdd p.replays 1, expiries := p.expiries + 1, replayAt := some 0
                 timer := some (s.now + p.replayTo.toNat * 100) })
      if p.replayN.toNat ≤ p.expiries + 1 then retrainLink u s else s
    else s)

/-- RESYNC has found no SYNC unit for 4.096 µs (R412). -/
def execResyncTimeout (u : Fin 3) (s : State) : Host.Outcome State Fault Refusal :=
  .next (let p := s.uli u
    if s.linkMayRun && p.resync && decide (p.resyncAt + 4096 ≤ s.now) then retrainLink u s else s)

/-- An active lane loses receiver lock (R425). -/
def execReceiverLockLoss (u : Fin 3) (s : State) : Host.Outcome State Fault Refusal :=
  .next (if s.linkMayRun && decide ((s.uli u).lstate = .active) then retrainLink u s else s)

/-- No packet has been accepted for 10 µs, or ULT_PRSNT_N[u] is high: the peer is lost (R403, R424). -/
def execUliletSilence (u : Fin 3) (prsntHigh : Bool) (s : State) : Host.Outcome State Fault Refusal :=
  .next (if !s.start.powered then s
    else
      let s := if prsntHigh && (s.uli u).prsnt && !s.faults.halted then wakeDoze 2 s else s
      let s := if prsntHigh then s.modUli u fun p => { p with prsnt := false, prsntSince := s.now } else s
      let p := s.uli u
      let counts := match p.lstate with
        | .param | .session | .active => true
        | _ => false
      if !s.linkMayRun then s
      else if prsntHigh then (if p.lstate = .retired ∨ p.lstate = .down then uliAbsent u s else losePeer u s)
      else if counts && decide (p.lastGood + 10 * usNs ≤ s.now) then losePeer u s
      else s)

end Sys2Proof.Machine
end

