-- ==== Sys2Proof/Machine/Constell.lean ====
section
/-! DEFINITION. Transactions on the links: forwarding at the home, the far tier at the guest, snoops, mappings, admission, joins, reconcile,
tallies, and responses at their originator (R274, R430 to R447, R541). -/
namespace Sys2Proof.Machine

/-- A request arrives that this device is to answer: it is taken out of its buffer. A foreign link carries no transaction but the JOIN that
is refused on it (R445). -/
def request (u op : Nat) (h : Header) (x : Txn) (run : Nat → State → State) (s : State) : State :=
  receive u 1 h (takePacket u 1 h { x with op } none fun s =>
    if (s.uli u).foreign && decide (op ≠ 13) then s else run h.src.toNat s) s

/-! ### Forwarded requests at their home (R434, R435) -/

/-- A forwarded request keeps its link units until it has a forward-buffer entry (R436). -/
def forwarded (u op : Nat) (h : Header) (x : Txn) (run : Req → State → State) (s : State) : State :=
  receive u 1 h (fun s =>
    if h.dst.toNat ≠ s.self || (s.uli u).foreign then takePacket u 1 h { x with op } none (fun s => s) s
    else run { id := 0, source := 16 + u, ld := h.src.toNat, tag := x.tag, write := decide (op = 2), dlpn := x.index, lineNo := x.unit % 64
               data := x.lines.headD 0, mask := (x.words.head?.map (BitVec.ofNat 64 ·)).getD (BitVec.allOnes 64)
               colour := h.colour.toNat, units := h.len + 1, linkVc := h.vc, stage := .tracker } s) s

/-- A forwarded read arrives at its home. -/
def execFwdRd (u : Fin 3) (h : Header) (x : Txn) (s : State) : Host.Outcome State Fault Refusal :=
  .next (forwarded u 1 h x arriveForwarded s)

/-- The sequences of an originator that were applied, and one more (R435). -/
def State.appliedOf (s : State) (d : Nat) : List Nat := Tab.get [] s.const.applied d
def markApplied (d seq : Nat) (s : State) : State :=
  s.modConst fun c => { c with applied := Tab.set [] c.applied d ((seq :: s.appliedOf d).take 32768) }

/-- A forwarded write arrives at its home. One whose sequence is applied already is acknowledged alone; while the first copy is still under
way here, its own response answers (R435). -/
def execFwdWr (u : Fin 3) (h : Header) (x : Txn) (s : State) : Host.Outcome State Fault Refusal :=
  .next (forwarded u 2 h x (fun r s =>
    if (s.appliedOf r.ld).contains r.tag.toNat then
      let s := freeUnits u h.vc r.units s
      if s.path.reqs.any fun y => y.write ∧ 16 ≤ y.source ∧ y.source < 19 ∧ y.ld = r.ld ∧ y.tag = r.tag then s
      else sendResponse r.ld 2 r.tag 0 [] [] s
    else arriveForwarded r (markApplied r.ld r.tag.toNat s)) s)

/-! ### The far tier at the guest (R220, R436, R439, R440) -/

def State.remote (s : State) (i : Nat) : Remote := Tab.get {} s.const.remotes i
def State.modRemote (s : State) (i : Nat) (f : Remote → Remote) : State :=
  s.modConst fun c => { c with remotes := Tab.set {} c.remotes i (f (s.remote i)) }

/-- The lowest remote index that is free. DESIGN CHOICE, log 94. -/
def State.freeRemote (s : State) : Nat :=
  ((List.range (s.const.remotes.length + 1)).find? fun i => (s.remote i).state = 0).getD s.const.remotes.length

/-- A remote descriptor block exists. -/
def State.hasRemoteBlock (s : State) (k : Nat) : Bool := s.allocs.any fun a => a.2.megas.any fun m => m.2 = some (.remoteDesc k)

/-- The two copies of a remote descriptor block are there, or are placed now (R439). -/
def placeRemoteBlock (k prefer : Nat) (s : State) : Option State :=
  if s.hasRemoteBlock k then some s
  else (s.megaPair prefer).map fun p => useMega p.1 (some (.remoteDesc k)) (useMega p.2 (some (.remoteDesc k)) s)

/-- Lines in G that a new far page takes: its units, and the two copies of a remote descriptor block that it is the first to need. -/
def State.farCharge (s : State) (i units : Nat) : Nat := units + if s.hasRemoteBlock (i / 65536) then 0 else 32768

/-- FAR_ALLOC: the charge to G, and storage in the quadrant of the port it came by: the status, and the remote index (R142, R162, R177). -/
def farAlloc (u home dlpn st : Nat) (len : BitVec 20) (units : Nat) (s : State) : Nat × Nat × State :=
  match s.const.remotes.find? fun r => decide (r.2.home = home) && decide (r.2.homeDlpn = dlpn) && !r.2.committed &&
      decide (r.2.state = st) && decide (r.2.blockLen = len) with
  | some r => (0, r.1, s)
  | none =>
    let i := s.freeRemote
    let n := s.farCharge i units
    if !s.moverOk n then (2, 0, s)
    else match placeRemoteBlock (i / 65536) (6 * u) s with
      | none => (3, 0, s)
      | some t =>
        match takeOn (if st = 2 then units else 0) (.guest i) (t.placeOrder (6 * u) false) t with
        | none => (3, 0, s)
        | some (l, t) =>
          (0, i, updateCapacity ((t.modCap fun c => { c with g := c.g + n }).modRemote i fun _ =>
            { state := st, home, homeDlpn := dlpn, blockLen := len, location := l, units }))

def execFarAlloc (u : Fin 3) (h : Header) (x : Txn) (s : State) : Host.Outcome State Fault Refusal :=
  .next (request u 3 h x (fun d s =>
    let r := farAlloc u d x.index (x.words.getD 0 1) (BitVec.ofNat 20 (x.words.getD 1 0)) (x.words.getD 2 64) s
    sendResponse d 3 x.tag r.1 [] (if r.1 = 0 then [r.2.1] else []) r.2.2) s)

/-- The block of a page that a stored unit belongs to. -/
def Remote.blockOf (r : Remote) (unit : Nat) : Nat := if r.state = 2 then slotBlock r.blockLen unit else unit / 16 % 4

/-- A unit of far storage is found uncorrectable: BPOISON in its remote descriptor, and the report to the home (R274). DEDUCED, log 97. -/
def poisonRemote (i unit : Nat) (s : State) : State :=
  let r := s.remote i
  let b := r.blockOf unit
  (s.modRemote i fun r => { r with bpoison := r.bpoison ||| BitVec.ofNat 4 (2 ^ b) }).emit (.guestReport r.home r.homeDlpn b)

/-- The unit can be returned as good data. -/
def State.unitGood (s : State) (r : Remote) (unit : Nat) : Bool :=
  let l := r.location + unit
  decide (r.state ≠ 7) && decide (unit < r.units) && !r.bpoison.getLsbD (r.blockOf unit) && s.readable (lineChan l) && !(s.lineNow l).poisoned

/-- FAR_RD: the stored unit, or POISON. `ue` says that its line reads as uncorrectable. -/
def execFarRd (u : Fin 3) (h : Header) (x : Txn) (ue : Bool) (s : State) : Host.Outcome State Fault Refusal :=
  .next (request u 4 h x (fun d s =>
    let r := s.remote x.index
    let mine := decide (r.state ≠ 0) && decide (r.home = d)
    if mine && s.unitGood r x.unit then
      let l := r.location + x.unit
      if ue then
        let read : LineRead := { out := .ue, corrected := false, data := 0, bad := 1, tagBad := false }
        sendResponse d 4 x.tag 1 [0] [] (poisonRemote x.index x.unit (countUe l 1 read 0 s))
      else sendResponse d 4 x.tag 0 [(s.lineNow l).data] [] s
    else sendResponse d 4 x.tag 1 [0] [] s) s)

/-- FAR_WR: a unit of a PLAIN run is written in place. DEDUCED, log 95. -/
def execFarWr (u : Fin 3) (h : Header) (x : Txn) (s : State) : Host.Outcome State Fault Refusal :=
  .next (request u 5 h x (fun d s =>
    let r := s.remote x.index
    if r.state = 1 ∧ r.home = d ∧ x.unit < r.units then
      sendResponse d 5 x.tag 0 [] [] (putLine (r.location + x.unit) { data := x.lines.headD 0 } s)
    else sendResponse d 5 x.tag 2 [] [] s) s)

/-- Units put into a run: at their places before the first commit, and staged after it. -/
def putUnits (i unit : Nat) (lines : List Line) (s : State) : State :=
  let r := s.remote i
  let l := (List.range lines.length).map fun k => (unit + k, lines.getD k 0)
  if r.committed then
    s.modRemote i fun r => { r with staged := (r.staged.filter fun e => !l.any fun y => y.1 = e.1) ++ l }
  else forEach (l.filter fun e => e.1 < r.units) (fun e s => putLine (r.location + e.1) { data := e.2 } s) s

/-- FAR_PUT: four stored units from UNIT on. -/
def execFarPut (u : Fin 3) (h : Header) (x : Txn) (s : State) : Host.Outcome State Fault Refusal :=
  .next (request u 6 h x (fun d s =>
    if (s.remote x.index).home = d ∧ (s.remote x.index).state ≠ 0 then
      sendResponse d 6 x.tag 0 [] [] (putUnits x.index x.unit x.lines s)
    else sendResponse d 6 x.tag 2 [] [] s) s)

/-- A run is given another content and length: the new run is written, and the old one is zeroed and freed (R218, R440). -/
def replaceRun (u i : Nat) (st : Nat) (len : BitVec 20) (s : State) : Nat × State :=
  let r := s.remote i
  let n := if st = 2 then lenSum len 4 else 64
  let old := if r.state = 2 then r.units else 0
  match takeOn (if st = 2 then n else 0) (.guest i) (s.placeOrder (6 * u) false) s with
  | none => (3, s.modRemote i fun r => { r with staged := [] })
  | some (l, s) =>
    let unit := fun k => { data := ((r.staged.find? fun e => e.1 = k).map (·.2)).getD 0 : DLine }
    let s := putLines l ((List.range n).map unit) s
    let s := freeStorage r.location old (clearLines r.location r.units s)
    (0, updateCapacity ((s.modCap fun c => { c with g := c.g + n - r.units }).modRemote i fun r =>
      { r with state := st, blockLen := len, location := l, units := n, staged := [], bpoison := 0 }))

/-- FAR_COMMIT gives a far page its state and BLOCK_LEN. -/
def execFarCommit (u : Fin 3) (h : Header) (x : Txn) (s : State) : Host.Outcome State Fault Refusal :=
  .next (request u 7 h x (fun d s =>
    let r := s.remote x.index
    let st := x.words.getD 0 1
    let len := BitVec.ofNat 20 (x.words.getD 1 0)
    if r.state = 0 ∨ r.home ≠ d then sendResponse d 7 x.tag 2 [] [] s
    else if !r.committed ∨ r.staged.isEmpty then
      sendResponse d 7 x.tag 0 [] [] (s.modRemote x.index fun r => { r with state := st, blockLen := len, committed := true })
    else
      let (code, s) := replaceRun u x.index st len s
      sendResponse d 7 x.tag code [] [] s) s)

/-- FAR_FREE: the run is zeroed and freed, and G falls (R218). -/
def farFree (i : Nat) (s : State) : State :=
  let r := s.remote i
  if r.state = 0 then s
  else
    let s := freeStorage r.location (if r.blockLen ≠ 0 ∨ r.state = 2 then r.units else 0) (clearLines r.location r.units s)
    updateCapacity ((s.modCap fun c => { c with g := c.g - r.units }).modRemote i fun _ => {})

def execFarFree (u : Fin 3) (h : Header) (x : Txn) (s : State) : Host.Outcome State Fault Refusal :=
  .next (request u 8 h x (fun d s =>
    sendResponse d 8 x.tag 0 [] [] (if (s.remote x.index).home = d then farFree x.index s else s)) s)

/-! ### Coherence across devices (R438) -/

/-- A SNOOP arrives: this device's heads are snooped, and the answer waits for them and for the writes they have under way. -/
def execSnoop (u : Fin 3) (h : Header) (x : Txn) (s : State) : Host.Outcome State Fault Refusal :=
  .next (request u 9 h x (fun d s =>
    let key := lineKey d x.index (x.unit % 64)
    let s := snoopHeads key (s.dirEntry key) (x.words.getD 0 0 = 1) s
    answerSnoops (s.modConst fun c =>
      { c with snooped := c.snooped.filter (fun y => y != (d, x.tag, key)) ++ [(d, x.tag, key)] })) s)

/-! ### Mappings and admission (R83, R133, R431, R437) -/

/-- Another device maps an extent homed here: 0, or NO_PLACE where R83 would break, or REFUSED where it is not SHARED and ACTIVE. -/
def mapRemote (e d : Nat) (s : State) : Nat × State :=
  let x := s.extent e
  if 64 ≤ x.mappings.toNat then (3, s)
  else if !x.shared ∨ x.state ≠ .active then (2, s)
  else (0, (s.modExtent e fun x => { x with mappings := x.mappings + 1 }).modConst fun c => { c with remoteMaps := c.remoteMaps ++ [(e, d)] })

/-- Another device releases its mapping; the extent enters ERASING with its last (R133). -/
def unmapRemote (e d : Nat) (s : State) : State :=
  if !s.const.remoteMaps.contains (e, d) then s
  else
    let s := s.modConst fun c => { c with remoteMaps := removeFirst (fun m => m = (e, d)) c.remoteMaps }
    if (s.extent e).mappings.toNat ≤ 1 then releaseLast e s else s.modExtent e fun x => { x with mappings := x.mappings - 1 }

/-- XMAP arrives at the home. -/
def execXmap (u : Fin 3) (h : Header) (x : Txn) (s : State) : Host.Outcome State Fault Refusal :=
  .next (request u 10 h x (fun d s =>
    let e := x.words.getD 0 0
    if x.words.getD 1 0 = 1 then sendResponse d 10 x.tag 0 [] [] (unmapRemote e d s)
    else
      let (code, s) := mapRemote e d s
      sendResponse d 10 x.tag code [] [] s) s)

/-- The polestar records that a device maps an extent (R431). -/
def recordMapping (key d : Nat) (s : State) : State :=
  s.modConst fun c =>
    { c with register :=
        if c.register.any fun r => r.1 = key then c.register.map fun r => if r.1 = key then (r.1, insertNat d r.2) else r
        else c.register ++ [(key, [d])] }

/-- ADMIT arrives at the polestar, which confirms a grant, or a mapping, which it records; another device refuses. -/
def execAdmitReq (u : Fin 3) (h : Header) (x : Txn) (s : State) : Host.Outcome State Fault Refusal :=
  .next (request u 11 h x (fun d s =>
    if !s.ident.role then sendResponse d 11 x.tag 2 [] [] s
    else sendResponse d 11 x.tag 0 [] [] (if x.words.getD 2 1 = 0 then recordMapping (x.words.getD 3 0) d s else s)) s)

/-- A mapping that CONST_XMAP asks for can be checked at its home now. -/
def askXmap (s : State) : State :=
  let m := s.const.xmap
  if (s.member m.home).state = .joined then
    openTxn m.home { op := 10, index := m.extent, words := [m.extent, 0, m.ld] } 0 0 0 0 [m.extent, 0] s
  else xmapDone 11 s

/-- The checks of R437 that this device makes itself, in order: the first that fails. DEDUCED, log 96. -/
def State.xmapCode (s : State) (ld block home e : Nat) : Nat :=
  let mine := s.cap.dpaMap.any fun x => x.2.any fun m =>
    decide (m.home.toNat = home) && decide (m.extent.toNat = e) && decide (m.ld.toNat / 16 = ld / 16)
  let known := s.cap.dpaMap.any fun x => x.2.any fun m => decide (m.home.toNat = home) && decide (m.extent.toNat = e)
  if s.frozen then 1
  else if !s.inRegion ld block || (s.dpaFind ld block).isSome then 2
  else if s.mapFull ld block 1 then 7
  else if mine || (!known && decide (1024 ≤ s.sharedCount)) then 9
  else if (s.member home).state ≠ .joined then 11
  else 0

/-- A write to CONST_XMAP: the checks, and then the polestar's confirmation and the home's (R431, R437). -/
def writeXmap (w : Word) (s : State) : State :=
  let ld := (w.extractLsb' 0 8).toNat
  let block := (w.extractLsb' 8 24).toNat
  let home := (w.extractLsb' 32 2).toNat
  let e := (w.extractLsb' 34 18).toNat
  if s.const.xmap.busy then s
  else
    let code := s.xmapCode ld block home e
    let s := s.modConst fun c => { c with xmap := { busy := decide (code = 0), result := BitVec.ofNat 4 code, ld, block, home, extent := e } }
    if code ≠ 0 then s
    else if s.ident.role then askXmap (recordMapping (home * 2 ^ 18 + e) s.self s)
    else openTxn 0 { op := 11, words := [ld, block, 0, home * 2 ^ 18 + e] } 0 0 0 0 [] s

/-- The home has confirmed: the entry and the Add Capacity record (R78); a path with fewer than four VCs undoes it (R437). -/
def finishXmap (status : Nat) (s : State) : State :=
  let m := s.const.xmap
  let v := ((s.route m.home).map fun u => (s.uli u).vcsActive.toNat).getD 0
  if !m.busy then s
  else if status = 2 then xmapDone 10 s
  else if status ≠ 0 then xmapDone 9 s
  else if v < 4 then
    xmapDone 12 (openTxn m.home { op := 10, index := m.extent, words := [m.extent, 1, m.ld] } 0 0 0 0 [m.extent, 1] s)
  else
    let s := addMapping { ld := BitVec.ofNat 8 m.ld, block := BitVec.ofNat 24 m.block, home := BitVec.ofNat 2 m.home
                          extent := BitVec.ofNat 18 m.extent, shared := true } s
    let s := s.modCap fun c => { c with offers := c.offers ++ [(m.ld, m.block, c.nextGrant)], nextGrant := c.nextGrant + 1 }
    xmapDone 0 (placeRecord m.ld .dynamicCapacity (.dynamicCapacity 0 (BitVec.ofNat 64 (m.block * 2 ^ 28)) 0) s)

/-! ### Members (R430, R431, R443, R445, R446) -/

/-- REACH arrives: the members that its sender reaches directly. It is not answered. -/
def execReach (u : Fin 3) (h : Header) (x : Txn) (s : State) : Host.Outcome State Fault Refusal :=
  .next (request u 12 h x (fun _ s =>
    updateMembers (s.modUli u fun p => { p with reach := BitVec.ofNat 4 (x.words.getD 0 0), reachAt := some s.now })) s)

/-- The members that this device reaches directly. -/
def State.reachMask (s : State) : Nat := ((List.range 4).map fun d => if (s.directPort d).isSome then 2 ^ d else 0).sum

/-- 8 µs have passed: REACH goes out on each ACTIVE link (R446). -/
def execReachSend (s : State) : Host.Outcome State Fault Refusal :=
  .next (if !s.running then s
    else forEach (List.range 3) (fun u s =>
      let p := s.uli u
      if p.lstate = .active ∧ !p.foreign ∧ p.reachSent + 8 * usNs ≤ s.now then
        s.modUli u fun p =>
          { p with reachSent := s.now
                   tx := p.tx ++ [{ type := 1, vc := opVc 12 p.vcsActive.toNat, len := 1, dst := p.peerId.toNat, src := s.self
                                    txn := { op := 12, words := [s.reachMask] } }] }
      else s) s)

/-- A link to a device that has not joined this one carries no transaction; the member is shown as discord (R445). -/
def markForeign (u d : Nat) (s : State) : State :=
  if (s.uli u).lstate = .active ∧ (s.uli u).peerId.toNat = d then
    let s := updateMembers (s.modUli u fun p => { p with foreign := true })
    if (s.member d).state = .absent then setMemberState d .discord s else s
  else s

/-- JOIN arrives: this device joins its sender and answers with its own fields, or refuses (R430, R431). -/
def execJoin (u : Fin 3) (h : Header) (x : Txn) (s : State) : Host.Outcome State Fault Refusal :=
  .next (request u 13 h x (fun d s =>
    let no := (!s.ident.role && decide (s.self = 0)) || decide (d = 0) || decide (x.words.getD 1 0 = 1) || s.refusesJoin d u || (s.uli u).foreign
    if no then markForeign u d (sendResponse d 13 x.tag 2 [] [] s)
    else if (s.route d).isNone then s
    else joinMember d x.words (sendResponse d 13 x.tag 0 [] s.joinWords s)) s)

/-- A line in doubt is poisoned under R264 with source 4: what moves the page aborts, and what is gathered for the line is poisoned too. -/
def doubtLine (dlpn n : Nat) (s : State) : State :=
  let s := abortMove dlpn s
  let s := s.modGather fun g => { g with entries := g.entries.map fun e =>
    if e.dlpn = dlpn ∧ e.lineNo = n then { e with poisoned := true } else e }
  let d := s.desc dlpn
  match d.state with
  | .poisoned => s
  | .plain => markLine dlpn n (locLine d.location + n) 4 s
  | _ => poisonIfWhole dlpn 4 (markBlock dlpn (n / 16) 4 s)

/-- Every page with storage of an extent is POISONED. -/
def doubtExtent (e : Nat) (s : State) : State :=
  forEach ((s.livePages e).filter fun d => match (s.desc d).state with
    | .plain | .packed | .far | .moving => true
    | _ => false) (fun d s => poisonPage d 4 s) s

/-- One RECON entry of device d (R443 step 3). -/
def reconEntry (d w mask : Nat) (s : State) : State :=
  let dlpn := w % 2 ^ 34
  let kind := w / 2 ^ 36
  if kind = 0 then
    forEach ((List.range 64).filter fun n => (BitVec.ofNat 64 mask).getLsbD n) (fun n s =>
      if (s.extent (extentOf dlpn)).state = .free then s else doubtLine dlpn n s) s
  else if kind = 2 then doubtExtent (extentOf dlpn) s
  else forEach ((s.const.remoteMaps.filterMap fun m => if m.2 = d then some m.1 else none).eraseDups) doubtExtent s

/-- Take a list two at a time. -/
def pairs : List Nat → List (Nat × Nat)
  | a :: b :: t => (a, b) :: pairs t
  | _ => []

/-- RECON arrives: lines in doubt are poisoned. -/
def execRecon (u : Fin 3) (h : Header) (x : Txn) (s : State) : Host.Outcome State Fault Refusal :=
  .next (request u 14 h x (fun d s =>
    sendResponse d 14 x.tag 0 [] [] (forEach (pairs x.words) (fun e s => reconEntry d e.1 e.2 s) s)) s)

/-- A tally from the fields that a TALLY request carries. -/
def tallyOf (w : List Nat) : Tally :=
  let b := fun (i : Nat) => BitVec.ofNat 64 (w.getD i 0)
  { seq := b 0, tbClose := b 1, upClose := b 2, upOpen := b 3, source := BitVec.ofNat 16 (w.getD 4 0), severity := BitVec.ofNat 8 (w.getD 5 0)
    reason := BitVec.ofNat 8 (w.getD 6 0), device := BitVec.ofNat 8 (w.getD 7 0), shift := BitVec.ofNat 8 (w.getD 8 0), count := b 9
    smallest := b 10, largest := b 11, sum := b 12, arg1 := b 13, arg2 := b 14, buckets := (List.range 16).map fun i => b (15 + i) }

/-- The polestar stores a companion's tally as a copy under its own sequence number (R541). -/
def storeCopy (t : Tally) (s : State) : State :=
  s.modRec fun r => ({ r with seq := r.seq + 1 } : Recorder).put
    { t with seq := r.seq, reason := 4, device := t.device ||| 0x80, copySeq := t.seq }

def execUliletTally (u : Fin 3) (h : Header) (x : Txn) (s : State) : Host.Outcome State Fault Refusal :=
  .next (request u 15 h x (fun d s =>
    sendResponse d 15 x.tag 0 [] [] (if s.ident.role then storeCopy (tallyOf x.words) s else s)) s)

/-! ### Responses at the originator (R432, R434, R435, R440) -/

/-- A forwarded write is over: its journal entry is free (R435). -/
def endJournal (o : Open) (s : State) : State :=
  s.modConst fun c => { c with journal := c.journal.filter fun j => !(j.seq = o.tag ∧ j.home = o.target) }

/-- A forwarded request is complete. -/
def endForwarded (o : Open) (data : Line) (poison : Bool) (s : State) : State :=
  match s.req o.req with
  | some r => respond r data poison s
  | none => s

/-- The guest has answered FAR_ALLOC: the claim goes on with its storage, or ends with code 3 or 4; an operation that is gone gives the
storage back (R440). -/
def allocAnswered (o : Open) (x : Txn) (s : State) : State :=
  let g := o.target
  match s.record o.dlpn with
  | some (q, r) =>
    if r.phase ≠ .claim ∨ r.op ≠ .demote g then (if x.status = 0 then sendFarFree g (x.words.getD 0 0) o.dlpn s else s)
    else if x.status = 0 then
      let r := { r with placed := true, dstLoc := BitVec.ofNat 44 (g + 4 * x.words.getD 0 0), dstState := o.words.getD 0 1
                        dstLen := BitVec.ofNat 20 (o.words.getD 1 0) }
      tryClaim q [] r (modRecord q o.dlpn (fun _ => r) s)
    else endClaim q r (if x.status = 3 then 4 else 3) s
  | none => if x.status = 0 then sendFarFree g (x.words.getD 0 0) o.dlpn s else s

/-- A stored unit has come from its guest: for a host's read, for an eviction, or for a recall. -/
def unitArrived (o : Open) (x : Txn) (s : State) : State :=
  let out : LineOut := if x.status = 0 then .clean else .poison
  match s.req o.req with
  | none => s
  | some r =>
    if r.source = 21 ∨ r.source = 22 then
      let r := { r with lines := r.lines.map fun l => if l.line = o.unit then { l with data := some (x.lines.headD 0, out) } else l }
      let s := putReq r s
      if r.source = 21 ∧ r.lines.all fun l => l.data.isSome then
        let form := Tab.get (1, 0) s.const.farForms r.dlpn
        let bad := r.lines.filter fun l => (l.data.map (·.2)) = some LineOut.poison
        let s := forEach ((bad.map fun l => if form.1 = 2 then slotBlock form.2 l.line else l.line / 16).eraseDups) (fun b s => markBlock r.dlpn b 0 s)
          (dropReq r.id s)
        farEvicted r.dlpn (r.lines.filterMap fun l => l.data.map fun d => (l.line, d.1)) s
      else s
    else lineBack r.id o.unit (x.lines.headD 0) out s

/-- A guest could not place a new run: the page's data there is the old run's, and the page is POISONED. -/
def commitAnswered (o : Open) (x : Txn) (s : State) : State :=
  let d := s.desc o.dlpn
  if x.status ≠ 0 ∧ d.state = .far ∧ locGuest d.location = o.target ∧ locRemote d.location = o.txn.index then poisonPage o.dlpn 5 s else s

/-- A guest has zeroed a far page: a page of an erasing extent has its reset descriptor (R218). -/
def freeAnswered (o : Open) (s : State) : State :=
  let d := s.desc o.dlpn
  let e := extentOf o.dlpn
  if (s.extent e).state = .erasing ∧ d.state = .far ∧ locGuest d.location = o.target ∧ locRemote d.location = o.txn.index then
    finishErase e (setDesc o.dlpn { s.descReset o.dlpn with wgen := d.wgen } s)
  else s

/-- The polestar has confirmed: the admission unit decides on the grant (R431), or a mapping goes to its home. -/
def admitAnswered (o : Open) (x : Txn) (s : State) : State :=
  match s.const.admits.find? fun w => w.tag = o.tag with
  | some w =>
    if x.status ≠ 0 then refuseAdmit 1 w s
    else
      let s := s.modConst fun c => { c with admits := c.admits.filter (· != w) }
      let (code, first, s) := admitGrant w.grant s
      let s := match w.thread with
        | some (t, reg) => deviceDone t reg (grantWord code first) s
        | none => s
      (match w.cci with
        | some cci => grantAnswer cci code s
        | none => s)
  | none => if !s.const.xmap.busy then s else if x.status = 0 then askXmap s else xmapDone 1 s

/-- JOIN has been answered: joined, or refused, and the link is foreign (R431, R445). -/
def joinAnswered (o : Open) (x : Txn) (s : State) : State :=
  if x.status = 0 then joinMember o.target x.words s
  else match s.directPort o.target with
    | some u => markForeign u o.target s
    | none => s

/-- What follows a response, by its operation. -/
def answered (o : Open) (x : Txn) (s : State) : State :=
  if o.op = 1 then endForwarded o (x.lines.headD 0) (decide (x.status ≠ 0)) s
  else if o.op = 2 then answerSnoops (resume [.journal] (endForwarded o 0 false (endJournal o s)))
  else if o.op = 3 then allocAnswered o x s
  else if o.op = 4 then unitArrived o x s
  else if o.op = 7 then commitAnswered o x s
  else if o.op = 8 then freeAnswered o s
  else if o.op = 9 then resume [.peers] s
  else if o.op = 10 then (if o.words.getD 1 0 = 0 then finishXmap x.status s else s)
  else if o.op = 11 then admitAnswered o x s
  else if o.op = 13 then joinAnswered o x s
  else if o.op = 14 then (if s.const.opened.any fun p => p.target = o.target ∧ p.op = 14 then s else finishReconcile o.target s)
  else s

/-- A response arrives: its TAG, OP and sender name the request it completes; one that names none is discarded. A STATUS above 3 is a
protocol error (R432). -/
def execTxnResponse (u : Fin 3) (h : Header) (x : Txn) (s : State) : Host.Outcome State Fault Refusal :=
  .next (receive u 2 h (takePacket u 2 h x none fun s =>
    if 3 < x.status then protocolError u s
    else match s.const.opened.find? fun o => o.op = x.op ∧ o.tag = x.tag ∧ o.target = h.src.toNat with
      | none => s
      | some o => answered o x (s.modConst fun c => { c with opened := c.opened.filter (· != o) })) s)

/-! ### Orphans (R441) -/

/-- A forwarded request has had no response ORPHAN_TO after it arrived: a read completes with poison; a write completes, and its line is
indeterminate. -/
def execOrphanTimeout (write : Bool) (tag : BitVec 16) (s : State) : Host.Outcome State Fault Refusal :=
  .next (match s.const.opened.find? fun o => o.op = (if write then 2 else 1) ∧ o.tag = tag ∧ o.at_ + s.const.orphanTo.toNat * usNs ≤ s.now with
    | none => s
    | some o =>
      if !s.running then s
      else
        let s := s.modConst fun c => { c with opened := c.opened.filter (· != o) }
        let s := fireEvent 688 (s.modMember o.target fun m => { m with orphans := satAdd m.orphans 1 })
        if write then
          answerSnoops (resume [.journal] (endForwarded o 0 false
            (addIndet o.dlpn o.target false (BitVec.ofNat 64 (2 ^ o.unit)) (endJournal o s))))
        else endForwarded o 0 true s)

/-! ### Reports of guests (R274, R281) -/

/-- A guest reports a block of a far page, 0 to 3, or all of it, 4: the home poisons it, lists it and places the record. -/
def execGuestPoisonReport (d : Fin 4) (dlpn : BitVec 34) (block : Fin 5) (s : State) : Host.Outcome State Fault Refusal :=
  .next (let p := dlpn.toNat
    let (st, loc, _) := s.source p
    if !s.running || decide (st ≠ .far) || decide (locGuest loc ≠ d.val) then s
    else if block.val = 4 then recordPoison p 2 0 txManagement (poisonPage p 5 s)
    else if (s.desc p).bpoison.getLsbD block then s
    else poisonIfWhole p 0 (recordPoison p 1 block txScrub (markBlock p block 0 s)))

end Sys2Proof.Machine
end

