-- ==== Sys2Proof/Machine/Idle.lean ====
section
/-! DEFINITION. What passes while no command waits: one nanosecond of the device's own time (DESIGN CHOICE, log 2). -/
namespace Sys2Proof.Machine

/-- One nanosecond with no command waiting: the uptime and the timebase advance and the hold buffers' occupancy is summed (R395, R481,
R483). Every timer of the device is a deadline that its expiry command compares with the uptime. -/
def idle (s : State) : State := if s.start.powered then sumHold (tick s) else s

end Sys2Proof.Machine
end

