-- ==== Sys2Proof/Machine/RilEvents.lean ====
section
/-! DEFINITION. Event queues, bindings, dispatch, waits, timers and the watchdog (R297 to R305, R309, R311, R338). -/
namespace Sys2Proof.Machine

/-! ### Who may use a queue (R295, R297 to R299, R338) -/

/-- Queues 12 to 31, and numbers above 255, name no queue. -/
def badQueue (q : Nat) : Bool := decide (255 < q) || (decide (12 ≤ q) && decide (q ≤ 31))

/-- Code at this level may BIND, UNBIND or WAIT on a queue. -/
def State.mayListen (s : State) (p : Priv) (ld q : Nat) : Bool :=
  match p with
  | .firmware => true
  | .operator => !(decide (q ∈ [0, 2, 5]))
  | .tenant => decide ((s.queue q).tenant = some ld)

/-- Code may POST to a queue. -/
def State.mayPost (s : State) (u : Thread) (q : Nat) : Bool :=
  match u.priv with
  | .firmware => decide (q = 0) || decide (11 < q)
  | .operator => decide (11 < q)
  | .tenant => decide (q = 64) || decide ((s.queue q).tenant = some u.ld)

/-! ### Instructions of the event group (R338) -/

/-- The queues that WAIT names: bytes of g[b], the first in byte 0. -/
def waitQueues (f : Fields) (u : Thread) : List Nat := (List.range (f.lit % 8 + 1)).map fun i => ((u.reg f.b).extractLsb' (8 * i) 8).toNat

def execWait (t : Fin 32) (s : State) : Host.Outcome State Fault Refusal :=
  .next (instr (insKey 0x34 0) true t
    (fun f u s =>
      [unusedA f, (decide (7 < f.lit), trapIllegal), (!(waitQueues f u).all (s.mayListen u.priv u.ld), trapPriv),
       ((waitQueues f u).any badQueue || decide ((u.reg f.c).extractLsb' 32 32 ≠ 0), trapBounds)])
    (fun f u s =>
      let us := ((u.reg f.c).extractLsb' 0 32).toNat
      (s.modThread t fun v => { v with
        state := .wait, waitSet := waitQueues f u, waitOrder := s.ril.nextWait
        waitUntil := if us = 0 then none else some (s.now + us * usNs) }).modRil fun r => { r with nextWait := r.nextWait + 1 }) s)

/-- The mailbox command with a tag. -/
def State.mboxOf (s : State) (tag : Word) : Option MboxCmd := s.ril.mbox.find? fun m => m.tag = tag

/-- A mailbox completion goes to the mailbox engine, and the mapping of the payload buffer ends (R305). -/
def completeMailbox (m : MboxCmd) (code : Word) (len : Nat) (s : State) : State :=
  let out := (List.range len).map fun i => Memory.read m.buffer i
  let s := s.modRil fun r => { r with mbox := r.mbox.filter fun x => x.tag != m.tag }
  let s := forEach (List.range 32) (fun v s => s.modThread v fun x => if x.tag = some m.tag then { x with tag := none } else x) s
  s.emit (.completion m.cci code out)

/-- Place an entry of a program in a queue. -/
def postEntry (q : Nat) (e : QEntry) (s : State) : State :=
  countEvent 63 0x603 none (s.modQueue q fun x => { x with entries := x.entries ++ [e] })

def execPost (t : Fin 32) (s : State) : Host.Outcome State Fault Refusal :=
  .next (instr (insKey 0x34 1) true t
    (fun f u s => let q := (u.reg f.b).toNat
      let m := s.mboxOf (u.reg 1)
      let badTag := decide (q = 0) && ((m.map fun m => decide (payloadBuffer m.cci < (u.reg 3).toNat)).getD true)
      [unusedA f, unusedC f, unusedL f, (!s.mayPost u q, trapPriv), (badQueue q || badTag, trapBounds),
       (decide (q ≠ 0) && decide (queueCap q ≤ (s.queue q).entries.length), trapQueueFull)])
    (fun f u s => let q := (u.reg f.b).toNat
      if q = 0 then
        match s.mboxOf (u.reg 1) with
        | some m => completeMailbox m (u.reg 2) (u.reg 3).toNat s
        | none => s
      else
        let g4 := if u.tenant && decide (q = 64) then BitVec.ofNat 64 u.ld else u.reg 4
        postEntry q { g1 := u.reg 1, g2 := u.reg 2, g3 := u.reg 3, g4, timebase := s.time.tb } s) s)

/-- A handler is bound to a queue; its timer starts one period from now (R302). -/
def bindQueue (q : Nat) (entry : BitVec 19) (concurrency : Nat) (owner : Priv) (ld periodUs : Nat) (s : State) : State :=
  s.modQueue q fun x => { x with bound := some {
    entry, concurrency, owner, ld
    period := if periodUs = 0 then none else some (periodUs * usNs)
    nextDue := s.now + periodUs * usNs } }

/-- A period operand of BIND that its definition does not list. -/
def badPeriod (us : Nat) : Bool := decide (us ≠ 0) && (decide (us < 10) || decide (2 ^ 32 ≤ us))

def execBind (t : Fin 32) (s : State) : Host.Outcome State Fault Refusal :=
  .next (instr (insKey 0x34 2) true t
    (fun f u s => let q := (u.reg f.b).toNat
      let x := (u.reg f.c).toNat
      [(decide (31 < f.lit), trapIllegal), (!s.mayListen u.priv u.ld q || !s.inText u x, trapPriv), (decide (x % 4 ≠ 0), trapAlign),
       (badQueue q || badPeriod (u.reg f.a).toNat, trapBounds), ((s.queue q).bound.isSome, trapQuota)])
    (fun f u s =>
      bindQueue (u.reg f.b).toNat ((u.reg f.c).setWidth 19) (f.lit % 32 + 1) u.priv u.ld (u.reg f.a).toNat s) s)

/-- The binding is of another image than the code that runs. -/
def foreignBinding (u : Thread) (b : Binding) : Bool :=
  u.notFirmware && (decide (b.owner ≠ u.priv) || (u.tenant && decide (b.ld ≠ u.ld)))

def execUnbind (t : Fin 32) (s : State) : Host.Outcome State Fault Refusal :=
  .next (instr (insKey 0x34 3) true t
    (fun f u s => let q := (u.reg f.b).toNat
      [unusedA f, unusedC f, unusedL f,
       (!s.mayListen u.priv u.ld q || (((s.queue q).bound.map (foreignBinding u)).getD false), trapPriv), (badQueue q, trapBounds)])
    (fun f u s => s.modQueue (u.reg f.b).toNat fun x => { x with bound := none }) s)

/-! ### Dispatch (R303, R304) -/

/-- The thread in WAIT on a queue that has waited longest. -/
def State.waiter (s : State) (q : Nat) : Option Nat :=
  ((List.range 32).filter fun t => decide ((s.thread t).state = .wait) && (s.thread t).waitSet.contains q).foldl (fun best t =>
    match best with
    | none => some t
    | some b => if (s.thread t).waitOrder < (s.thread b).waitOrder then some t else some b) none

/-- Invocations that run for a queue. -/
def State.runningFor (s : State) (q : Nat) : Nat := ((List.range 32).filter fun t => (s.thread t).state.busy && decide ((s.thread t).queue = q)).length

/-- Threads that hold tenant invocations. -/
def State.tenantsRunning (s : State) : Nat := ((List.range 32).filter fun t => (s.thread t).state.busy && (s.thread t).tenant).length

/-- Busy threads of a core. -/
def State.busyOn (s : State) (c : Nat) : Nat := ((List.range 4).filter fun i => (s.thread (4 * c + i)).state.busy).length

/-- The free thread that an invocation at a level goes to: the lowest on the core with the fewest busy threads (R303 rules 4 to 6).
DEDUCED, log 76. -/
def State.threadFor (s : State) (p : Priv) : Option Nat :=
  if p = .tenant ∧ s.ril.tenantThreads.toNat ≤ s.tenantsRunning then none
  else
    ((List.range 32).filter fun t => decide ((s.thread t).state = .free) && (decide (t % 4 ≠ 0) || decide (p = .firmware))).foldl
      (fun best t => match best with
        | none => some t
        | some b => if s.busyOn (coreOf t) < s.busyOn (coreOf b) then some t else some b) none

/-- g1 to g6 of an entry of a queue (R304). -/
def entryRegs (q : Nat) (e : QEntry) (u : Thread) : Thread :=
  (((((u.setReg 1 e.g1).setReg 2 e.g2).setReg 3 e.g3).setReg 4 e.g4).setReg 5 (BitVec.ofNat 64 q)).setReg 6 e.timebase

/-- The tag of the mailbox command an entry carries. -/
def entryTag (q : Nat) (e : QEntry) : Option (BitVec 64) := if q = 0 then some e.g3 else none

/-- An invocation starts on a thread in the active bank; scratch is zeroed when another image, or a tenant, had it or gets it
(R291, R304). -/
def startInvocation (t q : Nat) (entry : BitVec 19) (ld : Nat) (e : QEntry) (s : State) : State :=
  let p := regionPriv entry.toNat
  let ld := if p = .tenant then ld else 0
  let s := countEvent (51 + coreOf t) 0x402 none s
  s.modThread t fun u =>
    let keep := decide (u.scratchOwner = some (p, ld)) && decide (p ≠ .tenant)
    entryRegs q e { state := .running, priv := p, ld, bank := s.ril.active, queue := q, pc := entry, watchFrom := s.now
                    scratch := if keep then u.scratch else [], scratchOwner := some (p, ld), tag := entryTag q e }

/-- Take the oldest entry of a queue. -/
def dropEntry (q : Nat) (s : State) : State := s.modQueue q fun x => { x with entries := x.entries.drop 1 }

/-- WAIT returns with an entry; the watchdog starts anew (R304, R309). -/
def deliver (t q : Nat) (e : QEntry) (s : State) : State :=
  closeComet t [2, 4] ((dropEntry q s).modThread t fun u =>
    { entryRegs q e u with
      state := .running, waitSet := [], waitUntil := none, watchFrom := s.now
      tag := (entryTag q e).orElse fun _ => u.tag })

/-- What the dispatcher can do with a queue: give its oldest entry to a waiting thread, or start its handler. -/
def State.canServe (s : State) (q : Nat) : Bool :=
  !(s.queue q).entries.isEmpty &&
    ((s.waiter q).isSome || match (s.queue q).bound with
      | none => false
      | some b => decide (s.runningFor q < b.concurrency) && (s.threadFor (regionPriv b.entry.toNat)).isSome)

/-- Serve a queue once. -/
def serveQueue (q : Nat) (s : State) : State :=
  match (s.queue q).entries.head? with
  | none => s
  | some e =>
    match s.waiter q with
    | some t => deliver t q e s
    | none =>
      match (s.queue q).bound with
      | none => s
      | some b =>
        match s.threadFor (regionPriv b.entry.toNat) with
        | none => s
        | some t => startInvocation t q b.entry b.ld e (dropEntry q s)

/-- The dispatcher serves the lowest-numbered queue that it can (R303). A gated policy domain wakes first. DEDUCED, log 83. -/
def execDispatch (s : State) : Host.Outcome State Fault Refusal :=
  .next (if s.running && !s.power.dozing then
      match (List.range 256).find? s.canServe with
      | none => s
      | some q => if s.domAwake 3 then serveQueue q s else wakeDomain 3 s
    else s)

/-! ### Timeouts, timers and the watchdog (R302, R304, R309, R311) -/

/-- A WAIT's timeout passes: an entry that is there already is delivered; otherwise g5 reads 0xFFFF. -/
def execWaitTimeout (t : Fin 32) (s : State) : Host.Outcome State Fault Refusal :=
  .next (let u := s.thread t
    if s.running && decide (u.state = .wait) && ((u.waitUntil.map fun d => decide (d ≤ s.now)).getD false) then
      match u.waitSet.find? fun q => decide (s.waiter q = some t.val) && !(s.queue q).entries.isEmpty with
      | some q => serveQueue q s
      | none =>
        closeComet t [2, 4] (s.modThread t fun u =>
          { entryRegs 0xFFFF {} u with state := .running, waitSet := [], waitUntil := none, watchFrom := s.now })
    else s)

/-- A timer expires: the queue's unconsumed timer event counts one more, or a new one is placed (R302). -/
def timerEvent (q : Nat) (s : State) : State :=
  let x := s.queue q
  if x.entries.any (·.timer) then
    let bump : QEntry → QEntry := fun e => if e.timer then { e with g1 := e.g1 + 1, g2 := s.time.tb } else e
    s.modQueue q fun x => { x with entries := x.entries.map bump }
  else if x.entries.length < queueCap q then postEntry q { g1 := 1, g2 := s.time.tb, timebase := s.time.tb, timer := true } s
  else s.modQueue q fun x => { x with ovf := true, lost := satAdd x.lost 1 }

def execQueueTimerExpiry (q : Fin 256) (s : State) : Host.Outcome State Fault Refusal :=
  .next (if s.running then
      match (s.queue q).bound with
      | none => s
      | some b =>
        match b.period with
        | none => s
        | some p =>
          if b.nextDue ≤ s.now then
            (timerEvent q (wakeDoze 5 s)).modQueue q fun x => { x with bound := x.bound.map fun b => { b with nextDue := b.nextDue + p } }
          else s
    else s)

/-- An invocation's 10 ms have passed: it traps, or traps when its device operation returns (R309). -/
def execWatchdogExpiry (t : Fin 32) (s : State) : Host.Outcome State Fault Refusal :=
  .next (if s.running && decide ((s.thread t).watchFrom + watchdogNs ≤ s.now) then
      match (s.thread t).state with
      | .running => takeTrap t trapWatchdog s
      | .deviceOp => s.modThread t fun u => { u with late := true }
      | _ => s
    else s)

end Sys2Proof.Machine
end

