-- ==== Sys2Proof/Machine/Images.lean ====
section
/-! DEFINITION. Program images: their format and verification, loading, activation and the bank swap, and the enrolment of the
operator key (R99, R100, R347 to R373). -/
namespace Sys2Proof.Machine

/-! ### The format of an image (R347 to R355) -/

/-- Section i of an image: its offset, its length and its fourth field (R349). -/
def sectionOf (img : List Byte) (i : Nat) : Nat × Nat × Nat :=
  (imgField img (64 + 16 * i + 4) 4, imgField img (64 + 16 * i + 8) 4, imgField img (64 + 16 * i + 12) 4)

/-- The text, data, bindings and manifest sections. -/
def secText : Nat := 0
def secData : Nat := 1
def secBind : Nat := 2
def secManifest : Nat := 3

/-- A field of a section. -/
def secField (img : List Byte) (i off n : Nat) : Nat := imgField img ((sectionOf img i).1 + off) n

/-- The bytes of a section. -/
def secBytes (img : List Byte) (i : Nat) : List Byte := (img.drop (sectionOf img i).1).take (sectionOf img i).2.1

/-- The section table keeps R349: the four types in order, each aligned, inside the image before the signature, clear of the others. -/
def tableOk (img : List Byte) : Bool :=
  let stop := img.length - 96
  let apart := fun (i j : Nat) =>
    let a := sectionOf img i
    let b := sectionOf img j
    decide (a.2.1 = 0) || decide (b.2.1 = 0) || decide (a.1 + a.2.1 ≤ b.1) || decide (b.1 + b.2.1 ≤ a.1)
  (List.range 4).all fun i =>
    let a := sectionOf img i
    decide (imgField img (64 + 16 * i) 2 = i + 1) && decide (a.1 % 8 = 0) && decide (128 ≤ a.1) && decide (a.1 + a.2.1 ≤ stop) &&
      (decide (a.2.1 ≠ 0) || decide (i = secData) || decide (i = secBind)) && (decide (i = secData) || decide (a.2.2 = 0)) &&
      (List.range i).all fun j => apart i j

/-- The largest text of a target (R350). -/
def textLimit (target : Nat) : Nat := if target = 0 then 262144 else if target = 1 then 196608 else 31744

/-- The text keeps R350. -/
def textOk (target : Nat) (img : List Byte) : Bool :=
  let n := (sectionOf img secText).2.1
  decide (n % 4 = 0) && decide (n ≤ textLimit target)

/-- The data section lies in its area (R352); an empty one lies in any. DEDUCED, log 82. -/
def dataOk (target : Nat) (img : List Byte) : Bool :=
  let (_, n, at_) := sectionOf img secData
  decide (n = 0) ||
    (if target = 0 then decide (at_ + n ≤ 0x100000)
     else if target = 1 then decide (at_ + n ≤ 0x200000)
     else decide (64 ≤ at_) && decide (at_ + n ≤ 4096))

/-- Queues a tenant image claims (R353). -/
def claimed (img : List Byte) : Nat := secField img secManifest 4 1

/-- Entry k of the bindings section: its queue, concurrency, handler offset and period (R351). -/
structure BindEntry where
  queue : Nat
  concurrency : Nat
  handler : Nat
  period : Nat
  deriving DecidableEq, Repr

def bindEntries (img : List Byte) : List BindEntry :=
  (List.range ((sectionOf img secBind).2.1 / 16)).map fun k =>
    { queue := secField img secBind (16 * k) 1, concurrency := secField img secBind (16 * k + 1) 1
      handler := secField img secBind (16 * k + 4) 4, period := secField img secBind (16 * k + 8) 4 }

/-- The bindings section keeps R351. -/
def bindingsOk (target : Nat) (img : List Byte) : Bool :=
  let n := (sectionOf img secBind).2.1
  decide (n % 16 = 0) && decide (n / 16 ≤ if target = 2 then 4 else 256) &&
    (bindEntries img).all fun b =>
      (decide (target ≠ 2) || decide (b.queue < claimed img)) && decide (1 ≤ b.concurrency) && decide (b.concurrency ≤ 32) &&
        decide (b.handler % 4 = 0) && decide (b.handler < (sectionOf img secText).2.1) && !badPeriod b.period

/-- The manifest keeps R353. -/
def manifestOk (target : Nat) (img : List Byte) : Bool :=
  let entry := secField img secManifest 0 4
  let hintQueue := secField img secManifest 5 1
  let page := secField img secManifest 8 8
  decide ((sectionOf img secManifest).2.1 = 64) &&
    (if target = 0 then decide (entry % 4 = 0) && decide (entry < (sectionOf img secText).2.1) else decide (entry = 0xFFFFFFFF)) &&
    (if target = 2 then decide (claimed img ≤ 4) && (decide (hintQueue = 0xFF) || decide (hintQueue < claimed img)) &&
        (decide (page = 2 ^ 64 - 1) || decide (page % 4096 = 0))
     else decide (claimed img = 0) && (decide (hintQueue = 0) || decide (hintQueue = 0xFF)) &&
        (decide (page = 0) || decide (page = 2 ^ 64 - 1))) &&
    ((secBytes img secManifest).drop 32).all fun b => decide (b.toNat < 128)

/-- What the device implements: Almanac entry 0x00A0 (R55). -/
def isaMajor : Nat := 1
def isaMinor : Nat := 0

/-- The SVN floor of a target; tenant images have none (R365). -/
def Img.floor (i : Img) (target : Nat) : Nat := if target = 0 then i.fwFloor.toNat else if target = 1 then i.opFloor.toNat else 0

/-- The format checks of R355 after the signature, but for the SVN. -/
def formatOk (target ld total : Nat) (img : List Byte) : Bool :=
  decide (imgField img 0 4 = 0x4D494C52) && decide (imgField img 4 1 = 1) && decide (imgField img 5 1 = target) &&
    (decide (target ≠ 2) || decide (imgField img 22 2 = ld)) && decide (imgField img 24 4 = total) && decide (224 ≤ total) &&
    tableOk img && textOk target img && dataOk target img && bindingsOk target img && manifestOk target img &&
    decide (imgField img 20 1 = isaMajor) && decide (imgField img 21 1 ≤ isaMinor)

/-- The state that verification gives an image, and whether the SVN floor alone refused it (R354, R355). The verdict of the ECDSA check
is the operand's; without an enrolled operator key nothing verifies under it. -/
def State.verdict (s : State) (target ld : Nat) (img : List Byte) (sigOk : Bool) : Nat × Bool :=
  if imgField img 6 1 ≠ (if target = 0 then 0 else 1) then (4, false)
  else if !sigOk || (decide (target ≠ 0) && s.img.opKey.isNone) then (2, false)
  else if !formatOk target ld img.length img then (3, false)
  else if imgField img 16 2 < s.img.floor target then (3, true)
  else (1, false)

/-! ### Loading (R99, R362 to R364) -/

/-- Sectors of 4 KiB that hold the first n bytes of a copy. PRESUMED, log 17. -/
def sectors (n : Nat) : Nat := (n + 4095) / 4096

/-- The path class of Load and Activate (R98): Mgmt, or Self with TENANT_IMAGE for a tenant image of the LD itself. -/
def State.mayImage (s : State) (cci : Cci) (target ld : Nat) : Bool :=
  match cci with
  | .mctp => true
  | .ld i => (s.ld i.val).mgmt || ((s.ld i.val).tenantImage && decide (target = 2) && decide (ld = i.val))

/-- The load of a target, tenant images by LD. -/
def sameLoad (target ld : Nat) (l : Load) : Bool := decide (l.target = target) && (decide (target ≠ 2) || decide (l.ld = ld))
def State.loadOf (s : State) (target ld : Nat) : Option Load := s.img.loads.find? (sameLoad target ld)

/-- Bytes of the tenant image store in use: images, and loads that receive or are verified (R364). -/
def Img.storeUsed (i : Img) : Nat :=
  (i.tenants.map fun t => t.bytes.length).sum +
    ((i.loads.filter fun l => decide (l.target = 2) && decide (l.state ≤ 1)).map (·.total)).sum

/-- Discard previous tenant images, oldest first, until n bytes fit in the store; `fuel` bounds the images. -/
def discardTenants (n : Nat) : Nat → Img → Img
  | 0, i => i
  | f + 1, i =>
    if i.storeUsed + n ≤ 262144 then i
    else if i.tenants.all (·.active) then i
    else discardTenants n f { i with tenants := removeFirst (fun t => !t.active) i.tenants }

/-- A copy of a target in flash takes these bytes. -/
def Img.setCopy (i : Img) (op second : Bool) (b : List Byte) : Img :=
  match op, second with
  | false, false => { i with fw0 := b }
  | false, true => { i with fw1 := b }
  | true, false => { i with op0 := b }
  | true, true => { i with op1 := b }

/-- The inactive copy of target 0 or 1. -/
def Img.inactive (i : Img) (target : Nat) : Bool := if target = 0 then !i.fwCopy else !i.opCopy

/-- Chunk 0 erases the inactive copy and clears the bit that marks it as the previous image (R362). -/
def eraseCopy (target : Nat) (s : State) : State :=
  let s : State := { s with img := s.img.setCopy (decide (target = 1)) (s.img.inactive target) [] }
  if target = 0 then (if s.img.fwPrevious then writeDirectory (fun (i : Img) => { i with fwPrevious := false }) s else s)
  else if s.img.opPrevious then writeDirectory (fun (i : Img) => { i with opPrevious := false }) s
  else s

/-- A load starts: its store space is reserved, or its flash copy erased; none when the store lacks room. -/
def startLoad (target ld : Nat) (cci : Cci) (total : Nat) (s : State) : Option State :=
  let s : State := { s with img := { s.img with loads := s.img.loads.filter fun l => !sameLoad target ld l } }
  let l : Load := { target, ld, cci, total }
  if target = 2 then
    let i := discardTenants total s.img.tenants.length s.img
    if i.storeUsed + total ≤ 262144 then some { s with img := { i with loads := i.loads ++ [l] } } else none
  else
    let s := eraseCopy target s
    some { s with img := { s.img with loads := s.img.loads ++ [l] } }

/-- A load's bytes change. -/
def setLoad (l : Load) (s : State) : State :=
  { s with img := { s.img with loads := s.img.loads.map fun x => if sameLoad l.target l.ld x then l else x } }

/-- Chunk bytes join a load and its flash copy; the image is verified when its last byte arrives (R355). -/
def takeChunk (l : Load) (chunk : List Byte) (sigOk : Bool) (s : State) : Nat × State :=
  let bytes := l.bytes ++ chunk
  let s : State := if l.target = 2 then s else
    { s with img := { s.img.setCopy (decide (l.target = 1)) (s.img.inactive l.target) bytes with
                      writes := s.img.writes + BitVec.ofNat 32 (sectors bytes.length - sectors l.bytes.length) } }
  if bytes.length < l.total then (0, setLoad { l with bytes, at_ := s.now } s)
  else
    let (st, low) := s.verdict l.target l.ld bytes sigOk
    let s := setLoad { l with bytes, at_ := s.now, state := st } s
    (st, if low then fireEvent 779 s else s)

/-- The reply of Load Rilia Image: bytes received, and the state. -/
def loadReply (cci : Cci) (l : Load) (chunk : List Byte) (sigOk : Bool) (s : State) : State :=
  let (st, s) := takeChunk l chunk sigOk s
  answer cci .success (leBytes 4 (l.bytes.length + chunk.length) ++ leBytes 1 st ++ leBytes 3 0) s

/-- A load of this target is in progress from another command interface. -/
def otherLoad (cci : Cci) (o : Option Load) : Bool :=
  match o with
  | some l => decide (l.state = 0) && decide (l.cci ≠ cci)
  | none => false

/-- An activation of the same target builds or is in grace (R373). -/
def State.activating (s : State) (target ld : Nat) : Bool :=
  match s.img.act with
  | some a => decide (a.target = target) && (decide (target ≠ 2) || decide (a.ld = ld))
  | none => false

/-- What a chunk does after the length checks. DEDUCED, log 59. -/
def loadChunk (cci : Cci) (target ld off total : Nat) (chunk : List Byte) (sigOk : Bool) (s : State) : State :=
  let o := s.loadOf target ld
  if s.activating target ld || otherLoad cci o then answer cci .busy [] s
  else if off = 0 then
    match startLoad target ld cci total s with
    | none => answer cci .resourcesExhausted [] s
    | some s => loadReply cci { target, ld, cci, total } chunk sigOk s
  else
    match o with
    | none => answer cci .invalidInput [] s
    | some l => if l.bytes.length = off ∧ l.total = total then loadReply cci l chunk sigOk s else answer cci .invalidInput [] s

/-- The LD that a target names: only target 2 names one. -/
def imageLd (cci : Cci) (target head ldId : BitVec 8) : Option Nat :=
  if target = 2 then namedLd cci head.toNat ldId.toNat else some 0

/-- Run Load or Activate after its length checks: the target, the path class, and the LD. -/
def imageCommand (cci : Cci) (target head ldId : BitVec 8) (run : Nat → State → State) (s : State) : State :=
  if 2 < target.toNat then answer cci .invalidInput [] s
  else match imageLd cci target head ldId with
    | none => answer cci .invalidInput [] s
    | some ld =>
      if !s.mayImage cci target.toNat ld then answer cci .unsupportedMailbox [] s
      else if target = 2 ∧ !s.ldExists ld then answer cci .invalidInput [] s
      else run ld s

def execLoadRiliaImage (cci : Cci) (len offset total : BitVec 32) (target head ldId : BitVec 8) (chunk : List Byte) (sigOk : Bool)
    (s : State) : Host.Outcome State Fault Refusal :=
  .next (command cci 0xC001 len.toNat (.atLeast 16)
    (decide (len.toNat ≠ 16 + chunk.length) || decide ((if target = 2 then 32768 else 524288) < total.toNat) ||
      decide (total.toNat < offset.toNat + chunk.length))
    chunk.isEmpty .any .firmware
    (imageCommand cci target head ldId fun ld => loadChunk cci target.toNat ld offset.toNat total.toNat chunk sigOk) s)

/-! ### Building a program set (R367) -/

/-- The words of a text. -/
def textWords (img : List Byte) : List (BitVec 32) :=
  (List.range ((sectionOf img secText).2.1 / 4)).map fun k => BitVec.ofNat 32 (secField img secText (4 * k) 4)

/-- The 1 KiB units a tenant text takes. -/
def textUnits (img : List Byte) : Nat := ((sectionOf img secText).2.1 + 1023) / 1024

/-- The lowest run of units that holds a tenant's text; the units of the text it replaces count as free. -/
def Bank.runFor (b : Bank) (ld n : Nat) : Option Nat :=
  (List.range 64).find? fun u => decide (u + n ≤ 64) && (List.range n).all fun i =>
    match Tab.get none b.units (u + i) with
    | none => true
    | some o => decide (o = ld)

/-- A text takes the place of words lo to hi − 1 and is written from word lo; the words it does not fill are unplaced. -/
def Bank.place (b : Bank) (lo hi : Nat) (text : List (BitVec 32)) : Bank :=
  let new := (text.zipIdx.map fun (e : BitVec 32 × Nat) => (lo + e.2, e.1)).filter fun (e : Nat × BitVec 32) => e.2 != unplaced
  { b with words := (b.words.filter fun e => decide (e.1 < lo)) ++ new ++ b.words.filter fun e => decide (hi ≤ e.1) }

/-- The text of a tenant leaves its units. -/
def Bank.dropTenant (b : Bank) (ld : Nat) : Bank :=
  { words := b.words.filter fun e => decide (e.1 < 0x1C000) || decide (b.unitOwner (4 * e.1) ≠ some ld)
    units := b.units.filter fun e => e.2 != some ld }

/-- A bank with an image's text in its region (R293, R367), and the text's base. -/
def Bank.withText (b : Bank) (target ld : Nat) (img : List Byte) : Bank × Nat :=
  if target = 0 then (b.place 0 0x10000 (textWords img), 0)
  else if target = 1 then (b.place 0x10000 0x1C000 (textWords img), 0x40000)
  else
    let n := textUnits img
    let b := b.dropTenant ld
    let u := (b.runFor ld n).getD 0
    let b := b.place (0x1C000 + 256 * u) (0x1C000 + 256 * (u + n)) (textWords img)
    ({ b with units := (List.range n).foldl (fun l i => Tab.set none l (u + i) (some ld)) b.units }, 0x70000 + 1024 * u)

/-! ### Installing an image (R368, R369) -/

/-- Bytes go to the shared window. -/
def writeWindow (a : Nat) (l : List Byte) (s : State) : State :=
  s.modRil fun r => { r with window := l.zipIdx.foldl (fun m (e : Byte × Nat) => Memory.write m (a + e.2) e.1) r.window }

/-- The area of the shared window that an image's data goes to (R352). -/
def dataBase (target ld : Nat) : Nat := if target = 0 then 0x400000 else if target = 1 then 0x500000 else 0x700000 + 4096 * ld

/-- The privilege of a target's code. -/
def targetPriv (target : Nat) : Priv := if target = 0 then .firmware else if target = 1 then .operator else .tenant

/-- The queues of a tenant image: those it owns already, and the lowest free ones for what it claims beyond them (R298, R368). -/
def State.queuesFor (s : State) (ld n : Nat) : List Nat :=
  let own := ((s.tenantImage ld).map (·.queues)).getD []
  own ++ (((List.range 128).map (· + 128)).filter fun q => (s.queue q).tenant.isNone).take (n - own.length)

/-- Queues are given to a tenant image: their entries and bindings are zeroed (R298). DEDUCED, log 81. -/
def giveQueues (ld : Nat) (l : List Nat) (s : State) : State :=
  forEach l (fun q s => if (s.queue q).tenant = some ld then s
    else s.modQueue q fun u => { u with entries := [], bound := none, tenant := some ld }) s

/-- The header of a tenant area (R368). -/
def tenantHeader (ld : Nat) (img : List Byte) (queues : List Nat) : List Byte :=
  (List.range 4).map (fun i => if i < claimed img then BitVec.ofNat 8 (queues.getD i 0) else 0) ++
    leBytes 2 ld ++ leBytes 2 0 ++ leBytes 8 (imgField img 8 8) ++ leBytes 48 0

/-- The bindings of an image are removed, with their timers. -/
def dropBindings (p : Priv) (ld : Nat) (s : State) : State :=
  forEach (List.range 256) (fun q s =>
    match (s.queue q).bound with
    | none => s
    | some b => if b.owner = p ∧ (p ≠ .tenant ∨ b.ld = ld) then s.modQueue q fun u => { u with bound := none } else s) s

/-- The bindings section is installed in order; an entry that BIND would refuse is skipped and counted (R369). -/
def installBindings (p : Priv) (ld base : Nat) (queues : List Nat) (img : List Byte) (s : State) : Nat × State :=
  (bindEntries img).foldl (fun (r : Nat × State) b =>
    let q := if p = .tenant then queues.getD b.queue 0 else b.queue
    if r.2.mayListen p ld q && !badQueue q && (r.2.queue q).bound.isNone then
      (r.1, bindQueue q (BitVec.ofNat 19 (base + b.handler)) b.concurrency p ld b.period r.2)
    else (r.1 + 1, r.2)) (0, s)

/-- The hint page and queue of a tenant image: a page of an extent of the LD that is not FIXED (R300). -/
def State.hintOf (s : State) (ld : Nat) (img : List Byte) (queues : List Nat) : Option (Nat × Nat) :=
  let dpa := secField img secManifest 8 8
  let q := secField img secManifest 5 1
  if q = 0xFF ∨ dpa = 2 ^ 64 - 1 then none
  else match s.dpaFind ld (dpa / 2 ^ 28) with
    | some m =>
      if m.home = s.ident.devId ∧ !(s.extent m.extent.toNat).fixed then some (m.extent.toNat * 65536 + dpa % 2 ^ 28 / 4096, queues.getD q 0)
      else none
    | none => none

/-- What the dispatcher and the shared window take of an image whose text stands at `base`: the count of skipped bindings (R361, R368,
R369). `data`: the data section is written. -/
def installImage (target ld base : Nat) (data : Bool) (queues : List Nat) (img : List Byte) (s : State) : Nat × State :=
  let (_, _, at_) := sectionOf img secData
  let s := if data then writeWindow (dataBase target ld + at_) (secBytes img secData) s else s
  let s := if target = 2 then
      let s := giveQueues ld queues (writeWindow (dataBase 2 ld) (tenantHeader ld img queues) s)
      s.modRil fun r => { r with hints := Tab.set none r.hints ld (s.hintOf ld img queues), tenantTraps := Tab.set [] r.tenantTraps ld [] }
    else s
  installBindings (targetPriv target) ld base queues img s

/-! ### Activation (R100, R366) -/

/-- The image that an activation takes: the verified load, or the previous image. -/
def State.candidate (s : State) (target ld : Nat) (rollback : Bool) : Option (List Byte) :=
  if !rollback then ((s.loadOf target ld).filter fun l => decide (l.state = 1)).map (·.bytes)
  else if target = 0 then (if s.img.fwPrevious then some (s.img.copy false (!s.img.fwCopy)) else none)
  else if target = 1 then (if s.img.opPrevious then some (s.img.copy true (!s.img.opCopy)) else none)
  else (s.img.tenants.find? fun t => decide (t.ld = ld) && !t.active).map (·.bytes)

/-- A tenant image finds room for its text and its queues (R366). -/
def State.tenantFits (s : State) (ld : Nat) (img : List Byte) : Bool :=
  ((s.bank s.ril.active).runFor ld (textUnits img)).isSome && decide (claimed img ≤ (s.queuesFor ld (claimed img)).length)

def execActivateRiliaImage (cci : Cci) (len : BitVec 32) (target head ldId flags : BitVec 8) (s : State) :
    Host.Outcome State Fault Refusal :=
  .next (command cci 0xC002 len.toNat (.fixed 4) false false .any .firmware
    (imageCommand cci target head ldId fun ld s =>
      let rollback := flags.getLsbD 0
      match s.candidate target.toNat ld rollback with
      | none => answer cci .invalidInput [] s
      | some bytes =>
        if s.img.act.isSome || (s.cci (cciIndex cci)).background.running then answer cci .busy [] s
        else if target = 2 ∧ !s.tenantFits ld bytes then answer cci .resourcesExhausted [] s
        else
          let a : Activation := { target := target.toNat, ld, rollback, bytes, cci, at_ := s.now }
          let s := s.modCci (cciIndex cci) fun c => { c with background := { opcode := 0xC002, running := true } }
          answer cci .backgroundStarted [] { s with img := { s.img with act := some a } }) s)

/-! ### The swap (R368 to R372) -/

/-- The directory, or the tenant image store, names the image that is active now (R364, R371). -/
def recordActive (a : Activation) (queues : List Nat) (s : State) : State :=
  let version := BitVec.ofNat 64 (imgField a.bytes 8 8)
  let s : State := if a.rollback then s else
    { s with img := { s.img with loads := s.img.loads.filter fun l => !sameLoad a.target a.ld l } }
  if a.target = 0 then writeDirectory (fun (i : Img) => { i with fwCopy := !i.fwCopy, fwPrevious := true, fwVersion := version }) s
  else if a.target = 1 then
    condEnd 781 (writeDirectory (fun (i : Img) =>
      { i with opCopy := !i.opCopy, opPrevious := i.opRuns, opPresent := true, opRuns := true, opVersion := version }) s)
  else
    let mine := fun (t : TenantImage) => decide (t.ld = a.ld)
    let old := (s.img.tenants.filter fun t => mine t && t.active).map fun (t : TenantImage) => ({ t with active := false } : TenantImage)
    let new : TenantImage := { ld := a.ld, bytes := a.bytes, active := true, queues }
    { s with img := { s.img with tenants := (s.img.tenants.filter fun t => !mine t) ++ old ++ [new] } }

/-- The threads whose scratch an image's earlier version left are zeroed before its next invocation; a firmware activation brings
halted threads back into service (R291, R304). -/
def freshThreads (target ld : Nat) (s : State) : State :=
  forEach (List.range 32) (fun t s => s.modThread t fun u =>
    let o := if u.scratchOwner = some (targetPriv target, if target = 2 then ld else 0) then none else u.scratchOwner
    { u with scratchOwner := o, state := if target = 0 ∧ u.state = .out then .free else u.state }) s

/-- A kind 0x0005 record for every LD, or for the tenant's own (R372). -/
def placeImageRecord (a : Activation) (skipped : Nat) (s : State) : State :=
  let arg := imageArg (imgField a.bytes 8 8) skipped (if a.target = 2 then a.ld else 0) 0 a.rollback s.ril.active a.target
  if a.target = 2 then placeRecord a.ld .info (.vendor 5 arg) s else placeAll .info (.vendor 5 arg) s

/-- The build is complete and the new bank becomes active. -/
def swapBank (a : Activation) (s : State) : State :=
  let queues := if a.target = 2 then s.queuesFor a.ld (claimed a.bytes) else []
  let (bank, base) := (s.bank s.ril.active).withText a.target a.ld a.bytes
  let s := s.modRil fun r => if r.active then { r with active := false, bank0 := bank } else { r with active := true, bank1 := bank }
  let s := dropBindings (targetPriv a.target) a.ld s
  let (skipped, s) := installImage a.target a.ld base (!a.rollback) queues a.bytes s
  let s := freshThreads a.target a.ld (recordActive a queues s)
  let s : State := { s with img := { s.img with lastSwap := s.time.tb, act := some { a with swapped := some s.now } } }
  let s := postDevice 10 (BitVec.ofNat 64 a.target) (BitVec.ofNat 64 (if a.target = 2 then a.ld else 0)) (BitVec.ofNat 64 (flag s.ril.active)) 0
    (placeImageRecord a skipped s)
  settleGrace s

def execActivationSwap (s : State) : Host.Outcome State Fault Refusal :=
  .next (match s.img.act with
    | some a => if s.running && !s.power.dozing && a.swapped.isNone then swapBank a s else s
    | none => s)

/-- The grace period of 100 ms (R370). -/
def graceNs : Nat := 100 * msNs

/-- An invocation in the old bank ends with trap ILLEGAL; one whose device operation is out traps when it returns. -/
def cutThread (t : Nat) (s : State) : State :=
  let u := s.thread t
  if !u.state.busy || u.bank == s.ril.active then s
  else if u.state = .deviceOp then s.modThread t fun u => { u with cut := true }
  else takeTrap t trapIllegal s

def execGracePeriodExpiry (s : State) : Host.Outcome State Fault Refusal :=
  .next (match s.img.act with
    | some a =>
      if s.running && ((a.swapped.map fun d => decide (d + graceNs ≤ s.now)).getD false) then
        let s := forEach (List.range 32) cutThread s
        match s.img.act with
        | some a => finishActivation a s
        | none => s
      else s
    | none => s)

/-! ### The operator key (R358) -/

/-- OPKEY_ENROL: `sigOk` says that the signature verifies under the current key, or is all zero where none is enrolled.
DEDUCED, log 60. -/
def execOpkeyEnrol (cci : Cci) (len : BitVec 16) (counter : BitVec 64) (key : List Byte) (sigOk : Bool) (s : State) :
    Host.Outcome State Fault Refusal :=
  .next (let p := (s.cci (cciIndex cci)).spdm
    if !s.cciLive cci then s
    else if !(p.established && p.version13 && (s.img.opKey.isNone || p.mutualAuth)) then s.emit (.spdmUnexpected cci)
    else if len ≠ 208 ∨ key.length ≠ 96 then keyAnswer cci 0x10 6 0 0 s
    else if !(sigOk && decide (counter = if s.img.opKey.isNone then 1 else s.img.keyCounter + 1)) ||
        (s.img.opKey.isNone && decide (cci ≠ .mctp)) then keyAnswer cci 0x10 1 0 0 s
    else keyAnswer cci 0x10 0 0 0 { s with img := { s.img with opKey := some key, keyCounter := counter, writes := s.img.writes + 1 } })

end Sys2Proof.Machine
end

