-- ==== Sys2Proof/Machine/Integrity.lean ====
section
/-! DEFINITION. Patrol scrub, Scan Media and the poison commands (R86, R87, R262 to R266, R270 to R275). -/
namespace Sys2Proof.Machine

/-! ### Patrol scrub (R272 to R274) -/

/-- What a scrub read finds: its first outcome, or that of the second read where the first was UE (R259). -/
def State.scrubOutcome (s : State) (l : Nat) (flips again : List (BitVec 80)) : LineRead × Bool :=
  let r := s.readLine l flips
  if r.out = .ue then (s.readLine l again, true) else (r, false)

/-- Lines that the scrubber skips: pages in MOVING, extents that are neither ACTIVE nor RELEASE_REQ, and lines in write gather (R272).
DEDUCED, log 77. -/
def State.scrubSkips (s : State) (l : Nat) : Bool :=
  match s.lineUse l with
  | .page d n =>
    decide ((s.desc d).state = .moving) || !s.pageLive d ||
      s.gather.entries.any fun g => decide (g.dlpn = d) && decide (g.lineNo = s.pageLine d n)
  | _ => false

/-- The number of a line within the part of a 1 MiB frame's structure: its offset from the structure's first frame on the channel. -/
def State.structOffset (s : State) (l : Nat) (u : MegaUse) : Nat :=
  let first := ((s.alloc (lineChan l)).megas.find? fun m => m.2 = some u).map (·.1)
  (lineFrame l / 256 - first.getD 0) * 16384 + l % 16384

/-- The two copies of a descriptor line differ: copy A wins, and the mismatch is a metadata error (R132, R196). -/
def compareLine (k : Nat) (s : State) : State :=
  if (s.dirty k).isSome then s
  else
    let bad := (lineDlpns k).filter fun d => s.descA d ≠ s.descB d
    if bad.isEmpty then s
    else
      fireEvent 11 (s.modMeta fun m =>
        { m with copyB := bad.foldl (fun t d => Tab.set (s.descReset d) t d (s.descA d)) m.copyB })

/-- The tally that a line of the ring holds is discarded (R263, R537). -/
def discardTally (i off : Nat) (s : State) : State :=
  let n := max 1 s.rec_.segments.length
  fireEvent 7 (s.modRec fun r => { r with store := r.store.filter fun t => (t.seq.toNat - 1) % (65536 * n) != 65536 * i + off / 4 })

/-- A UE that the scrubber finds (R263, R274). -/
def scrubUe (l : Nat) (read : LineRead) (lanes : BitVec 40) (s : State) : State :=
  let s := s.modInteg fun i => { i with ueFound := satAdd i.ueFound 1 }
  match s.lineUse l with
  | .page d n => markUser d (s.pageLine d n) l txScrub (countUe l 1 read lanes s)
  | .guest i n => poisonRemote i n (countUe l 1 read lanes s)
  | .structure_ (.ring i) => discardTally i (s.structOffset l (.ring i)) (countUe l 3 read lanes s)
  | .structure_ _ => countUe l 2 read lanes s
  | .free => putLine l {} (countUe l 3 read lanes s)

/-- Poison that the scrubber meets and that is not listed is listed while there is room (R271). -/
def scrubPoison (d n l : Nat) (s : State) : State :=
  let line := s.pageLine d n
  let s := if (s.source d).1 = .plain ∧ (s.lineNow l).poisoned ∧ s.integ.poison.length < 65536 then listPoison d 0 line 0 s else s
  if (s.desc d).bpoison.getLsbD (line / 16) ∧ s.integ.poison.length < 65536 then listPoison d 1 (line / 16) 0 s else s

/-- The last slot of a block of a PACKED page: the block is decoded, and a malformed one is marked (R157, R272). -/
def scrubDecode (d n l : Nat) (s : State) : State :=
  let (st, loc, len) := s.source d
  let b := slotBlock len n
  if st ≠ .packed ∨ n + 1 ≠ lenSum len (b + 1) ∨ (s.desc d).bpoison.getLsbD b then s
  else match s.oldBlock d b loc len with
    | .data _ => s
    | .malformed cause =>
      let s := s.modInteg fun i => { i with ueFound := satAdd i.ueFound 1 }
      markUser d (16 * b) l txScrub (malformedBlock (s.clusterFor (chanQuad (lineChan l)) .decompress) cause s)

/-- What the scrubber does beyond ECC with a line that reads well. -/
def scrubGood (l : Nat) (s : State) : State :=
  match s.lineUse l with
  | .page d n => scrubDecode d n l (scrubPoison d n l s)
  | .structure_ (.descA e) => compareLine (e * 16384 + l % 16384) s
  | .structure_ (.descB e) => compareLine (e * 16384 + l % 16384) s
  | _ => s

/-- The scrubber reads a line. Which line its pace has brought it to is the command's operand; `flips` and `again` are the flipped bits
of the first read and of the one that follows a UE, and `lanes` what a probe would find (R278). -/
def execPatrolScrubRead (line : BitVec 38) (flips again : List (BitVec 80)) (lanes : BitVec 40) (s : State) :
    Host.Outcome State Fault Refusal :=
  .next (let l := line.toNat
    let c := lineChan l
    if !(s.running && s.start.phase9Done && s.integ.scrubEn && s.activeChan c && (s.chan c).framesBelow (lineFrame l) 1) || s.scrubSkips l then s
    else
      let s := s.modInteg fun i => { i with scrubbed := i.scrubbed + 1 }
      let (read, second) := s.scrubOutcome l flips again
      match read.out with
      | .ue => scrubUe l read lanes s
      | .poison => scrubGood l (breakRun c s)
      | .clean =>
        let s := if second || read.corrected then
            countCe c (s.modInteg fun i => { i with ceFound := satAdd i.ceFound 1 }) else s
        scrubGood l (breakRun c s))

/-- A scrub period ends (R271, R273). -/
def execScrubPeriodEnd (s : State) : Host.Outcome State Fault Refusal :=
  .next (if s.running && decide (s.integ.periodAt + s.integ.periodNow.toNat * 3600 * secNs ≤ s.now) then
      let keep := s.integ.overflow && s.integ.refusedNow
      let s := s.modInteg fun i => { i with passes := i.passes + 1, periodNow := i.period, periodAt := s.now, scrubbed := 0
                                            overflow := i.overflow && i.refusedNow, refusedNow := false }
      if keep then s else condEnd 24 s
    else s)

/-! ### Poison commands (R86, R87, R270) -/

/-- The poisoned units of an LD that meet a DPA range: DPA, length in bytes and source. -/
def State.ldPoison (s : State) (ld lo hi : Nat) : List (Nat × Nat × Nat) :=
  s.integ.poison.flatMap fun p =>
    ((s.mappings (extentOf p.dlpn)).filter fun m => m.1 = ld).filterMap fun m =>
      let a := m.2 * 2 ^ 28 + p.dlpn % 65536 * 4096 + unitByte p.unit p.place
      let n := if p.unit = 0 then 64 else if p.unit = 1 then 1024 else 4096
      if a < hi ∧ lo < a + n then some (a, n, p.source) else none

/-- The CXL error source of a list entry: 1 External, 2 Internal, 3 Injected, 7 Vendor Specific (R270). -/
def errorSource (n : Nat) : Nat :=
  if n = 0 ∨ n = 5 then 2 else if n = 1 then 1 else if n = 2 then 3 else 7

/-- Poisoned units in a reply. -/
def poisonWords (l : List (Nat × Nat × Nat)) : List Nat := l.flatMap fun p => [p.1 + errorSource p.2.2, p.2.1 / 64]

def execGetPoisonList (cci : Cci) (len : BitVec 32) (ld : Fin 256) (dpa length : BitVec 64) (s : State) : Host.Outcome State Fault Refusal :=
  .next (command cci 0x4300 len.toNat (.fixed 16) false false (.self ld) .firmware (fun s =>
    if !s.ldExists ld then answer cci .invalidInput [] s
    else
      let all := s.ldPoison ld dpa.toNat (dpa.toNat + 64 * length.toNat)
      let l := all.take ((payloadBuffer cci - 32) / 16)
      answer cci .success (wordsLe ([flag (decide (l.length < all.length)) + 2 * flag s.integ.overflow,
        (s.integ.firstRefused + (s.ld ld).timeOffset).toNat, l.length] ++ poisonWords l)) s) s)

/-- The page and the line that a DPA of an LD names, where they are homed here and their extent stands. DEDUCED, log 78. -/
def State.ownLine (s : State) (ld : Nat) (dpa : BitVec 64) : Option (Nat × Nat) :=
  if dpa.toNat % 64 ≠ 0 ∨ 2 ^ 52 ≤ dpa.toNat then none
  else match s.dpaFind ld (dpa.toNat / 2 ^ 28) with
    | none => none
    | some m =>
      let d := m.extent.toNat * 65536 + dpa.toNat / 4096 % 65536
      if m.home = s.ident.devId ∧ s.pageLive d then some (d, dpa.toNat / 64 % 64) else none

/-- Inject Poison: a line of a PLAIN page, or the line's block in a page of another state; a POISONED page is poisoned already (R87). -/
def injectAt (d n : Nat) (s : State) : State :=
  let x := s.desc d
  match x.state with
  | .plain => markLine d n (locLine x.location + n) 2 s
  | .poisoned => s
  | _ => poisonIfWhole d 2 (markBlock d (n / 16) 2 s)

/-- Inject Poison is for the MCTP CCI, and for an LD with LD_GRANT.INJECT_POISON. -/
def State.injectVia (s : State) (cci : Cci) (ld : Nat) : Via :=
  match cci with
  | .ld i => if (s.ld i).injectPoison then .self ld else .mctp
  | .mctp => .self ld

def execInjectPoison (cci : Cci) (len : BitVec 32) (ld : Fin 256) (dpa : BitVec 64) (s : State) : Host.Outcome State Fault Refusal :=
  .next (command cci 0x4301 len.toNat (.fixed 8) false false (s.injectVia cci ld) .firmware (fun s =>
    match (if s.ldExists ld then s.ownLine ld dpa else none) with
    | some (d, n) => answer cci .success [] (injectAt d n s)
    | none => answer cci .invalidInput [] s) s)

/-- A whole line enters write gather as a write of the LD's head does; a charge that is refused is refused as for a host (R144). -/
def writeLine (d n : Nat) (ld : Nat) (data : Line) (s : State) : State :=
  let r : Req := { id := 0, source := ld / 16, ld, tag := 0, write := true, stage := .gather, dlpn := d, lineNo := n, data
                   mask := BitVec.allOnes 64, dpa := 0 }
  match s.chargeDue d (n / 16) with
  | none => packedTriggers d (storeEntry r s)
  | some (k, m) =>
    if s.chargeOk (extentOf d) m then
      packedTriggers d (storeEntry r (takeCharge (extentOf d) m (s.modGather fun g => { g with charges := Tab.set 0 g.charges k m })))
    else refuseWrite d (n / 16) none s

/-- The places of a page's first frame, in order (R177). -/
def State.firstPlaces (s : State) (d : Nat) : List Nat := s.placeOrder (s.extent (extentOf d)).fillChannel.toNat false

/-- A POISONED page takes a zero-filled frame and is PLAIN (R125). -/
def restorePage (d l : Nat) (s : State) : State :=
  let s := putLines l ((List.range 64).map fun i => { cipher := s.cipherOf d 0 i 0 }) s
  settlePage d 0 64 (setDesc d { s.desc d with state := .plain, location := BitVec.ofNat 44 l, blockLen := 0, bpoison := 0 } s)

/-- A POISONED page is cleared: PLAIN in a frame; where none is free it is ZERO, and its first eviction waits for one. -/
def clearPage (d : Nat) (s : State) : State :=
  match takeFrameOn (.page d) s (s.firstPlaces d) with
  | some (l, s) => restorePage d l (unlistPage d s)
  | none => setDesc d { s.desc d with state := .zero, location := 0, blockLen := 0, bpoison := 0 } (unlistPage d s)

/-- A write to a block of the page is charged, and the charge is refused. -/
def State.chargeFails (s : State) (d b : Nat) : Bool :=
  match s.chargeDue d b with
  | some (_, n) => !s.chargeOk (extentOf d) n
  | none => false

/-- Clear Poison: the line, zeros in the other lines of a poisoned block or page, and the unit leaves the list (R87). -/
def clearAt (d n ld : Nat) (data : Line) (s : State) : State :=
  let s := abortMove d s
  let x := s.desc d
  if x.state = .poisoned then
    if s.chargeFails d (n / 16) then refuseWrite d (n / 16) none s else writeLine d n ld data (clearPage d s)
  else if x.bpoison.getLsbD (n / 16) then
    let b := n / 16
    let s := unlistPoison d 1 b (setDesc d { x with bpoison := x.bpoison &&& ~~~ BitVec.ofNat 4 (2 ^ b) } s)
    forEach ((List.range 16).map fun i => 16 * b + i) (fun k s => writeLine d k ld (if k = n then data else 0) s) s
  else writeLine d n ld data (unlistPoison d 0 n s)

def execClearPoison (cci : Cci) (len : BitVec 32) (ld : Fin 256) (dpa : BitVec 64) (data : BitVec 512) (s : State) :
    Host.Outcome State Fault Refusal :=
  .next (command cci 0x4302 len.toNat (.fixed 72) false false (.self ld) .firmware (fun s =>
    match (if s.ldExists ld then s.ownLine ld dpa else none) with
    | some (d, n) => answer cci .success [] (clearAt d n ld data s)
    | none => answer cci .invalidInput [] s) s)

/-! ### Scan Media (R96, R275) -/

/-- The rate of Scan Media in bytes a second: the scrubber's own, and 1 GB/s. -/
def State.scanRate (s : State) : Nat := 64 * s.capP / (max 1 s.integ.periodNow.toNat * 3600) + 10 ^ 9

/-- The time that a scan of the range takes, in ms. -/
def execGetScanMediaCapabilities (cci : Cci) (len : BitVec 32) (ld : Fin 256) (_dpa length : BitVec 64) (s : State) :
    Host.Outcome State Fault Refusal :=
  .next (command cci 0x4303 len.toNat (.fixed 16) false false (.self ld) .firmware (fun s =>
    if s.ldExists ld then answer cci .success (leBytes 4 (64 * length.toNat * 1000 / s.scanRate)) s
    else answer cci .invalidInput [] s) s)

/-- Scan Media starts in the background; a second background command of the interface completes with Busy (R95). -/
def execScanMedia (cci : Cci) (len : BitVec 32) (ld : Fin 256) (dpa length : BitVec 64) (s : State) : Host.Outcome State Fault Refusal :=
  .next (command cci 0x4304 len.toNat (.fixed 17) false false (.self ld) .firmware (fun s =>
    if !s.ldExists ld then answer cci .invalidInput [] s
    else if (s.cci (cciIndex cci)).background.running || (s.ld ld).scan.running then answer cci .busy [] s
    else
      let s := s.modCci (cciIndex cci) fun c => { c with background := { opcode := 0x4304, running := true } }
      let s := s.modLd ld fun d =>
        { d with scan := { fromDpa := dpa.toNat, toDpa := dpa.toNat + 64 * length.toNat, running := true, by_ := cciIndex cci } }
      answer cci .backgroundStarted [] s) s)

/-- A line that the scan found uncorrectable: of a page of one of the LD's extents in the range. -/
def scanUe (ld : Nat) (x : BitVec 38) (s : State) : State :=
  let l := x.toNat
  match s.lineUse l with
  | .page d n =>
    let k := s.pageLine d n
    let sc := (s.ld ld).scan
    let inRange := (s.mappings (extentOf d)).any fun m =>
      decide (m.1 = ld) && decide (sc.fromDpa ≤ m.2 * 2 ^ 28 + d % 65536 * 4096 + 64 * k) &&
        decide (m.2 * 2 ^ 28 + d % 65536 * 4096 + 64 * k < sc.toDpa)
    if !inRange || s.scrubSkips l then s
    else
      let read : LineRead := { out := .ue, corrected := false, data := 0, bad := 1, tagBad := false }
      markUser d k l txScanMedia (countUe l 1 read 0 s)
  | _ => s

/-- Scan Media reaches the end of its range; `ues` are the lines that it read as uncorrectable. Its results are every poisoned unit in
the range, and its background command completes. -/
def execScanMediaComplete (ld : Fin 256) (ues : List (BitVec 38)) (s : State) : Host.Outcome State Fault Refusal :=
  .next (let sc := (s.ld ld).scan
    if s.running && sc.running then
      let s := forEach ues (scanUe ld) s
      let found := (s.ldPoison ld sc.fromDpa sc.toDpa).map fun p => (p.1, p.2.1)
      let s := s.modLd ld fun d => { d with scan := { d.scan with running := false, results := found } }
      s.modCci sc.by_ fun c => { c with background := { c.background with running := false, percent := 100, code := 0 } }
    else s)

/-- The results of the last scan; while one runs the command completes with Busy. -/
def execGetScanMediaResults (cci : Cci) (len : BitVec 32) (ld : Fin 256) (s : State) : Host.Outcome State Fault Refusal :=
  .next (command cci 0x4305 len.toNat .empty false false (.self ld) .firmware (fun s =>
    let sc := (s.ld ld).scan
    if !s.ldExists ld then answer cci .invalidInput [] s
    else if sc.running then answer cci .busy [] s
    else
      let l := sc.results.take ((payloadBuffer cci - 32) / 16)
      answer cci .success (wordsLe ([sc.fromDpa, (sc.toDpa - sc.fromDpa) / 64, l.length] ++ l.flatMap fun p => [p.1, p.2 / 64])) s) s)

end Sys2Proof.Machine
end

