-- ==== Sys2Proof/Machine/Port.lean ====
section
/-! DEFINITION. CXL ports: PERST, training, retrains and the latch-down, port reset, IDE keys, CDAT and HDM decoders
(R65 to R91, R111 to R113). -/
namespace Sys2Proof.Machine

/-- The full width of a head's link by its merge, coded as in the Almanac port word: 3 x4, 4 x8, 5 x16 (R66). -/
def fullWidth (c : PortCfg) : BitVec 3 := if c.merge = 2 then 5 else if c.merge = 1 then 4 else 3

/-- PORT_STATUS.LINK: the Almanac port word's bits [21:0] (R55, R70). A follower reports its leader's link. -/
def State.linkWord (s : State) (p : Nat) : Nat :=
  let l := s.leaderOf p
  let q := s.port l
  let lds := if l = p ∧ q.trained.enable then q.trained.ldCount.toNat else 0
  p + 16 * q.width.toNat + 128 * q.rate.toNat + 1024 * flag q.flit256 + 2048 * flag (decide (l ≠ p)) + 4096 * l +
    65536 * lds + 2097152 * flag (decide (q.ideState = 1 ∨ q.ideState = 2))

/-- The argument of a kind 0x0004 record: leader in [3:0], LINK in [25:4], bit [26] for latched down (R89). -/
def portRecordArg (leader link : Nat) (latched : Bool) : Word :=
  BitVec.ofNat 64 (leader + 16 * link + 67108864 * flag latched)

/-- The ports of a head. -/
def State.members (s : State) (h : Nat) : List Nat := (List.range 16).filter fun q => s.leaderOf q = h

/-- A head's link may begin Detect: enabled, PERST released, pads released, not latched down (R68, R112). -/
def State.mayDetect (s : State) (p : Nat) : Bool :=
  s.running && s.isHead p && !(s.port p).perst && !(s.port p).downLatched && !s.power.cxlLatched

/-- The link begins Detect, and PORT_CLKREQ_N is driven low (R68, R69). -/
def beginDetect (p : Nat) (s : State) : State :=
  if s.mayDetect p then s.modPort p fun q => { q with training := true, clkreq := true } else s

/-- Port reset of a head (R111): its requests, its directory bits, its HDM decoders and its counter blocks; IDE ends, but a
failed head stays failed until a new key exchange (R90). -/
def portReset (h : Nat) (s : State) : State :=
  let s := portResetRequests h s
  let s := forEach (s.headLds h) (fun i s => s.modLd i fun d => { d with decoders := [] }) s
  let s := forEach (s.members h) (fun p s => s.modCtr (24 + p) fun c => { mark := s.now, gated := c.gated }) s
  let s := s.modPort h fun q =>
    { q with up := false, width := 0, rate := 0, flit256 := false, training := false, retraining := false
             ideReset := decide (q.ideState = 3), ideState := if q.ideState = 3 then 3 else 0 }
  recomputeDelivery (condEnd (srcPort h 1) s)

/-- The leader's PORT_PERST_N asserts: a port reset (R111). The pins of followers are ignored (R66). -/
def execPortPerstAssert (p : Fin 16) (s : State) : Host.Outcome State Fault Refusal :=
  .next (if s.start.powered && !s.faults.halted then
      let s := if s.isHead p && !(s.port p).perst then portReset p s else s
      s.modPort p fun q => { q with perst := true }
    else s)

/-- The leader's PORT_PERST_N is released: PORT_CTL applies from here (R71), a latch-down ends (R112), and the link begins Detect (R68). -/
def execPortPerstRelease (p : Fin 16) (s : State) : Host.Outcome State Fault Refusal :=
  .next (if s.start.powered && !s.faults.halted && (s.port p).perst then
      let s := wakeDoze 1 s
      let s := if (s.port p).downLatched then wakeDomain (28 + p) s else s
      let s := s.modPort p fun q =>
        { q with perst := false, trained := q.cfg, downLatched := false
                 retrains := if q.downLatched then 0 else q.retrains
                 windowFrom := if q.downLatched then none else q.windowFrom }
      beginDetect p (condEnd (srcPort p 2) s)
    else s)

/-- A width and a rate the head may train to: up to its full width and MAX_RATE, 256-byte flits at 64 GT/s (R65, R68). -/
def linkAllowed (c : PortCfg) (width rate : BitVec 3) (flit256 : Bool) : Bool :=
  decide (1 ≤ width) && decide (width ≤ fullWidth c) && decide (1 ≤ rate) && decide (rate ≤ c.maxRate) &&
    decide (rate ≤ 4) && (flit256 || decide (rate ≠ 4))

/-- Memory_Active is set in a head whose link trains after the device has set it (R507). -/
def setHeadActive (h : Nat) (s : State) : State :=
  if s.start.phase = 10 then s.modStart fun r => { r with memActive := r.memActive ||| (1#16 <<< h) } else s

/-- A head's link reaches L0; narrower or slower than configured, it is degraded and a kind 0x0004 record says so (R112). -/
def execLinkTrained (p : Fin 16) (width rate : BitVec 3) (flit256 : Bool) (s : State) : Host.Outcome State Fault Refusal :=
  .next (if s.running && s.isHead p && (s.port p).training && linkAllowed (s.port p).trained width rate flit256 then
      let low := decide (width ≠ fullWidth (s.port p).trained) || decide (rate ≠ (s.port p).trained.maxRate)
      let s := s.modPort p fun q =>
        { q with up := true, training := false, retraining := false, width, rate, flit256
                 cdatBandwidth := if q.retraining then q.cdatBandwidth else widthLanes width * rateGbs rate }
      let s := if low then placeHead p .warning (.vendor 0x0004 (portRecordArg p (s.linkWord p) false)) s else s
      recomputeDelivery (setHeadActive p (condSet (srcPort p 1) low s))
    else s)

/-- The link leaves the data link active state: a port reset, after which it trains again (R111). -/
def execLinkDown (p : Fin 16) (s : State) : Host.Outcome State Fault Refusal :=
  .next (if s.running && s.isHead p && ((s.port p).up || (s.port p).retraining) then beginDetect p (portReset p s) else s)

/-- Three retrains within 10 s latch the port down: the record with LINK as it stood, a port reset, DOWN_LATCHED and an F2 fault
(R112). The port's domain is asked for P1 (R465, R470). -/
def latchDown (p link : Nat) (s : State) : State :=
  let s := placeHead p .warning (.vendor 0x0004 (portRecordArg p link true)) s
  requestState (28 + p) .p1
    (condStart (srcPort p 2) ((portReset p s).modPort p fun q => { q with downLatched := true, training := false }))

/-- A link error that replay does not recover: the port retrains, counted in its 10 s window (R112). DEDUCED, log 54. -/
def execLinkRetrain (p : Fin 16) (s : State) : Host.Outcome State Fault Refusal :=
  .next (if s.running && s.isHead p && (s.port p).up then
      let link := s.linkWord p
      let fresh := match (s.port p).windowFrom with
        | none => true
        | some t => decide (t + 10 * secNs ≤ s.now)
      let s := s.modPort p fun q =>
        { q with up := false, training := true, retraining := true, retrainTotal := satAdd q.retrainTotal 1
                 retrains := if fresh then 1 else q.retrains + 1
                 windowFrom := if fresh then some s.now else q.windowFrom }
      let s := fireEvent (srcPort p 0) s
      if 3 ≤ (s.port p).retrains.toNat then latchDown p link s else s
    else s)

/-- A write of 1 to DOWN_LATCHED clears it and lets the link train; the retrains before it are forgotten (R70, R112). -/
def clearDownLatched (p : Nat) (s : State) : State :=
  if (s.port p).downLatched then
    beginDetect p (wakeDomain (28 + p) <| condEnd (srcPort p 2) (s.modPort p fun q => { q with downLatched := false, retrains := 0, windowFrom := none }))
  else s

def execDownLatchedClear (p : Fin 16) (s : State) : Host.Outcome State Fault Refusal :=
  .next (if s.running then clearDownLatched p s else s)

/-- The 10 s window ends: RETRAINS reads 0 (R70, R112). -/
def execPortRetrainWindowEnd (p : Fin 16) (s : State) : Host.Outcome State Fault Refusal :=
  .next (match (s.port p).windowFrom with
    | none => s
    | some t => if t + 10 * secNs ≤ s.now then s.modPort p fun q => { q with retrains := 0, windowFrom := none } else s)

/-- IDE keys arrive through IDE_KM: the head enters a mode that IDE_CAP offers; a failed head needs a link reset first (R90). -/
def execIdeKeyExchange (h : Fin 16) (skid : Bool) (s : State) : Host.Outcome State Fault Refusal :=
  .next (if s.running && s.isHead h && (s.port h).up &&
        (if skid then decide ((s.port h).trained.ideCap = 2) else decide ((s.port h).trained.ideCap ≠ 0)) &&
        (decide ((s.port h).ideState ≠ 3) || (s.port h).ideReset) then
      condEnd (srcPort h 3) (s.modPort h fun q => { q with ideState := if skid then 2 else 1, ideReset := false })
    else s)

/-- The MAC that covers the head's requests passes: unverified writes and withheld completions are released (R90). -/
def execIdeMacPass (h : Fin 16) (s : State) : Host.Outcome State Fault Refusal :=
  .next (if s.running && decide ((s.port h).ideState = 1 ∨ (s.port h).ideState = 2) then verifyWrites h s else s)

/-- A MAC check fails: unverified writes are discarded, IDE_STATE is failed, and a port-scope F2 fault is raised (R90). -/
def execIdeMacFailure (h : Fin 16) (s : State) : Host.Outcome State Fault Refusal :=
  .next (if s.running && decide ((s.port h).ideState = 1 ∨ (s.port h).ideState = 2) then
      condStart (srcPort h 3) ((discardUnverified h s).modPort h fun q => { q with ideState := 3, ideReset := false })
    else s)

/-- A DOE request reads the LD's CDAT (R82). -/
def execDoeCdatTableAccess (ld : Fin 256) (s : State) : Host.Outcome State Fault Refusal :=
  .next (if s.running && s.start.earlyDone && !s.start.lantern && s.ldExists ld && (s.port (ld.val / 16)).up then
      let regions := (s.ld ld).regions.map fun e => (e.2.base, e.2.len, s.regionShared ld e.2)
      let bw := (s.port (ld.val / 16)).cdatBandwidth
      s.emit (.cdat ld regions 98 40 bw bw)
    else s)

/-- The interleave ways and granularities a decoder supports (R76). -/
def decoderOk (ways granularity : Nat) : Bool :=
  decide (ways ∈ [1, 2, 3, 4, 6, 8, 12, 16]) && decide (granularity ∈ [256, 512, 1024, 2048, 4096, 8192, 16384])

/-- A host commits an HDM decoder, which locks its registers; refused while Memory_Active is clear (R76). -/
def execHdmDecoderCommit (ld : Fin 256) (d : Fin 8) (base size : BitVec 64) (ways granularity : BitVec 16) (s : State) :
    Host.Outcome State Fault Refusal :=
  .next (if s.running && s.ldExists ld && (s.port (ld.val / 16)).up && s.start.memActive.getLsbD (ld.val / 16) &&
        !(Tab.get {} (s.ld ld).decoders d).committed && decoderOk ways.toNat granularity.toNat then
      s.modLd ld fun l => { l with decoders := Tab.set {} l.decoders d { base, size, ways, granularity, committed := true } }
    else s)

/-- A malformed CXL.mem request arrives: port source 6 (R520). -/
def execMalformedCxlMemRequest (p : Fin 16) (s : State) : Host.Outcome State Fault Refusal :=
  .next (if s.running && (s.port (s.leaderOf p)).up then fireEvent (srcPort p 6) s else s)

end Sys2Proof.Machine
end

