-- ==== Sys2Proof/Machine/Startup.lean ====
section
/-! DEFINITION. Power, resets and the phases of a start: what each keeps, Vigil, the boot, the metadata, and Memory_Active
(R360, R361, R468, R469, R492 to R514, R526, R527, R570). -/
namespace Sys2Proof.Machine

/-! ### Cold resets (R460, R492, R493, R500, R508) -/

/-- What a cold reset leaves: everything at its reset value but the fuses, the flash, the halt record, the pins, and the model's own
record of outputs, draws and free values. -/
def coldState (s : State) : State :=
  let f := State.fresh s.draws
  let img : Img := { s.img with opRuns := false, tenants := [], loads := [], act := none, lastSwap := 0 }
  let t : State := { f with
    ident := { variant := s.ident.variant, stepping := s.ident.stepping, serial := s.ident.serial }
    faults := { haltSource := s.faults.haltSource, haltValid := s.faults.haltValid, haltTime := s.faults.haltTime }
    start := { vaon := s.start.vaon, resetLow := s.start.resetLow }
    integ := { softFuse := s.integ.softFuse, spares := s.integ.spares, flashWrites := s.integ.flashWrites }
    img, out := s.out, free := s.free, pending := s.pending }
  let t := forEach (List.range 16) (fun p t => t.modPort p fun q => { q with perst := (s.port p).perst }) t
  let t := forEach (List.range 48) (fun n t => t.modSlot n fun u => { u with prsnt := (s.slot n).prsnt }) t
  let t := forEach (List.range 3) (fun u t => t.modUli u fun l => { l with prsnt := (s.uli u).prsnt }) t
  forEach (List.range 24) (fun c t => t.modChan c fun _ =>
    { freshChan s.ident.variant with state := if (s.slot (2 * c)).prsnt || (s.slot (2 * c + 1)).prsnt then .untrained else .absent }) t

/-- VAON comes into range: the always-on domain holds every gate and aux switch off (R492). -/
def execVaonPowerUp (s : State) : Host.Outcome State Fault Refusal :=
  .next (if s.start.vaon then s
    else forEach (List.range 48) (fun n s => s.modSlot n fun u => { u with state := .off, limiting := false })
      (s.modStart fun r => { r with vaon := true, powered := false }))

/-- VAON leaves its range: the device is unpowered, and HALT_REC and HALT_TIME are lost (R492, R529). -/
def execVaonPowerLoss (s : State) : Host.Outcome State Fault Refusal :=
  .next (((coldState s).modFaults fun _ => {}).modStart fun r => { r with vaon := false, powered := false, alive := false, qspi := false })

/-- PWR_OK deasserts: a cold reset, and everything stops at once (R460, R500). -/
def execPwrOkDeassert (s : State) : Host.Outcome State Fault Refusal :=
  .next (if s.start.powered then (coldState s).modStart fun r => { r with powered := false, qspi := false } else s)

/-- The straps form a strap error (R429). -/
def strapError (role : Bool) (devId : BitVec 2) : Bool := role && decide (devId ≠ 0)

/-- PWR_OK asserts: the straps are sampled and a cold start begins at phase 2 (R493, R494). `flash`: the board has written a firmware
image to copy 0 while the device did not drive the flash (R499). -/
def execPwrOkAssert (role : Bool) (devId : BitVec 2) (flash : Option (List Byte)) (s : State) : Host.Outcome State Fault Refusal :=
  .next (if s.start.vaon && !s.start.powered then
      let s := coldState s
      let s : State := { s with ident := { s.ident with role, devId, strapErr := strapError role devId } }
      let s := match flash with
        | none => s
        | some b => writeDirectory (fun (i : Img) =>
            { i with fw0 := b, fwCopy := false, fwPrevious := false, fwVersion := BitVec.ofNat 64 (imgField b 8 8) }) s
      if s.ident.strapErr then condStart 692 s else s
    else s)

/-! ### What a warm or immediate reset keeps (R249, R311, R504, R508) -/

/-- A channel over a reset: its state, its trained settings, its frontier and what the always-on domain holds. An ACTIVE or EVACUATING
channel restores its settings; without formatted metadata it trains in full. DEDUCED, log 33. DEDUCED, log 38. -/
def keptChan (variant : BitVec 4) (memValid present : Bool) (h : Chan) : Chan :=
  let live := decide (h.state = .active ∨ h.state = .evacuating)
  let base : Chan := { freshChan variant with retirePending := h.retirePending, evacLast := h.evacLast, spd0 := h.spd0, spd1 := h.spd1 }
  if memValid then
    let base : Chan := { base with state := h.state, cause := h.cause, unreadable := h.unreadable }
    if live then
      let evac := h.evac.map fun (e : Evac) => { e with cursor := 0, placed := false, waiting := false }
      { base with state := .untrained, usable := h.usable, speed := h.speed, timing := h.timing, frontier := h.frontier
                  selfRefresh := true, train := { resume := some h.state }, evac }
    else base
  else if present && decide (h.state ∉ [ChanState.evacuated, .retired]) then { base with state := .untrained }
  else { base with state := h.state, cause := h.cause }

/-- A port over a reset: PORT_CTL at its reset values, the link down; its pin and TOTAL stay. -/
def keptPort (p : Port) : Port := { perst := p.perst, retrainTotal := p.retrainTotal }

/-- An LD over a reset: its grants and its regions stay; its event logs are cleared. -/
def keptLd (l : Ld) : Ld :=
  { mgmt := l.mgmt, tenantImage := l.tenantImage, injectPoison := l.injectPoison, regions := l.regions, ctrGrant := l.ctrGrant }

/-- A Ulilet port over a reset: ULT_RETIRE and its pin stay. -/
def keptUli (now : Nat) (u : Uli) : Uli :=
  { retired := u.retired, cause := u.cause, totalRetrains := u.totalRetrains, prsnt := u.prsnt, prsntSince := u.prsntSince
    lstate := if u.retired then .retired else .down, since := now, lastGood := now, lastStart := now }

/-- A member over a reset of this device: its links are gone, and what they owe each other stays. -/
def keptMember (m : Member) : Member :=
  { state := if m.state = .joined then .lost else if m.state = .discord then .absent else m.state
    polestar := m.polestar, epoch := m.epoch, orphans := m.orphans, owedFree := m.owedFree }

/-- The constellation over a reset: members, storage held for others, mappings and the indeterminate list stay. -/
def keptConst (c : Const) : Const :=
  { members := c.members.map fun e => (e.1, keptMember e.2)
    epoch := c.epoch, nextTag := c.nextTag, nextSeq := c.nextSeq, applied := c.applied, indet := c.indet, overflow := c.overflow
    homeWide := c.homeWide, register := c.register, remoteMaps := c.remoteMaps, farForms := c.farForms, remotes := c.remotes }

/-- A quadrant over a reset: its mover records stay as the move log until the metadata is recovered (R196). -/
def keptQuad (q : Quad) : Quad := { records := q.records, nextTicket := q.nextTicket }

/-- The recorder over a reset: the stored tallies and the pending configuration stay (R508, R533, R551). -/
def keptRec (now : Nat) (r : Recorder) : Recorder :=
  { store := r.store, seq := r.seq, large := r.large, pendLarge := r.pendLarge, ring := r.ring, pendRing := r.pendRing
    segments := r.segments, lastSample := r.lastSample, lastEpoch := now, lost := BitVec.ofNat 64 (r.opened.filter fun e => e.2.isSome).length }

/-- The programs' part of the policy cores over a reset: the trap counts stay (R101); everything else is cleared (R311). -/
def keptRil (r : Ril) : Ril :=
  { nextTag := r.nextTag, trapCounts := r.trapCounts, lastTrap := r.lastTrap, lastTrapThread := r.lastTrapThread, lastTrapPc := r.lastTrapPc }

/-- A condition that a reset does not end: of channels, the poison list, quadrants, straps, retired links, the indeterminate list, the
timebase, and a missing operator image. DEDUCED, log 34. -/
def keptCondition (n : Nat) : Bool :=
  decide (128 ≤ n ∧ n < 512 ∧ n % 16 ∈ [7, 9, 10]) || decide (n ∈ [24, 689, 690, 692, 693, 781]) || decide (960 ≤ n) ||
    decide (n ∈ [srcUlilet 0 5, srcUlilet 1 5, srcUlilet 2 5])

/-- Requests for storage that a reset does not end: a fill, an evacuation. -/
def keptWaiter : Waiter → Bool
  | .fill _ | .evac _ => true
  | _ => false

/-- The domains of parts that are out of service, which a reset takes to P3 and not to P0 (R474): channels and Ulilet ports. -/
def State.outOfService (s : State) : List Nat :=
  ((List.range 24).filter fun c => decide ((s.chan c).state ∈ [ChanState.absent, .evacuated, .retired, .trainFailed])).map (4 + ·) ++
    ((List.range 3).filter fun u => (s.uli u).retired || !(s.uli u).prsnt).map (44 + ·)

/-- A domain is left in P3. -/
def leftInP3 (i : Nat) (s : State) : State :=
  gateDomain i true (s.modDom i fun d => { d with state := .p3, trans := .none, pending := none, wake := false })

/-- Every domain except the always-on domain is reset; R508 says what survives. -/
def resetDomains (s : State) : State :=
  let now := s.now
  let t : State := { s with
    power := { latched := true, cxlLatched := true }
    faults := { s.faults with live := s.faults.live.filter keptCondition }
    rec_ := keptRec now s.rec_
    ctrs := (List.range 64).filterMap fun b => if now = 0 then none else some (b, { mark := now })
    comets := { quads := s.comets.quads.map fun e => (e.1, { lfsr := e.2.lfsr }), coreLfsr := s.comets.coreLfsr, seq := s.comets.seq }
    alm := { s.alm with upd := false, next := [], waiting := [], early := false }
    ccis := [], sketch := {}, path := {}, gather := {}, queues := [], threads := []
    keys := { s.keys with puts := [], rate := 8 }
    qos := { params := s.qos.params }
    integ := { poison := s.integ.poison, overflow := s.integ.overflow, softFuse := s.integ.softFuse, spares := s.integ.spares
               flashWrites := s.integ.flashWrites, periodAt := now }
    const := keptConst s.const
    img := { s.img with act := none, opRuns := false }
    ril := keptRil s.ril
    cap := { dpaMap := s.cap.dpaMap, extents := s.cap.extents, footprint := s.cap.footprint, g := s.cap.g, z := s.cap.z
             nextGrant := s.cap.nextGrant, offers := s.cap.offers, rootA := s.cap.rootA, rootB := s.cap.rootB }
    mdata := { s.mdata with sets := [], compared := [], lazy_ := true }
    waiters := s.waiters.filter keptWaiter }
  let t := forEach (List.range 24) (fun c t =>
    t.modChan c (keptChan s.ident.variant s.start.memValid ((s.slot (2 * c)).prsnt || (s.slot (2 * c + 1)).prsnt))) t
  let t := forEach (List.range 16) (fun p t => t.modPort p keptPort) t
  let t := forEach (List.range 256) (fun i t => t.modLd i keptLd) t
  let t := forEach (List.range 3) (fun u t => t.modUli u (keptUli now)) t
  let t := forEach (List.range 4) (fun q t => t.modQuad q keptQuad) t
  let t := forEach (List.range 8) (fun e t => t.modCluster e fun _ => {}) t
  forEach t.outOfService leftInP3 t

/-- The restart begins at phase 2 (R494). -/
def enterPhase2 (s : State) : State :=
  s.modStart fun r => { r with entry := .none, phase := 2, phase2At := s.now }

/-- An entry ends: the domains are reset, and the restart begins, or waits while RESET_N stays low (R500). -/
def finishEntry (warm : Bool) (s : State) : State :=
  let s := if warm then s.modStart fun r => { r with warmCount := satAdd r.warmCount 1 } else s
  let s := (resetDomains s).modStart fun r =>
    { r with kind := if warm then r.kind else 3, lantern := false, phase8Done := false, earlyDone := false, memActive := 0, alive := false, qspi := true
             rebuilding := false, phase9Done := false, report := [], reportPassed := false, reportCode := 0 }
  if s.start.resetLow then s.modStart fun r => { r with entry := .holding } else enterPhase2 s

/-! ### Warm and immediate entries (R500 to R502) -/

/-- What a warm reset stops at once: links, requests without a response, and mover operations before their swap (R501 steps 1 and 2). -/
def warmStop (s : State) : State :=
  let s := forEach s.heads portResetRequests s
  let s := dropUliletLinks (dropHostLinks s)
  let s := forEach ((List.range 4).flatMap fun q => ((s.quad q).records.filter fun r => r.phase ≠ .swap ∧ r.phase ≠ .free).map fun r => (q, r))
    (fun (x : Nat × MoverRec) => abortRecord x.1 x.2) s
  let s := s.modGather fun g => { g with entries := g.entries.map fun e => { e with verified := true } }
  { s with path := { s.path with reqs := [] } }

/-- The kind of the start that follows a warm reset: a start that has formatted no metadata yet stays a cold one (R513). DEDUCED, log 105. -/
def State.warmKind (s : State) : BitVec 2 := if s.start.memValid || s.start.lantern then 2 else 1

/-- The entry of a warm reset: cause 1 RESET_N, 2 RST_CTL.WARM. An entry that runs already is not affected (R513). DEDUCED, log 32. -/
def warmEntry (cause : BitVec 3) (s : State) : State :=
  if s.start.powered && !s.faults.halted && decide (s.start.entry = .none) then
    let s := s.modStart fun r => { r with entry := .warm s.now, kind := s.warmKind, cause, alive := false, memActive := 0 }
    let s := s.modPower fun p => { p with latched := true, cxlLatched := true }
    closeAll 2 (warmStop (s.modAlm fun a => { a with upd := false }))
  else s

/-- RESET_N has been low for 1 µs (R500). -/
def execResetNAssert (s : State) : Host.Outcome State Fault Refusal :=
  .next (let s := s.modStart fun r => { r with resetLow := true }
    warmEntry 1 (if s.aonLive then wakeDoze 4 s else s))

/-- Both copies of a descriptor line are written (R195). -/
def flushLine (k : Nat) (s : State) : State := stepDescriptor k (stepDescriptor k (stepDescriptor k (stepDescriptor k s)))

/-- Write gather is flushed, page by page, and the descriptors it changes go to both copies (R501 step 3). -/
def flushGather (s : State) : State :=
  let pages := (s.gather.entries.map (·.dlpn)).eraseDups
  let s := forEach pages (fun d s => evictPage d [] s) s
  let s := forEach (s.mdata.dirty.map (·.1)) flushLine s
  let done := (List.range 4).flatMap fun q => ((s.quad q).records.filter fun r => r.phase = .free).map fun r => (q, r)
  forEach done (fun (x : Nat × MoverRec) => freeSource x.1 x.2) s

/-- A channel completes its queued commands, saves its settings and enters self-refresh (R249, R501 step 4). -/
def sleepChannel (c : Nat) (s : State) : State :=
  let h := s.chan c
  if h.state = .active ∨ h.state = .evacuating then
    let writes := (h.queue ++ h.gate.cmds).filterMap fun x => x.write.map fun w => (x.line, w)
    let s := forEach writes (fun (x : Nat × DLine) => storeLine x.1 x.2) s
    (s.modChan c Chan.sleep).modStart fun r => { r with saved := insertNat c r.saved }
  else s

/-- The entry of a warm reset has flushed and slept: it ends (R501). A flush that still waits for storage has not ended. -/
def execWarmEntryDone (s : State) : Host.Outcome State Fault Refusal :=
  .next (match s.start.entry with
    | .warm _ =>
      let t := flushGather s
      if t.gather.entries.isEmpty then finishEntry true (forEach (List.range 24) sleepChannel t) else s
    | _ => s)

/-- 50 ms have passed since the trigger: source 5 fires, and the entry becomes immediate with CAUSE 4 (R501, R519). -/
def execWarmEntryOverrun (s : State) : Host.Outcome State Fault Refusal :=
  .next (match s.start.entry with
    | .warm t =>
      if t + 50 * msNs ≤ s.now then updateHealth (immediateEntry 4 (sampleFault 5 (setSticky 5 s))) else s
    | _ => s)

/-- The entry of an immediate reset ends (R502). -/
def execImmediateEntryDone (s : State) : Host.Outcome State Fault Refusal :=
  .next (if s.start.powered && !s.faults.halted && decide (s.start.entry = .immediate) then finishEntry false s else s)

/-- RESET_N is high again: phase 2 begins if the device holds before it (R500). -/
def execResetNRelease (s : State) : Host.Outcome State Fault Refusal :=
  .next (let s := s.modStart fun r => { r with resetLow := false }
    if s.start.entry = .holding then enterPhase2 s else s)

/-- Immediate resets older than 10 min are counted no longer (R503). -/
def execImmRecentExpiry (s : State) : Host.Outcome State Fault Refusal :=
  .next (s.modStart fun r => { r with immTimes := r.immTimes.filter fun t => decide (s.now < t + 600 * secNs) })

/-! ### Vigil (R360, R496, R498, R503) -/

/-- The tests of early Vigil in order (R496). -/
def vigilTests : List Nat := [0x01, 0x02, 0x10, 0x11, 0x12, 0x20, 0x21, 0x30, 0x40, 0x41, 0x50, 0x51, 0x70]

/-- A kind of start runs a test: 0x12 a cold start only, 0x70 an immediate start only (R496). -/
def vigilRuns (kind : BitVec 2) (code : Nat) : Bool :=
  if code = 0x12 then decide (kind = 1) else if code = 0x70 then decide (kind = 3) else true

/-- A failing instance that early Vigil meets: test code, instance, duration and detail. -/
abbrev VigilFail := BitVec 8 × BitVec 16 × BitVec 32 × BitVec 64

/-- The engines of a cluster that failed, of the bit order of CL_STAT (R498). -/
def failedEngines (e : Nat) (l : List VigilFail) : List Nat :=
  l.filterMap fun f => if f.1 = 0x21 ∧ f.2.1.toNat / 16 = e then some (f.2.1.toNat % 16) else none

/-- CL_STAT's masks of a cluster after its BIST. -/
def Cluster.afterBist (c : Cluster) (bad : List Nat) : Cluster :=
  let keep := fun (w base : Nat) => BitVec.ofNat w (((List.range w).filter fun i => !bad.contains (base + i)).map (2 ^ ·)).sum
  { c with cmpIn := keep 2 0, dcmpIn := keep 4 2, xtsIn := keep 6 6 }

/-- A quadrant is left without engines of some kind. -/
def quadBare (s : State) (q : Nat) : Bool :=
  let a := s.cluster (2 * q)
  let b := s.cluster (2 * q + 1)
  (decide (a.cmpIn = 0) && decide (b.cmpIn = 0)) || (decide (a.dcmpIn = 0) && decide (b.dcmpIn = 0)) ||
    (decide (a.xtsIn = 0) && decide (b.xtsIn = 0))

/-- The states that R355 gives the two copies of target 0 or 1. -/
def State.copyStates (s : State) (op ok0 ok1 : Bool) : Nat × Nat :=
  let t := flag op
  ((s.verdict t 0xFFFF (s.img.copy op false) ok0).1, (s.verdict t 0xFFFF (s.img.copy op true) ok1).1)

/-- Which copy is selected: the active one when it verifies, else the other (R360). -/
def pickCopy (active : Bool) (st : Nat × Nat) : Option Bool :=
  let ok := fun (second : Bool) => decide ((if second then st.2 else st.1) = 1)
  if ok active then some active else if ok !active then some !active else none

/-- The firmware copy is selected; a fallback rewrites the directory (R360). DEDUCED, log 36. -/
def selectFirmware (second : Bool) (s : State) : State :=
  let v := BitVec.ofNat 64 (imgField (s.img.copy false second) 8 8)
  if second = s.img.fwCopy then { s with img := { s.img with fwVersion := v } }
  else fireEvent 780 (writeDirectory (fun (i : Img) => { i with fwCopy := second, fwPrevious := false, fwVersion := v }) s)

/-- The operator copy is selected, or none (R360). -/
def selectOperator (pick : Option Bool) (s : State) : State :=
  if !s.img.opPresent then s
  else match pick with
    | none => condStart 781 (fireEvent 780 s)
    | some second =>
      let v := BitVec.ofNat 64 (imgField (s.img.copy true second) 8 8)
      let s : State := if second = s.img.opCopy then { s with img := { s.img with opVersion := v, opRuns := true } }
        else fireEvent 780 (writeDirectory (fun (i : Img) => { i with opCopy := second, opPrevious := false, opVersion := v, opRuns := true }) s)
      condEnd 781 s

/-- Immediate resets within the last 10 min: RST_STAT.IMM_RECENT (R503, R514). -/
def State.immRecent (s : State) : Nat := min 3 (s.start.immTimes.filter fun t => decide (s.now < t + 600 * secNs)).length

/-- A test fails fatally (R496). -/
def State.vigilFatal (s : State) (failed : List VigilFail) (fw : Option Bool) (code : Nat) : Bool :=
  let mine := failed.filter fun f => f.1.toNat = code
  if code ∈ [0x01, 0x02, 0x11, 0x12, 0x30] then !mine.isEmpty
  else if code = 0x10 then !mine.isEmpty && decide (s.start.kind = 1)
  else if code = 0x20 then mine.any fun f => f.2.1 = 0
  else if code = 0x21 then (List.range 4).any (quadBare s)
  else if code = 0x50 then fw.isNone
  else if code = 0x70 then decide (3 ≤ s.immRecent)
  else false

/-- The records of one test: the whole test, then its failing instances. -/
def testRecords (code : Nat) (fatal : Bool) (mine : List VigilFail) (skipped : Bool) (time : BitVec 32) (detail : BitVec 64) (bad : Bool) :
    List VigilRec :=
  let outcome : BitVec 8 := if skipped then 3 else if fatal then 1 else if bad || !mine.isEmpty then 2 else 0
  { code := BitVec.ofNat 8 code, outcome, inst := 0xFFFF, durationUs := time, detail } ::
    if skipped then [] else mine.map fun f => { code := f.1, outcome := if fatal then 1 else 2, inst := f.2.1, durationUs := f.2.2.1, detail := f.2.2.2 }

/-- A core that failed its BIST is out of service, and so are engines that failed theirs; a cluster without engines stays in P3
(R465, R496, R521). -/
def takeOutOfService (failed : List VigilFail) (s : State) : State :=
  let cores := (failed.filter fun f => f.1 = 0x20).map fun f => f.2.1.toNat
  let s := forEach (List.range 8) (fun c s =>
    condSet (768 + c) (cores.contains c) (if cores.contains c then
      forEach [0, 1, 2, 3] (fun t s => s.modThread (4 * c + t) fun u => { u with state := .out }) s else s)) s
  forEach (List.range 8) (fun e s =>
    let bad := failedEngines e failed
    let s := condSet (srcCluster e 1) (!bad.isEmpty) (s.modCluster e fun k => k.afterBist bad)
    if s.clusterInService e then s else leftInP3 (47 + e) s) s

/-- The Lantern state (R499). -/
def enterLantern (s : State) : State := s.modStart fun r => { r with lantern := true, qspi := false, alive := false }

/-- The Almanac that early Vigil builds: the first after a cold reset carries generation 1, a later one is a publication (R57). -/
def buildAlmanac (s : State) : State :=
  if s.alm.built then startPublication true s
  else s.modAlm fun a => { a with built := true, words := s.almanac a.generation }

/-- The CXL pads are released, and every head whose PORT_PERST_N is released begins Detect (R68, R468). -/
def releaseCxlPads (s : State) : State :=
  if s.power.cxlLatched then
    let s := s.modPower fun p => { p with cxlLatched := false }
    forEach s.heads beginDetect s
  else s

/-- Early Vigil ends with these failing instances, each test's duration, and the verdicts on the signatures of the image copies. -/
def endVigil (failed : List VigilFail) (times : List (BitVec 32)) (fw0 fw1 op0 op1 : Bool) (s : State) : State :=
  let s := takeOutOfService failed s
  let fwSt := s.copyStates false fw0 fw1
  let opSt := s.copyStates true op0 op1
  let fw := pickCopy s.img.fwCopy fwSt
  let op := pickCopy s.img.opCopy opSt
  let tests := vigilTests
  let runs := vigilRuns s.start.kind
  let fatal := tests.filter fun c => runs c && s.vigilFatal failed fw c
  let beforeImages := fatal.any fun c => decide (c < 0x50)
  let fatal := if beforeImages then fatal.filter (· != 0x50) else fatal
  let report := (tests.zipIdx.flatMap fun (e : Nat × Nat) =>
    let c := e.1
    let skipped := !runs c || decide (c = 0x50 ∨ c = 0x51) && (beforeImages || (decide (c = 0x51) && fw.isNone))
    let detail : BitVec 64 := if skipped then 0 else if c = 0x50 then BitVec.ofNat 64 (fwSt.1 + 256 * fwSt.2)
      else if c = 0x51 then BitVec.ofNat 64 (opSt.1 + 256 * opSt.2) else 0
    testRecords c (fatal.contains c) (failed.filter fun f => f.1.toNat = c ∧ c ≠ 0x50 ∧ c ≠ 0x51) skipped (times.getD e.2 0) detail
      (decide (c = 0x51) && s.img.opPresent && op.isNone)).take 256
  let s := s.modStart fun r =>
    { r with earlyDone := true, report, reportPassed := fatal.isEmpty, reportCode := BitVec.ofNat 8 (fatal.headD 0)
             reportBegan := BitVec.ofNat 64 r.phase2At, reportEnded := BitVec.ofNat 64 s.now
             vigilUs := BitVec.ofNat 32 ((s.now - r.phase2At) / usNs) }
  let s := releaseCxlPads s
  let s := if fatal.isEmpty then
      selectOperator op ((selectFirmware (fw.getD false) s).modStart fun r => { r with phase := 5 })
    else enterLantern (s.modStart fun r => { r with phase := 4 })
  buildAlmanac (updateHealth s)

def execEarlyVigilDone (failed : List (BitVec 8 × BitVec 16 × BitVec 32 × BitVec 64)) (times : List (BitVec 32))
    (fw0Ok fw1Ok op0Ok op1Ok : Bool) (s : State) : Host.Outcome State Fault Refusal :=
  .next (if s.running && !s.start.earlyDone then endVigil failed times fw0Ok fw1Ok op0Ok op1Ok s else s)

/-- The SerDes loopback test ends, and the CXL pads are released; this is in phase 4 (R468, R494). -/
def execCxlPadRelease (s : State) : Host.Outcome State Fault Refusal :=
  .next (if s.running && s.power.cxlLatched then
      (releaseCxlPads s).modStart fun r => if r.phase < 4 then { r with phase := 4 } else r
    else s)

/-! ### The boot (R360, R361, R469, R494) -/

/-- Place and install one image at the boot; a tenant's queues are the lowest free ones (R361, R369). -/
def bootImage (target ld : Nat) (bytes : List Byte) (s : State) : State :=
  let queues := if target = 2 then s.queuesFor ld (claimed bytes) else []
  let (bank, base) := s.ril.bank0.withText target ld bytes
  let s := s.modRil fun r => { r with bank0 := bank }
  let give : TenantImage → TenantImage := fun t => if t.ld = ld ∧ t.active then { t with queues } else t
  let s : State := if target = 2 then { s with img := { s.img with tenants := s.img.tenants.map give } } else s
  (installImage target ld base true queues bytes s).2

/-- The active tenant images in ascending LD index. -/
def State.activeTenants (s : State) : List TenantImage :=
  (List.range 256).filterMap fun ld => s.tenantImage ld

/-- The program set is built in bank 0 and one invocation of the boot entry starts on thread 0. The timebase in its g6 is not stated: a
free value. -/
def boot (s : State) : State :=
  let noQueues : TenantImage → TenantImage := fun t => { t with queues := [] }
  let s : State := { s with img := { s.img with tenants := s.img.tenants.map noQueues } }
  let s := s.modRil fun r => { r with bank0 := {}, bank1 := {}, active := false, window := [], hints := [] }
  let fw := s.img.copy false s.img.fwCopy
  let s := bootImage 0 0 fw s
  let s := if s.img.opRuns then bootImage 1 0 (s.img.copy true s.img.opCopy) s else s
  let s := forEach s.activeTenants (fun (t : TenantImage) => bootImage 2 t.ld t.bytes) s
  let e : QEntry := { g1 := if s.start.kind = 1 then 0 else if s.start.kind = 2 then 1 else 2, g2 := BitVec.ofNat 64 (flag s.img.opRuns)
                      timebase := Config.freeWord s.free }
  startInvocation 0 0xFFFF (BitVec.ofNat 19 (secField fw secManifest 0 4)) 0 e (s.takeFree.modStart fun r => { r with phase := 6 })

def execBootStart (s : State) : Host.Outcome State Fault Refusal :=
  .next (if s.running && s.start.earlyDone && !s.start.lantern && decide (s.start.phase = 5) then boot s else s)

/-- PAD_CTL.RELEASE: once per latching, and not before the boot image runs (R469). A cold start then powers the occupied slots, in
phase 7, and so does a later one whose slots have not had power yet; otherwise phase 8 begins (R494). DEDUCED, log 105. -/
def releasePads (s : State) : State :=
  if s.power.latched && decide (6 ≤ s.start.phase) then
    let s := s.modPower fun p => { p with latched := false }
    let off := (List.range 48).filter fun n => (s.slot n).prsnt ∧ (s.slot n).state = .off
    if s.start.kind = 1 ∨ (s.start.memValid = false ∧ off ≠ []) then
      let s := forEach (List.range 24) (fun c s => s.modChan c fun h =>
        { h with state := if h.state = .absent ∨ h.state = .untrained then (if (s.presentSlots c).isEmpty then .absent else .untrained)
                          else h.state }) s
      endPhase7 ((requestSlots off s).modStart fun r => { r with phase := 7 })
    else s.modStart fun r => { r with phase := 8, phase8At := s.now }
  else s

/-! ### Phases 8 to 10 (R505 to R507) -/

/-- Every channel is ACTIVE, TRAIN_FAILED, RETIRED or ABSENT, or the cutoff has passed (R507). DEDUCED, log 37. -/
def State.phase8Over (s : State) : Bool :=
  s.start.phase8Done || (List.range 24).all fun c => decide ((s.chan c).state ∈ [ChanState.active, .trainFailed, .retired, .absent])

/-- The cutoff: 2.5 s, or 4.5 s when any channel has two DIMMs. -/
def State.cutoffNs (s : State) : Nat :=
  if (List.range 24).any (fun c => decide ((s.presentSlots c).length = 2)) then 4500 * msNs else 2500 * msNs

def execPhase8Cutoff (s : State) : Host.Outcome State Fault Refusal :=
  .next (if s.running && decide (s.start.phase = 8) && decide (s.start.phase8At + s.cutoffNs ≤ s.now) then
      s.modStart fun r => { r with phase8Done := true }
    else s)

/-- Phase 9 may start. -/
def State.phase9Ready (s : State) : Bool :=
  s.running && !s.start.lantern && decide (s.start.phase = 8 ∨ s.start.phase = 9) && !s.start.phase9Done && s.phase8Over

/-- The first 1 MiB frame of the lowest 8 MiB of a channel. -/
def Chan.lowMega (c : Nat) (h : Chan) : Nat := c * 2 ^ 19 + if h.slotLines 0 = 0 then 2 ^ 18 else 0

/-- The channels of the root areas: the lowest ACTIVE one, and the lowest ACTIVE one of another quadrant, or of the same (R505). -/
def State.rootChannels (s : State) : Option (Nat × Nat) :=
  match (List.range 24).filter s.activeChan with
  | [] => none
  | a :: rest =>
    match rest.find? fun c => decide (chanQuad c ≠ chanQuad a) with
    | some b => some (a, b)
    | none => rest.head?.map fun b => (a, b)

/-- Place one segment of 16 MiB of the tally ring on a channel. -/
def placeSegment (i c : Nat) (s : State) : Option State :=
  (s.lowestRun c 4096 256 (2 ^ 26)).map fun f => forEach (List.range 16) (fun k => useMega (c * 2 ^ 19 + f / 256 + k) (some (.ring i))) s

/-- Place segments one for each ACTIVE channel in turn until n are placed or a whole turn finds no room; `fuel` bounds the tries (R537). -/
def placeRing (chans : List Nat) : Nat → Nat → Nat → List Nat → State → List Nat × State
  | 0, _, _, placed, s => (placed, s)
  | f + 1, n, at_, placed, s =>
    if n ≤ placed.length ∨ chans.isEmpty then (placed, s)
    else
      let c := chans.getD (at_ % chans.length) 0
      match placeSegment placed.length c s with
      | some s => placeRing chans f n (at_ + 1) (placed ++ [c]) s
      | none => placeRing (chans.filter (· != c)) f n at_ placed s

/-- The tallies of the old store move into the new one, oldest first, under its rules (R538). -/
def Recorder.restore (large : Bool) (segments : List Nat) (r : Recorder) : Recorder :=
  r.store.foldl Recorder.put { r with store := [], large, segments, ring := BitVec.ofNat 11 (16 * segments.length) }

/-- The recorder's configuration is fixed from its pending fields (R26, R537). A change of it places the ring, or gives it up. -/
def fixRecorder (s : State) : State :=
  let r := s.rec_
  if r.pendLarge = r.large ∧ (!r.large ∨ r.pendRing = r.ring) then s
  else
    let s := forEach (List.range 24) (fun c s => s.modAlloc c fun a => { a with megas := a.megas.filter fun m => match m.2 with
      | some (.ring _) => false
      | _ => true }) s
    if r.pendLarge then
      let (l, s) := placeRing ((List.range 24).filter s.activeChan) 128 (r.pendRing.toNat / 16) 0 [] s
      s.modRec (Recorder.restore true l)
    else s.modRec (Recorder.restore false [])

/-- Both root areas are placed and written with every extent FREE and an empty poison list (R505). -/
def formatMetadata (a b : Nat) (s : State) : State :=
  let ma := Chan.lowMega a (s.chan a)
  let mb := Chan.lowMega b (s.chan b)
  let s := forEach (List.range 24) (fun c s => s.modAlloc c fun _ => {}) s
  let s := forEach (List.range 8) (fun i s => useMega (mb + i) (some .rootB) (useMega (ma + i) (some .rootA) s)) s
  let s := s.modCap fun c => { floorPm := c.floorPm, hystPm := c.hystPm, ratio := c.ratio, rootA := some (BitVec.ofNat 24 ma)
                               rootB := some (BitVec.ofNat 24 mb) }
  let s : State := { s with mdata := {}, integ := { s.integ with poison := [], overflow := false } }
  let s := s.modStart fun r => { r with memValid := true, phase9Done := true, phase := 9 }
  updateCapacity (fixRecorder s)

def execMetadataFormat (s : State) : Host.Outcome State Fault Refusal :=
  .next (if s.phase9Ready && !s.start.memValid then
      match s.rootChannels with
      | some (a, b) => if 131072 ≤ (s.chan a).frontier ∧ 131072 ≤ (s.chan b).frontier then formatMetadata a b s else s
      | none => s
    else s)

/-- The storage that a location and lengths name for a state. -/
def freeForm (st : Nat) (loc : BitVec 44) (len : BitVec 20) (dlpn : Nat) (s : State) : State :=
  if st = 1 then freeStorage (locLine loc) 0 s
  else if st = 2 then (if lenSum len 4 = 0 then s else freeStorage (locLine loc) (lenSum len 4) s)
  else if st = 3 then sendFarFree (locGuest loc) (locRemote loc) dlpn s
  else s

/-- Settle one move-log entry (R196): a page still MOVING is set back and its destination freed; one that names the destination keeps it
and its source is freed. -/
def settleMove (r : MoverRec) (s : State) : State :=
  let d := s.desc r.dlpn
  if r.phase = .claim then s
  else if d.state = .moving then
    let s := if r.placed then freeForm (if r.dstState = 3 then 3 else if r.dstSlots = 0 then 1 else 2) r.dstLoc r.dstLen r.dlpn s else s
    setDesc r.dlpn { d with state := stateOf r.srcState, lock := false } s
  else if d.state.code = r.dstState ∧ (r.dstState = 4 ∨ r.dstState = 5 ∨ d.location = r.dstLoc) then
    let s := if r.srcState = 1 ∨ r.srcState = 2 ∨ r.srcState = 3 then freeForm r.srcState r.srcLoc r.srcLen r.dlpn s else s
    if r.phase = .free then addFootprint (extentOf r.dlpn) ((dstLines r : Int) - srcLines r) s else s
  else if r.placed then freeForm (if r.dstState = 3 then 3 else if r.dstSlots = 0 then 1 else 2) r.dstLoc r.dstLen r.dlpn s
  else s

/-- A descriptor line is as copy A holds it: what only the metadata cache held is lost, and the footprint follows (R196). -/
def settleDescriptors (s : State) : State :=
  forEach (s.mdata.dirty.flatMap fun e => lineDlpns e.1) (fun d s =>
    let was := s.desc d
    let now := s.descA d
    let s := if was.state = .moving ∨ (s.record d).isSome then s
      else addFootprint (extentOf d) ((pageLines now.state now.blockLen : Int) - pageLines was.state was.blockLen) s
    s.modMeta fun m => { m with desc := Tab.set (s.descReset d) m.desc d { now with lock := decide (now.state = .moving) && now.lock }
                                copyB := Tab.set (s.descReset d) m.copyB d now }) s

/-- A descriptor line lost in both copies: its descriptors are POISONED, and the storage they named cannot be found (R266). -/
def loseLine (k : Nat) (s : State) : State :=
  forEach (lineDlpns k) (fun d s =>
    let old := s.desc d
    let s := if old.state = .plain then ownStorage (locLine old.location) 0 .lost s
      else if old.state = .packed ∧ lenSum old.blockLen 4 ≠ 0 then ownStorage (locLine old.location) (lenSum old.blockLen 4) .lost s else s
    setDesc d { state := .poisoned, fixed := (s.extent (extentOf d)).fixed, keySlot := (s.extent (extentOf d)).keySlot } s) s

/-- After the restart the device places the Add Capacity record again for every grant that is still OFFERED (R88). -/
def announceAgain (s : State) : State :=
  let s := forEach (s.cap.extents.filterMap fun e => if e.2.state = .offered ∧ e.2.announced then some e.1 else none) announce s
  forEach s.cap.offers (fun o s => match s.dpaFind o.1 o.2.1 with
    | some m => placeRecord o.1 .dynamicCapacity (.dynamicCapacity 0 (BitVec.ofNat 64 (o.2.1 * 2 ^ 28)) (s.extent m.extent.toNat).tag) s
    | none => s) s

/-- The recovery of the metadata, up to Memory_Active (R506 steps 1 to 3). DEDUCED, log 39. -/
def recover (linesLost : List (BitVec 32)) (s : State) : State :=
  let s := settleDescriptors s
  let s := forEach ((List.range 4).flatMap fun q => (s.quad q).records) settleMove s
  let s := forEach (List.range 4) (fun q s => s.modQuad q fun d => { d with records := [] }) s
  let s := s.modMeta fun m => { m with dirty := [] }
  let s := forEach (linesLost.map (·.toNat)) loseLine s
  let s := s.modCap fun c => { c with m := 0 }
  let s := s.modStart fun r => { r with phase9Done := true, phase := 9 }
  let s := (fixRecorder s).modStart fun r => { r with rebuilding := true }
  announceAgain (recomputeDelivery (updateCapacity s))

/-- A root-area line is lost in both copies: every extent is FREE, as after a cold reset, and every LD gets a Fatal record (R266). -/
def loseRoot (s : State) : State :=
  let a := s.cap.rootA
  let b := s.cap.rootB
  let keep : Option MegaUse → Bool := fun u => match u with
    | some .rootA | some .rootB | some (.ring _) => true
    | _ => false
  let s := forEach (List.range 24) (fun c s => s.modAlloc c fun t => { megas := t.megas.filter fun m => keep m.2 }) s
  let s := s.modCap fun c => { floorPm := c.floorPm, hystPm := c.hystPm, ratio := c.ratio, rootA := a, rootB := b }
  let s : State := { s with mdata := {}, integ := { s.integ with poison := [], overflow := false } }
  let s := forEach (List.range 4) (fun q s => s.modQuad q fun d => { d with records := [] }) s
  let s := s.modStart fun r => { r with phase9Done := true, phase := 9 }
  placeAll .fatal (.memoryModule evDataPath) (updateCapacity (fixRecorder s))

/-- Phase 9 of a warm or immediate start. A line lost in both copies during a warm start is source 2 (R263); after an immediate reset
R266 applies. -/
def execMetadataRecovery (rootLost : Bool) (linesLost : List (BitVec 32)) (s : State) : Host.Outcome State Fault Refusal :=
  .next (if s.phase9Ready && s.start.memValid && decide (s.start.kind ≠ 1) then
      if (rootLost || !linesLost.isEmpty) && decide (s.start.kind = 2) then fireEvent 2 s
      else if rootLost then loseRoot s
      else recover linesLost s
    else s)

/-- RST_STAT (R514). -/
def State.rstStat (s : State) : Word :=
  BitVec.ofNat 64 (bitsAt [(0, s.start.kind.toNat), (2, s.start.cause.toNat), (5, s.start.phase.toNat), (9, flag s.start.lantern),
    (10, flag s.start.memValid), (11, s.immRecent), (32, s.start.warmCount.toNat), (48, s.start.immCount.toNat)])

/-- The tally of the reset source after a warm or an immediate restart (R531, R533). -/
def resetTally (s : State) : State :=
  if s.start.kind = 3 then
    closeTally 0x102 3 ((openTally 0x102 s).add 0 s.rstStat s.rec_.lost) (s.modRec fun r => { r with lost := 0 })
  else if s.start.cause ≠ 0 then sampleTally 0x102 0 s.rstStat 0 s
  else s

/-- Phase 10: Memory_Active in every head, ALIVE high (R507, R512); the records and the tally of the reset that came before (R502, R503,
R533); a publication is owed (R57). -/
def setMemoryActive (s : State) : State :=
  let heads := s.heads
  let s := s.modStart fun r =>
    { r with memActive := BitVec.ofNat 16 ((heads.map (2 ^ ·)).sum), alive := true, phase := 10
             maUs := BitVec.ofNat 32 ((s.now - r.phase2At) / usNs), immTimes := if r.kind = 3 then r.immTimes else [] }
  let s := s.modAlm fun a => { a with owed := true }
  let s := if s.start.kind = 3 then placeAll .fatal (.memoryModule evDataPath) s else s
  resetTally s

def execMemoryActiveSet (s : State) : Host.Outcome State Fault Refusal :=
  .next (if s.running && s.start.phase9Done && decide (s.start.phase = 9) && s.mailboxBound then setMemoryActive s else s)

/-- An owner that something still names: a descriptor, a remote descriptor. -/
def State.stillNamed (s : State) (l n : Nat) : Owner → Bool
  | .page d =>
    let p := s.desc d
    let (st, loc, len) := s.source d
    (decide (locLine loc = l) && decide (storageSlots st len = n) && (decide (st = .plain) || decide (st = .packed))) ||
      (decide (locLine p.location = l) && (decide (p.state = .plain) || decide (p.state = .packed)))
  | .dest d => (s.record d).isSome
  | .guest i => decide ((Tab.get ({} : Remote) s.const.remotes i).state ≠ 0)
  | .fenced => false
  | .lost => true

/-- The free-frame and slab maps of a channel are as the descriptors say (R506 step 5). -/
def rebuildMap (c : Nat) (s : State) : State :=
  s.modAlloc c fun a =>
    let runs := fun (b : Slab) => b.runs.filter fun e => match e.2 with
      | some o => s.stillNamed (frameLine c b.base + b.cls * e.1) b.cls o
      | none => false
    { a with frames := a.frames.filter fun e => match e.2 with
               | some o => s.stillNamed (frameLine c e.1) 0 o
               | none => false
             slabs := (a.slabs.map fun b => { b with runs := runs b }).filter fun b => !b.runs.isEmpty }

def execFreeMapRebuildDone (s : State) : Host.Outcome State Fault Refusal :=
  .next (if s.running && s.start.rebuilding then
      forEach (List.range 24) rebuildMap (s.modStart fun r => { r with rebuilding := false })
    else s)

/-! ### Sensors, supplies and checks in service (R519, R526, R527, R570) -/

/-- The always-on domain watches: powered and not halted. -/
def State.watched (s : State) : Bool := s.start.powered && !s.faults.halted

/-- The fuse-map check of every second; before early Vigil completes a failure is Vigil's (R526). -/
def execFuseMapCheck (ok : Bool) (s : State) : Host.Outcome State Fault Refusal :=
  .next (if s.watched && s.start.earlyDone && !ok then fireEvent 18 s else s)

/-- A loss of enclave integrity; `ram`: a tamper indication in the key or salt RAM (R519). -/
def execEnclaveIntegrityLoss (ram : Bool) (s : State) : Host.Outcome State Fault Refusal :=
  .next (if s.watched then fireEvent (if ram then 16 else 17) s else s)

/-- A reading crosses an alert threshold of some LD (R523). -/
def State.crossesAlert (s : State) (old new : Nat) : Bool :=
  s.allLds.any fun i =>
    let a := (s.ld i).alerts
    (a.valid.getLsbD 1 && decide (old ≤ a.warnTemp.toNat) && decide (a.warnTemp.toNat < new)) ||
      (a.valid.getLsbD 2 && decide (a.lowTemp.toNat ≤ old) && decide (new < a.lowTemp.toNat))

/-- A quadrant's junction reading (R527). -/
def readSensor (q : Nat) (temp : BitVec 8) (s : State) : State :=
  let old := s.sensor q
  let s := s.modSensor q fun x =>
    { x with temp, valid := true, failed := false, lastValid := s.now, tempMax := if x.tempMax < temp then temp else x.tempMax }
  let s := if old.valid && s.crossesAlert old.temp.toNat temp.toNat then placeAll .warning (.memoryModule evTemperature) s else s
  let s := condEnd (srcQuad q 1) s
  let warn := s.faults.tempWarn.toNat
  let s := if (warn < temp.toNat ∧ s.holds (srcQuad q 0) = false) ∨ 120 ≤ temp.toNat then wakeDoze 6 s else s
  let s := if warn < temp.toNat then condStart (srcQuad q 0) s else if temp.toNat + 5 ≤ warn then condEnd (srcQuad q 0) s else s
  if 120 ≤ temp.toNat then fireEvent 20 s else s

def execSensorReading (q : Fin 4) (temp : BitVec 8) (s : State) : Host.Outcome State Fault Refusal :=
  .next (if s.watched && decide (temp ≠ 0xFF) then readSensor q temp s else s)

/-- A sensor has given no valid reading for 1 ms: it is failed; when all four are, the device trips (R527). -/
def execSensorTimeout (q : Fin 4) (s : State) : Host.Outcome State Fault Refusal :=
  .next (if s.watched && !(s.sensor q).failed && decide ((s.sensor q).lastValid + msNs ≤ s.now) then
      let s := condStart (srcQuad q 1) (s.modSensor q fun x => { x with failed := true, valid := false, temp := 0xFF })
      if (List.range 4).all fun p => (s.sensor p).failed then fireEvent 20 s else s
    else s)

/-- What a supply detector sees: 0 a rail of the quadrant out of its range, which wakes D-Doze; 1 every rail in range; 2 the glitch
detector trips (R476, R570). -/
def execSupplyDetectorTrip (q : Fin 4) (level : Fin 3) (s : State) : Host.Outcome State Fault Refusal :=
  .next (if s.watched then
      if level = 0 then
        let s := condStart (srcQuad q 2) (s.modSensor q fun x => { x with supplyOk := false })
        wakeDoze 6 s
      else if level = 1 then condEnd (srcQuad q 2) (s.modSensor q fun x => { x with supplyOk := true })
      else fireEvent 19 s
    else s)

end Sys2Proof.Machine
end

