-- ==== Sys2Proof/Machine/UliletTx.lean ====
section
/-! DEFINITION. Ulilet ports as senders: the choice of the next packet, credits, the replay buffer, ack-only packets and beacon slots
(R413 to R423). -/
namespace Sys2Proof.Machine

/-- Bytes in the replay buffer (R419). -/
def Uli.replayBytes (p : Uli) : Nat := (p.replay.map fun x => wireBytes x.pkt.len).sum

/-- The buffer takes one more packet of this length. -/
def Uli.bufferTakes (p : Uli) (len : Nat) : Bool :=
  decide (p.replay.length < 512) && decide (p.replayBytes + wireBytes len ≤ 131072)

/-- The credit available on a VC (R414). -/
def Uli.credit (p : Uli) (vc : Nat) : Nat := p.vcCredit - (Tab.get 0 p.charged vc - Tab.get 0 p.credited vc)

/-- The first waiting packet of a VC, where the link's state carries its type. -/
def Uli.headPkt (p : Uli) (vc : Nat) : Option OutPkt :=
  p.tx.find? fun x => decide (x.vc = vc) && takesType p.lstate x.type

/-- The next new packet: the VCs in rotation after the last served, the first whose head packet fits its credit (R415). -/
def Uli.nextNew (p : Uli) : Option OutPkt :=
  let v := p.vcsActive.toNat
  ((List.range v).map fun i => (p.lastVc + 1 + i) % v).findSome? fun vc =>
    match p.headPkt vc with
    | some x => if x.len + 1 ≤ p.credit vc then some x else none
    | none => none

/-- Send a new numbered packet: it is charged, enters the replay buffer as sent, and the timer starts if that was empty (R413, R419, R420). -/
def sendNew (u : Nat) (x : OutPkt) (s : State) : State :=
  let p := s.uli u
  let sent : Sent := { seq := p.txSeq, ack := p.ackNow, crVc := p.crNext, crCum := p.cumNow, counter := p.txCounter, pkt := x }
  let s := countEvent (40 + u) 0x201 none (s.emit (.packet u sent))
  s.modUli u fun p =>
    let p := p.started s.now
    { p with
      txSeq := p.txSeq + 1
      charged := Tab.set 0 p.charged x.vc (Tab.get 0 p.charged x.vc + x.len + 1)
      timer := if p.replay.isEmpty then some (s.now + p.replayTo.toNat * 100) else p.timer
      replay := p.replay ++ [sent]
      lastVc := x.vc
      tx := removeFirst (fun y => y = x) p.tx }

/-- Resend packet i of the replay buffer, exactly as first sent (R223, R420). -/
def resend (u i : Nat) (x : Sent) (s : State) : State :=
  (countEvent (40 + u) 0x203 none (s.emit (.packet u x))).modUli u fun p =>
    { p with lastStart := s.now, replayAt := if i + 1 < p.replay.length then some (i + 1) else none }

/-- At a packet boundary the sender takes what is due: a replay, oldest first, and then new numbered packets (R415, R419, R420, R422). -/
def execUliletPacketSend (u : Fin 3) (s : State) : Host.Outcome State Fault Refusal :=
  .next (let p := s.uli u
    if !s.linkMayRun || !p.lstate.counts then s
    else match p.replayAt.bind fun i => (p.replay[i]?).map fun x => (i, x) with
      | some (i, x) => if s.slotFits u (wireBytes x.pkt.len) then resend u i x s else s
      | none =>
        match p.nextNew with
        | some x => if p.bufferTakes x.len && s.slotFits u (wireBytes x.len) then sendNew u x s else s
        | none => s)

/-- No packet has been started for 64 ns (R418). -/
def execAckOnlySend (u : Fin 3) (s : State) : Host.Outcome State Fault Refusal :=
  .next (let p := s.uli u
    let live := decide (p.lstate = .param) || p.lstate.counts
    if s.linkMayRun && live && decide (p.lastStart + 64 ≤ s.now) && s.slotFits u (wireBytes 0) then sendUnnumbered u 0 [] s else s)

/-- Hops from the polestar as beacons report them (R423, R487). DEDUCED, log 23. -/
def State.ownHops (s : State) : Nat := if s.ident.role then 0 else s.time.hops.toNat

/-- A slot starts: one SYNC unit and one beacon, and then only IDLE units until it ends (R422, R423). -/
def execBeaconSlotStart (u : Fin 3) (s : State) : Host.Outcome State Fault Refusal :=
  .next (let p := s.uli u
    let t := s.time.tb.toNat
    if s.linkMayRun && decide (p.lstate = .active) && decide (t % 1024 < 64) && decide (p.lastSlot ≠ some (t / 1024)) then
      let y := p.peerSync.getD (0, 0)
      (sendUnnumbered u 3 [t, y.1.toNat, y.2.toNat, s.ownHops, flag s.synced] s).modUli u fun p =>
        { p with lastSlot := some (t / 1024), ownSync := some s.time.tb }
    else s)

end Sys2Proof.Machine
end

