-- ==== Sys2Proof/Machine/RegField.lean ====
section
/-! DEFINITION. Register fields with the access codes of R13, and the registers of the identity block (R558 to R560). -/
namespace Sys2Proof.Machine

/-- One field of a register: its place, what it reads, what a read does to it, and what a write does. A field that ignores a written
value says which cause of REGWIN_STAT that is (R560): 0 where the value takes effect. -/
structure RegField where
  lo : Nat
  width : Nat
  read : State → Nat
  /-- What a read clears (RC). -/
  clear : State → State := fun s => s
  /-- Software can write it. -/
  writable : Bool := false
  judge : Nat → State → Nat := fun _ _ => 0
  set : Nat → State → State := fun _ s => s

/-- The value a written word has for a field. -/
def RegField.part (f : RegField) (w : Word) : Nat := w.toNat / 2 ^ f.lo % 2 ^ f.width

/-- Bits [lo + n - 1 : lo] of a number. -/
def bitsOf (w lo n : Nat) : Nat := w / 2 ^ lo % 2 ^ n

/-! ### The access codes (R13) -/

def fieldRo (lo width : Nat) (read : State → Nat) : RegField := { lo, width, read }

def fieldRc (lo width : Nat) (read : State → Nat) (clear : State → State) : RegField := { lo, width, read, clear }

/-- RW and RWS: a value outside the range is ignored (cause 5). -/
def fieldRw (lo width : Nat) (read : State → Nat) (ok : Nat → Bool) (set : Nat → State → State) : RegField :=
  { lo, width, read, writable := true, judge := fun v _ => if ok v then 0 else 5, set }

/-- RW whose range depends on the state. -/
def fieldRwIf (lo width : Nat) (read : State → Nat) (ok : Nat → State → Bool) (set : Nat → State → State) : RegField :=
  { lo, width, read, writable := true, judge := fun v s => if ok v s then 0 else 5, set }

/-- RWL: once locked, a write is ignored (cause 2). -/
def fieldRwl (lo width : Nat) (read : State → Nat) (locked : State → Bool) (ok : Nat → State → Bool) (set : Nat → State → State) :
    RegField :=
  { lo, width, read, writable := true, judge := fun v s => if locked s then 2 else if ok v s then 0 else 5, set }

/-- RW1C: a 1 clears. -/
def fieldW1c (lo : Nat) (read : State → Bool) (clear : State → State) : RegField :=
  { lo, width := 1, read := fun s => flag (read s), writable := true, set := fun v s => if v = 1 then clear s else s }

/-- WO: reads 0, and a write acts. -/
def fieldWo (lo width : Nat) (act : Nat → State → State) : RegField :=
  { lo, width, read := fun _ => 0, writable := true, set := act }

/-- One bit that is on or off. -/
def bitRo (lo : Nat) (read : State → Bool) : RegField := fieldRo lo 1 fun s => flag (read s)
def bitRw (lo : Nat) (read : State → Bool) (set : Bool → State → State) : RegField :=
  fieldRw lo 1 (fun s => flag (read s)) (fun _ => true) fun v => set (decide (v = 1))

/-- COMMIT: a 1 locks (R563). -/
def bitCommit (read : State → Bool) (lock : State → State) : RegField :=
  { lo := 63, width := 1, read := fun s => flag (read s), writable := true, set := fun v s => if v = 1 then lock s else s }

/-- A range test. -/
def within (lo hi v : Nat) : Bool := decide (lo ≤ v) && decide (v ≤ hi)
/-- Every value of the field is in range. -/
def anyValue (_ : Nat) : Bool := true

/-- A quantity that saturates in its field. -/
def satNat (n v : Nat) : Nat := min v (2 ^ n - 1)

/-- The word that the fields of a register read (R12, R556). -/
def readFields (l : List RegField) (s : State) : Word := BitVec.ofNat 64 (bitsAt (l.map fun f => (f.lo, f.read s % 2 ^ f.width)))
/-- What a read does: its RC fields are cleared (R14). -/
def clearFields (l : List RegField) (s : State) : State := forEach l (fun f => f.clear) s
/-- A write, field by field: each is judged alone on the state that the write finds (R566). The causes of the fields it ignores. -/
def writeFields (l : List RegField) (w : Word) (s : State) : List Nat × State :=
  ((l.map fun f => f.judge (f.part w) s).filter (· != 0),
    forEach (l.filter fun f => f.judge (f.part w) s = 0) (fun f => f.set (f.part w)) s)

/-! ### The identity block (R558) -/

def State.statZero (s : State) (v : Nat) : Nat := if s.start.phase9Done then v else 0
/-- Lines as whole MiB. -/
def wholeMib (lines : Nat) : Nat := lines / 16384

/-- ID_*, REGWIN_STAT (R559, R560). -/
def idReg (o : Nat) : List RegField :=
  if o = 0x00 then [fieldRo 0 32 fun _ => 0x2416, fieldRo 32 4 fun s => s.ident.variant.toNat, fieldRo 36 8 fun s => s.ident.stepping.toNat]
  else if o = 0x08 then [fieldRo 0 64 fun s => s.ident.serial.toNat]
  else if o = 0x10 then
    [fieldRo 0 2 fun s => s.ident.devId.toNat, bitRo 2 fun s => s.ident.role, bitRo 3 fun s => s.ident.strapErr]
  else if o = 0x18 then
    [fieldRc 0 16 (fun s => s.regwin.ignored.toNat) (fun s => s.modRegwin fun r => { r with ignored := 0 }),
     fieldRo 16 3 fun s => s.regwin.lastCause.toNat, bitRo 19 fun s => s.regwin.lastRilia, fieldRo 20 8 fun s => s.regwin.lastSrc.toNat,
     bitRo 28 fun s => s.regwin.lastEngine, fieldRo 32 26 fun s => s.regwin.lastOffset.toNat]
  else []

/-- The capacity registers and MAG_CTL (R147, R202). -/
def capReg (o : Nat) : List RegField :=
  if o = 0x400 then
    [fieldRw 0 10 (fun s => s.cap.floorPm.toNat) (within 5 100)
       (fun v s => updateCapacity (s.modCap fun c => { c with floorPm := BitVec.ofNat 10 v })),
     fieldRw 10 10 (fun s => s.cap.hystPm.toNat) (within 1 100)
       (fun v s => updateCapacity (s.modCap fun c => { c with hystPm := BitVec.ofNat 10 v })),
     fieldRw 20 8 (fun s => s.cap.ratio.toNat) (within 16 64) (fun v s => s.modCap fun c => { c with ratio := BitVec.ofNat 8 v })]
  else if o = 0x408 then [fieldRo 0 32 fun s => s.statZero (wholeMib s.capP), fieldRo 32 32 fun s => s.statZero (wholeMib s.capF)]
  else if o = 0x410 then [fieldRo 0 32 fun s => s.statZero (wholeMib s.capAR), fieldRo 32 32 fun s => s.statZero (wholeMib s.capLU)]
  else if o = 0x418 then
    [fieldRo 0 32 fun s => s.statZero (wholeMib s.cap.g), fieldRo 32 16 fun s => s.statZero (satNat 16 (gib s.cap.z)),
     fieldRo 48 16 fun s => s.statZero (satNat 16 (wholeMib s.cap.m))]
  else if o = 0x420 then
    [fieldRo 0 32 fun s => s.statZero (BitVec.ofInt 32 (s.capU / 16384)).toNat, fieldRo 32 18 fun s => s.statZero s.logicalExtents]
  else if o = 0x428 then
    [bitRo 0 fun s => s.cap.distress, bitRo 1 fun s => s.cap.poolExhausted, bitRo 2 fun s => s.cap.shortfall, bitRo 3 fun s => s.frozen,
     fieldW1c 8 (fun s => s.cap.distressSeen) (fun s => s.modCap fun c => { c with distressSeen := false }),
     fieldW1c 9 (fun s => s.cap.unstoredSeen) (fun s => s.modCap fun c => { c with unstoredSeen := false }),
     fieldRc 32 32 (fun s => s.cap.unstored.toNat) (fun s => s.modCap fun c => { c with unstored := 0 })]
  else if o = 0x440 then
    [bitRw 0 (fun s => s.sketch.en) (fun b s => s.modSketch fun k => { k with en := b }),
     fieldRw 1 4 (fun s => s.sketch.sample.toNat) (within 0 10) (fun v s => s.modSketch fun k => { k with sample := BitVec.ofNat 4 v }),
     fieldRw 16 16 (fun s => s.sketch.decay.toNat) (within 1 10000) (fun v s => s.modSketch fun k => { k with decay := BitVec.ofNat 16 v })]
  else []

/-- Key slots of a state, slot 0 aside for LOADED (R225). -/
def State.slotsIn (s : State) (st : KeyState) (from_ : Nat) : Nat := (s.keys.slots.filter fun e => from_ ≤ e.1 ∧ e.2.state = st).length

/-- Part of the scrub period that is done, in per mille (R286). -/
def State.scrubDone (s : State) : Nat := if s.capP = 0 then 0 else min 1000 (1000 * s.integ.scrubbed / s.capP)

/-- Keys, scrub and integrity (R225, R286). -/
def integReg (o : Nat) : List RegField :=
  if o = 0x480 then
    [fieldRo 0 13 fun s => s.slotsIn .loaded 1, fieldRo 16 13 fun s => s.slotsIn .bound 0, fieldRo 32 13 fun s => s.slotsIn .closing 0,
     fieldRo 48 7 fun s => s.keys.staged.length]
  else if o = 0x488 then
    [fieldRw 0 7 (fun s => s.keys.rate.toNat) (within 1 64) (fun v s => s.modKeys fun k => { k with rate := BitVec.ofNat 7 v })]
  else if o = 0x490 then
    [fieldRo 0 18 fun s => (s.cap.extents.filter fun e => e.2.state = .erasing).length, fieldRo 32 32 fun s => satNat 32 (wholeMib s.cap.z)]
  else if o = 0x4C0 then
    [fieldRw 0 8 (fun s => s.integ.period.toNat) (within 1 168) (fun v s => s.modInteg fun i => { i with period := BitVec.ofNat 8 v }),
     bitRw 8 (fun s => s.integ.scrubEn) (fun b s => s.modInteg fun i => { i with scrubEn := b })]
  else if o = 0x4C8 then
    [fieldRo 0 10 State.scrubDone, fieldRo 16 16 fun s => s.integ.passes.toNat,
     fieldRc 32 16 (fun s => s.integ.ceFound.toNat) (fun s => s.modInteg fun i => { i with ceFound := 0 }),
     fieldRc 48 16 (fun s => s.integ.ueFound.toNat) (fun s => s.modInteg fun i => { i with ueFound := 0 })]
  else if o = 0x4D0 then
    [fieldRw 0 4 (fun s => s.integ.wcrcN.toNat) (within 1 15) (fun v s => s.modInteg fun i => { i with wcrcN := BitVec.ofNat 4 v }),
     fieldRw 4 12 (fun s => s.integ.wcrcWin.toNat) (within 1 4095) (fun v s => s.modInteg fun i => { i with wcrcWin := BitVec.ofNat 12 v }),
     fieldRw 16 8 (fun s => s.integ.rowsN.toNat) (within 1 255) (fun v s => s.modInteg fun i => { i with rowsN := BitVec.ofNat 8 v }),
     fieldRw 24 8 (fun s => s.integ.rowsWin.toNat) (within 1 255) (fun v s => s.modInteg fun i => { i with rowsWin := BitVec.ofNat 8 v }),
     fieldRw 32 4 (fun s => s.integ.trainN.toNat) (within 1 15) (fun v s => s.modInteg fun i => { i with trainN := BitVec.ofNat 4 v }),
     fieldRw 36 3 (fun s => s.integ.probeN.toNat) (within 1 7) (fun v s => s.modInteg fun i => { i with probeN := BitVec.ofNat 3 v }),
     bitRw 39 (fun s => s.integ.retireAuto) (fun b s => s.modInteg fun i => { i with retireAuto := b })]
  else if o = 0x4D8 then
    [fieldRo 0 17 fun s => s.integ.poison.length, bitRo 17 fun s => s.integ.overflow,
     fieldRc 32 32 (fun s => s.integ.refused.toNat) (fun s => s.modInteg fun i => { i with refused := 0 })]
  else if o = 0x4E0 then
    [fieldRo 0 16 fun s => s.integ.softFuse.length, fieldRo 16 13 fun s => s.integ.spares.length,
     fieldRo 32 32 fun s => s.integ.flashWrites.toNat]
  else []

/-- RIL_CTL and the image registers (R313, R374). DEDUCED, log 22. -/
def imgReg (o : Nat) : List RegField :=
  if o = 0x500 then
    [fieldRw 0 5 (fun s => s.ril.tenantThreads.toNat) (within 0 24) (fun v s => s.modRil fun r => { r with tenantThreads := BitVec.ofNat 5 v }),
     fieldRw 8 6 (fun s => s.ril.trapLimit.toNat) (within 1 63) (fun v s => s.modRil fun r => { r with trapLimit := BitVec.ofNat 6 v })]
  else if o = 0x540 then
    [bitRo 0 fun s => s.img.fwCopy, bitRo 1 fun s => s.img.opCopy, bitRo 2 fun s => s.img.opRuns, bitRo 3 fun s => s.img.act.isSome,
     bitRo 4 fun s => (s.img.act.bind (·.swapped)).isSome, fieldRo 16 16 fun s => s.img.fwFloor.toNat,
     fieldRo 32 16 fun s => s.img.opFloor.toNat, fieldRo 48 6 fun s => s.img.fwRaises.toNat, fieldRo 54 6 fun s => s.img.opRaises.toNat]
  else if o = 0x548 then [fieldRo 0 32 fun s => s.img.writes.toNat]
  else []

/-- DEVLOAD_MOD as it stands after a write of QOS_CTL. -/
def State.devMod (s : State) (w : Nat) : Nat := if within 1 100 (bitsOf w 8 7) then bitsOf w 8 7 else s.qos.devloadMod.toNat

/-- A field whose range another field of the same write bears on. -/
def fieldPair (lo width : Nat) (word : State → Nat) (ok : Nat → State → Bool) (set : Nat → State → State) : RegField :=
  { lo := 0, width := 64, read := fun s => (bitsOf (word s) lo width) * 2 ^ lo, writable := true
    judge := fun w s => if ok w s then 0 else 5, set := fun w s => set (bitsOf w lo width) s }

/-- The QoS registers (R398); what delivery and the guarantees follow from is derived again (R392). -/
def qosReg (o : Nat) : List RegField :=
  if o = 0x580 then
    [bitRw 0 (fun s => s.qos.compat) (fun b s => s.modQos fun q => { q with compat := b }),
     fieldRw 8 7 (fun s => s.qos.devloadMod.toNat) (within 1 100) (fun v s => s.modQos fun q => { q with devloadMod := BitVec.ofNat 7 v }),
     fieldPair 16 7 (fun s => s.qos.devloadSev.toNat * 65536) (fun w s => within (s.devMod w) 100 (bitsOf w 16 7))
       (fun v s => s.modQos fun q => { q with devloadSev := BitVec.ofNat 7 v })]
  else if o = 0x588 then
    [bitRw 0 (fun s => s.qos.eff) (fun b s => recomputeDelivery (s.modQos fun q => { q with eff := b })),
     bitRw 1 (fun s => s.qos.gather) (fun b s => recomputeDelivery (s.modQos fun q => { q with gather := b })),
     fieldRw 8 7 (fun s => s.qos.readPct.toNat) (within 0 100)
       (fun v s => recomputeDelivery (s.modQos fun q => { q with readPct := BitVec.ofNat 7 v })),
     fieldRw 16 7 (fun s => s.qos.packedPct.toNat) (within 0 100)
       (fun v s => recomputeDelivery (s.modQos fun q => { q with packedPct := BitVec.ofNat 7 v })),
     fieldRw 24 8 (fun s => s.qos.reserve.toNat) anyValue
       (fun v s => recomputeDelivery (s.modQos fun q => { q with reserve := BitVec.ofNat 8 v }))]
  else if 0x5A0 ≤ o ∧ o < 0x5D8 then
    let c := (o - 0x5A0) / 8
    [fieldRw 0 16 (fun s => s.excess c) (within 1 65535)
      (fun v s => recomputeDelivery (s.modQos fun q => { q with excess := Tab.set (excessReset c) q.excess c (BitVec.ofNat 16 v) }))]
  else if o = 0x5D8 then
    [fieldRo 0 17 fun s => s.scale 16, bitRo 17 fun s => (List.range 17).any fun h => decide (s.scale h < 65536),
     fieldRo 32 32 fun s => s.guarSum]
  else if o = 0x5E0 then [fieldRo 0 32 fun s => s.qos.dHost, fieldRo 32 32 fun s => s.qos.dDram]
  else if o = 0x5E8 then [fieldRc 0 32 (fun s => s.qos.red.toNat) (fun s => s.modQos fun q => { q with red := 0 })]
  else if 0x600 ≤ o ∧ o < 0x640 then [fieldRo 0 64 fun s => (Tab.get 0 s.qos.bytes ((o - 0x600) / 8)).toNat]
  else []

/-- Members in a state as a bit mask, this device among the joined (R447). -/
def State.joinedMask (s : State) : Nat := maskOf 4 fun i => decide ((s.member i).state = .joined)

/-- The constellation registers (R447). -/
def constReg (o : Nat) : List RegField :=
  if o = 0x680 then
    [fieldRw 0 10 (fun s => s.const.orphanTo.toNat) (within 20 1000) (fun v s => s.modConst fun c => { c with orphanTo := BitVec.ofNat 10 v })]
  else if o = 0x688 then
    [fieldRo 0 4 State.joinedMask, fieldRo 4 4 fun s => maskOf 4 fun i => (s.member i).relay.isSome, bitRo 8 fun s => s.frozen,
     fieldRo 9 2 fun s => ((List.range 3).filter fun u => (s.uli u).foreign).length,
     fieldRo 16 16 fun s => s.const.journal.length, fieldRo 32 17 fun s => s.const.indet.length,
     bitRo 49 fun s => !s.const.overflow.isEmpty, bitRo 50 fun s => decide (s.const.homeWide ≠ 0)]
  else if o = 0x690 then [fieldWo 0 64 fun v s => writeXmap (BitVec.ofNat 64 v) s]
  else if o = 0x698 then [bitRo 0 fun s => s.const.xmap.busy, fieldRo 1 4 fun s => s.const.xmap.result.toNat]
  else []

/-- Power, pads and the timebase (R490). -/
def powerReg (o : Nat) : List RegField :=
  if o = 0x700 then
    [fieldWo 0 1 (fun v s => if v = 1 then releasePads s else s), bitRo 1 fun s => s.power.latched, bitRo 2 fun s => s.power.cxlLatched]
  else if o = 0x708 then
    [fieldWo 0 1 (fun v s => if v = 1 then requestDoze s else s), bitRo 1 fun s => s.power.dozing,
     fieldW1c 2 (fun s => s.power.dozeRefused) (fun s => s.modPower fun p => { p with dozeRefused := false }),
     fieldRo 3 3 fun s => s.power.refuseCause.toNat, fieldRo 8 3 fun s => s.power.wakeCause.toNat]
  else if o = 0x710 then [fieldRo 0 64 fun s => s.time.tb.toNat]
  else if o = 0x718 then [fieldRo 0 64 fun s => s.now]
  else if o = 0x720 then [fieldRo 0 64 fun s => s.time.uncert.toNat]
  else if o = 0x728 then
    [bitRo 0 fun s => s.time.fallback, bitRo 1 State.synced, fieldRo 2 8 State.ownHops, bitRo 10 fun s => s.time.freeRun,
     bitRo 11 fun s => s.time.setEver, fieldRo 12 2 fun s => s.time.parent.toNat, fieldRo 32 32 fun s => s.time.offset.toNat]
  else if o = 0x730 then [fieldWo 0 64 fun v s => if s.ident.role then setTimebase (BitVec.ofNat 64 v) s else s]
  else if o = 0x738 then
    [fieldRw 0 16 (fun s => s.time.step.toNat) (within 100 65535) (fun v s => s.modTime fun t => { t with step := BitVec.ofNat 16 v }),
     fieldRw 16 9 (fun s => s.time.slewPpm.toNat) (within 1 500) (fun v s => s.modTime fun t => { t with slewPpm := BitVec.ofNat 9 v })]
  else []

/-- Resets and faults (R514, R529). -/
def faultReg (o : Nat) : List RegField :=
  if o = 0x740 then [fieldWo 0 1 fun v s => if v = 1 then warmEntry 2 s else s]
  else if o = 0x748 then [fieldRo 0 64 fun s => s.rstStat.toNat]
  else if o = 0x750 then [fieldRo 0 32 fun s => s.start.vigilUs.toNat, fieldRo 32 32 fun s => s.start.maUs.toNat]
  else if o = 0x758 then [fieldRo 0 32 fun s => s.start.gatherLost.toNat]
  else if o = 0x780 then
    [fieldRw 0 3 (fun s => s.faults.threshold.toNat) (within 1 4) (fun v s => s.modFaults fun f => { f with threshold := BitVec.ofNat 3 v }),
     fieldRw 8 7 (fun s => s.faults.tempWarn.toNat) (within 70 115) (fun v s => s.modFaults fun f => { f with tempWarn := BitVec.ofNat 7 v })]
  else if o = 0x788 then
    [fieldRo 0 16 fun s => maskOf 16 fun i => decide (s.fsticky i ≠ 0), fieldRo 16 3 State.highestClass, bitRo 19 State.faultDriven]
  else if o = 0x790 then
    [fieldRo 0 10 fun s => s.faults.haltSource.toNat,
     fieldW1c 10 (fun s => s.faults.haltValid) (fun s => s.modFaults fun f => { f with haltValid := false })]
  else if o = 0x798 then [fieldRo 0 64 fun s => s.faults.haltTime.toNat]
  else []

/-- The code of a privilege in RIL_QSTAT.OWNER. -/
def Queue.ownerCode (q : Queue) : Nat := match q.bound with
  | none => 0
  | some b => b.owner.code + 1

/-- RIL_QSTAT[q] (R313). -/
def queueReg (q : Nat) : List RegField :=
  [fieldRo 0 10 fun s => (s.queue q).entries.length, bitRo 10 fun s => (s.queue q).bound.isSome, fieldRo 11 2 fun s => (s.queue q).ownerCode,
   bitRo 13 fun s => ((s.queue q).bound.bind (·.period)).isSome,
   fieldW1c 14 (fun s => (s.queue q).ovf) (fun s => s.modQueue q fun x => { x with ovf := false }),
   fieldRo 16 6 fun s => ((List.range 32).filter fun t => (s.thread t).state.busy ∧ (s.thread t).queue = q).length,
   fieldRc 32 16 (fun s => (s.queue q).lost.toNat) (fun s => s.modQueue q fun x => { x with lost := 0 })]

/-- The codes of PWR_DOM (R491). -/
def PState.code : PState → Nat
  | .p0 => 0
  | .p1 => 1
  | .p2 => 2
  | .p3 => 3
def DomTrans.code : DomTrans → Nat
  | .none => 0
  | .entering dest _ => dest.code
  | .exiting => 4
def requested : Nat → Option PState
  | 1 => some .p0
  | 2 => some .p1
  | 3 => some .p2
  | 4 => some .p3
  | _ => none

/-- Domains whose IDLE fields software sets: those that R465 lets into P1 or P2 outside D-Doze (R491). DEDUCED, log 53. -/
def idleDomain (i : Nat) : Bool := decide (i = 3) || within 4 43 i || within 47 54 i

/-- PWR_DOM[i] (R491). -/
def domReg (i : Nat) : List RegField :=
  [fieldRo 0 2 fun s => (s.dom i).state.code, fieldRo 2 3 fun s => (s.dom i).trans.code,
   fieldRo 5 3 fun s => ((s.dom i).pending.map fun p => p.code + 1).getD 0,
   { lo := 8, width := 3, read := fun _ => 0, writable := true, judge := fun v _ => if v ≤ 4 then 0 else 5
     set := fun v s => match requested v with
       | some p => requestState i p s
       | none => s },
   fieldW1c 11 (fun s => (s.dom i).refused) (fun s => s.modDom i fun d => { d with refused := false })] ++
  (if idleDomain i then
    [fieldRw 12 10 (fun s => (s.dom i).idleP1.toNat) anyValue (fun v s => s.modDom i fun d => { d with idleP1 := BitVec.ofNat 10 v }),
     fieldRw 22 16 (fun s => (s.dom i).idleP2.toNat) anyValue (fun v s => s.modDom i fun d => { d with idleP2 := BitVec.ofNat 16 v })]
   else []) ++
  [fieldRc 48 8 (fun s => (s.dom i).wakes.toNat) (fun s => s.modDom i fun d => { d with wakes := 0 }),
   fieldRc 56 8 (fun s => (s.dom i).aborts.toNat) (fun s => s.modDom i fun d => { d with aborts := 0 })]

/-- The bits of FSTICKY[i] whose source passes a test. -/
def sourceBits (i : Nat) (p : SourceInfo → Bool) : BitVec 64 :=
  BitVec.ofNat 64 (maskOf 64 fun j => ((sourceInfo (64 * i + j)).map p).getD false)

/-- FAULT_MASK[i]: the bits of F3 and F4 sources are not set (R522). -/
def maskReg (i : Nat) : List RegField :=
  [fieldRw 0 64 (fun s => (Tab.get 0 s.faults.mask i).toNat) anyValue (fun v s => s.modFaults fun f =>
    { f with mask := Tab.set 0 f.mask i (BitVec.ofNat 64 v &&& ~~~ sourceBits i fun x => decide (3 ≤ x.cls)) })]

/-- The registers of the identity block (R558). -/
def identityReg (o : Nat) : List RegField :=
  if o < 0x400 then idReg o
  else if o < 0x480 then capReg o
  else if o < 0x500 then integReg o
  else if o < 0x580 then imgReg o
  else if o < 0x680 then qosReg o
  else if o < 0x700 then constReg o
  else if o < 0x740 then powerReg o
  else if o < 0x800 then faultReg o
  else if o < 0x1000 then queueReg ((o - 0x800) / 8)
  else if o < 0x11B8 then domReg ((o - 0x1000) / 8)
  else if 0x1200 ≤ o ∧ o < 0x1280 then maskReg ((o - 0x1200) / 8)
  else []

end Sys2Proof.Machine
end

