-- ==== Sys2Proof/Machine/RegBlocks.lean ====
section
/-! DEFINITION. The registers of the other blocks: quadrants, channels, CXL ports, Ulilet ports, clusters, cores, counter blocks, the
fault source map, the recorder and the slots (R561, R562). -/
namespace Sys2Proof.Machine

/-! ### Quadrants and clusters (R172, R173, R202, R552, R561, R562) -/

def quadReg (q o : Nat) : List RegField :=
  let setQ := fun (f : Quad → Quad) (s : State) => s.modQuad q f
  if o = 0x000 then
    [fieldRo 0 8 fun s => (s.sensor q).temp.toNat, bitRo 8 fun s => (s.sensor q).valid, bitRo 9 fun s => s.holds (960 + 4 * q),
     bitRo 10 fun s => (s.sensor q).supplyOk,
     fieldRc 16 8 (fun s => (s.sensor q).tempMax.toNat) (fun s => s.modSensor q fun x => { x with tempMax := 0 })]
  else if o = 0x200 then
    [fieldRw 0 8 (fun s => (s.quad q).hold.toNat) (within 2 255) (fun v => setQ fun x => { x with hold := BitVec.ofNat 8 v }),
     fieldRw 8 8 (fun s => (s.quad q).pressure.toNat) (within 1 255) (fun v => setQ fun x => { x with pressure := BitVec.ofNat 8 v }),
     bitRw 16 (fun s => (s.quad q).m0) (fun b => setQ fun x => { x with m0 := b }),
     bitRw 17 (fun s => (s.quad q).m1) (fun b => setQ fun x => { x with m1 := b }),
     bitRw 18 (fun s => (s.quad q).m2) (fun b => setQ fun x => { x with m2 := b })]
  else if o = 0x210 then
    [fieldRw 0 7 (fun s => (s.quad q).budget.toNat) (within 1 100) (fun v => setQ fun x => { x with budget := BitVec.ofNat 7 v }),
     fieldRw 8 3 (fun s => (s.quad q).maxRestarts.toNat) anyValue (fun v => setQ fun x => { x with maxRestarts := BitVec.ofNat 3 v }),
     fieldRw 16 8 (fun s => (s.quad q).maxInflight.toNat) (within 1 255) (fun v => setQ fun x => { x with maxInflight := BitVec.ofNat 8 v }),
     fieldRw 24 2 (fun s => (s.quad q).evacShare.toNat) (within 1 3) (fun v => setQ fun x => { x with evacShare := BitVec.ofNat 2 v })]
  else if o = 0x218 then
    [fieldRo 0 9 fun s => (s.quad q).records.length, bitRo 9 fun s => (List.range 6).any fun i => (s.chan (6 * q + i)).evac.isSome,
     fieldRc 16 16 (fun s => (s.quad q).restarts.toNat) (setQ fun x => { x with restarts := 0 }),
     fieldRc 32 16 (fun s => (s.quad q).stalls.toNat) (setQ fun x => { x with stalls := 0 }),
     fieldRc 48 16 (fun s => (s.quad q).aborts.toNat) (setQ fun x => { x with aborts := 0 })]
  else if o = 0x220 then
    [bitRw 0 (fun s => (s.quad q).heatEn) (fun b => setQ fun x => { x with heatEn := b }),
     fieldRw 1 8 (fun s => (s.quad q).heatW.toNat) (within 1 255) (fun v => setQ fun x => { x with heatW := BitVec.ofNat 8 v }),
     fieldRw 9 16 (fun s => (s.quad q).heatWindow.toNat) (within 10 65535) (fun v => setQ fun x => { x with heatWindow := BitVec.ofNat 16 v })]
  else if o = 0x228 then
    [fieldRc 0 32 (fun s => (s.quad q).promoted.toNat) (setQ fun x => { x with promoted := 0 }),
     fieldRc 32 32 (fun s => (s.quad q).suppressed.toNat) (setQ fun x => { x with suppressed := 0 })]
  else if o = 0x240 then
    [fieldRo 0 7 fun s => (s.cometQuad q).buffer.length, fieldRo 8 7 fun s => (s.cometQuad q).inflight,
     fieldRc 16 16 (fun s => (s.cometQuad q).overwritten.toNat) (fun s => s.modCometQuad q fun x => { x with overwritten := 0 }),
     fieldRc 32 16 (fun s => (s.cometQuad q).skipped.toNat) (fun s => s.modCometQuad q fun x => { x with skipped := 0 })]
  else []

def clusterReg (e o : Nat) : List RegField :=
  if o = 0x000 then
    [fieldRo 0 2 fun s => (s.cluster e).cmpIn.toNat, fieldRo 2 4 fun s => (s.cluster e).dcmpIn.toNat,
     fieldRo 6 6 fun s => (s.cluster e).xtsIn.toNat, bitRo 12 fun s => !(s.cluster e).queue.isEmpty]
  else if o = 0x100 then [fieldRo 0 32 fun s => (s.cluster e).encoded.toNat, fieldRo 32 32 fun s => (s.cluster e).decoded.toNat]
  else if o = 0x108 then [fieldRo 0 40 fun s => (s.cluster e).slotsOut.toNat]
  else if o = 0x110 then
    [fieldRc 0 16 (fun s => (s.cluster e).malformed.toNat) (fun s => s.modCluster e fun x => { x with malformed := 0 }),
     fieldRo 16 3 fun s => (s.cluster e).lastCause.toNat]
  else []

/-- The number that codes a thread's state (R313). -/
def ThreadState.code : ThreadState → Nat
  | .free => 0
  | .running => 1
  | .deviceOp => 2
  | .wait => 3
  | .mwait => 4
  | .out => 5

/-- THREAD_STAT of the threads of a core (R313). -/
def coreReg (c o : Nat) : List RegField :=
  if o < 0x20 then
    let t := 4 * c + o / 8
    [fieldRo 0 3 fun s => (s.thread t).state.code, fieldRo 3 2 fun s => (s.thread t).priv.code, bitRo 5 fun s => (s.thread t).bank,
     fieldRo 6 8 fun s => (s.thread t).queue, fieldRo 32 19 fun s => (s.thread t).pc.toNat]
  else []

/-! ### DRAM channels (R253, R287) -/

/-- WR_HIGH as it stands after a write of CH_CTL. -/
def State.highAfter (s : State) (c w : Nat) : Nat := if within 8 120 (bitsOf w 28 7) then bitsOf w 28 7 else (s.chan c).wrHigh.toNat

/-- EXPRESS is held by at most 4 channels (R241). -/
def State.expressFull (s : State) (c : Nat) : Bool := decide (4 ≤ ((List.range 24).filter fun i => i ≠ c ∧ (s.chan i).express).length)

/-- REF_2X_FORCE; the thermal event follows a change of the hot state that is wanted (R247). -/
def forceHot (c : Nat) (b : Bool) (s : State) : State :=
  let was := (s.chan c).wantHot
  let s := s.modChan c fun h => { h with ref2x := b }
  if (s.chan c).wantHot = was then s else thermalEvent c false s

/-- CH_CTL (R253, R563). -/
def chCtlReg (c : Nat) : List RegField :=
  let setC := fun (f : Chan → Chan) (s : State) => s.modChan c f
  [fieldRw 0 2 (fun s => (s.chan c).pageDefault.toNat) (within 1 3) (fun v => setC fun h => { h with pageDefault := BitVec.ofNat 2 v }),
   fieldRwIf 2 1 (fun s => flag (s.chan c).express) (fun v s => decide (v = 0) || (s.chan c).express || !s.expressFull c)
     (fun v => setC fun h => { h with express := decide (v = 1) }),
   fieldRw 3 8 (fun s => (s.chan c).pdTimer.toNat) anyValue (fun v => setC fun h => { h with pdTimer := BitVec.ofNat 8 v }),
   fieldRw 11 8 (fun s => (s.chan c).rowIdle.toNat) (within 1 255) (fun v => setC fun h => { h with rowIdle := BitVec.ofNat 8 v }),
   fieldRwl 19 8 (fun s => (s.chan c).speedMax.toNat) (fun s => (s.chan c).commit)
     (fun v s => within 48 (if s.ident.variant = 1 then 64 else 88) v) (fun v => setC fun h => { h with speedMax := BitVec.ofNat 8 v }),
   bitRw 27 (fun s => (s.chan c).ref2x) (forceHot c),
   fieldRw 28 7 (fun s => (s.chan c).wrHigh.toNat) (within 8 120) (fun v => setC fun h => { h with wrHigh := BitVec.ofNat 7 v }),
   fieldPair 35 7 (fun s => (s.chan c).wrLow.toNat * 2 ^ 35)
     (fun w s => decide (1 ≤ bitsOf w 35 7) && decide (bitsOf w 35 7 < s.highAfter c w))
     (fun v => setC fun h => { h with wrLow := BitVec.ofNat 7 v }),
   bitCommit (fun s => (s.chan c).commit) (setC fun h => { h with commit := true })]

/-- A parameter of CH_TIM0 to CH_TIM2, by its place in `Chan.timing`. -/
def State.timing (s : State) (c i : Nat) : Nat := (s.chan c).timing.getD i 0

/-- CH_TIM0 and CH_TIM1 (R253); CWL is CL − 2 (R233). -/
def timReg (c first : Nat) (n : List Nat) : List RegField := n.map fun i => fieldRo (8 * i) 8 fun s => s.timing c (first + i)

/-- Nominal tREFI, 3.9 µs, in nCK (R253). -/
def State.refi (s : State) (c : Nat) : Nat := 3900 * (s.chan c).speed.toNat / 20

/-- CH_INIT.FRONTIER: the channel's next MiB to initialise, by its address in the channel (R253). -/
def Chan.frontierMib (h : Chan) : Nat :=
  wholeMib (if h.frontier < h.slotLines 0 ∨ h.capacity = 0 then h.frontier else 2 ^ 32 + (h.frontier - h.slotLines 0)) % 2 ^ 19

/-- A write of CH_REPAIR.START on the target that the write has set (R284). Whether the DIMM has a repair resource left is open.
DEDUCED, log 74. -/
def repairStart (c : Nat) (s : State) : State :=
  if !s.mayRepair c then s
  else
    let h := s.chan c
    let resource := (Config.freeWord s.free).getLsbD 0
    if h.repairKind = 0 then liftFence c s
    else if h.repairKind = 1 then fenceRow c h.target s
    else startRepair c (decide (h.repairKind = 3)) h.target resource s.takeFree

def chanReg (c o : Nat) : List RegField :=
  let setC := fun (f : Chan → Chan) (s : State) => s.modChan c f
  let setT := fun (f : RowName → RowName) => setC fun h => { h with target := f h.target }
  if o = 0x00 then chCtlReg c
  else if o = 0x08 then
    [fieldRo 0 5 fun _ => c, fieldRo 5 3 fun s => (s.chan c).state.code, fieldRo 8 3 fun s => (s.chan c).cause.toNat,
     bitRo 11 fun s => (s.chan c).hot, bitRo 12 fun s => (s.chan c).retrainBusy, bitRo 13 fun s => (s.chan c).selfRefresh,
     bitRo 14 fun s => (s.chan c).initDone, fieldRo 16 8 fun s => (s.chan c).speed.toNat, fieldRo 24 2 fun s => (s.chan c).usable.toNat]
  else if o = 0x10 then timReg c 0 [0, 1, 2, 3, 4, 5] ++ [fieldRo 48 8 fun s => s.timing c 0 - 2]
  else if o = 0x18 then timReg c 6 [0, 1, 2, 3, 4, 5, 6]
  else if o = 0x20 then [fieldRo 0 12 fun s => s.timing c 13, fieldRo 12 16 fun s => s.refi c]
  else if o = 0x28 then
    [fieldRo 0 32 fun s => (s.chan c).refCount.toNat, fieldRc 32 16 (fun s => (s.chan c).lateMax.toNat) (setC fun h => { h with lateMax := 0 })]
  else if o = 0x30 then
    [fieldRw 1 2 (fun s => (s.chan c).retrainKind.toNat) (within 1 3) (fun v => setC fun h => { h with retrainKind := BitVec.ofNat 2 v }),
     fieldRw 3 16 (fun s => (s.chan c).retrainMask.toNat) anyValue (fun v => setC fun h => { h with retrainMask := BitVec.ofNat 16 v }),
     fieldWo 0 19 (fun v s => if v % 2 = 1 ∧ s.running then startWindow c (BitVec.ofNat 2 (bitsOf v 1 2)) (BitVec.ofNat 16 (bitsOf v 3 16)) s else s),
     bitRo 19 fun s => (s.chan c).retrainBusy, fieldRo 20 2 fun s => (s.chan c).retrainResult.toNat,
     fieldRo 22 8 fun s => (s.chan c).retrainFails.toNat]
  else if o = 0x38 then
    [fieldRo 0 8 fun s => (s.chan c).temp0.toNat, fieldRo 8 8 fun s => (s.chan c).temp1.toNat,
     fieldRw 16 8 (fun s => (s.chan c).tempCrit.toNat) (within 85 105) (fun v => setC fun h => { h with tempCrit := BitVec.ofNat 8 v }),
     bitRo 24 fun s => (s.chan c).sensorFail]
  else if o = 0x40 then [fieldRo 0 19 fun s => (s.chan c).frontierMib]
  else if o = 0x48 then
    [fieldRo 0 9 fun s => (s.chan c).queue.length, fieldRc 9 9 (fun s => (s.chan c).peak.toNat) (setC fun h => { h with peak := 0 }),
     fieldRo 18 8 fun s => ((s.chan c).queue.filter fun x => x.write.isSome).length]
  else if o = 0x50 then
    [fieldRc 0 16 (fun s => (s.chan c).ce.toNat) (setC fun h => { h with ce := 0 }),
     fieldRc 16 16 (fun s => (s.chan c).ue.toNat) (setC fun h => { h with ue := 0 }),
     fieldRc 32 8 (fun s => (s.chan c).wcrcRetry.toNat) (setC fun h => { h with wcrcRetry := 0 }),
     fieldRc 40 8 (fun s => (s.chan c).wcrcExhaust.toNat) (setC fun h => { h with wcrcExhaust := 0 }),
     fieldRo 48 16 fun s => (s.chan c).failing.toNat]
  else if o = 0x58 then
    [fieldRw 1 2 (fun s => (s.chan c).repairKind.toNat) anyValue (fun v => setC fun h => { h with repairKind := BitVec.ofNat 2 v }),
     fieldRw 3 1 (fun s => (s.chan c).target.slot) anyValue (fun v => setT fun t => { t with slot := v }),
     fieldRw 4 3 (fun s => (s.chan c).target.rank) anyValue (fun v => setT fun t => { t with rank := v }),
     fieldRw 7 3 (fun s => (s.chan c).target.bg) anyValue (fun v => setT fun t => { t with bg := v }),
     fieldRw 10 2 (fun s => (s.chan c).target.bank) anyValue (fun v => setT fun t => { t with bank := v }),
     fieldRw 12 17 (fun s => (s.chan c).target.row) anyValue (fun v => setT fun t => { t with row := v }),
     fieldWo 0 1 (fun v s => if v = 1 then repairStart c s else s),
     bitRo 29 fun s => (s.chan c).repairBusy, fieldRo 30 3 fun s => (s.chan c).repairResult.toNat, bitRo 33 fun s => (s.chan c).fence.isSome]
  else []

/-! ### CXL ports (R67, R70, R563) -/

/-- A merge that a port may lead (R67). -/
def mergeOk (p v : Nat) : Bool := decide (v = 0) || (decide (v = 1) && decide (p % 2 = 0)) || (decide (v = 2) && decide (p % 4 = 0))

/-- PORT_ENABLE 0 asks for P3 of the domains of the link's ports, once the link is down (R465, R470, R71). DEDUCED, log 51. -/
def portEnable (p : Nat) (b : Bool) (s : State) : State :=
  let s := s.modPort p fun q => { q with cfg := { q.cfg with enable := b } }
  if b || decide (s.leaderOf p ≠ p) || (s.port p).up then s
  else forEach (s.members p) (fun q => requestState (28 + q) .p3) s

/-- PORT_CTL (R70). -/
def portCtlReg (p : Nat) : List RegField :=
  let cfg := fun (f : PortCfg → PortCfg) (s : State) => s.modPort p fun q => { q with cfg := f q.cfg }
  let lock := fun (s : State) => (s.port p).commit
  [fieldRwl 0 2 (fun s => (s.port p).cfg.merge.toNat) lock (fun v _ => mergeOk p v) (fun v => cfg fun x => { x with merge := BitVec.ofNat 2 v }),
   fieldRwl 2 3 (fun s => (s.port p).cfg.maxRate.toNat) lock (fun v _ => within 1 4 v)
     (fun v => cfg fun x => { x with maxRate := BitVec.ofNat 3 v }),
   fieldRwl 5 1 (fun s => flag (s.port p).cfg.sris) lock (fun _ _ => true) (fun v => cfg fun x => { x with sris := decide (v = 1) }),
   fieldRwl 6 2 (fun s => (s.port p).cfg.ideCap.toNat) lock (fun v _ => within 0 2 v) (fun v => cfg fun x => { x with ideCap := BitVec.ofNat 2 v }),
   fieldRwl 8 5 (fun s => (s.port p).cfg.ldCount.toNat) lock (fun v _ => within 1 16 v)
     (fun v => cfg fun x => { x with ldCount := BitVec.ofNat 5 v }),
   fieldRwl 13 1 (fun s => flag (s.port p).cfg.enable) lock (fun _ _ => true) (fun v => portEnable p (decide (v = 1))),
   bitCommit lock (fun s => s.modPort p fun q => { q with commit := true })]

/-- LD_GRANT[i] (R70, R94). -/
def grantReg (i : Nat) : List RegField :=
  [bitRw 0 (fun s => (s.ld i).mgmt) (fun b s => s.modLd i fun d => { d with mgmt := b }),
   bitRw 1 (fun s => (s.ld i).tenantImage) (fun b s => s.modLd i fun d => { d with tenantImage := b }),
   bitRw 2 (fun s => (s.ld i).injectPoison) (fun b s => s.modLd i fun d => { d with injectPoison := b })]

def portReg (p o : Nat) : List RegField :=
  if o = 0x00 then portCtlReg p
  else if o = 0x08 then
    [fieldRo 0 22 fun s => s.portWord p, bitRo 22 fun s => (s.port p).up, fieldRo 23 2 fun s => (s.port p).ideState.toNat,
     fieldRo 25 4 fun s => (s.port p).retrains.toNat]
  else if o = 0x10 then
    [fieldRo 0 16 fun s => min (s.heldOf 0 p) (s.poolReserve 0 p), fieldRo 16 16 fun s => s.sharedOf 0 p, fieldRo 32 16 fun s => s.holdCount p]
  else if o = 0x18 then
    [fieldRo 0 32 fun s => (s.port p).retrainTotal.toNat, fieldW1c 32 (fun s => (s.port p).downLatched) (clearDownLatched p)]
  else if 0x100 ≤ o ∧ o < 0x180 then grantReg (16 * p + (o - 0x100) / 8)
  else []

/-! ### Ulilet ports (R399, R428) -/

/-- A clear of RETIRED: the retrain count is cleared and the port is DOWN (R403); its domain comes out of P3 (R466). -/
def clearRetired (u : Nat) (s : State) : State :=
  if (s.uli u).retired then
    let s := leaveP3 (44 + u) (fun s => s.modUli u Uli.lostRegs) s
    condEnd (srcUlilet u 5) (s.modUli u fun p => { p with retired := false, lstate := .down, since := s.now, retrainTimes := [], trainFails := 0 })
  else s

/-- ULT_CTL.ENABLE 0 puts the lanes in electrical idle: the link is DOWN (DEDUCED, log 89). -/
def uliEnable (u : Nat) (b : Bool) (s : State) : State :=
  let s := s.modUli u fun p => { p with enable := b }
  if b || decide ((s.uli u).lstate = .down ∨ (s.uli u).lstate = .retired) then s else losePeer u s

/-- ULT_CTL (R428). -/
def ultCtlReg (u : Nat) : List RegField :=
  let setU := fun (f : Uli → Uli) (s : State) => s.modUli u f
  let lock := fun (s : State) => (s.uli u).commit
  [fieldRwl 0 4 (fun s => (s.uli u).vcs.toNat) lock (fun v _ => within 2 8 v) (fun v => setU fun p => { p with vcs := BitVec.ofNat 4 v }),
   fieldRwl 4 1 (fun s => flag (s.uli u).enable) lock (fun _ _ => true) (fun v => uliEnable u (decide (v = 1))),
   fieldRw 5 7 (fun s => (s.uli u).replayTo.toNat) (within 5 127) (fun v => setU fun p => { p with replayTo := BitVec.ofNat 7 v }),
   fieldRw 12 4 (fun s => (s.uli u).replayN.toNat) (within 1 15) (fun v => setU fun p => { p with replayN := BitVec.ofNat 4 v }),
   fieldRw 16 4 (fun s => (s.uli u).retrainN.toNat) (within 1 15) (fun v => setU fun p => { p with retrainN := BitVec.ofNat 4 v }),
   fieldRw 20 8 (fun s => (s.uli u).retrainWin.toNat) (within 1 255) (fun v => setU fun p => { p with retrainWin := BitVec.ofNat 8 v }),
   bitCommit lock (setU fun p => { p with commit := true })]

/-- ULT_RETIRE (R428). RETIRE goes before a clear of RETIRED that comes with it (R427). -/
def ultRetireReg (u : Nat) : List RegField :=
  [fieldRo 0 1 fun s => flag (s.uli u).retired,
   fieldWo 0 2 (fun v s => if v / 2 = 1 then retireLink u 3 s else if v = 1 then clearRetired u s else s),
   fieldRo 2 3 fun s => (s.uli u).cause.toNat, fieldRo 32 32 fun s => (s.uli u).totalRetrains.toNat]

/-- CIR as it stands after a write of ULQ_METER. -/
def State.cirAfter (s : State) (u w : Nat) : Nat := if within 0 128000 (bitsOf w 0 20) then bitsOf w 0 20 else s.linkCir u

/-- ULQ_CTL and ULQ_METER (R399); a new guarantee or class derives the effective guarantees again (R392). -/
def ulqReg (u o : Nat) : List RegField :=
  if o = 0x200 then
    [fieldRw 0 3 (fun s => s.linkClass u) (within 0 6)
       (fun v s => recomputeDelivery (s.modQos fun q => { q with linkClass := Tab.set 3 q.linkClass u (BitVec.ofNat 3 v) })),
     fieldRw 4 20 (fun s => s.linkGuar u) (within 0 128000)
       (fun v s => recomputeDelivery (s.modQos fun q => { q with linkGuar := Tab.set 0 q.linkGuar u (BitVec.ofNat 20 v) }))]
  else
    [fieldRw 0 20 (fun s => s.linkCir u) (within 0 128000)
       (fun v s => s.modQos fun q => { q with linkCir := Tab.set 0x1F400 q.linkCir u (BitVec.ofNat 20 v) }),
     fieldPair 20 20 (fun s => s.linkPir u * 2 ^ 20) (fun w s => within (s.cirAfter u w) 128000 (bitsOf w 20 20))
       (fun v s => s.modQos fun q => { q with linkPir := Tab.set 0x1F400 q.linkPir u (BitVec.ofNat 20 v) })]

def uliReg (u o : Nat) : List RegField :=
  let setU := fun (f : Uli → Uli) (s : State) => s.modUli u f
  if o = 0x00 then ultCtlReg u
  else if o = 0x08 then
    [fieldRo 0 3 fun s => (s.uli u).lstate.code, fieldRo 3 5 fun s => (s.uli u).lanes.toNat, bitRo 8 fun s => (s.uli u).reversed,
     fieldRo 9 4 fun s => (s.uli u).vcsActive.toNat, fieldRo 13 2 fun s => (s.uli u).peerId.toNat, bitRo 15 fun s => (s.uli u).peerPolestar,
     fieldRo 16 12 fun s => (s.uli u).txSeq.toNat, fieldRo 28 12 fun s => (s.uli u).rxExpect.toNat,
     fieldRo 40 10 fun s => (s.uli u).replay.length, bitRo 50 fun s => (s.uli u).resync]
  else if o = 0x10 then
    [fieldRc 0 16 (fun s => (s.uli u).crcErr.toNat) (setU fun p => { p with crcErr := 0 }),
     fieldRc 16 16 (fun s => (s.uli u).replays.toNat) (setU fun p => { p with replays := 0 }),
     fieldRc 32 8 (fun s => (s.uli u).protoErr.toNat) (setU fun p => { p with protoErr := 0 }),
     fieldRc 40 8 (fun s => (s.uli u).tagErr.toNat) (setU fun p => { p with tagErr := 0 }),
     fieldRc 48 8 (fun s => (s.uli u).retrains.toNat) (setU fun p => { p with retrains := 0 })]
  else if o = 0x18 then ultRetireReg u
  else if o = 0x200 ∨ o = 0x208 then ulqReg u o
  else []

/-! ### Counter blocks (R542 to R545) -/

/-- The clock of a counter block in kHz: a channel's is its data rate over 8 (R477). -/
def State.clockKhz (s : State) (b : Nat) : Nat :=
  if b < 24 then (s.chan b).speed.toNat * 12500
  else if b < 40 then
    let p := s.port (b - 24)
    if p.rate = 4 ∧ p.width = fullWidth p.trained then 1000000 else Config.portKhz p.rate.toNat p.width.toNat
  else if b < 43 then 1000000
  else if b < 51 then 1500000
  else if b < 59 then 1200000
  else 1500000

/-- CTR_CYC and CTR_STOPPED now. -/
def State.ctrCycles (s : State) (b : Nat) : Nat :=
  let c := s.ctr b
  (if c.gated then c.ranNs else c.ranNs + (s.now - c.mark)) * s.clockKhz b / 1000000
def State.ctrStopped (s : State) (b : Nat) : Nat :=
  let c := s.ctr b
  if c.gated then c.stoppedNs + (s.now - c.mark) else c.stoppedNs

/-- A counter counts every cycle: event 0xFFF, enabled, with no LD filter (R544). -/
def countsCycles (c : CtrBlock) (k : Nat) : Bool := ctrCounts c k 0xFFF none

/-- The counters of event 0xFFF take the cycles since they were last settled. -/
def settleCtr (b : Nat) (s : State) : State :=
  let n := s.ctrCycles b
  s.modCtr b fun c =>
    let d : CtrBlock := (List.range 8).foldl (fun d k => if countsCycles c k then ctrAdd k (n - c.counted) d else d) c
    { d with counted := n }

/-- An event code listed for a block's kind, or 0 (R543, R544). -/
def eventListed (b v : Nat) : Bool :=
  decide (v = 0 ∨ v = 0xFFF) ||
    match (ctrKind b).1 with
    | 0 => within 0x001 0x00A v
    | 1 => within 0x101 0x106 v
    | 2 => within 0x201 0x204 v
    | 3 => within 0x301 0x304 v
    | 4 => within 0x401 0x403 v
    | 5 => within 0x501 0x504 v
    | _ => within 0x601 0x603 v

/-- One field of CTR_SEL. -/
def selField (b k lo n : Nat) (ok : Nat → Bool) : RegField :=
  fieldRw lo n (fun s => bitsOf (Tab.get 0 (s.ctr b).sel k).toNat lo n) ok (fun v s => s.modCtr b fun c =>
    let old := (Tab.get 0 c.sel k).toNat
    { c with sel := Tab.set 0 c.sel k (BitVec.ofNat 22 (old - bitsOf old lo n * 2 ^ lo + v * 2 ^ lo)) })

/-- The register of a counter block that an L names (R339), by its offset (R542). -/
def ctrReg (b o : Nat) : List RegField :=
  if o = 0x00 then [fieldRo 0 64 fun s => s.ctrCycles b]
  else if o < 0x48 then
    let k := o / 8 - 1
    [fieldRw 0 48 (fun s => (Tab.get 0 (s.ctr b).pmc k).toNat) anyValue
      (fun v s => s.modCtr b fun c => { c with pmc := Tab.set 0 c.pmc k (BitVec.ofNat 48 v) })]
  else if o = 0x48 then [fieldRo 0 64 fun s => s.ctrStopped b]
  else if o = 0x50 then
    [{ lo := 0, width := 8, read := fun s => (s.ctr b).ovf.toNat, writable := true
       set := fun v s => s.modCtr b fun c => { c with ovf := c.ovf &&& ~~~ BitVec.ofNat 8 v } }]
  else if 0x80 ≤ o ∧ o < 0xC0 then
    let k := (o - 0x80) / 8
    [selField b k 0 12 (eventListed b), selField b k 12 1 anyValue, selField b k 13 1 anyValue, selField b k 14 8 anyValue]
  else []

/-! ### The fault source map, the recorder and the slots (R462, R517, R518, R551) -/

/-- The bits of FSTICKY[i] whose condition holds: a write of 1 leaves them set (R518). -/
def State.liveBits (s : State) (i : Nat) : BitVec 64 := BitVec.ofNat 64 (maskOf 64 fun j => s.holds (64 * i + j))

/-- FSTICKY[i] (R517). -/
def stickyReg (i : Nat) : List RegField :=
  [{ lo := 0, width := 64, read := fun s => (s.fsticky i).toNat, writable := true
     set := fun v s => s.modFaults fun f =>
       { f with sticky := Tab.set 0 f.sticky i (s.fsticky i &&& (~~~ BitVec.ofNat 64 v ||| s.liveBits i)) } }]

/-- A ring size that goes with the configuration of the same write (R551). -/
def ringOk (w : Nat) : Bool :=
  let v := bitsOf w 29 11
  if bitsOf w 1 1 = 1 then within 16 1024 v && decide (v % 16 = 0) else decide (v = 0)

def recReg (o : Nat) : List RegField :=
  let setR := fun (f : Recorder → Recorder) (s : State) => s.modRec f
  if o = 0x00 then
    [bitRo 0 fun s => s.rec_.large, bitRw 1 (fun s => s.rec_.pendLarge) (fun b => setR fun r => { r with pendLarge := b }),
     fieldRw 2 16 (fun s => s.rec_.epoch.toNat) (within 1 65535) (fun v => setR fun r => { r with epoch := BitVec.ofNat 16 v }),
     fieldRo 18 11 fun s => s.rec_.ring.toNat,
     fieldPair 29 11 (fun s => s.rec_.pendRing.toNat * 2 ^ 29) (fun w _ => ringOk w) (fun v => setR fun r => { r with pendRing := BitVec.ofNat 11 v })]
  else if o = 0x08 then
    [fieldRo 0 23 fun s => s.rec_.store.length, fieldRc 24 16 (fun s => s.rec_.discarded.toNat) (setR fun r => { r with discarded := 0 }),
     fieldRc 40 16 (fun s => s.rec_.unsent.toNat) (setR fun r => { r with unsent := 0 })]
  else if o = 0x10 then
    [fieldRw 0 5 (fun s => s.rec_.thr0.toNat) anyValue (fun v => setR fun r => { r with thr0 := BitVec.ofNat 5 v }),
     fieldRw 5 5 (fun s => s.rec_.thr1.toNat) anyValue (fun v => setR fun r => { r with thr1 := BitVec.ofNat 5 v }),
     fieldRw 10 5 (fun s => s.rec_.thr2.toNat) anyValue (fun v => setR fun r => { r with thr2 := BitVec.ofNat 5 v }),
     fieldRw 15 5 (fun s => s.rec_.thr3.toNat) anyValue (fun v => setR fun r => { r with thr3 := BitVec.ofNat 5 v }),
     fieldRw 20 5 (fun s => s.rec_.thr4.toNat) anyValue (fun v => setR fun r => { r with thr4 := BitVec.ofNat 5 v })]
  else if o = 0x18 then [fieldRo 0 64 fun s => s.rec_.seq.toNat]
  else if 0x40 ≤ o ∧ o < 0xC0 then
    let k := (o - 0x40) / 8
    let setW := fun (f : Watch → Watch) => setR fun r => { r with watch := Tab.set {} r.watch k (f (Tab.get {} r.watch k)) }
    [bitRw 0 (fun s => (Tab.get ({} : Watch) s.rec_.watch k).en) (fun b => setW fun x => { x with en := b }),
     fieldRw 1 18 (fun s => (Tab.get ({} : Watch) s.rec_.watch k).extent.toNat) anyValue (fun v => setW fun x => { x with extent := BitVec.ofNat 18 v })]
  else if o = 0x100 then
    let setK := fun (f : Comets → Comets) (s : State) => { s with comets := f s.comets }
    [bitRw 0 (fun s => s.comets.reqEn) (fun b => setK fun c => { c with reqEn := b }),
     fieldRw 1 5 (fun s => s.comets.reqK.toNat) (within 4 24) (fun v => setK fun c => { c with reqK := BitVec.ofNat 5 v }),
     bitRw 6 (fun s => s.comets.insEn) (fun b => setK fun c => { c with insEn := b }),
     fieldRw 7 5 (fun s => s.comets.insK.toNat) (within 4 24) (fun v => setK fun c => { c with insK := BitVec.ofNat 5 v }),
     bitRw 12 (fun s => s.comets.ldFilter) (fun b => setK fun c => { c with ldFilter := b }),
     fieldRw 13 8 (fun s => s.comets.ld.toNat) anyValue (fun v => setK fun c => { c with ld := BitVec.ofNat 8 v })]
  else []

/-- TRIP_A and RAMP_TRIP_A as the other is judged against: the value that the same write gives it, where that lies in its own range
(DEDUCED, log 49). -/
def State.tripAfter (s : State) (n w : Nat) : Nat := if within 10 40 (bitsOf w 0 6) then bitsOf w 0 6 else (s.slot n).tripA.toNat
def State.rampAfter (s : State) (n w : Nat) : Nat := if within 2 20 (bitsOf w 8 5) then bitsOf w 8 5 else (s.slot n).rampTripA.toNat

def slotReg (n o : Nat) : List RegField :=
  let setS := fun (f : Slot → Slot) (s : State) => s.modSlot n f
  if o = 0x00 then
    [fieldPair 0 6 (fun s => (s.slot n).tripA.toNat) (fun w s => within 10 40 (bitsOf w 0 6) && decide (s.rampAfter n w ≤ bitsOf w 0 6))
       (fun v => setS fun u => { u with tripA := BitVec.ofNat 6 v }),
     fieldPair 8 5 (fun s => (s.slot n).rampTripA.toNat * 256)
       (fun w s => within 2 20 (bitsOf w 8 5) && decide (bitsOf w 8 5 ≤ s.tripAfter n w))
       (fun v => setS fun u => { u with rampTripA := BitVec.ofNat 5 v }),
     fieldRw 16 5 (fun s => (s.slot n).ramp.toNat) (within 1 24) (fun v => setS fun u => { u with ramp := BitVec.ofNat 5 v }),
     fieldRw 24 7 (fun s => (s.slot n).auxTimer.toNat) (within 1 64) (fun v => setS fun u => { u with auxTimer := BitVec.ofNat 7 v }),
     fieldRw 32 4 (fun s => (s.slot n).auxLimit.toNat) (within 5 12) (fun v => setS fun u => { u with auxLimit := BitVec.ofNat 4 v }),
     fieldRw 36 3 (fun s => (s.slot n).retries.toNat) anyValue (fun v => setS fun u => { u with retries := BitVec.ofNat 3 v })]
  else if o = 0x08 then [fieldWo 0 3 fun v s => if s.slotsLive then slotCommand n (BitVec.ofNat 64 v) s else s]
  else if o = 0x10 then
    [fieldRo 0 3 fun s => (s.slot n).state.code, fieldRo 3 2 fun s => s.slotPower n, bitRo 5 fun s => (s.slot n).prsnt,
     fieldRo 6 3 fun s => (s.slot n).retriesLeft.toNat, fieldRo 9 2 fun s => (s.slot n).lastFault.toNat, bitRo 11 fun s => (s.slot n).limiting,
     fieldW1c 12 (fun s => (s.slot n).refused) (setS fun u => { u with refused := false }),
     fieldRo 16 16 fun s => ((s.slot n).timerUs s.now).toNat]
  else if o = 0x18 then
    [fieldRo 0 32 fun s => (s.slot n).i12.toNat, fieldRc 32 32 (fun s => (s.slot n).peak.toNat) (setS fun u => { u with peak := 0 })]
  else if o = 0x20 then
    [fieldRc 0 8 (fun s => (s.slot n).trip12.toNat) (setS fun u => { u with trip12 := 0 }),
     fieldRc 8 8 (fun s => (s.slot n).rampTrip.toNat) (setS fun u => { u with rampTrip := 0 }),
     fieldRc 16 8 (fun s => (s.slot n).auxTo.toNat) (setS fun u => { u with auxTo := 0 }),
     fieldRc 24 8 (fun s => (s.slot n).prsntLoss.toNat) (setS fun u => { u with prsntLoss := 0 }),
     fieldRo 32 16 fun s => (s.slot n).latches.toNat]
  else []

end Sys2Proof.Machine
end

