-- ==== Sys2Proof/Machine/Registers.lean ====
section
/-! DEFINITION. The device register window: where a register lies, who may reach it, and the reads and writes (R45, R339, R340, R553 to
R567). -/
namespace Sys2Proof.Machine

/-! ### The regions that are no registers (R396 to R397, R498, R557) -/

/-- A table of the characterisation region (R396). -/
def charTable (id rows cols cond : Nat) (values : List Nat) : List Byte :=
  leBytes 2 id ++ leBytes 2 rows ++ leBytes 1 cols ++ leBytes 1 0 ++ leBytes 2 cond ++ leBytes 8 0 ++
    values.flatMap (leBytes 4) ++ (if values.length % 2 = 1 then leBytes 4 0 else [])

/-- The two tables of R397. -/
def charRegion : List Byte :=
  charTable 1 5 3 1 [10, 98, 118, 500, 112, 190, 800, 150, 420, 900, 210, 760, 990, 640, 1900] ++
    charTable 2 4 3 2 [1, 0, 16, 2, 0, 58, 3, 0, 142, 4, 999, 410]

/-- Eight bytes of a region as a little-endian word; bytes past its contents are 0. -/
def regionWord (l : List Byte) (o : Nat) : Word := BitVec.ofNat 64 (imgField l o 8)

/-! ### Placement (R556 to R558, R561, R562) -/

/-- The fields of the register at an offset of an instance of a block; none where no register lies. -/
def registerAt (type inst o : Nat) : List RegField :=
  if o % 8 ≠ 0 then []
  else if type = 0x01 then identityReg o
  else if type = 0x02 then quadReg inst o
  else if type = 0x10 then chanReg inst o
  else if type = 0x20 then portReg inst o
  else if type = 0x30 then uliReg inst o
  else if type = 0x40 then clusterReg inst o
  else if type = 0x50 then coreReg inst o
  else if type = 0x60 then ctrReg inst o
  else if type = 0x70 then stickyReg inst
  else if type = 0x80 then recReg o
  else if type = 0x90 then slotReg inst o
  else []

/-- Firmware-only registers (R555). -/
def firmwareOnly (type o : Nat) : Bool :=
  (decide (type = 0x01) && decide (o = 0x700 ∨ o = 0x730 ∨ o = 0x690)) || (decide (type = 0x20) && decide (o = 0 ∨ 0x100 ≤ o)) ||
    (decide (type = 0x30) && decide (o = 0 ∨ o = 0x18)) || (decide (type = 0x90) && decide (o = 0 ∨ o = 8)) ||
    (decide (type = 0x80) && decide (o = 0))

/-- RST_CTL. DEDUCED, log 48. -/
def isRstCtl (type o : Nat) : Bool := decide (type = 0x01) && decide (o = 0x740)

/-- The registers that take writes in the Lantern state: FSTICKY, FAULT_CTL and FAULT_MASK (R567). -/
def lanternWrites (type o : Nat) : Bool :=
  decide (type = 0x70) || (decide (type = 0x01) && decide (o = 0x780 ∨ (0x1200 ≤ o ∧ o < 0x1280)))

/-- The power domain a register lies in (R465, R542, R558, R561): 0 for the always-on domain. -/
def registerDomain (type inst o : Nat) : Nat :=
  if type = 0x10 then 4 + inst
  else if type = 0x20 then 28 + inst
  else if type = 0x30 then (if o = 0x18 then 0 else 44 + inst)
  else if type = 0x40 then 47 + inst
  else if type = 0x50 then 3
  else if type = 0x60 then ctrDomain inst
  else if type = 0x70 ∨ type = 0x90 then 0
  else if type = 0x02 ∧ o = 0 then 0
  else if type = 0x01 then
    (if o < 0x400 ∨ (0x700 ≤ o ∧ o < 0x800) ∨ 0x1000 ≤ o then 0 else if o = 0x500 ∨ 0x800 ≤ o then 3 else 2)
  else 2

/-- The instance of an entry's blocks that holds an offset of the window, and the offset in it. -/
def EntryKind.find (k : EntryKind) (off : Nat) : Option (Nat × Nat × Nat) :=
  if k.span = 0 ∨ off < k.base then none
  else
    let d := off - k.base
    if k.stride = 0 then (if d < k.span then some (k.type, 0, d) else none)
    else if d / k.stride < k.n ∧ d % k.stride < k.span then some (k.type, d / k.stride, d % k.stride)
    else none

/-- The block, the instance and the offset in it that an offset of the window names (R557). -/
def locate (off : Nat) : Option (Nat × Nat × Nat) := if off < 0x10000 then none else entryKinds.findSome? fun k => k.find off

/-- The offset in the window of a register. -/
def windowOffset (type inst o : Nat) : Nat :=
  match entryKinds.find? fun k => k.type = type with
  | none => o
  | some k => k.base + inst * k.stride + o

/-! ### Reads and writes (R13, R14, R556, R560, R564, R566) -/

/-- A read of one register in a domain that answers. -/
def readRegister (type inst o : Nat) (s : State) : Word × State :=
  if type = 0xC0 then (regionWord s.vigilReport o, s)
  else if type = 0xD0 then (regionWord charRegion o, s)
  else
    let s := if type = 0x60 then settleCtr inst s else s
    (readFields (registerAt type inst o) s, clearFields (registerAt type inst o) s)

/-- A read through the window: a domain in P3 reads 0, one in P1 or P2 wakes first (R340, R564). -/
def readWindow (off : Nat) (s : State) : Word × State :=
  if off < 0x10000 then (s.almRead (off / 8), if s.alm.upd then s.takeFree else s)
  else match locate off with
    | none => (0, s)
    | some (type, inst, o) =>
      if s.domLost (registerDomain type inst o) then (0, s)
      else readRegister type inst o (wakeDomain (registerDomain type inst o) s)

/-- REGWIN_STAT counts a write that had fields ignored (R560). Which cause LAST_CAUSE takes where several apply is open.
DEDUCED, log 46. DEDUCED, log 47. -/
def noteIgnored (src : RegSource) (off : Nat) (causes : List Nat) (s : State) : State :=
  match causes with
  | [] => s
  | c :: l =>
    let pick := if l.all (· == c) then c else (c :: l).getD ((Config.freeWord s.free).toNat % (l.length + 1)) c
    let s := if l.all (· == c) then s else s.takeFree
    s.modRegwin fun r =>
      { ignored := satAdd r.ignored 1, lastCause := BitVec.ofNat 3 pick, lastOffset := BitVec.ofNat 26 off
        lastRilia := match src with
          | .rilia _ => true
          | _ => false
        lastSrc := match src with
          | .host i => BitVec.ofNat 8 i
          | .rilia t => BitVec.ofNat 8 t
          | .engine => 0
        lastEngine := decide (src = .engine) }

/-- The causes for which a whole write is ignored (R554 to R556, R500, R567). -/
def State.refusedFor (s : State) (src : RegSource) (aligned : Bool) (type o : Nat) : List Nat :=
  let host := match src with
    | .host _ => true
    | _ => false
  let mgmt := match src with
    | .host i => (s.ld i).mgmt
    | _ => true
  let rilia := match src with
    | .rilia _ => true
    | _ => false
  (if mgmt then [] else [3]) ++ (if aligned then [] else [4]) ++ (if s.start.lantern && !lanternWrites type o then [7] else []) ++
    (if host && firmwareOnly type o then [1] else []) ++ (if isRstCtl type o && !rilia then [6] else [])

/-- Code below firmware level does not write a firmware-only register: its instruction traps (R340, R555). -/
def State.belowFirmware (s : State) (src : RegSource) (type o : Nat) : Bool :=
  match src with
  | .rilia t => firmwareOnly type o && (s.thread t).notFirmware
  | _ => false

/-- A CXL port's registers as they are when its domain has left P3: at their reset values, LD_GRANT, TOTAL and the pins aside (R466). -/
def Port.lostRegs (p : Port) : Port := { retrainTotal := p.retrainTotal, perst := p.perst, clkreq := p.clkreq }

/-- A write of 1 to PORT_ENABLE with COMMIT clear brings the port's domain out of P3 (R466). -/
def portWakes (type inst o : Nat) (w : Word) (s : State) : Bool :=
  decide (type = 0x20) && decide (o = 0) && w.getLsbD 13 && !(s.port inst).commit

/-- A write to one register by one source, at an offset of the window; `aligned` says that it is an aligned access of 8 bytes. -/
def writeRegister (src : RegSource) (off : Nat) (aligned : Bool) (type inst o : Nat) (w : Word) (s : State) : State :=
  let l := registerAt type inst o
  let d := registerDomain type inst o
  if !(l.any fun f => f.writable) || s.belowFirmware src type o then s
  else if !(s.refusedFor src aligned type o).isEmpty then noteIgnored src off (s.refusedFor src aligned type o) s
  else if s.domLost d && !portWakes type inst o w s then s
  else
    let s := if portWakes type inst o w s then leaveP3 d (fun s => s.modPort inst Port.lostRegs) (wakeDomain d s) else wakeDomain d s
    let s := if type = 0x60 then settleCtr inst s else s
    let r := writeFields l w s
    noteIgnored src off r.1 r.2

/-- A write at an offset of the window. -/
def writeWindow64 (src : RegSource) (off : Nat) (aligned : Bool) (w : Word) (s : State) : State :=
  match locate (off / 8 * 8) with
  | none => s
  | some (type, inst, o) => writeRegister src off aligned type inst o w s

/-- The source can reach the window: a host over a link that is up, to an LD that is assigned; a thread that runs, above tenant level; or
the mailbox engine. -/
def State.reaches (s : State) (src : RegSource) : Bool :=
  s.running && s.start.earlyDone && !s.power.dozing &&
    match src with
    | .host i => s.ldExists i && (s.port (i / 16)).up
    | .rilia t => decide ((s.thread t).state = .running) && decide ((s.thread t).priv ≠ .tenant)
    | .engine => true

/-- A write by a source to the register at offset o of an instance of a block. -/
def sourceWrite (src : RegSource) (type inst o : Nat) (w : Word) (s : State) : State :=
  if s.reaches src then writeRegister src (windowOffset type inst o) true type inst o w s else s

/-! ### The rows -/

def execPortCtlWrite (src : RegSource) (p : Fin 16) (w : BitVec 64) (s : State) : Host.Outcome State Fault Refusal :=
  .next (sourceWrite src 0x20 p 0 w s)

def execChCtlWrite (src : RegSource) (c : Fin 24) (w : BitVec 64) (s : State) : Host.Outcome State Fault Refusal :=
  .next (sourceWrite src 0x10 c 0 w s)

def execUltCtlWrite (src : RegSource) (u : Fin 3) (w : BitVec 64) (s : State) : Host.Outcome State Fault Refusal :=
  .next (sourceWrite src 0x30 u 0 w s)

def execUltRetireRetire (src : RegSource) (u : Fin 3) (s : State) : Host.Outcome State Fault Refusal :=
  .next (sourceWrite src 0x30 u 0x18 2 s)

def execUltRetireClear (src : RegSource) (u : Fin 3) (s : State) : Host.Outcome State Fault Refusal :=
  .next (sourceWrite src 0x30 u 0x18 1 s)

def execConstXmapWrite (src : RegSource) (w : BitVec 64) (s : State) : Host.Outcome State Fault Refusal :=
  .next (sourceWrite src 0x01 0 0x690 w s)

def execPadRelease (src : RegSource) (s : State) : Host.Outcome State Fault Refusal := .next (sourceWrite src 0x01 0 0x700 1 s)

def execRstCtlWarm (src : RegSource) (s : State) : Host.Outcome State Fault Refusal := .next (sourceWrite src 0x01 0 0x740 1 s)

def execFstickyClear (src : RegSource) (i : Fin 16) (w : BitVec 64) (s : State) : Host.Outcome State Fault Refusal :=
  .next (sourceWrite src 0x70 i 0 w s)

def execFaultMaskWrite (src : RegSource) (i : Fin 16) (w : BitVec 64) (s : State) : Host.Outcome State Fault Refusal :=
  .next (sourceWrite src 0x01 0 (0x1200 + 8 * i.val) w s)

/-- A write to any register, of `size` bytes (R556, R560). The Almanac region ignores writes (R45). -/
def execRegisterWrite (src : RegSource) (offset : BitVec 26) (size : Nat) (w : BitVec 64) (s : State) : Host.Outcome State Fault Refusal :=
  .next (if s.reaches src then
      writeWindow64 src offset.toNat (decide (size = 8) && decide (offset.toNat % 8 = 0)) w s
    else s)

/-- What a host reads (R45, R554, R556): the Almanac region takes aligned reads of 4 and 8 bytes from any LD, the registers aligned reads
of 8 bytes from an LD with MGMT. -/
def hostRead (ld off size : Nat) (s : State) : Word × State :=
  if off < 0x10000 then
    if size = 8 ∧ off % 8 = 0 then readWindow off s
    else if size = 4 ∧ off % 4 = 0 then
      let r := readWindow off s
      (if off % 8 = 0 then r.1 &&& 0xFFFFFFFF#64 else r.1 >>> 32, r.2)
    else (0, s)
  else if (s.ld ld).mgmt ∧ size = 8 ∧ off % 8 = 0 then readWindow off s
  else (0, s)

def execRegisterRead (ld : Fin 256) (offset : BitVec 26) (size : Nat) (s : State) : Host.Outcome State Fault Refusal :=
  .next (if s.reaches (.host ld) then
      let r := hostRead ld offset.toNat size s
      r.2.emit (.register ld r.1)
    else s)

/-! ### Rilia's register groups (R339, R340) -/

/-- The register that L selects in a counter block, by its offset. -/
def ctrOffset (l : Nat) : Option Nat :=
  if l = 0 then some 0
  else if l ≤ 8 then some (8 * l)
  else if l = 9 then some 0x48
  else if l = 10 then some 0x50
  else if 16 ≤ l ∧ l < 24 then some (0x80 + 8 * (l - 16))
  else none

/-- A tenant reads a counter block while the operator's grant covers it (R110, R546). -/
def State.ctrDenied (s : State) (u : Thread) (b : Nat) : Bool := u.tenant && !(decide (b < 64) && (s.ld u.ld).ctrGrant.getLsbD b)

/-- A counter register in a domain that answers; one in P3 reads 0 (R340). -/
def readCtr (b o : Nat) (s : State) : Word × State :=
  if s.domLost (ctrDomain b) then (0, s) else readRegister 0x60 b o (wakeDomain (ctrDomain b) s)

def execCtrr (t : Fin 32) (s : State) : Host.Outcome State Fault Refusal :=
  .next (instr (insKey 0x35 0) true t
    (fun f u s => let b := (u.reg f.b).toNat
      [unusedC f, ((ctrOffset f.lit).isNone, trapIllegal), (s.ctrDenied u b, trapPriv), (decide (63 < b), trapBounds)])
    (fun f u s =>
      let r := readCtr (u.reg f.b).toNat ((ctrOffset f.lit).getD 0) s
      setReg t f.a r.1 r.2) s)

/-- A value that CTRW may not write: a reserved bit, or an event code that the block's kind does not list (R320, R543).
DEDUCED, log 50. -/
def ctrValueBad (b l : Nat) (v : Word) : Bool :=
  if l ≤ 8 then decide (2 ^ 48 ≤ v.toNat)
  else if l = 10 then decide (2 ^ 8 ≤ v.toNat)
  else decide (2 ^ 22 ≤ v.toNat) || !eventListed b (bitsOf v.toNat 0 12)

/-- CTRW reads the old value and writes the new one in one operation (R339). -/
def execCtrw (t : Fin 32) (s : State) : Host.Outcome State Fault Refusal :=
  .next (instr (insKey 0x35 1) true t
    (fun f u _ => let b := (u.reg f.b).toNat
      [((ctrOffset f.lit).isNone || decide (f.lit = 0 ∨ f.lit = 9), trapIllegal), (u.tenant, trapPriv),
       (decide (63 < b) || ctrValueBad b f.lit (u.reg f.c), trapBounds)])
    (fun f u s =>
      let b := (u.reg f.b).toNat
      let o := (ctrOffset f.lit).getD 0
      let r := readCtr b o s
      let s := if s.domLost (ctrDomain b) then r.2 else (writeFields (ctrReg b o) (u.reg f.c) r.2).2
      setReg t f.a r.1 s) s)

/-- The offset names a firmware-only register. -/
def firmwareOffset (off : Nat) : Bool :=
  match locate off with
  | some (type, _, o) => firmwareOnly type o && !(registerAt type 0 o).isEmpty
  | none => false

def execRdreg (t : Fin 32) (s : State) : Host.Outcome State Fault Refusal :=
  .next (instr (insKey 0x36 0) true t
    (fun f u _ => let x := (u.reg f.b).toNat
      [unusedC f, unusedL f, (u.tenant, trapPriv), (decide (x % 8 ≠ 0), trapAlign), (decide (0x4000000 ≤ x), trapBounds)])
    (fun f u s =>
      let r := readWindow (u.reg f.b).toNat s
      setReg t f.a r.1 r.2) s)

def execWrreg (t : Fin 32) (s : State) : Host.Outcome State Fault Refusal :=
  .next (instr (insKey 0x36 1) true t
    (fun f u _ => let x := (u.reg f.b).toNat
      [unusedC f, unusedL f, (u.tenant || (u.notFirmware && firmwareOffset (x / 8 * 8)), trapPriv), (decide (x % 8 ≠ 0), trapAlign),
       (decide (0x4000000 ≤ x), trapBounds)])
    (fun f u s => writeWindow64 (.rilia t) (u.reg f.b).toNat true (u.reg f.a) s) s)

end Sys2Proof.Machine
end

