-- ==== Sys2Proof/Machine/Dispatch.lean ====
section
/-! DEFINITION. The dispatch: one arm for each constructor of Instr, each one direct call of its meaning. -/
namespace Sys2Proof.Machine

def exec (i : Instr) (s : State) : Host.Outcome State Fault Refusal :=
  match i with
  | .hostRead p ld dpa tag own metaA metaB => Sys2Proof.Machine.execHostRead p ld dpa tag own metaA metaB s
  | .hostWrite p ld dpa tag data mask poison kind metaA metaB => Sys2Proof.Machine.execHostWrite p ld dpa tag data mask poison kind metaA metaB s
  | .poolEntryRelease pool x => Sys2Proof.Machine.execPoolEntryRelease pool x s
  | .distressRepeat => Sys2Proof.Machine.execDistressRepeat s
  | .holdExpiry dlpn => Sys2Proof.Machine.execHoldExpiry dlpn s
  | .gatherEviction dlpn flips => Sys2Proof.Machine.execGatherEviction dlpn flips s
  | .packedEviction dlpn ue => Sys2Proof.Machine.execPackedEviction dlpn ue s
  | .allocationResume n => Sys2Proof.Machine.execAllocationResume n s
  | .dramReadData c sub flips => Sys2Proof.Machine.execDramReadData c sub flips s
  | .ueRetryRead c sub flips lanes => Sys2Proof.Machine.execUeRetryRead c sub flips lanes s
  | .rankRecordExpiry c r => Sys2Proof.Machine.execRankRecordExpiry c r s
  | .writeCrcError line => Sys2Proof.Machine.execWriteCrcError line s
  | .retirementRetry c => Sys2Proof.Machine.execRetirementRetry c s
  | .patrolScrubRead line flips again lanes => Sys2Proof.Machine.execPatrolScrubRead line flips again lanes s
  | .scrubPeriodEnd => Sys2Proof.Machine.execScrubPeriodEnd s
  | .descriptorCopyWritten k => Sys2Proof.Machine.execDescriptorCopyWritten k s
  | .birsp h home dlpn line => Sys2Proof.Machine.execBirsp h home dlpn line s
  | .ideMacPass h => Sys2Proof.Machine.execIdeMacPass h s
  | .ideMacFailure h => Sys2Proof.Machine.execIdeMacFailure h s
  | .portPerstAssert p => Sys2Proof.Machine.execPortPerstAssert p s
  | .portPerstRelease p => Sys2Proof.Machine.execPortPerstRelease p s
  | .linkTrained p width rate flit256 => Sys2Proof.Machine.execLinkTrained p width rate flit256 s
  | .linkDown p => Sys2Proof.Machine.execLinkDown p s
  | .linkRetrain p => Sys2Proof.Machine.execLinkRetrain p s
  | .downLatchedClear p => Sys2Proof.Machine.execDownLatchedClear p s
  | .portCtlWrite src p w => Sys2Proof.Machine.execPortCtlWrite src p w s
  | .identify cci len => Sys2Proof.Machine.execIdentify cci len s
  | .backgroundOperationStatus cci len => Sys2Proof.Machine.execBackgroundOperationStatus cci len s
  | .getResponseMessageLimit cci len => Sys2Proof.Machine.execGetResponseMessageLimit cci len s
  | .setResponseMessageLimit cci len limit => Sys2Proof.Machine.execSetResponseMessageLimit cci len limit s
  | .getEventRecords cci len ld log => Sys2Proof.Machine.execGetEventRecords cci len ld log s
  | .clearEventRecords cci len ld log all handles => Sys2Proof.Machine.execClearEventRecords cci len ld log all handles s
  | .getEventInterruptPolicy cci len ld => Sys2Proof.Machine.execGetEventInterruptPolicy cci len ld s
  | .setEventInterruptPolicy cci len ld policy => Sys2Proof.Machine.execSetEventInterruptPolicy cci len ld policy s
  | .getMctpEventInterruptPolicy cci len => Sys2Proof.Machine.execGetMctpEventInterruptPolicy cci len s
  | .setMctpEventInterruptPolicy cci len policy => Sys2Proof.Machine.execSetMctpEventInterruptPolicy cci len policy s
  | .getFwInfo cci len => Sys2Proof.Machine.execGetFwInfo cci len s
  | .getTimestamp cci len ld => Sys2Proof.Machine.execGetTimestamp cci len ld s
  | .setTimestamp cci len ld time => Sys2Proof.Machine.execSetTimestamp cci len ld time s
  | .getSupportedLogs cci len => Sys2Proof.Machine.execGetSupportedLogs cci len s
  | .getLog cci len offset length => Sys2Proof.Machine.execGetLog cci len offset length s
  | .identifyMemoryDevice cci len ld => Sys2Proof.Machine.execIdentifyMemoryDevice cci len ld s
  | .getHealthInfo cci len ld => Sys2Proof.Machine.execGetHealthInfo cci len ld s
  | .getAlertConfiguration cci len ld => Sys2Proof.Machine.execGetAlertConfiguration cci len ld s
  | .setAlertConfiguration cci len ld valid warnTemp lowTemp ceThreshold => Sys2Proof.Machine.execSetAlertConfiguration cci len ld valid warnTemp lowTemp ceThreshold s
  | .getPoisonList cci len ld dpa length => Sys2Proof.Machine.execGetPoisonList cci len ld dpa length s
  | .injectPoison cci len ld dpa => Sys2Proof.Machine.execInjectPoison cci len ld dpa s
  | .clearPoison cci len ld dpa data => Sys2Proof.Machine.execClearPoison cci len ld dpa data s
  | .getScanMediaCapabilities cci len ld dpa length => Sys2Proof.Machine.execGetScanMediaCapabilities cci len ld dpa length s
  | .scanMedia cci len ld dpa length => Sys2Proof.Machine.execScanMedia cci len ld dpa length s
  | .scanMediaComplete ld ues => Sys2Proof.Machine.execScanMediaComplete ld ues s
  | .getScanMediaResults cci len ld => Sys2Proof.Machine.execGetScanMediaResults cci len ld s
  | .getDynamicCapacityConfiguration cci len ld first count => Sys2Proof.Machine.execGetDynamicCapacityConfiguration cci len ld first count s
  | .getDynamicCapacityExtentList cci len ld first count => Sys2Proof.Machine.execGetDynamicCapacityExtentList cci len ld first count s
  | .addDynamicCapacityResponse cci len ld list => Sys2Proof.Machine.execAddDynamicCapacityResponse cci len ld list s
  | .releaseDynamicCapacity cci len ld list => Sys2Proof.Machine.execReleaseDynamicCapacity cci len ld list s
  | .unsupportedCommand cci len opcode => Sys2Proof.Machine.execUnsupportedCommand cci len opcode s
  | .getLdInfo cci len => Sys2Proof.Machine.execGetLdInfo cci len s
  | .getLdAllocations cci len start limit => Sys2Proof.Machine.execGetLdAllocations cci len start limit s
  | .getQosControl cci len => Sys2Proof.Machine.execGetQosControl cci len s
  | .getQosStatus cci len head => Sys2Proof.Machine.execGetQosStatus cci len head s
  | .getQosAllocatedBw cci len start count => Sys2Proof.Machine.execGetQosAllocatedBw cci len start count s
  | .getQosBwLimit cci len start count => Sys2Proof.Machine.execGetQosBwLimit cci len start count s
  | .getMultiHeadedInfo cci len start limit => Sys2Proof.Machine.execGetMultiHeadedInfo cci len start limit s
  | .getHeadInfo cci len start count => Sys2Proof.Machine.execGetHeadInfo cci len start count s
  | .getDcdInfo cci len => Sys2Proof.Machine.execGetDcdInfo cci len s
  | .getHostDcRegionConfiguration cci len ld start count => Sys2Proof.Machine.execGetHostDcRegionConfiguration cci len ld start count s
  | .setDcRegionConfiguration cci len ld region base length => Sys2Proof.Machine.execSetDcRegionConfiguration cci len ld region base length s
  | .getDcRegionExtentLists cci len ld first count => Sys2Proof.Machine.execGetDcRegionExtentLists cci len ld first count s
  | .initiateDynamicCapacityAdd cci len ld block count loaned fixed packed fill map slot tag => Sys2Proof.Machine.execInitiateDynamicCapacityAdd cci len ld block count loaned fixed packed fill map slot tag s
  | .initiateDynamicCapacityRelease cci len ld forced list => Sys2Proof.Machine.execInitiateDynamicCapacityRelease cci len ld forced list s
  | .getAlmanac cci len offset length => Sys2Proof.Machine.execGetAlmanac cci len offset length s
  | .loadRiliaImage cci len offset total target head ldId chunk sigOk => Sys2Proof.Machine.execLoadRiliaImage cci len offset total target head ldId chunk sigOk s
  | .activateRiliaImage cci len target head ldId flags => Sys2Proof.Machine.execActivateRiliaImage cci len target head ldId flags s
  | .getRiliaStatus cci len => Sys2Proof.Machine.execGetRiliaStatus cci len s
  | .slotPowerControl cci len slot action => Sys2Proof.Machine.execSlotPowerControl cci len slot action s
  | .channelEvacuate cci len c action flags => Sys2Proof.Machine.execChannelEvacuate cci len c action flags s
  | .channelRestore cci len c => Sys2Proof.Machine.execChannelRestore cci len c s
  | .getTallies cci len first count filter => Sys2Proof.Machine.execGetTallies cci len first count filter s
  | .configureRecorder cci len config epoch ring => Sys2Proof.Machine.execConfigureRecorder cci len config epoch ring s
  | .getVigilReport cci len offset length => Sys2Proof.Machine.execGetVigilReport cci len offset length s
  | .constellationStatus cci len => Sys2Proof.Machine.execConstellationStatus cci len s
  | .setTimebase cci len time stepBack => Sys2Proof.Machine.execSetTimebase cci len time stepBack s
  | .getCometSamples cci len quadrant count => Sys2Proof.Machine.execGetCometSamples cci len quadrant count s
  | .counterAccessGrant cci len head ldId action mask => Sys2Proof.Machine.execCounterAccessGrant cci len head ldId action mask s
  | .keyPut cci len ld target handle k1 k2 => Sys2Proof.Machine.execKeyPut cci len ld target handle k1 k2 s
  | .keyQuery cci len ld slot => Sys2Proof.Machine.execKeyQuery cci len ld slot s
  | .keyClose cci len ld slot => Sys2Proof.Machine.execKeyClose cci len ld slot s
  | .opkeyEnrol cci len counter key sigOk => Sys2Proof.Machine.execOpkeyEnrol cci len counter key sigOk s
  | .keyStagingTimeout handle => Sys2Proof.Machine.execKeyStagingTimeout handle s
  | .doeCdatTableAccess ld => Sys2Proof.Machine.execDoeCdatTableAccess ld s
  | .fixedExtentFillDone e => Sys2Proof.Machine.execFixedExtentFillDone e s
  | .zeroingWrite e => Sys2Proof.Machine.execZeroingWrite e s
  | .moverClaim q flips => Sys2Proof.Machine.execMoverClaim q flips s
  | .moverCopyDone q dlpn ue => Sys2Proof.Machine.execMoverCopyDone q dlpn ue s
  | .moverFree q dlpn => Sys2Proof.Machine.execMoverFree q dlpn s
  | .magnitudeDecay => Sys2Proof.Machine.execMagnitudeDecay s
  | .evacuationStructureMoved c => Sys2Proof.Machine.execEvacuationStructureMoved c s
  | .evacuationEnd c => Sys2Proof.Machine.execEvacuationEnd c s
  | .channelInitDone c => Sys2Proof.Machine.execChannelInitDone c s
  | .channelTrainingStepDone c pass spd0 spd1 t0 t1 hardOk => Sys2Proof.Machine.execChannelTrainingStepDone c pass spd0 spd1 t0 t1 hardOk s
  | .memoryInitWrite c n => Sys2Proof.Machine.execMemoryInitWrite c n s
  | .dramCommandPick c sub => Sys2Proof.Machine.execDramCommandPick c sub s
  | .channelGatePick c => Sys2Proof.Machine.execChannelGatePick c s
  | .writeDrainTimeout c sub => Sys2Proof.Machine.execWriteDrainTimeout c sub s
  | .rowIdleClose c bank => Sys2Proof.Machine.execRowIdleClose c bank s
  | .refreshPulse c late => Sys2Proof.Machine.execRefreshPulse c late s
  | .refreshDone c => Sys2Proof.Machine.execRefreshDone c s
  | .dimmThermalPoll c t0 t1 => Sys2Proof.Machine.execDimmThermalPoll c t0 t1 s
  | .rankPowerDown c r => Sys2Proof.Machine.execRankPowerDown c r s
  | .selfRefreshEntry c => Sys2Proof.Machine.execSelfRefreshEntry c s
  | .selfRefreshExit c => Sys2Proof.Machine.execSelfRefreshExit c s
  | .zqCalibration c => Sys2Proof.Machine.execZqCalibration c s
  | .dqsOscillatorTracking c => Sys2Proof.Machine.execDqsOscillatorTracking c s
  | .retrainingWindowStart c kind mask => Sys2Proof.Machine.execRetrainingWindowStart c kind mask s
  | .retrainingWindowEnd c pass => Sys2Proof.Machine.execRetrainingWindowEnd c pass s
  | .chCtlWrite src c w => Sys2Proof.Machine.execChCtlWrite src c w s
  | .repairLiftFence c => Sys2Proof.Machine.execRepairLiftFence c s
  | .repairFence c slot rank bg bank row => Sys2Proof.Machine.execRepairFence c slot rank bg bank row s
  | .repairSoft c slot rank bg bank row resource => Sys2Proof.Machine.execRepairSoft c slot rank bg bank row resource s
  | .repairHard c slot rank bg bank row resource => Sys2Proof.Machine.execRepairHard c slot rank bg bank row resource s
  | .repairDone c ok => Sys2Proof.Machine.execRepairDone c ok s
  | .nop t => Sys2Proof.Machine.execNop t s
  | .yield t => Sys2Proof.Machine.execYield t s
  | .fence t => Sys2Proof.Machine.execFence t s
  | .halt t => Sys2Proof.Machine.execHalt t s
  | .trap t => Sys2Proof.Machine.execTrap t s
  | .time t => Sys2Proof.Machine.execTime t s
  | .eret t => Sys2Proof.Machine.execEret t s
  | .add t => Sys2Proof.Machine.execAdd t s
  | .sub t => Sys2Proof.Machine.execSub t s
  | .and t => Sys2Proof.Machine.execAnd t s
  | .or t => Sys2Proof.Machine.execOr t s
  | .xor t => Sys2Proof.Machine.execXor t s
  | .shl t => Sys2Proof.Machine.execShl t s
  | .shr t => Sys2Proof.Machine.execShr t s
  | .sar t => Sys2Proof.Machine.execSar t s
  | .slt t => Sys2Proof.Machine.execSlt t s
  | .sltu t => Sys2Proof.Machine.execSltu t s
  | .seq t => Sys2Proof.Machine.execSeq t s
  | .mul t => Sys2Proof.Machine.execMul t s
  | .mulhu t => Sys2Proof.Machine.execMulhu t s
  | .divu t => Sys2Proof.Machine.execDivu t s
  | .remu t => Sys2Proof.Machine.execRemu t s
  | .min t => Sys2Proof.Machine.execMin t s
  | .max t => Sys2Proof.Machine.execMax t s
  | .popc t => Sys2Proof.Machine.execPopc t s
  | .clz t => Sys2Proof.Machine.execClz t s
  | .addi t => Sys2Proof.Machine.execAddi t s
  | .andi t => Sys2Proof.Machine.execAndi t s
  | .ori t => Sys2Proof.Machine.execOri t s
  | .xori t => Sys2Proof.Machine.execXori t s
  | .shli t => Sys2Proof.Machine.execShli t s
  | .shri t => Sys2Proof.Machine.execShri t s
  | .sari t => Sys2Proof.Machine.execSari t s
  | .slti t => Sys2Proof.Machine.execSlti t s
  | .lui t => Sys2Proof.Machine.execLui t s
  | .ld8 t => Sys2Proof.Machine.execLd8 t s
  | .ld16 t => Sys2Proof.Machine.execLd16 t s
  | .ld32 t => Sys2Proof.Machine.execLd32 t s
  | .ld64 t => Sys2Proof.Machine.execLd64 t s
  | .st8 t => Sys2Proof.Machine.execSt8 t s
  | .st16 t => Sys2Proof.Machine.execSt16 t s
  | .st32 t => Sys2Proof.Machine.execSt32 t s
  | .st64 t => Sys2Proof.Machine.execSt64 t s
  | .cas t => Sys2Proof.Machine.execCas t s
  | .fadd t => Sys2Proof.Machine.execFadd t s
  | .beq t => Sys2Proof.Machine.execBeq t s
  | .bne t => Sys2Proof.Machine.execBne t s
  | .blt t => Sys2Proof.Machine.execBlt t s
  | .bge t => Sys2Proof.Machine.execBge t s
  | .bltu t => Sys2Proof.Machine.execBltu t s
  | .bgeu t => Sys2Proof.Machine.execBgeu t s
  | .j t => Sys2Proof.Machine.execJ t s
  | .jal t => Sys2Proof.Machine.execJal t s
  | .jr t => Sys2Proof.Machine.execJr t s
  | .dld t metaA metaB => Sys2Proof.Machine.execDld t metaA metaB s
  | .dcas t metaA metaB => Sys2Proof.Machine.execDcas t metaA metaB s
  | .drel t => Sys2Proof.Machine.execDrel t s
  | .dfind t errors => Sys2Proof.Machine.execDfind t errors s
  | .move t metaA metaB => Sys2Proof.Machine.execMove t metaA metaB s
  | .pack t metaA metaB => Sys2Proof.Machine.execPack t metaA metaB s
  | .unpack t metaA metaB => Sys2Proof.Machine.execUnpack t metaA metaB s
  | .zero t metaA metaB => Sys2Proof.Machine.execZero t metaA metaB s
  | .evac t => Sys2Proof.Machine.execEvac t s
  | .mwait t => Sys2Proof.Machine.execMwait t s
  | .magr t => Sys2Proof.Machine.execMagr t s
  | .magscan t => Sys2Proof.Machine.execMagscan t s
  | .magdecay t => Sys2Proof.Machine.execMagdecay t s
  | .halvingSweepDone => Sys2Proof.Machine.execHalvingSweepDone s
  | .qset t => Sys2Proof.Machine.execQset t s
  | .qget t => Sys2Proof.Machine.execQget t s
  | .qcommit t => Sys2Proof.Machine.execQcommit t s
  | .qosSetApply => Sys2Proof.Machine.execQosSetApply s
  | .wait t => Sys2Proof.Machine.execWait t s
  | .waitTimeout t => Sys2Proof.Machine.execWaitTimeout t s
  | .post t => Sys2Proof.Machine.execPost t s
  | .bind t => Sys2Proof.Machine.execBind t s
  | .unbind t => Sys2Proof.Machine.execUnbind t s
  | .queueTimerExpiry q => Sys2Proof.Machine.execQueueTimerExpiry q s
  | .dispatch => Sys2Proof.Machine.execDispatch s
  | .watchdogExpiry t => Sys2Proof.Machine.execWatchdogExpiry t s
  | .ctrr t => Sys2Proof.Machine.execCtrr t s
  | .ctrw t => Sys2Proof.Machine.execCtrw t s
  | .tally t => Sys2Proof.Machine.execTally t s
  | .rdreg t => Sys2Proof.Machine.execRdreg t s
  | .wrreg t => Sys2Proof.Machine.execWrreg t s
  | .extgrant t => Sys2Proof.Machine.execExtgrant t s
  | .extrecall t => Sys2Proof.Machine.execExtrecall t s
  | .capq t => Sys2Proof.Machine.execCapq t s
  | .ksel t => Sys2Proof.Machine.execKsel t s
  | .kload t => Sys2Proof.Machine.execKload t s
  | .kzero t => Sys2Proof.Machine.execKzero t s
  | .activationSwap => Sys2Proof.Machine.execActivationSwap s
  | .gracePeriodExpiry => Sys2Proof.Machine.execGracePeriodExpiry s
  | .shaperRelease ld => Sys2Proof.Machine.execShaperRelease ld s
  | .guaranteeScaleReport scope => Sys2Proof.Machine.execGuaranteeScaleReport scope s
  | .uliletPresence u => Sys2Proof.Machine.execUliletPresence u s
  | .uliletReceiverDetect u => Sys2Proof.Machine.execUliletReceiverDetect u s
  | .uliletTrainingDone u ok reversed => Sys2Proof.Machine.execUliletTrainingDone u ok reversed s
  | .param u h devId role vcs serial => Sys2Proof.Machine.execParam u h devId role vcs serial s
  | .paramSend u => Sys2Proof.Machine.execParamSend u s
  | .sessionEstablished u ok => Sys2Proof.Machine.execSessionEstablished u ok s
  | .sessionRetry u => Sys2Proof.Machine.execSessionRetry u s
  | .ackOnly u h => Sys2Proof.Machine.execAckOnly u h s
  | .beacon u h t1 t2 t3 hops sync => Sys2Proof.Machine.execBeacon u h t1 t2 t3 hops sync s
  | .enclaveMessage u h msg => Sys2Proof.Machine.execEnclaveMessage u h msg s
  | .retireNotice u h => Sys2Proof.Machine.execRetireNotice u h s
  | .uliletPacketSend u => Sys2Proof.Machine.execUliletPacketSend u s
  | .ackOnlySend u => Sys2Proof.Machine.execAckOnlySend u s
  | .beaconSlotStart u => Sys2Proof.Machine.execBeaconSlotStart u s
  | .replayTimerExpiry u => Sys2Proof.Machine.execReplayTimerExpiry u s
  | .resyncTimeout u => Sys2Proof.Machine.execResyncTimeout u s
  | .receiverLockLoss u => Sys2Proof.Machine.execReceiverLockLoss u s
  | .uliletSilence u prsntHigh => Sys2Proof.Machine.execUliletSilence u prsntHigh s
  | .linkKeyUpdate u => Sys2Proof.Machine.execLinkKeyUpdate u s
  | .ultCtlWrite src u w => Sys2Proof.Machine.execUltCtlWrite src u w s
  | .ultRetireRetire src u => Sys2Proof.Machine.execUltRetireRetire src u s
  | .ultRetireClear src u => Sys2Proof.Machine.execUltRetireClear src u s
  | .fwdRd u h x => Sys2Proof.Machine.execFwdRd u h x s
  | .fwdWr u h x => Sys2Proof.Machine.execFwdWr u h x s
  | .farAlloc u h x => Sys2Proof.Machine.execFarAlloc u h x s
  | .farRd u h x ue => Sys2Proof.Machine.execFarRd u h x ue s
  | .farWr u h x => Sys2Proof.Machine.execFarWr u h x s
  | .farPut u h x => Sys2Proof.Machine.execFarPut u h x s
  | .farCommit u h x => Sys2Proof.Machine.execFarCommit u h x s
  | .farFree u h x => Sys2Proof.Machine.execFarFree u h x s
  | .snoop u h x => Sys2Proof.Machine.execSnoop u h x s
  | .xmap u h x => Sys2Proof.Machine.execXmap u h x s
  | .admitReq u h x => Sys2Proof.Machine.execAdmitReq u h x s
  | .reach u h x => Sys2Proof.Machine.execReach u h x s
  | .reachSend => Sys2Proof.Machine.execReachSend s
  | .join u h x => Sys2Proof.Machine.execJoin u h x s
  | .recon u h x => Sys2Proof.Machine.execRecon u h x s
  | .uliletTally u h x => Sys2Proof.Machine.execUliletTally u h x s
  | .txnResponse u h x => Sys2Proof.Machine.execTxnResponse u h x s
  | .orphanTimeout write tag => Sys2Proof.Machine.execOrphanTimeout write tag s
  | .constXmapWrite src w => Sys2Proof.Machine.execConstXmapWrite src w s
  | .slotOn n => Sys2Proof.Machine.execSlotOn n s
  | .slotOff n => Sys2Proof.Machine.execSlotOff n s
  | .slotRearm n => Sys2Proof.Machine.execSlotRearm n s
  | .slotAuxUpStart n => Sys2Proof.Machine.execSlotAuxUpStart n s
  | .slotAuxUpDone n => Sys2Proof.Machine.execSlotAuxUpDone n s
  | .slotRampDone n => Sys2Proof.Machine.execSlotRampDone n s
  | .slotQualifyDone n => Sys2Proof.Machine.execSlotQualifyDone n s
  | .slotRetryRestore n => Sys2Proof.Machine.execSlotRetryRestore n s
  | .slotBackoffDone n => Sys2Proof.Machine.execSlotBackoffDone n s
  | .slot12vTrip n milliamps => Sys2Proof.Machine.execSlot12vTrip n milliamps s
  | .auxLimitEngage n => Sys2Proof.Machine.execAuxLimitEngage n s
  | .auxLimitRelease n => Sys2Proof.Machine.execAuxLimitRelease n s
  | .auxTimerExpiry n => Sys2Proof.Machine.execAuxTimerExpiry n s
  | .slotPresenceAssert n => Sys2Proof.Machine.execSlotPresenceAssert n s
  | .slotPresenceLoss n => Sys2Proof.Machine.execSlotPresenceLoss n s
  | .slotMeasWindow n mean => Sys2Proof.Machine.execSlotMeasWindow n mean s
  | .pwrDomReqP0 dm => Sys2Proof.Machine.execPwrDomReqP0 dm s
  | .pwrDomReqP1 dm => Sys2Proof.Machine.execPwrDomReqP1 dm s
  | .pwrDomReqP2 dm => Sys2Proof.Machine.execPwrDomReqP2 dm s
  | .pwrDomReqP3 dm => Sys2Proof.Machine.execPwrDomReqP3 dm s
  | .idleP1Expiry dm => Sys2Proof.Machine.execIdleP1Expiry dm s
  | .idleP2Expiry dm => Sys2Proof.Machine.execIdleP2Expiry dm s
  | .domainEntryStepDone dm => Sys2Proof.Machine.execDomainEntryStepDone dm s
  | .domainExitDone dm => Sys2Proof.Machine.execDomainExitDone dm s
  | .domainWakeAccess dm => Sys2Proof.Machine.execDomainWakeAccess dm s
  | .doze => Sys2Proof.Machine.execDoze s
  | .dozeWake cause => Sys2Proof.Machine.execDozeWake cause s
  | .padRelease src => Sys2Proof.Machine.execPadRelease src s
  | .refclkLoss => Sys2Proof.Machine.execRefclkLoss s
  | .refclkRestore => Sys2Proof.Machine.execRefclkRestore s
  | .tbSet time => Sys2Proof.Machine.execTbSet time s
  | .timebaseSlew => Sys2Proof.Machine.execTimebaseSlew s
  | .timebaseFreeRun => Sys2Proof.Machine.execTimebaseFreeRun s
  | .pwrOkAssert role devId flash => Sys2Proof.Machine.execPwrOkAssert role devId flash s
  | .pwrOkDeassert => Sys2Proof.Machine.execPwrOkDeassert s
  | .resetNAssert => Sys2Proof.Machine.execResetNAssert s
  | .rstCtlWarm src => Sys2Proof.Machine.execRstCtlWarm src s
  | .warmEntryDone => Sys2Proof.Machine.execWarmEntryDone s
  | .warmEntryOverrun => Sys2Proof.Machine.execWarmEntryOverrun s
  | .immediateEntryDone => Sys2Proof.Machine.execImmediateEntryDone s
  | .resetNRelease => Sys2Proof.Machine.execResetNRelease s
  | .earlyVigilDone failed times fw0Ok fw1Ok op0Ok op1Ok => Sys2Proof.Machine.execEarlyVigilDone failed times fw0Ok fw1Ok op0Ok op1Ok s
  | .cxlPadRelease => Sys2Proof.Machine.execCxlPadRelease s
  | .bootStart => Sys2Proof.Machine.execBootStart s
  | .phase8Cutoff => Sys2Proof.Machine.execPhase8Cutoff s
  | .metadataFormat => Sys2Proof.Machine.execMetadataFormat s
  | .metadataRecovery rootLost linesLost => Sys2Proof.Machine.execMetadataRecovery rootLost linesLost s
  | .memoryActiveSet => Sys2Proof.Machine.execMemoryActiveSet s
  | .freeMapRebuildDone => Sys2Proof.Machine.execFreeMapRebuildDone s
  | .fuseMapCheck ok => Sys2Proof.Machine.execFuseMapCheck ok s
  | .sensorReading q temp => Sys2Proof.Machine.execSensorReading q temp s
  | .sensorTimeout q => Sys2Proof.Machine.execSensorTimeout q s
  | .supplyDetectorTrip q level => Sys2Proof.Machine.execSupplyDetectorTrip q level s
  | .fstickyClear src reg w => Sys2Proof.Machine.execFstickyClear src reg w s
  | .faultMaskWrite src reg w => Sys2Proof.Machine.execFaultMaskWrite src reg w s
  | .almanacPublication => Sys2Proof.Machine.execAlmanacPublication s
  | .almanacPublicationComplete => Sys2Proof.Machine.execAlmanacPublicationComplete s
  | .epochBoundary => Sys2Proof.Machine.execEpochBoundary s
  | .registerWrite src offset size w => Sys2Proof.Machine.execRegisterWrite src offset size w s
  | .hdmDecoderCommit ld d base size ways granularity => Sys2Proof.Machine.execHdmDecoderCommit ld d base size ways granularity s
  | .ideKeyExchange h skid => Sys2Proof.Machine.execIdeKeyExchange h skid s
  | .spdmSecureSession cci v13 authenticated => Sys2Proof.Machine.execSpdmSecureSession cci v13 authenticated s
  | .registerRead ld offset size => Sys2Proof.Machine.execRegisterRead ld offset size s
  | .malformedCxlMemRequest p => Sys2Proof.Machine.execMalformedCxlMemRequest p s
  | .engineWorkDone e kind => Sys2Proof.Machine.execEngineWorkDone e kind s
  | .fixedExtentFillWrite e => Sys2Proof.Machine.execFixedExtentFillWrite e s
  | .auxFaultTimerIdle n => Sys2Proof.Machine.execAuxFaultTimerIdle n s
  | .uliletCrcFailure u => Sys2Proof.Machine.execUliletCrcFailure u s
  | .uliletMalformedPacket u => Sys2Proof.Machine.execUliletMalformedPacket u s
  | .enclaveIntegrityLoss ram => Sys2Proof.Machine.execEnclaveIntegrityLoss ram s
  | .vaonPowerUp => Sys2Proof.Machine.execVaonPowerUp s
  | .vaonPowerLoss => Sys2Proof.Machine.execVaonPowerLoss s
  | .immRecentExpiry => Sys2Proof.Machine.execImmRecentExpiry s
  | .portRetrainWindowEnd p => Sys2Proof.Machine.execPortRetrainWindowEnd p s
  | .illegalOpcode t => Sys2Proof.Machine.execIllegalOpcode t s
  | .guestPoisonReport d dlpn block => Sys2Proof.Machine.execGuestPoisonReport d dlpn block s

end Sys2Proof.Machine
end

