-- ==== Sys2Proof/Safety.lean ====
section
/-! DEFINITION. What statements say of the states that a command joins: the device's identity is one that its straps can give, the addressed
memories are in their one canonical form, and which parts of the state a command leaves alone. -/
namespace Sys2Proof.Machine

/-! ### States -/

/-- STRAP_ERR is set exactly when ROLE is high and DEV_ID is not 0 (R429). -/
def State.strapsAgree (s : State) : Bool := s.ident.strapErr == (s.ident.role && decide (s.ident.devId ≠ 0))

/-- The memories that the device addresses by byte are in canonical form: the shared window and the scratch of each thread (R290, R291). -/
def State.memoriesWf (s : State) : Bool :=
  Memory.wf s.ril.window && s.threads.all fun e => Memory.wf e.2.scratch

/-! ### Reports -/

/-- What reporting a fault of class F0, F1 or F2 may change, and nothing else: sticky bits, the conditions that hold, the Health Status last
reported, the recorder, a TALLY request to the polestar on its way out, the event logs of logical devices, and what the device sends
(R515, R518, R523, R531, R541). -/
structure State.Reports (s r : State) : Prop where
  rest : r = { s with
    faults := { s.faults with sticky := r.faults.sticky, live := r.faults.live, lastHealth := r.faults.lastHealth }
    rec_ := r.rec_, const := { s.const with opened := r.const.opened, nextTag := r.const.nextTag }
    ulis := r.ulis, lds := r.lds, out := r.out }
  links : ∀ u, r.uli u = { s.uli u with tx := (r.uli u).tx }
  logs : ∀ i, r.ld i = { s.ld i with
    info := (r.ld i).info, warning := (r.ld i).warning, failure := (r.ld i).failure, fatal := (r.ld i).fatal, dynCap := (r.ld i).dynCap }

/-! ### Instructions of the policy cores -/

/-- The fields of the word at a thread's program counter. -/
def State.word (s : State) (t : Nat) : Fields := fieldsOf ((s.bank (s.thread t).bank).fetch (s.thread t).pc)

/-- Thread t may issue, and the word at its program counter, inside its own text, is the instruction with this opcode and selection. -/
def State.fetches (s : State) (t op sel : Nat) : Prop :=
  s.mayIssue t = true ∧ (s.word t).key = insKey op sel ∧ s.inText (s.thread t) (s.thread t).pc.toNat = true

/-- What an instruction of thread t leaves alone beside its own effect on t: everything but counters, comets, the core's rotation, and,
of the other threads, which of them still wait behind a YIELD (R288, R322, R542, R547). -/
def State.onlyThread (s r : State) (t : Nat) : Prop :=
  r = { s with threads := r.threads, comets := r.comets, ctrs := r.ctrs, ril := { s.ril with lastIssued := r.ril.lastIssued } } ∧
    ∀ v, v ≠ t → r.thread v = { s.thread v with yieldFor := (r.thread v).yieldFor }

/-- The thread after an instruction in sequence whose effect on it is `g`: the program counter at the next word (R289, R322). -/
def State.sequel (s : State) (t : Nat) (g : Thread → Thread) : Thread :=
  { g { s.thread t with pc := (s.thread t).pc + 4, yieldFor := [] } with comet := none }

/-- On every thread that fetches it in a form that `form` allows, the instruction completes, and all it does is to give g[a] the value `v` of
its fields and of the registers as they stood. -/
def computes (i : Fin 32 → Instr) (op sel : Nat) (form : Fields → Prop) (v : Fields → Thread → Word) : Prop :=
  ∀ (t : Fin 32) (s : State), s.fetches t op sel → form (s.word t) →
    ∃ r, exec (i t) s = .next r ∧ s.onlyThread r t ∧
      r.thread t = s.sequel t fun u => u.setReg (s.word t).a (v (s.word t) (s.thread t))

/-- An address of the shared window that code of an invocation may access (R290). -/
def Thread.windowAllowed (u : Thread) (x : Nat) : Prop :=
  0x400000 ≤ x ∧ x < 0x800000 ∧
    match u.priv with
    | .firmware => True
    | .operator => 0x500000 ≤ x
    | .tenant => 0x700000 + 4096 * u.ld ≤ x ∧ x < 0x700000 + 4096 * (u.ld + 1)

/-- An access of n bytes at data address x, allowed and mapped, is to byte y and on of the memory m: the thread's scratch, the shared window,
or the payload buffer of the mailbox command the invocation holds (R290, R305). -/
def State.accesses (s : State) (t x n : Nat) (m : Tab Byte) (y : Nat) : Prop :=
  let u := s.thread t
  (x < 0x10000 ∧ m = u.scratch ∧ y = x) ∨ (u.windowAllowed x ∧ m = s.ril.window ∧ y = x) ∨
    (u.priv = .firmware ∧ ∃ c, s.mapped u = some c ∧ 0x1000000 ≤ x ∧ x + n ≤ 0x1000000 + payloadBuffer c.cci ∧ m = c.buffer ∧
      y = x - 0x1000000)

/-- The n bytes from x on of a memory, zero-extended, are the value (R10, R325). -/
def holdsAt (m : Tab Byte) (x n : Nat) (v : Word) : Prop := ∀ i < 8, v.extractLsb' (8 * i) 8 = if i < n then Memory.read m (x + i) else 0

/-- The low n bytes of the value have been written from x on, and every other byte is as before (R10, R325). -/
def wroteAt (m m' : Tab Byte) (x n : Nat) (v : Word) : Prop :=
  ∀ y, Memory.read m' y = if x ≤ y ∧ y < x + n then v.extractLsb' (8 * (y - x)) 8 else Memory.read m y

/-- What a thread's store leaves alone beside the memory it stores to: all but what `State.onlyThread` names and the two shared memories. -/
def State.onlyStore (s r : State) (t : Nat) : Prop :=
  r = { s with threads := r.threads, comets := r.comets, ctrs := r.ctrs
               ril := { s.ril with lastIssued := r.ril.lastIssued, window := r.ril.window, mbox := r.ril.mbox } } ∧
    ∀ v, v ≠ t → r.thread v = { s.thread v with yieldFor := (r.thread v).yieldFor }

/-- The effective address of a load or store (R325). -/
def effective (f : Fields) (u : Thread) : Nat := (u.reg f.b + (BitVec.ofNat 16 f.imm).signExtend 64).toNat

/-- Thread t has trapped with a code: its invocation has ended with no register written, the counts and the last trap say so, a report waits
in queue 2 unless the invocation handled that queue, and the other threads and every memory stand (R308). -/
def State.trapped (s r : State) (t code : Nat) : Prop :=
  let u := s.thread t
  (r.thread t).state = .free ∧ (r.thread t).regs = u.regs ∧ (r.thread t).tag = none ∧ (r.thread t).tickets = [] ∧
  r.ril.lastTrap = BitVec.ofNat 8 code ∧ r.ril.lastTrapThread = BitVec.ofNat 5 t ∧ r.ril.lastTrapPc = u.pc ∧
  (∀ k, Tab.get 0 r.ril.trapCounts k = if k = code then satAdd (Tab.get 0 s.ril.trapCounts k) 1 else Tab.get 0 s.ril.trapCounts k) ∧
  r.stickySet 776 = true ∧
  (u.queue ≠ 2 → (s.queue 2).entries.length < 64 → (r.queue 2).entries = (s.queue 2).entries ++
    [{ g1 := BitVec.ofNat 64 code, g2 := BitVec.ofNat 64 (t + 256 * u.priv.code + if u.priv = .tenant then 65536 * u.ld else 0)
       g3 := u.pc.setWidth 64, g4 := BitVec.ofNat 64 u.queue, timebase := s.time.tb }]) ∧
  (∀ v, v ≠ t → r.thread v = { s.thread v with yieldFor := (r.thread v).yieldFor }) ∧
  r.ril.window = s.ril.window ∧ r.dram = s.dram ∧ r.mdata = s.mdata ∧ r.cap = s.cap ∧ r.time = s.time

/-- An instruction of thread t has run: register a has the value and no other register changed, the program counter is at the next word, the
thread runs on, and its scratch, the shared memories and the other threads stand. -/
def State.gave (s r : State) (t a : Nat) (v : Word) : Prop :=
  (∀ n, (r.thread t).reg n = if n = a ∧ n ≠ 0 then v else (s.thread t).reg n) ∧
  (r.thread t).pc = (s.thread t).pc + 4 ∧ (r.thread t).state = .running ∧ (r.thread t).scratch = (s.thread t).scratch ∧
  (∀ u, u ≠ t → r.thread u = { s.thread u with yieldFor := (r.thread u).yieldFor }) ∧
  r.ril.window = s.ril.window ∧ r.ril.mbox = s.ril.mbox

/-! ### Commands of the command interfaces -/

/-- The interface answers, and the firmware program that handles commands runs (R95, R510). -/
def State.serves (s : State) (cci : Cci) : Prop :=
  s.cciLive cci = true ∧ s.cciBusy cci = false ∧ s.start.lantern = false ∧ (s.queue 0).bound.isSome = true

/-- A command has completed on its interface with this code and payload, and nothing else has changed but what posting it to its handler
changes: queue 0, the next tag, the commands that wait for a handler's completion, and a counter (R93, R95, R299). -/
def State.answered (s r : State) (cci : Cci) (code : Code) (payload : List Byte) : Prop :=
  r = { s with out := .command cci code payload :: s.out, queues := r.queues, ctrs := r.ctrs
               ril := { s.ril with nextTag := r.ril.nextTag, mbox := r.ril.mbox } } ∧ ∀ q, q ≠ 0 → r.queue q = s.queue q

/-! ### Packets of the links -/

/-- A packet of this type and header arrives where its port takes it, and passes every check (R404, R405, R411). -/
def State.takes (s : State) (u ty : Nat) (h : Header) : Prop :=
  s.linkMayRun = true ∧ takesType (s.uli u).lstate ty = true ∧ (s.uli u).check ty h = .accept

/-- A request that is this device's to answer: it passes the checks of its port, is for this device, and its link carries transactions
(R407, R432, R445). -/
def State.asked (s : State) (u : Nat) (h : Header) : Prop := s.takes u 1 h ∧ h.dst = s.ident.devId ∧ (s.uli u).foreign = false

/-- The last packet that waits on port v is the response to a request of device d (R432). -/
def State.replied (r : State) (v d op : Nat) (tag : BitVec 16) (status : Nat) (lines : List Line) (words : List Nat) : Prop :=
  ∃ len, (r.uli v).tx.getLast? = some { type := 2, vc := 0, len, dst := d, src := r.self, txn := { op, tag, status, lines, words } }

end Sys2Proof.Machine
end

