-- ==== Sys2Proof/WellFormed.lean ====
section
/-! DEFINITION. Well-formed commands: the operands that a Lean type does not bound already lie in the ranges that the spec's formats give
them. A command's meaning is total; these checks say which commands a sender or an engine of the device can form. -/
namespace Sys2Proof

/-- The flipped bits of one 64-byte line: a word of 80 bits for each of the eight transfers of R253. -/
def flipsWf (flips : List (BitVec 80)) : Bool := decide (flips.length ≤ 8)

/-- The flipped bits of the lines of a page, by the line's number. -/
def pageFlipsWf (flips : List (Nat × List (BitVec 80))) : Bool := flips.all fun e => decide (e.1 < 64) && flipsWf e.2

/-- A header: each field in the bits that R407 gives it. -/
def Header.wf (h : Header) : Bool :=
  decide (h.len < 16) && decide (h.vc < 8) && decide (h.crVc < 8) && decide (h.counter < 2 ^ 64)

/-- Transaction fields in the bits that R432 gives them. -/
def Txn.wf (x : Txn) : Bool :=
  decide (x.op < 16) && decide (x.index < 2 ^ 34) && decide (x.unit < 64) && decide (x.status < 16) && decide (x.lines.length ≤ 4)

/-- What an SPD can say (R227, R233): one to eight logical ranks, and the fourteen times. -/
def Spd.wf (d : Spd) : Bool := !d.ok || (decide (1 ≤ d.ranks) && decide (d.ranks ≤ 8) && decide (d.ps.length = 14))

def spdWf : Option Spd → Bool
  | none => true
  | some d => d.wf

/-- A message between two enclaves names devices 0 to 3 (R216). -/
def EnclaveMsg.wf : EnclaveMsg → Bool
  | .keyPut origin _ target _ _ _ => decide (origin < 4) && decide (target < 4)
  | .keyStatus origin _ _ => decide (origin < 4)
  | .session | .keyUpdate => true

/-- An access of the register window is of 1, 2, 4 or 8 bytes (R554). -/
def sizeWf (n : Nat) : Bool := n = 1 || n = 2 || n = 4 || n = 8

/-- A command is well formed. -/
def Instr.wf : Instr → Bool
  | .dramReadData _ _ flips => flipsWf flips
  | .ueRetryRead _ _ flips _ => flipsWf flips
  | .patrolScrubRead _ flips again _ => flipsWf flips && flipsWf again
  | .gatherEviction _ flips => pageFlipsWf flips
  | .moverClaim _ flips => pageFlipsWf flips
  | .clearEventRecords _ _ _ _ _ handles => decide (handles.length ≤ 255)
  | .loadRiliaImage _ _ _ _ _ _ _ chunk _ => decide (chunk.length ≤ 2 ^ 20)
  | .opkeyEnrol _ _ _ key _ => decide (key.length = 96)
  | .channelTrainingStepDone _ _ spd0 spd1 _ _ _ => spdWf spd0 && spdWf spd1
  | .param _ h _ _ _ _ => h.wf
  | .ackOnly _ h => h.wf
  | .beacon _ h _ _ _ _ _ => h.wf
  | .enclaveMessage _ h m => h.wf && m.wf
  | .retireNotice _ h => h.wf
  | .fwdRd _ h x => h.wf && x.wf && decide (x.op = 1)
  | .fwdWr _ h x => h.wf && x.wf && decide (x.op = 2)
  | .farAlloc _ h x => h.wf && x.wf && decide (x.op = 3)
  | .farRd _ h x _ => h.wf && x.wf && decide (x.op = 4)
  | .farWr _ h x => h.wf && x.wf && decide (x.op = 5)
  | .farPut _ h x => h.wf && x.wf && decide (x.op = 6)
  | .farCommit _ h x => h.wf && x.wf && decide (x.op = 7)
  | .farFree _ h x => h.wf && x.wf && decide (x.op = 8)
  | .snoop _ h x => h.wf && x.wf && decide (x.op = 9)
  | .xmap _ h x => h.wf && x.wf && decide (x.op = 10)
  | .admitReq _ h x => h.wf && x.wf && decide (x.op = 11)
  | .reach _ h x => h.wf && x.wf && decide (x.op = 12)
  | .join _ h x => h.wf && x.wf && decide (x.op = 13)
  | .recon _ h x => h.wf && x.wf && decide (x.op = 14)
  | .uliletTally _ h x => h.wf && x.wf && decide (x.op = 15)
  | .txnResponse _ h x => h.wf && x.wf
  | .registerWrite _ _ size _ => sizeWf size
  | .registerRead _ _ size => sizeWf size
  | .hostRead .. | .hostWrite .. | .poolEntryRelease .. | .distressRepeat | .holdExpiry .. | .packedEviction .. | .allocationResume ..
  | .rankRecordExpiry .. | .writeCrcError .. | .retirementRetry .. | .scrubPeriodEnd | .descriptorCopyWritten .. | .birsp ..
  | .ideMacPass .. | .ideMacFailure .. | .portPerstAssert .. | .portPerstRelease .. | .linkTrained .. | .linkDown .. | .linkRetrain ..
  | .downLatchedClear .. | .portCtlWrite .. | .identify .. | .backgroundOperationStatus .. | .getResponseMessageLimit ..
  | .setResponseMessageLimit .. | .getEventRecords .. | .getEventInterruptPolicy .. | .setEventInterruptPolicy ..
  | .getMctpEventInterruptPolicy .. | .setMctpEventInterruptPolicy .. | .getFwInfo .. | .getTimestamp .. | .setTimestamp ..
  | .getSupportedLogs .. | .getLog .. | .identifyMemoryDevice .. | .getHealthInfo .. | .getAlertConfiguration ..
  | .setAlertConfiguration .. | .getPoisonList .. | .injectPoison .. | .clearPoison .. | .getScanMediaCapabilities .. | .scanMedia ..
  | .scanMediaComplete .. | .getScanMediaResults .. | .getDynamicCapacityConfiguration .. | .getDynamicCapacityExtentList ..
  | .addDynamicCapacityResponse .. | .releaseDynamicCapacity .. | .unsupportedCommand .. | .getLdInfo .. | .getLdAllocations ..
  | .getQosControl .. | .getQosStatus .. | .getQosAllocatedBw .. | .getQosBwLimit .. | .getMultiHeadedInfo .. | .getHeadInfo ..
  | .getDcdInfo .. | .getHostDcRegionConfiguration .. | .setDcRegionConfiguration .. | .getDcRegionExtentLists ..
  | .initiateDynamicCapacityAdd .. | .initiateDynamicCapacityRelease .. | .getAlmanac .. | .activateRiliaImage .. | .getRiliaStatus ..
  | .slotPowerControl .. | .channelEvacuate .. | .channelRestore .. | .getTallies .. | .configureRecorder .. | .getVigilReport ..
  | .constellationStatus .. | .setTimebase .. | .getCometSamples .. | .counterAccessGrant .. | .keyQuery .. | .keyClose ..
  | .keyStagingTimeout .. | .doeCdatTableAccess .. | .fixedExtentFillDone .. | .zeroingWrite .. | .moverCopyDone .. | .moverFree ..
  | .magnitudeDecay | .evacuationStructureMoved .. | .evacuationEnd .. | .channelInitDone .. | .memoryInitWrite .. | .dramCommandPick ..
  | .channelGatePick .. | .writeDrainTimeout .. | .rowIdleClose .. | .refreshPulse .. | .refreshDone .. | .dimmThermalPoll ..
  | .rankPowerDown .. | .selfRefreshEntry .. | .selfRefreshExit .. | .zqCalibration .. | .dqsOscillatorTracking ..
  | .retrainingWindowStart .. | .retrainingWindowEnd .. | .chCtlWrite .. | .repairLiftFence .. | .repairFence .. | .repairSoft ..
  | .repairHard .. | .repairDone .. | .nop .. | .yield .. | .fence .. | .halt .. | .trap .. | .time .. | .eret .. | .add .. | .sub ..
  | .and .. | .or .. | .xor .. | .shl .. | .shr .. | .sar .. | .slt .. | .sltu .. | .seq .. | .mul .. | .mulhu .. | .divu .. | .remu ..
  | .min .. | .max .. | .popc .. | .clz .. | .addi .. | .andi .. | .ori .. | .xori .. | .shli .. | .shri .. | .sari .. | .slti ..
  | .lui .. | .ld8 .. | .ld16 .. | .ld32 .. | .ld64 .. | .st8 .. | .st16 .. | .st32 .. | .st64 .. | .cas .. | .fadd .. | .beq .. | .bne ..
  | .blt .. | .bge .. | .bltu .. | .bgeu .. | .j .. | .jal .. | .jr .. | .dld .. | .dcas .. | .drel .. | .dfind .. | .move .. | .pack ..
  | .unpack .. | .zero .. | .evac .. | .mwait .. | .magr .. | .magscan .. | .magdecay .. | .halvingSweepDone | .qset .. | .qget ..
  | .qcommit .. | .qosSetApply | .wait .. | .waitTimeout .. | .post .. | .bind .. | .unbind .. | .queueTimerExpiry .. | .dispatch
  | .watchdogExpiry .. | .ctrr .. | .ctrw .. | .tally .. | .rdreg .. | .wrreg .. | .extgrant .. | .extrecall .. | .capq .. | .ksel ..
  | .kload .. | .kzero .. | .activationSwap | .gracePeriodExpiry | .shaperRelease .. | .guaranteeScaleReport .. | .uliletPresence ..
  | .uliletReceiverDetect .. | .uliletTrainingDone .. | .paramSend .. | .sessionEstablished .. | .sessionRetry .. | .uliletPacketSend ..
  | .ackOnlySend .. | .beaconSlotStart .. | .replayTimerExpiry .. | .resyncTimeout .. | .receiverLockLoss .. | .uliletSilence ..
  | .linkKeyUpdate .. | .ultCtlWrite .. | .ultRetireRetire .. | .ultRetireClear .. | .reachSend | .orphanTimeout .. | .constXmapWrite ..
  | .slotOn .. | .slotOff .. | .slotRearm .. | .slotAuxUpStart .. | .slotAuxUpDone .. | .slotRampDone .. | .slotQualifyDone ..
  | .slotRetryRestore .. | .slotBackoffDone .. | .slot12vTrip .. | .auxLimitEngage .. | .auxLimitRelease .. | .auxTimerExpiry ..
  | .slotPresenceAssert .. | .slotPresenceLoss .. | .slotMeasWindow .. | .pwrDomReqP0 .. | .pwrDomReqP1 .. | .pwrDomReqP2 ..
  | .pwrDomReqP3 .. | .idleP1Expiry .. | .idleP2Expiry .. | .domainEntryStepDone .. | .domainExitDone .. | .domainWakeAccess .. | .doze
  | .dozeWake .. | .padRelease .. | .refclkLoss | .refclkRestore | .tbSet .. | .timebaseSlew | .timebaseFreeRun | .pwrOkAssert ..
  | .pwrOkDeassert | .resetNAssert | .rstCtlWarm .. | .warmEntryDone | .warmEntryOverrun | .immediateEntryDone | .resetNRelease
  | .earlyVigilDone .. | .cxlPadRelease | .bootStart | .phase8Cutoff | .metadataFormat | .metadataRecovery .. | .memoryActiveSet
  | .freeMapRebuildDone | .fuseMapCheck .. | .sensorReading .. | .sensorTimeout .. | .supplyDetectorTrip .. | .fstickyClear ..
  | .faultMaskWrite .. | .almanacPublication | .almanacPublicationComplete | .epochBoundary | .hdmDecoderCommit .. | .ideKeyExchange ..
  | .spdmSecureSession .. | .malformedCxlMemRequest .. | .engineWorkDone .. | .fixedExtentFillWrite .. | .auxFaultTimerIdle ..
  | .uliletCrcFailure .. | .uliletMalformedPacket .. | .enclaveIntegrityLoss .. | .vaonPowerUp | .vaonPowerLoss | .immRecentExpiry
  | .keyPut .. | .portRetrainWindowEnd .. | .illegalOpcode .. | .guestPoisonReport .. => true

end Sys2Proof
end

