-- ==== Sys2Proof/Certificates/Slice0/Obligations.lean ====
section
/-! DEFINITION. The statements about the model, for the provers. -/

open Sys2Proof Sys2Proof.Machine

/-- R323: what each integer register operation writes to g[a]. -/
def Obligations.RegisterOperationsComputeTheirResult : Prop :=
  let any := fun _ : Fields => True
  let two := fun (v : Word → Word → Word) (f : Fields) (u : Thread) => v (u.reg f.b) (u.reg f.c)
  computes .add 1 0 any (two fun x y => x + y) ∧
  computes .sub 1 1 any (two fun x y => x - y) ∧
  computes .and 1 2 any (two fun x y => x &&& y) ∧
  computes .or 1 3 any (two fun x y => x ||| y) ∧
  computes .xor 1 4 any (two fun x y => x ^^^ y) ∧
  computes .shl 1 5 any (two fun x y => x <<< (y.toNat % 64)) ∧
  computes .shr 1 6 any (two fun x y => x >>> (y.toNat % 64)) ∧
  computes .sar 1 7 any (two fun x y => x.sshiftRight (y.toNat % 64)) ∧
  computes .slt 1 8 any (two fun x y => if x.toInt < y.toInt then 1 else 0) ∧
  computes .sltu 1 9 any (two fun x y => if x.toNat < y.toNat then 1 else 0) ∧
  computes .seq 1 10 any (two fun x y => if x = y then 1 else 0) ∧
  computes .mul 1 0x10 any (two fun x y => BitVec.ofNat 64 (x.toNat * y.toNat)) ∧
  computes .mulhu 1 0x11 any (two fun x y => BitVec.ofNat 64 (x.toNat * y.toNat / 2 ^ 64)) ∧
  computes .divu 1 0x12 any (two fun x y => if y = 0 then BitVec.allOnes 64 else BitVec.ofNat 64 (x.toNat / y.toNat)) ∧
  computes .remu 1 0x13 any (two fun x y => if y = 0 then x else BitVec.ofNat 64 (x.toNat % y.toNat)) ∧
  computes .min 1 0x18 any (two fun x y => if x.toInt ≤ y.toInt then x else y) ∧
  computes .max 1 0x19 any (two fun x y => if x.toInt ≤ y.toInt then y else x) ∧
  computes .popc 1 0x20 (fun f => f.c = 0) (fun f u =>
    BitVec.ofNat 64 ((List.range 64).filter fun i => (u.reg f.b).getLsbD i).length) ∧
  computes .clz 1 0x21 (fun f => f.c = 0) (fun f u =>
    if u.reg f.b = 0 then 64 else BitVec.ofNat 64 (63 - Nat.log2 (u.reg f.b).toNat))

/-- R324: what each immediate operation writes to g[a]. -/
def Obligations.ImmediateOperationsComputeTheirResult : Prop :=
  let any := fun _ : Fields => True
  let shift := fun f : Fields => f.imm < 256
  let one := fun (v : Word → BitVec 16 → Word) (f : Fields) (u : Thread) => v (u.reg f.b) (BitVec.ofNat 16 f.imm)
  computes .addi 2 0 any (one fun x i => x + i.signExtend 64) ∧
  computes .andi 3 0 any (one fun x i => x &&& i.zeroExtend 64) ∧
  computes .ori 4 0 any (one fun x i => x ||| i.zeroExtend 64) ∧
  computes .xori 5 0 any (one fun x i => x ^^^ i.zeroExtend 64) ∧
  computes .shli 6 0 shift (one fun x i => x <<< (i.toNat % 64)) ∧
  computes .shri 6 1 shift (one fun x i => x >>> (i.toNat % 64)) ∧
  computes .sari 6 2 shift (one fun x i => x.sshiftRight (i.toNat % 64)) ∧
  computes .slti 7 0 any (one fun x i => if x.toInt < (i.signExtend 64).toInt then 1 else 0) ∧
  computes .lui 8 0 (fun f => f.b = 0) (fun f _ => (BitVec.ofNat 16 f.imm).zeroExtend 64 <<< 16)

/-- R325: what a load gives g[a], in each region of the data address space; and the ALIGN trap. -/
def Obligations.LoadsReadTheirBytes : Prop :=
  ∀ e ∈ [((.ld8 : Fin 32 → Instr), 0x10, 1), (.ld16, 0x11, 2), (.ld32, 0x12, 4), (.ld64, 0x13, 8)],
  ∀ (t : Fin 32) (s : State), s.fetches t e.2.1 0 →
    let x := effective (s.word t) (s.thread t)
    (∀ m y, x % e.2.2 = 0 → s.accesses t x e.2.2 m y → ∃ r v, exec (e.1 t) s = .next r ∧ holdsAt m y e.2.2 v ∧ s.onlyThread r t ∧
      r.thread t = s.sequel t fun u => u.setReg (s.word t).a v) ∧
    (x % e.2.2 ≠ 0 → x + e.2.2 ≤ 0x10000 → ∃ r, exec (e.1 t) s = .next r ∧ s.trapped r t 3)

/-- R325: which bytes a store writes, in each region of the data address space. -/
def Obligations.StoresWriteTheirBytes : Prop :=
  ∀ e ∈ [((.st8 : Fin 32 → Instr), 0x14, 1), (.st16, 0x15, 2), (.st32, 0x16, 4), (.st64, 0x17, 8)],
  ∀ (t : Fin 32) (s : State), s.fetches t e.2.1 0 →
    let x := effective (s.word t) (s.thread t)
    let v := (s.thread t).reg (s.word t).a
    x % e.2.2 = 0 →
    (x < 0x10000 → ∃ r, exec (e.1 t) s = .next r ∧ s.onlyThread r t ∧
      r.thread t = (s.sequel t fun u => { u with scratch := (r.thread t).scratch }) ∧
      wroteAt (s.thread t).scratch (r.thread t).scratch x e.2.2 v) ∧
    ((s.thread t).windowAllowed x → ∃ r, exec (e.1 t) s = .next r ∧ s.onlyStore r t ∧ r.thread t = s.sequel t id ∧
      wroteAt s.ril.window r.ril.window x e.2.2 v ∧ r.ril.mbox = s.ril.mbox) ∧
    (∀ c, (s.thread t).priv = .firmware → s.mapped (s.thread t) = some c → 0x1000000 ≤ x →
      x + e.2.2 ≤ 0x1000000 + payloadBuffer c.cci → ∃ r c', exec (e.1 t) s = .next r ∧ s.onlyStore r t ∧ r.thread t = s.sequel t id ∧
        r.ril.window = s.ril.window ∧ r.mapped (r.thread t) = some c' ∧ wroteAt c.buffer c'.buffer (x - 0x1000000) e.2.2 v ∧
        c' = { c with buffer := c'.buffer } ∧ ∀ k, k ≠ c.tag → r.mboxOf k = s.mboxOf k)

/-- R326: the word, the register and the traps of CAS and FADD. -/
def Obligations.AtomicsExchangeTheirWord : Prop :=
  ∀ e ∈ [((.cas : Fin 32 → Instr), 0x18, fun (old a c : Word) => if old = a then c else old),
    (.fadd, 0x19, fun (old _ c : Word) => old + c)],
  ∀ (t : Fin 32) (s : State), s.fetches t e.2.1 0 → (s.word t).func = 0 →
    let f := s.word t
    let u := s.thread t
    let x := (u.reg f.b).toNat
    (x % 8 = 0 → u.windowAllowed x → ∃ r old, exec (e.1 t) s = .next r ∧ holdsAt s.ril.window x 8 old ∧ s.onlyStore r t ∧
      r.ril.mbox = s.ril.mbox ∧ r.thread t = (s.sequel t fun u => u.setReg f.a old) ∧
      wroteAt s.ril.window r.ril.window x 8 (e.2.2 old (u.reg f.a) (u.reg f.c))) ∧
    (x % 8 ≠ 0 → u.windowAllowed x → ∃ r, exec (e.1 t) s = .next r ∧ s.trapped r t 3) ∧
    (x % 8 = 0 → u.priv = .firmware → x < 0x400000 ∨ 0x800000 ≤ x → ∃ r, exec (e.1 t) s = .next r ∧ s.trapped r t 4)

/-- R321, R327, R328: where control goes, what the link register holds, and the traps of a target. -/
def Obligations.BranchesAndJumpsGoToTheirTarget : Prop :=
  let goes := fun (i : Fin 32 → Instr) (t : Fin 32) (s : State) (dest : Int) (g : Thread → Thread) =>
    (0 ≤ dest → s.inText (s.thread t) dest.toNat = true → ∃ r, exec (i t) s = .next r ∧ s.onlyThread r t ∧
      r.thread t = s.sequel t fun u => { g u with pc := BitVec.ofNat 19 dest.toNat }) ∧
    (dest < 0 ∨ s.inText (s.thread t) dest.toNat = false → ∃ r, exec (i t) s = .next r ∧ s.trapped r t 2)
  (∀ e ∈ [((.beq : Fin 32 → Instr), 0x20, fun (x y : Word) => decide (x = y)), (.bne, 0x21, fun x y => decide (x ≠ y)),
      (.blt, 0x22, fun x y => decide (x.toInt < y.toInt)), (.bge, 0x23, fun x y => decide (y.toInt ≤ x.toInt)),
      (.bltu, 0x24, fun x y => decide (x.toNat < y.toNat)), (.bgeu, 0x25, fun x y => decide (y.toNat ≤ x.toNat))],
    ∀ (t : Fin 32) (s : State), s.fetches t e.2.1 0 →
      let f := s.word t
      let u := s.thread t
      if e.2.2 (u.reg f.a) (u.reg f.b) then goes e.1 t s ((u.pc.toNat : Int) + 4 * (BitVec.ofNat 16 f.imm).toInt) id
      else ∃ r, exec (e.1 t) s = .next r ∧ s.onlyThread r t ∧ r.thread t = s.sequel t id) ∧
  (∀ (t : Fin 32) (s : State), s.fetches t 0x26 0 → (s.word t).a = 0 →
    goes .j t s (((s.thread t).pc.toNat : Int) + 4 * (BitVec.ofNat 21 (s.word t).long).toInt) id) ∧
  (∀ (t : Fin 32) (s : State), s.fetches t 0x27 0 →
    goes .jal t s (((s.thread t).pc.toNat : Int) + 4 * (BitVec.ofNat 21 (s.word t).long).toInt)
      fun u => u.setReg (s.word t).a (BitVec.ofNat 64 ((s.thread t).pc.toNat + 4))) ∧
  (∀ (t : Fin 32) (s : State), s.fetches t 0x28 0 → (s.word t).c = 0 → (s.word t).func = 0 →
    let dest := ((s.thread t).reg (s.word t).b).toNat
    (dest % 4 = 0 → goes .jr t s dest fun u => u.setReg (s.word t).a (BitVec.ofNat 64 ((s.thread t).pc.toNat + 4))) ∧
    (dest % 4 ≠ 0 → s.inText (s.thread t) dest = true → ∃ r, exec (.jr t) s = .next r ∧ s.trapped r t 3))

/-- R322: the operation of each system instruction. -/
def Obligations.SystemInstructionsComplete : Prop :=
  ∀ (t : Fin 32) (s : State),
    let f := s.word t
    let u := s.thread t
    let plain := f.a = 0 ∧ f.b = 0 ∧ f.c = 0
    let ends := fun (i : Instr) (st : ThreadState) => ∃ r, exec i s = .next r ∧ (r.thread t).state = st ∧ (r.thread t).tag = none ∧
      (r.thread t).regs = u.regs ∧ (r.thread t).scratch = u.scratch ∧ (∀ v, v ≠ t.val → r.thread v = { s.thread v with yieldFor := (r.thread v).yieldFor }) ∧
      r.queues = s.queues ∧ r.ril.window = s.ril.window ∧ r.ril.mbox = s.ril.mbox ∧ r.dram = s.dram ∧ r.out = s.out
    (∀ e ∈ [((.nop : Fin 32 → Instr), 0), (.fence, 2)], s.fetches t 0 e.2 → plain →
      ∃ r, exec (e.1 t) s = .next r ∧ s.onlyThread r t ∧ r.thread t = s.sequel t id) ∧
    (s.fetches t 0 1 → plain → ∃ r, exec (.yield t) s = .next r ∧ s.onlyThread r t ∧
      r.thread t = s.sequel t fun u => { u with yieldFor := (r.thread t).yieldFor }) ∧
    (s.fetches t 0 1 → plain → ∀ r, exec (.yield t) s = .next r → (r.thread t).yieldFor.Nodup ∧
      ∀ v, v ∈ (r.thread t).yieldFor ↔ v ≠ t.val ∧ v / 4 = t.val / 4 ∧ r.threadReady v = true) ∧
    (s.fetches t 0 5 → f.b = 0 → f.c ≤ 1 → ∃ r, exec (.time t) s = .next r ∧ s.onlyThread r t ∧
      r.thread t = s.sequel t fun x => x.setReg f.a (if f.c = 0 then s.time.tb else BitVec.ofNat 64 s.time.now)) ∧
    (s.fetches t 0 5 → f.b = 0 → 1 < f.c → ∃ r, exec (.time t) s = .next r ∧ s.trapped r t 1) ∧
    (s.fetches t 0 6 → plain → ends (.eret t) .free) ∧
    (s.fetches t 0 3 → plain → u.priv = .firmware → ends (.halt t) .out) ∧
    (s.fetches t 0 3 → plain → u.priv ≠ .firmware → ∃ r, exec (.halt t) s = .next r ∧ s.trapped r t 2) ∧
    (s.fetches t 0 4 → f.a = 0 → f.b = 0 → ∃ r, exec (.trap t) s = .next r ∧ s.trapped r t (if 1 ≤ f.c ∧ f.c ≤ 10 then f.c else 1))

/-- R317: an unlisted opcode, as every unplaced word holds, traps ILLEGAL. -/
def Obligations.UnlistedOpcodesTrapIllegal : Prop :=
  ∀ (t : Fin 32) (s : State), s.mayIssue t = true →
    let op := (s.word t).op
    (8 < op ∧ op < 0x10) ∨ (0x19 < op ∧ op < 0x20) ∨ (0x28 < op ∧ op < 0x30) ∨ 0x38 < op →
    ∃ r, exec (.illegalOpcode t) s = .next r ∧ s.trapped r t 1

/-- R329, R330: the results of the descriptor instructions. -/
def Obligations.DescriptorInstructionsReadAndSwap : Prop :=
  ∀ (t : Fin 32) (s : State) (ma mb : BitVec 2),
    let f := s.word t
    let u := s.thread t
    let d := (u.reg f.b).toNat
    let free := fun (sub : Nat) => s.fetches t 0x30 sub ∧ s.metaHolds t (insKey 0x30 sub) = false ∧ d < 2 ^ 34 ∧ (s.extent (d / 65536)).counts = true
    let same := fun (r : State) => ∀ p, r.desc p = s.desc p
    let word := encodeDesc (s.desc d)
    (free 0 → f.c = 0 → f.lit ≤ 1 → u.priv ≠ .tenant → ∃ r, exec (.dld t ma mb) s = .next r ∧ same r ∧
      s.gave r t f.a (word.extractLsb' (64 * f.lit) 64)) ∧
    (free 0 → f.c = 0 → f.lit ≤ 1 → u.priv = .tenant → s.ldMaps u.ld (d / 65536) = true → ∃ r, exec (.dld t ma mb) s = .next r ∧ same r ∧
      s.gave r t f.a (if f.lit = 0 then (word.extractLsb' 0 8).zeroExtend 64 else word.extractLsb' 64 64)) ∧
    (free 0 → f.c = 0 → 2 ≤ f.lit → f.lit ≤ 3 → u.priv ≠ .tenant → (s.desc d).state ≠ .far → ∃ r, exec (.dld t ma mb) s = .next r ∧ same r ∧
      s.gave r t f.a 0) ∧
    (free 1 → f.a % 2 = 0 → f.c % 2 = 0 → f.lit ≤ 1 → u.priv ≠ .tenant →
      let new : BitVec 128 := u.reg (f.c + 1) ++ u.reg f.c
      let equal := word.extractLsb' 0 64 = u.reg f.a ∧ word.extractLsb' 64 48 = (u.reg (f.a + 1)).extractLsb' 0 48
      ((s.desc d).lock = true → f.lit = 0 → ∃ r, exec (.dcas t ma mb) s = .next r ∧ same r ∧ s.gave r t f.a 2) ∧
      ((s.desc d).lock = true → f.lit = 1 → ∃ r, exec (.dcas t ma mb) s = .next r ∧ s.trapped r t 5) ∧
      ((s.desc d).lock = false → ¬ equal → ∃ r, exec (.dcas t ma mb) s = .next r ∧ same r ∧ s.gave r t f.a 1) ∧
      ((s.desc d).lock = false → equal → (decodeDesc new).keySlot ≠ (s.extent (d / 65536)).keySlot →
        ∃ r, exec (.dcas t ma mb) s = .next r ∧ s.trapped r t 7) ∧
      ((s.desc d).lock = false → equal → (decodeDesc new).keySlot = (s.extent (d / 65536)).keySlot →
        (s.gathered d = true → ∃ r, exec (.dcas t ma mb) s = .next r ∧ same r ∧ s.gave r t f.a 2) ∧
        (s.gathered d = false → dcasAllowed (s.desc d) (new.extractLsb' 0 4).toNat (decodeDesc new).location (decodeDesc new).blockLen = false →
          ∃ r, exec (.dcas t ma mb) s = .next r ∧ same r ∧ s.gave r t f.a 3) ∧
        (s.gathered d = false → dcasAllowed (s.desc d) (new.extractLsb' 0 4).toNat (decodeDesc new).location (decodeDesc new).blockLen = true →
          ∃ r, exec (.dcas t ma mb) s = .next r ∧ (r.thread t).state = .deviceOp ∧ (r.thread t).reg f.a = 0 ∧
            (∀ n, n ≠ f.a → (r.thread t).reg n = u.reg n) ∧ (∀ p, p ≠ d → r.desc p = s.desc p) ∧
            r.desc d = { s.desc d with state := (decodeDesc new).state, keySlot := (decodeDesc new).keySlot
                                       location := (decodeDesc new).location, blockLen := (decodeDesc new).blockLen }))) ∧
    (s.fetches t 0x30 2 → d < 2 ^ 34 → (s.extent (d / 65536)).counts = true → f.lit = 0 → u.priv ≠ .tenant →
      (u.reg f.c).extractLsb' 16 48 = 0 → d / 65536 = (d + ((u.reg f.c).extractLsb' 0 16).toNat) / 65536 →
      ∃ r n, exec (.drel t) s = .next r ∧ same r ∧ s.gave r t f.a (BitVec.ofNat 64 n) ∧ n ≤ ((u.reg f.c).extractLsb' 0 16).toNat / 4 + 2) ∧
    (∀ errors, free 3 → u.priv ≠ .tenant → (u.reg f.c).extractLsb' 16 48 = 0 → d / 65536 = (d + ((u.reg f.c).extractLsb' 0 16).toNat) / 65536 →
      let n := ((u.reg f.c).extractLsb' 0 16).toNat + 1
      let hit := fun p => f.lit.testBit (s.desc p).state.code = true
      ∃ r v, exec (.dfind t errors) s = .next r ∧ same r ∧ s.gave r t f.a v ∧
        ((v = BitVec.allOnes 64 ∧ ∀ p, d ≤ p → p < d + n → ¬ hit p) ∨
          (d ≤ v.toNat ∧ v.toNat < d + n ∧ hit v.toNat ∧ ∀ p, d ≤ p → p < v.toNat → ¬ hit p)))

/-- R306, R331 to R333: tickets, queues, and the codes of EVAC and MWAIT. -/
def Obligations.MoverInstructionsQueueAndReturnTickets : Prop :=
  ∀ (t : Fin 32) (s : State) (ma mb : BitVec 2),
    let f := s.word t
    let u := s.thread t
    let d := (u.reg f.b).toNat
    let x := u.reg f.c
    let dest := if x.getLsbD 7 then MoverOp.demote (x.extractLsb' 0 2).toNat else .move (x.extractLsb' 0 5).toNat
    (∀ e ∈ [((fun t => .move t ma mb : Fin 32 → Instr), 0, dest), (fun t => .pack t ma mb, 1, MoverOp.pack),
        (fun t => .unpack t ma mb, 2, .unpack), (fun t => .zero t ma mb, 3, .zero)],
      let q := s.opQuad e.2.2 d
      s.fetches t 0x31 e.2.1 → s.metaHolds t (insKey 0x31 e.2.1) = false → d < 2 ^ 34 → (s.extent (d / 65536)).counts = true →
      u.priv ≠ .tenant → f.lit = 0 ∨ 32 ≤ f.lit → (if e.2.1 = 0 then x.extractLsb' 8 56 = 0 ∧ x.extractLsb' 5 2 = 0 ∧
        (if x.getLsbD 7 then x.extractLsb' 2 3 = 0 else (x.extractLsb' 0 5).toNat ≤ 23) else f.c = 0) →
      ((s.quad q).jobs.length < 4096 → ∃ r, exec (e.1 t) s = .next r ∧
        let k : BitVec 16 := BitVec.ofNat 2 q ++ (s.quad q).nextTicket
        s.gave r t f.a (k.zeroExtend 64) ∧ (∀ p, r.desc p = s.desc p) ∧
        r.quad q = { s.quad q with jobs := (s.quad q).jobs ++ [{ dlpn := d, op := e.2.2, ticket := some k }]
                                   nextTicket := (s.quad q).nextTicket + 1 } ∧
        (∀ p, p ≠ q → r.quad p = s.quad p) ∧ (r.thread t).tickets.head? = some k) ∧
      (4096 ≤ (s.quad q).jobs.length → ∃ r, exec (e.1 t) s = .next r ∧ s.trapped r t 9)) ∧
    (s.fetches t 0x31 4 → u.priv = .firmware → d ≤ 23 → x.extractLsb' 2 62 = 0 → f.lit = 0 ∨ 32 ≤ f.lit →
      let code := s.evacCode d (x.getLsbD 1)
      ∃ r, exec (.evac t) s = .next r ∧ (f.a ≠ 0 → (r.thread t).reg f.a = BitVec.ofNat 64 code) ∧
        (code = 0 → (r.chan d).state = .evacuating ∧ (r.chan d).evac.isSome) ∧
        (code ≠ 0 → s.gave r t f.a (BitVec.ofNat 64 code) ∧ r.chans = s.chans)) ∧
    (s.fetches t 0x31 5 → f.c = 0 → f.lit = 0 → u.priv ≠ .tenant →
      ((∃ k ∈ u.tickets, k.zeroExtend 64 = u.reg f.b) →
        match (Tab.get none s.ril.tickets ((u.reg f.b).toNat % 65536)).bind (·.code) with
        | some code => ∃ r, exec (.mwait t) s = .next r ∧ s.gave r t f.a (BitVec.ofNat 64 code)
        | none => ∃ r, exec (.mwait t) s = .next r ∧ (r.thread t).state = .mwait ∧ (r.thread t).mwaitReg = f.a ∧
            (r.thread t).mwaitTicket = (u.reg f.b).setWidth 16 ∧ (r.thread t).regs = u.regs ∧ (r.thread t).pc = u.pc + 4) ∧
      ((¬ ∃ k ∈ u.tickets, k.zeroExtend 64 = u.reg f.b) → ∃ r, exec (.mwait t) s = .next r ∧ s.trapped r t 4))

/-- R182, R183, R334, R335: magnitudes, scans and sweeps. -/
def Obligations.MagnitudesFollowTheSketch : Prop :=
  let table := [0, 1, 2, 3, 4, 6, 8, 12, 16, 24, 32, 48, 64, 96, 128, 192]
  let magnitudeIs := fun (s : State) (d m : Nat) => ∃ k c, k < 16 ∧ m = 15 - k ∧ table.getD k 0 ≤ c ∧ (k = 15 ∨ c < table.getD (k + 1) 0) ∧
    (∀ r, r < 4 → c ≤ (Tab.get 0 s.sketch.counters (sketchIndex d r)).toNat) ∧
    ∃ r, r < 4 ∧ c = (Tab.get 0 s.sketch.counters (sketchIndex d r)).toNat
  (∀ (t : Fin 32) (s : State),
    let f := s.word t
    let u := s.thread t
    let d := (u.reg f.b).toNat
    (s.fetches t 0x32 0 → f.c = 0 → f.lit = 0 → u.priv ≠ .tenant → d < 2 ^ 34 → (s.extent (d / 65536)).counts = true → s.sketch.parity = [] →
      ∃ r m, exec (.magr t) s = .next r ∧ magnitudeIs s d m ∧ s.gave r t f.a (BitVec.ofNat 64 m) ∧ r.sketch = s.sketch) ∧
    (s.fetches t 0x32 1 → f.lit ≤ 15 → u.priv ≠ .tenant → d < 2 ^ 34 → (s.extent (d / 65536)).counts = true → s.sketch.parity = [] →
      (u.reg f.c).extractLsb' 25 39 = 0 →
      let n := ((u.reg f.c).extractLsb' 0 16).toNat + 1
      let cap := ((u.reg f.c).extractLsb' 16 9).toNat + 1
      let x := (u.reg f.a).toNat
      d / 65536 = (d + n - 1) / 65536 → firstTrap (s.bufferTraps u x (8 * cap + 8)) = none →
      ∃ (r : State) (l : List Nat) (next : Nat), exec (.magscan t) s = .next r ∧ (f.a ≠ 0 → ((r.thread t).reg f.a) = BitVec.ofNat 64 next) ∧
        (∀ k, k ≠ f.a → (r.thread t).reg k = u.reg k) ∧ (r.thread t).pc = u.pc + 4 ∧
        d ≤ next ∧ next ≤ d + n ∧ l.length ≤ cap ∧ (next < d + n → l.length = cap) ∧ l.Pairwise (· < ·) ∧
        (∀ p, p ∈ l ↔ d ≤ p ∧ p < next ∧ ∃ m, magnitudeIs s p m ∧ m ≤ f.lit) ∧
        r.load t x 8 = BitVec.ofNat 64 l.length ∧ (∀ i, i < l.length → r.load t (x + 8 + 8 * i) 8 = BitVec.ofNat 64 (l.getD i 0)) ∧
        ∀ y, y < x ∨ x + 8 + 8 * l.length ≤ y → r.load t y 1 = s.load t y 1) ∧
    (s.fetches t 0x32 2 → f.a = 0 → f.b = 0 → f.c = 0 → f.lit = 0 → u.priv ≠ .tenant →
      ∃ r, exec (.magdecay t) s = .next r ∧ r.sketch = { s.sketch with sweeping := true, second := s.sketch.sweeping || s.sketch.second } ∧
        r.thread t = s.sequel t id)) ∧
  (∀ s : State, s.running = true →
    (s.sketch.lastDecay + s.sketch.decay.toNat * 1000000 ≤ s.time.now →
      exec .magnitudeDecay s = .next { s with sketch := { s.sketch with lastDecay := s.time.now, sweeping := true, second := s.sketch.sweeping || s.sketch.second } }) ∧
    (s.sketch.sweeping = true → Tab.wf 0 s.sketch.counters = true → ∃ r, exec .halvingSweepDone s = .next r ∧
      r = { s with sketch := { s.sketch with counters := r.sketch.counters, sweeping := s.sketch.second, second := false } } ∧
      ∀ i, (Tab.get 0 r.sketch.counters i).toNat = (Tab.get 0 s.sketch.counters i).toNat / 2))

/-- R336, R337, R376: staging and committing profile values. -/
def Obligations.QosInstructionsStageAndCommit : Prop :=
  (∀ (t : Fin 32) (s : State),
    let f := s.word t
    let u := s.thread t
    let i := (u.reg f.b).toNat
    let v := (u.reg f.c).toNat
    let others := u.staged.filter fun e => decide (e.1 ≠ i) || decide (e.2.1 ≠ f.lit)
    (s.fetches t 0x33 0 → f.a = 0 → f.lit ≤ 10 → u.priv ≠ .tenant → i ≤ 255 → s.ldExists i = true → paramOk f.lit v = true →
      (u.staged.length < 64 ∨ others.length < u.staged.length → ∃ r, exec (.qset t) s = .next r ∧ s.onlyThread r t ∧
        r.thread t = s.sequel t fun u => { u with staged := others ++ [(i, f.lit, v)] }) ∧
      (64 ≤ u.staged.length → others.length = u.staged.length → ∃ r, exec (.qset t) s = .next r ∧ s.trapped r t 6)) ∧
    (s.fetches t 0x33 1 → f.c = 0 → f.lit ≤ 10 → u.priv ≠ .tenant ∨ i = u.ld → i ≤ 255 → s.ldExists i = true →
      ∃ r, exec (.qget t) s = .next r ∧ s.onlyThread r t ∧
        r.thread t = s.sequel t fun u => u.setReg f.a (BitVec.ofNat 64 (s.paramWith s.qos.pending i f.lit))) ∧
    (s.fetches t 0x33 2 → f.b = 0 → f.c = 0 → f.lit = 0 → u.priv ≠ .tenant →
      (u.staged = [] → ∃ r, exec (.qcommit t) s = .next r ∧ s.gave r t f.a 0 ∧ r.qos = s.qos) ∧
      (u.staged ≠ [] → s.qos.pending = [] → ∃ r, exec (.qcommit t) s = .next r ∧ s.gave r t f.a (BitVec.ofNat 64 (s.judgeSet u.staged)) ∧
        (r.thread t).staged = [] ∧
        r.qos = if s.judgeSet u.staged = 0 then { s.qos with pending := u.staged, pendingAt := s.time.now } else s.qos))) ∧
  (∀ s : State, s.running = true → s.qos.pending ≠ [] → (s.qos.pending.map fun e => (e.1, e.2.1)).Nodup →
    (∀ e ∈ s.qos.pending, e.2.1 < 16) → s.qos.pendingAt / 8 < s.time.now / 8 → s.path.reqs = [] →
    ∃ r, exec .qosSetApply s = .next r ∧ r.qos.pending = [] ∧ (∀ e ∈ s.qos.pending, r.param e.1 e.2.1 = e.2.2) ∧
      ∀ i p, p < 16 → (∀ e ∈ s.qos.pending, (e.1, e.2.1) ≠ (i, p)) → Tab.get none r.qos.params (i * 16 + p) = Tab.get none s.qos.params (i * 16 + p))

/-- R302, R304, R305, R338: what the event instructions do to queues. -/
def Obligations.EventInstructionsUseTheirQueues : Prop :=
  ∀ (t : Fin 32) (s : State),
    let f := s.word t
    let u := s.thread t
    let q := (u.reg f.b).toNat
    let real := fun (q : Nat) => q < 12 ∨ (31 < q ∧ q ≤ 255)
    (s.fetches t 0x34 0 → f.a = 0 → f.lit ≤ 7 → (u.reg f.c).extractLsb' 32 32 = 0 →
      let set := (List.range (f.lit + 1)).map fun i => ((u.reg f.b).extractLsb' (8 * i) 8).toNat
      (∀ q ∈ set, real q ∧ s.mayListen u.priv u.ld q = true) →
      ∃ r, exec (.wait t) s = .next r ∧ (r.thread t).state = .wait ∧ (r.thread t).waitSet = set ∧ (r.thread t).regs = u.regs ∧
        (r.thread t).waitUntil = (if u.reg f.c = 0 then none else some (s.time.now + (u.reg f.c).toNat * 1000)) ∧
        (r.thread t).pc = u.pc + 4 ∧ r.queues = s.queues ∧ ∀ v, v ≠ t.val → r.thread v = { s.thread v with yieldFor := (r.thread v).yieldFor }) ∧
    (s.fetches t 0x34 1 → f.a = 0 → f.c = 0 → f.lit = 0 → q ≠ 0 → real q → s.mayPost u q = true →
      ((s.queue q).entries.length < 64 → ∃ r, exec (.post t) s = .next r ∧ r.thread t = s.sequel t id ∧
        r.queue q = { s.queue q with entries := (s.queue q).entries ++ [({
          g1 := u.reg 1, g2 := u.reg 2, g3 := u.reg 3, g4 := if u.priv = .tenant ∧ q = 64 then BitVec.ofNat 64 u.ld else u.reg 4,
          timebase := s.time.tb } : QEntry)] } ∧
        (∀ p, p ≠ q → r.queue p = s.queue p) ∧ r.ril.window = s.ril.window) ∧
      (64 ≤ (s.queue q).entries.length → ∃ r, exec (.post t) s = .next r ∧ s.trapped r t 9)) ∧
    (∀ m, s.fetches t 0x34 1 → f.a = 0 → f.c = 0 → f.lit = 0 → q = 0 → u.priv = .firmware → s.mboxOf (u.reg 1) = some m →
      (u.reg 3).toNat ≤ payloadBuffer m.cci → ∃ r, exec (.post t) s = .next r ∧ r.queues = s.queues ∧
        r.ril.mbox = s.ril.mbox.filter (fun x => x.tag != m.tag) ∧
        r.out = .completion m.cci (u.reg 2) ((List.range (u.reg 3).toNat).map (Memory.read m.buffer)) :: s.out ∧
        (r.thread t).pc = u.pc + 4 ∧ (r.thread t).regs = u.regs) ∧
    (s.fetches t 0x34 2 → f.lit ≤ 31 → s.mayListen u.priv u.ld q = true → real q →
      let x := (u.reg f.c).toNat
      let us := (u.reg f.a).toNat
      s.inText u x = true → x % 4 = 0 → us = 0 ∨ (10 ≤ us ∧ us < 2 ^ 32) →
      ((s.queue q).bound = none → ∃ r, exec (.bind t) s = .next r ∧ r.thread t = s.sequel t id ∧ (∀ p, p ≠ q → r.queue p = s.queue p) ∧
        r.queue q = { s.queue q with bound := some { entry := BitVec.ofNat 19 x, concurrency := f.lit + 1, owner := u.priv, ld := u.ld
                                                     period := if us = 0 then none else some (us * 1000), nextDue := s.time.now + us * 1000 } }) ∧
      ((s.queue q).bound.isSome → ∃ r, exec (.bind t) s = .next r ∧ s.trapped r t 6)) ∧
    (s.fetches t 0x34 3 → f.a = 0 → f.c = 0 → f.lit = 0 → s.mayListen u.priv u.ld q = true → real q →
      (∀ b, (s.queue q).bound = some b → u.priv = .firmware ∨ (b.owner = u.priv ∧ (u.priv = .tenant → b.ld = u.ld))) →
      ∃ r, exec (.unbind t) s = .next r ∧ r.thread t = s.sequel t id ∧ r.queue q = { s.queue q with bound := none } ∧
        ∀ p, p ≠ q → r.queue p = s.queue p)

/-- R302 to R304, R309: dispatch, timeouts, timers and the watchdog. -/
def Obligations.DispatcherStartsWaitersAndHandlers : Prop :=
  (∀ (s : State) (q : Nat) (e : QEntry) (rest : List QEntry), s.running = true → s.power.dozing = false → (s.dom 3).state = .p0 →
    (List.range 256).find? s.canServe = some q → (s.queue q).entries = e :: rest →
    let enters := fun (u : Thread) => u.reg 1 = e.g1 ∧ u.reg 2 = e.g2 ∧ u.reg 3 = e.g3 ∧ u.reg 4 = e.g4 ∧ u.reg 5 = BitVec.ofNat 64 q ∧
      u.reg 6 = e.timebase ∧ u.state = .running ∧ u.watchFrom = s.time.now
    (∀ t, s.waiter q = some t → ∃ r, exec .dispatch s = .next r ∧ (r.queue q).entries = rest ∧ enters (r.thread t) ∧
      (r.thread t).pc = (s.thread t).pc ∧ (∀ n, 6 < n → (r.thread t).reg n = (s.thread t).reg n) ∧ ∀ v, v ≠ t → r.thread v = s.thread v) ∧
    (∀ b t, s.waiter q = none → (s.queue q).bound = some b → s.threadFor (regionPriv b.entry.toNat) = some t →
      ∃ r, exec .dispatch s = .next r ∧ (r.queue q).entries = rest ∧ enters (r.thread t) ∧ (r.thread t).pc = b.entry ∧
        (∀ n, 6 < n → (r.thread t).reg n = 0) ∧ (r.thread t).priv = regionPriv b.entry.toNat ∧ (r.thread t).queue = q ∧
        (∀ v, v ≠ t → r.thread v = s.thread v) ∧ ∀ p, p ≠ q → r.queue p = s.queue p)) ∧
  (∀ (t : Fin 32) (s : State), s.running = true → (s.thread t).state = .wait →
    (∃ d, (s.thread t).waitUntil = some d ∧ d ≤ s.time.now) →
    (∀ q ∈ (s.thread t).waitSet, (s.queue q).entries = []) →
    ∃ r, exec (.waitTimeout t) s = .next r ∧ (r.thread t).state = .running ∧ (r.thread t).reg 5 = 0xFFFF ∧
      (∀ n ∈ [1, 2, 3, 4, 6], (r.thread t).reg n = 0) ∧ (∀ n, 6 < n → (r.thread t).reg n = (s.thread t).reg n) ∧
      (r.thread t).watchFrom = s.time.now ∧ (∀ v, v ≠ t.val → r.thread v = s.thread v) ∧ r.queues = s.queues) ∧
  (∀ (q : Fin 256) (s : State) (b : Binding) (p : Nat), s.running = true → (s.queue q).bound = some b → b.period = some p → b.nextDue ≤ s.time.now →
    ∃ r, exec (.queueTimerExpiry q) s = .next r ∧ (r.queue q).bound = some { b with nextDue := b.nextDue + p } ∧
      (∀ v, v ≠ q.val → r.queue v = s.queue v) ∧
      ((s.queue q).entries.any (·.timer) = true → (r.queue q).entries.map (fun e : QEntry => { e with g1 := 0, g2 := 0 }) =
          (s.queue q).entries.map (fun e : QEntry => { e with g1 := 0, g2 := 0 }) ∧
        ∀ (i : Nat) (e : QEntry), (s.queue q).entries[i]? = some e → e.timer = true →
          ((r.queue q).entries[i]?.map fun x => (x.g1, x.g2)) = some (e.g1 + 1, s.time.tb)) ∧
      ((s.queue q).entries.any (·.timer) = false → (s.queue q).entries.length < queueCap q →
        (r.queue q).entries = (s.queue q).entries ++ [{ g1 := 1, g2 := s.time.tb, timebase := s.time.tb, timer := true }])) ∧
  (∀ (t : Fin 32) (s : State), s.running = true → (s.thread t).watchFrom + 10000000 ≤ s.time.now →
    ((s.thread t).state = .running → ∃ r, exec (.watchdogExpiry t) s = .next r ∧ s.trapped r t 8) ∧
    ((s.thread t).state = .deviceOp → exec (.watchdogExpiry t) s = .next (s.modThread t fun u => { u with late := true })))

/-- R339, R340: counters, tallies and the register window as a thread reaches them. -/
def Obligations.ObservationAndWindowInstructionsAct : Prop :=
  ∀ (t : Fin 32) (s : State),
    let f := s.word t
    let u := s.thread t
    let b := (u.reg f.b).toNat
    let x := (u.reg f.b).toNat
    (s.fetches t 0x35 0 → f.c = 0 → u.priv ≠ .tenant → b ≤ 63 →
      ((s.dom (ctrDomain b)).state = .p3 → 1 ≤ f.lit → f.lit ≤ 10 → ∃ r, exec (.ctrr t) s = .next r ∧ s.gave r t f.a 0) ∧
      ((s.dom (ctrDomain b)).state ≠ .p3 →
        (1 ≤ f.lit → f.lit ≤ 8 → ∃ r, exec (.ctrr t) s = .next r ∧ s.gave r t f.a ((Tab.get 0 (r.ctr b).pmc (f.lit - 1)).zeroExtend 64)) ∧
        (f.lit = 10 → ∃ r, exec (.ctrr t) s = .next r ∧ s.gave r t f.a ((r.ctr b).ovf.zeroExtend 64)) ∧
        (16 ≤ f.lit → f.lit ≤ 23 → ∃ r, exec (.ctrr t) s = .next r ∧ s.gave r t f.a ((Tab.get 0 (r.ctr b).sel (f.lit - 16)).zeroExtend 64)))) ∧
    (s.fetches t 0x35 1 → u.priv ≠ .tenant → b ≤ 63 → (s.dom (ctrDomain b)).state ≠ .p3 →
      (1 ≤ f.lit → f.lit ≤ 8 → (u.reg f.c).toNat < 2 ^ 48 → ∃ r old, exec (.ctrw t) s = .next r ∧ s.gave r t f.a old ∧ old.toNat < 2 ^ 48 ∧
        Tab.get 0 (r.ctr b).pmc (f.lit - 1) = (u.reg f.c).setWidth 48) ∧
      (f.lit = 10 → (u.reg f.c).toNat < 2 ^ 8 → ∃ r old, exec (.ctrw t) s = .next r ∧ s.gave r t f.a old ∧
        (r.ctr b).ovf = old.setWidth 8 &&& ~~~ (u.reg f.c).setWidth 8)) ∧
    (s.fetches t 0x35 2 → f.a = 0 → f.lit = 0 → u.priv ≠ .tenant → b ≤ 63 →
      let old := (Tab.get none s.rec_.opened b).getD (openTally b s)
      let th := s.rec_.threshold (tallySeverity b)
      ((16 ≤ th ∨ (old.count + 1).toNat < 2 ^ th) → ∃ r new, exec (.tally t) s = .next r ∧ r.thread t = s.sequel t id ∧
        Tab.get none r.rec_.opened b = some new ∧ new.count = old.count + 1 ∧ new.sum = satAdd old.sum (u.reg f.c).toNat ∧
        new.largest = (if old.largest.toNat < (u.reg f.c).toNat then u.reg f.c else old.largest) ∧
        new.smallest = (if (u.reg f.c).toNat < old.smallest.toNat then u.reg f.c else old.smallest) ∧ r.rec_.store = s.rec_.store)) ∧
    (s.fetches t 0x36 0 → f.c = 0 → f.lit = 0 → u.priv ≠ .tenant →
      (x % 8 = 0 → x < 0x10000 → s.alm.upd = false → ∃ r, exec (.rdreg t) s = .next r ∧ s.onlyThread r t ∧
        r.thread t = s.sequel t fun u => u.setReg f.a (s.almRead (x / 8))) ∧
      (x % 8 ≠ 0 → ∃ r, exec (.rdreg t) s = .next r ∧ s.trapped r t 3) ∧
      (x % 8 = 0 → 0x4000000 ≤ x → ∃ r, exec (.rdreg t) s = .next r ∧ s.trapped r t 4)) ∧
    (s.fetches t 0x36 1 → f.c = 0 → f.lit = 0 → u.priv = .firmware →
      (x % 8 = 0 → x < 0x4000000 → ∃ s1, s.onlyThread s1 t ∧ s1.thread t = { s.thread t with
          pc := (s.thread t).pc + 4, yieldFor := [], comet := (s1.thread t).comet } ∧
        exec (.wrreg t) s = .next (afterWord t true (writeWindow64 (.rilia t) x true (u.reg f.a) s1)) ∧
        (x < 0x10000 → writeWindow64 (.rilia t) x true (u.reg f.a) s1 = s1)) ∧
      (x % 8 ≠ 0 → ∃ r, exec (.wrreg t) s = .next r ∧ s.trapped r t 3))

/-- R342 to R345: grants, recalls, the snapshot and key slots. -/
def Obligations.CapacityAndKeyInstructionsAct : Prop :=
  ∀ (t : Fin 32) (s : State),
    let f := s.word t
    let u := s.thread t
    let k := (u.reg f.b).toNat
    (s.fetches t 0x37 0 → u.priv ≠ .tenant → badGrant f u = false → badDoneQueue f = false →
      let g := grantOf f u
      (u.ksel = none → ∃ r, exec (.extgrant t) s = .next r ∧ s.trapped r t 7) ∧
      (u.ksel.isSome → s.keyGives g.slot g.ld = true → s.ident.role = true →
        ∃ r code first, exec (.extgrant t) s = .next r ∧ (f.a ≠ 0 → (r.thread t).reg f.a = BitVec.ofNat 64 (code + if code = 0 then 256 * first else 0)) ∧
          (r.thread t).state = .running ∧ (r.thread t).pc = u.pc + 4 ∧
          (code ≠ 0 → r.cap = s.cap ∧ r.allocs = s.allocs ∧ r.mdata = s.mdata) ∧
          (g.map = none → s.frozen = true → code = 1) ∧
          (code = 0 → g.map = none → ∀ i, i < g.count → (r.extent (first + i)).state ≠ .free ∧ (r.extent (first + i)).ld = BitVec.ofNat 8 g.ld ∧
            (r.extent (first + i)).block = BitVec.ofNat 24 (g.block + i) ∧ (r.extent (first + i)).keySlot = BitVec.ofNat 12 g.slot)) ∧
      (u.ksel.isSome → s.keyGives g.slot g.ld = true → s.ident.role = false → s.frozen = false →
        ∃ r, exec (.extgrant t) s = .next r ∧ (r.thread t).state = .deviceOp ∧ (r.thread t).resultReg = f.a ∧ r.cap = s.cap ∧
          r.const.admits = s.const.admits ++ [{ tag := s.const.nextTag, thread := some (t.val, f.a), cci := none, grant := g }])) ∧
    (s.fetches t 0x37 1 → f.c = 0 → f.lit ≤ 2 → u.priv ≠ .tenant → k < 2 ^ 18 →
      let x := s.extent k
      let listed := k ∈ s.cap.releaseList
      let code : Nat := if x.state ≠ .active then 1 else if (f.lit = 0 ∧ listed) ∨ (f.lit = 2 ∧ ¬ listed) then 4
        else if f.lit = 0 ∧ x.loaned = false then 2 else if f.lit = 0 ∧ 1024 ≤ s.cap.releaseList.length then 3 else 0
      ∃ r, exec (.extrecall t) s = .next r ∧ s.gave r t f.a (BitVec.ofNat 64 code) ∧
        (code ≠ 0 → r.cap = s.cap) ∧
        (code = 0 → f.lit = 0 → r.cap = { s.cap with releaseList := s.cap.releaseList ++ [k] }) ∧
        (code = 0 → f.lit = 2 → r.cap = { s.cap with releaseList := s.cap.releaseList.erase k }) ∧
        (code = 0 → f.lit = 1 → (r.extent k).state = .releaseReq ∧ r.cap.releaseList = s.cap.releaseList.erase k ∧
          ∀ e, e ≠ k → r.extent e = s.extent e)) ∧
    (s.fetches t 0x37 2 → f.c = 0 → f.lit = 0 → u.priv ≠ .tenant → firstTrap (s.bufferTraps u k 80) = none →
      ∃ r, exec (.capq t) s = .next r ∧ (r.thread t).reg f.a = (if f.a = 0 then 0 else s.capStatus &&& 0xF#64) ∧
        (∀ n, n ≠ f.a → (r.thread t).reg n = u.reg n) ∧ (r.thread t).pc = u.pc + 4 ∧
        (∀ i, i < 10 → r.load t (k + 8 * i) 8 = ([s.capP, s.capF, s.capAR, s.capLU, s.cap.g, s.cap.z, s.cap.m].map (BitVec.ofNat 64 ·) ++
          [BitVec.ofInt 64 s.capU, BitVec.ofNat 64 s.logicalExtents,
            BitVec.ofNat 64 s.logicalCap]).getD i 0) ∧
        ∀ y, y < k ∨ k + 80 ≤ y → r.load t y 1 = s.load t y 1) ∧
    (s.fetches t 0x38 0 → f.a = 0 → f.c = 0 → f.lit = 0 → u.priv ≠ .tenant → k ≤ 4095 → k ≠ 0 →
      (((s.keySlot k).state = .loaded ∨ (s.keySlot k).state = .bound) → ∃ r, exec (.ksel t) s = .next r ∧ s.onlyThread r t ∧
        r.thread t = s.sequel t fun u => { u with ksel := some k }) ∧
      ((s.keySlot k).state = .empty ∨ (s.keySlot k).state = .closing → ∃ r, exec (.ksel t) s = .next r ∧ s.trapped r t 7)) ∧
    (∀ y, s.fetches t 0x38 1 → f.a = 0 → f.lit = 0 → u.priv = .firmware → (u.reg f.c).toNat ≤ 4095 → (u.reg f.c).toNat ≠ 0 →
      s.keys.staged.find? (fun k => k.handle.setWidth 64 == u.reg f.b) = some y → (s.keySlot (u.reg f.c).toNat).state = .empty →
      ∃ r, exec (.kload t) s = .next r ∧ r.thread t = s.sequel t id ∧ y ∉ r.keys.staged ∧
        (r.keySlot (u.reg f.c).toNat).state = .loaded ∧ (r.keySlot (u.reg f.c).toNat).owner = y.owner ∧
        (r.keySlot (u.reg f.c).toNat).key = y.key ∧ ∀ n, n ≠ (u.reg f.c).toNat → r.keySlot n = s.keySlot n) ∧
    (s.fetches t 0x38 2 → f.a = 0 → f.c = 0 → f.lit = 0 → u.priv ≠ .tenant → k ≤ 4095 → k ≠ 0 →
      ((s.keySlot k).state = .loaded ∨ (s.keySlot k).state = .empty → ∃ r, exec (.kzero t) s = .next r ∧ r.thread t = s.sequel t id ∧
        r.keySlot k = {} ∧ ∀ n, n ≠ k → r.keySlot n = s.keySlot n) ∧
      ((s.keySlot k).state = .bound ∨ (s.keySlot k).state = .closing → ∃ r, exec (.kzero t) s = .next r ∧ s.trapped r t 7))

/-- R450, R454, R457: the states of a slot on its way to ON. -/
def Obligations.SlotsRiseThroughTheirStates : Prop :=
  ∀ (n : Fin 48) (s : State), s.start.vaon = true → s.start.powered = true → s.faults.halted = false →
    let u := s.slot n
    let now := s.time.now
    let ramping := ((List.range 48).filter fun m => (s.slot m).state = .auxUp ∨ (s.slot m).state = .ramp).length
    let only := fun (r : State) (v : Slot) => r.slot n = v ∧ (∀ m, m ≠ n.val → r.slot m = s.slot m)
    let aux : Slot := { u with state := .auxUp, since := now, timer := 0, timerMark := now, limiting := false, restored := false
                               rampNow := u.ramp, rampTripNow := u.rampTripA, auxTimerNow := u.auxTimer }
    (∀ rest, s.slotMgr.queue = n.val :: rest → u.state = .off → ramping < 8 → (∀ t, s.slotMgr.lastStart = some t → t + 100000 ≤ now) →
      ∃ r, exec (.slotAuxUpStart n) s = .next r ∧ only r { aux with retriesLeft := u.retries } ∧
        r = { s with slots := r.slots, slotMgr := { queue := rest, lastStart := some now } }) ∧
    (u.state = .auxUp → u.since + 1000000 ≤ now → ∃ r, exec (.slotAuxUpDone n) s = .next r ∧
      only r { u with state := .ramp, since := now } ∧ r = { s with slots := r.slots }) ∧
    (u.state = .ramp → u.since + 24000000 / u.rampNow.toNat ≤ now → ∃ r, exec (.slotRampDone n) s = .next r ∧
      only r { u with state := .qualify, since := now, qualFrom := now } ∧ r = { s with slots := r.slots }) ∧
    (u.state = .qualify → u.limiting = false → u.qualFrom + 5000000 ≤ now → u.timerMark + u.timer + 5000000 ≤ now →
      ∃ r, exec (.slotQualifyDone n) s = .next r ∧ only r { u with state := .on, since := now, restored := false } ∧
        r = { s with slots := r.slots, start := r.start } ∧
        (s.start.phase ≠ 7 → r.start = s.start) ∧
        (s.start.phase = 7 → s.slotMgr.queue = [] → (∀ m, m ≠ n.val → (s.slot m).state ∈ [SlotState.off, .on, .latched]) →
          r.start = { s.start with phase := 8, phase8At := now })) ∧
    (u.state = .on → u.restored = false → u.since + 10000000000 ≤ now → ∃ r, exec (.slotRetryRestore n) s = .next r ∧
      only r { u with retriesLeft := u.retries, restored := true } ∧ r = { s with slots := r.slots }) ∧
    (u.state = .backoff → u.since + 100000000 ≤ now → ramping < 8 → ∃ r, exec (.slotBackoffDone n) s = .next r ∧
      only r aux ∧ r = { s with slots := r.slots })

/-- R449 to R458: faults, presence, measurement and commands of a slot. -/
def Obligations.SlotBreakersAndCommandsAct : Prop :=
  ∀ (n : Fin 48) (s : State), s.start.vaon = true → s.start.powered = true → s.faults.halted = false →
    let u := s.slot n
    let now := s.time.now
    let ch := (s.chan (n.val / 2)).state
    let others := fun (r : State) => ∀ m, m ≠ n.val → r.slot m = s.slot m
    let draws := u.state ∈ [SlotState.auxUp, .ramp, .qualify, .on]
    let faulted := fun (r : State) => others r ∧
      (u.retriesLeft ≠ 0 → (r.slot n).state = .backoff ∧ (r.slot n).retriesLeft = u.retriesLeft - 1 ∧ (r.slot n).latches = u.latches) ∧
      (u.retriesLeft = 0 → (r.slot n).state = .latched ∧ (r.slot n).latches = satAdd u.latches 1) ∧ (r.slot n).since = now
    let free := fun (c : ChanState) => c ∈ [ChanState.absent, .evacuated, .retired, .trainFailed]
    (∀ ma : BitVec 32, draws → ch ≠ .active → u.prsnt = true →
      (u.state = .auxUp ∨ u.state = .ramp → 1000 * u.rampTripNow.toNat ≤ ma.toNat → ∃ r, exec (.slot12vTrip n ma) s = .next r ∧ faulted r ∧
        (r.slot n).rampTrip = satAdd u.rampTrip 1 ∧ (r.slot n).lastFault = 2) ∧
      (u.state = .qualify ∨ u.state = .on → 1000 * u.tripA.toNat ≤ ma.toNat → ∃ r, exec (.slot12vTrip n ma) s = .next r ∧ faulted r ∧
        (r.slot n).trip12 = satAdd u.trip12 1 ∧ (r.slot n).lastFault = 1)) ∧
    (draws → ch ≠ .active → u.limiting = true → 250000 * u.auxTimerNow.toNat * 8 ≤ u.timer + 8 * (now - u.timerMark) →
      ∃ r, exec (.auxTimerExpiry n) s = .next r ∧ faulted r ∧ (r.slot n).auxTo = satAdd u.auxTo 1 ∧ (r.slot n).lastFault = 3) ∧
    (draws → u.limiting = false → exec (.auxLimitEngage n) s =
      .next (s.modSlot n fun u => { u with limiting := true, timer := u.timer - (now - u.timerMark), timerMark := now })) ∧
    (draws → u.limiting = true → exec (.auxLimitRelease n) s =
      .next (s.modSlot n fun u => { u with limiting := false, timer := u.timer + 8 * (now - u.timerMark), timerMark := now })) ∧
    (draws → u.limiting = false → u.timer ≠ 0 → u.timer ≤ now - u.timerMark → ∃ r, exec (.auxFaultTimerIdle n) s = .next r ∧ others r ∧
      r = { s with slots := r.slots } ∧ r.slot n = { u with timer := 0, timerMark := u.timerMark + u.timer, qualFrom := max u.qualFrom (u.timerMark + u.timer) }) ∧
    exec (.slotPresenceAssert n) s = .next (noteHealth (s.modSlot n fun u => { u with prsnt := true })) ∧
    (u.prsnt = true → ch ≠ .active → ∃ r, exec (.slotPresenceLoss n) s = .next r ∧ others r ∧ (r.slot n).prsnt = false ∧
      (s.slotMgr.queue.Nodup → n.val ∉ r.slotMgr.queue) ∧
      (u.state = .off ∨ u.state = .latched → (r.slot n).state = u.state) ∧
      (u.state ≠ .off → u.state ≠ .latched → (r.slot n).state = .off ∧ (r.slot n).prsntLoss = satAdd u.prsntLoss 1)) ∧
    (∀ mean : BitVec 32, u.windowEnd + 1000000 ≤ now → exec (.slotMeasWindow n mean) s = .next (s.modSlot n fun u =>
      { u with i12 := mean, peak := if u.peak < mean then mean else u.peak, windowEnd := now / 1000000 * 1000000 })) ∧
    (free ch ∨ ch = .untrained →
      (u.state = .off → u.prsnt = true → n.val ∉ s.slotMgr.queue → exec (.slotOn n) s =
        .next { s with slotMgr := { s.slotMgr with queue := s.slotMgr.queue ++ [n.val] } }) ∧
      (u.state = .latched → exec (.slotRearm n) s = .next (noteHealth (s.modSlot n fun u => { u with state := .off, since := now, retriesLeft := u.retries })))) ∧
    (free ch → u.state ≠ .latched → ∃ r, exec (.slotOff n) s = .next r ∧ others r ∧ (r.slot n).state = .off ∧
      r = { s with slots := r.slots, slotMgr := { s.slotMgr with queue := s.slotMgr.queue.erase n }, start := r.start }) ∧
    (ch = .active ∨ ch = .evacuating → ∀ e ∈ [((.slotOn : Fin 48 → Instr)), .slotOff, .slotRearm], ∃ r, exec (e n) s = .next r ∧ others r ∧
      r.slot n = { u with refused := true } ∧ r.slotMgr = s.slotMgr)

/-- R465, R466, R470, R472, R474: what a request for a power state does. -/
def Obligations.PowerDomainRequestsStartWaitOrAreRefused : Prop :=
  ∀ (dm : Fin 55) (s : State), s.start.powered = true → s.faults.halted = false →
    let d := s.dom dm
    let i := dm.val
    let now := s.time.now
    let only := fun (r : State) (v : Dom) => r.dom dm = v ∧ (∀ j, j ≠ i → r.dom j = s.dom j) ∧
      r = { s with power := { s.power with doms := r.power.doms } }
    let asks : List (Instr × PState × Prop) :=
      [(.pwrDomReqP1 dm, .p1, True), (.pwrDomReqP2 dm, .p2, True), (.pwrDomReqP3 dm, .p3, True),
       (.idleP1Expiry dm, .p1, d.idleP1 ≠ 0 ∧ d.lastWork + 100 * d.idleP1.toNat ≤ now ∧ s.domIdle i = true),
       (.idleP2Expiry dm, .p2, d.idleP2 ≠ 0 ∧ i ≠ 3 ∧ d.lastWork + 1000 * d.idleP2.toNat ≤ now ∧ s.domIdle i = true)]
    (∀ c ∈ [Instr.pwrDomReqP0 dm, .domainWakeAccess dm], ∃ r, exec c s = .next r ∧
      (d.trans = .none → d.state = .p1 ∨ d.state = .p2 → only r { d with trans := .exiting, wakes := satAdd d.wakes 1, lastWork := now }) ∧
      (d.trans = .none → d.state = .p0 ∨ d.state = .p3 → only r { d with lastWork := now }) ∧
      (d.trans = .exiting → only r { d with lastWork := now }) ∧
      (∀ dest k, d.trans = .entering dest k → k ≤ 2 ∨ dest ≠ .p3 → only r { d with wake := true, lastWork := now }) ∧
      (∀ k, d.trans = .entering .p3 k → 3 ≤ k → only r { d with lastWork := now })) ∧
    (∀ x ∈ asks, x.2.2 → ∃ r, exec x.1 s = .next r ∧
      (s.domAllows i x.2.1 = false → only r { d with refused := true }) ∧
      (s.domAllows i x.2.1 = true →
        (d.trans = .none → d.state = x.2.1 ∨ d.state = .p3 → only r d) ∧
        (d.trans = .none → d.state = .p0 → only r { d with trans := .entering x.2.1 0 }) ∧
        (d.trans = .none → d.state = .p1 → x.2.1 ≠ .p1 → only r { d with trans := .entering x.2.1 2 }) ∧
        (d.trans = .none → d.state = .p2 → x.2.1 = .p3 → only r { d with trans := .entering .p3 4 }) ∧
        (d.trans = .none → d.state = .p2 → x.2.1 = .p1 →
          only r { d with trans := .exiting, pending := some .p1, wakes := satAdd d.wakes 1 }) ∧
        (d.trans = .exiting → only r { d with pending := some x.2.1 }) ∧
        (∀ dest k, d.trans = .entering dest k → d.state ≠ x.2.1 → only r { d with pending := some x.2.1 }))) ∧
    (i < 3 → ∀ p, p ≠ .p0 → s.domAllows i p = false) ∧
    (i = 3 → s.domAllows i .p2 = false ∧ s.domAllows i .p3 = false) ∧
    (4 ≤ i → i < 28 → let h := s.chan (i - 4)
      (s.domAllows i .p1 = true ↔ h.state = .active) ∧ s.domAllows i .p2 = s.domAllows i .p1 ∧
      (s.domAllows i .p3 = true ↔ h.state = .absent ∨ h.state = .evacuated ∨ h.state = .retired ∨ h.state = .trainFailed)) ∧
    (28 ≤ i → i < 44 → let lead := s.port (s.leaderOf (i - 28))
      s.domAllows i .p1 = (s.port (i - 28)).downLatched ∧ s.domAllows i .p2 = false ∧
      (s.domAllows i .p3 = true → lead.cfg.enable = false)) ∧
    (44 ≤ i → i < 47 → let l := s.uli (i - 44)
      s.domAllows i .p1 = false ∧ s.domAllows i .p2 = false ∧
      (s.domAllows i .p3 = true ↔ l.lstate = .down ∧ l.prsnt = false ∨ l.lstate = .retired ∨ l.enable = false)) ∧
    (47 ≤ i → let c := s.cluster (i - 47)
      (s.domAllows i .p1 = true ↔ c.queue = []) ∧ (s.domAllows i .p2 = true ↔ c.queue = []) ∧
      (s.domAllows i .p3 = true ↔ c.cmpIn = 0 ∧ c.dcmpIn = 0 ∧ c.xtsIn = 0))

/-- R471, R472, R474, R489: the steps of an entry, the abort points and the exit. -/
def Obligations.PowerDomainEntriesRunTheirSteps : Prop :=
  ∀ (dm : Fin 55) (s : State), s.start.powered = true → s.faults.halted = false →
    let d := s.dom dm
    let clocks := fun (r : State) (g : Bool) => ∀ b, b < 64 → ctrDomain b = dm.val → (r.ctr b).gated = g
    let frame := fun (r : State) => (∀ j, j ≠ dm.val → r.dom j = s.dom j) ∧
      r = { s with power := { s.power with doms := r.power.doms }, ctrs := r.ctrs, chans := r.chans } ∧
      (∀ c, dm.val ≠ 4 + c → r.chan c = s.chan c) ∧ (∀ b, b < 64 → ctrDomain b ≠ dm.val → r.ctr b = s.ctr b)
    let restored := fun (r : State) (aborts wakes : BitVec 8) => frame r ∧ clocks r false ∧ (r.dom dm).state = .p0 ∧
      (r.dom dm).aborts = aborts ∧ (r.dom dm).wakes = wakes ∧ (r.dom dm).wake = false ∧ (r.dom dm).lastWork = s.time.now ∧
      (d.pending = none → (r.dom dm).trans = .none ∧ (r.dom dm).pending = none)
    (∀ dest, d.trans = .entering dest 0 → s.drained dm = false → exec (.domainEntryStepDone dm) s = .next s) ∧
    (∀ dest k, d.trans = .entering dest k → (k = 0 → s.drained dm = true) → ∃ r, exec (.domainEntryStepDone dm) s = .next r ∧ frame r ∧
      (k = 1 → d.wake = false → clocks r true) ∧
      (k = 0 → d.wake = false → ∀ c, c < 24 → dm.val = 4 + c → (r.chan c).selfRefresh = true ∨ (r.chan c).srPending = true) ∧
      (k ≤ 2 → d.wake = true → restored r (satAdd d.aborts 1) (satAdd d.wakes 1)) ∧
      (k ≤ 3 → ¬ (k = 1 ∧ dest = .p1) → k = 3 ∨ d.wake = false → r.dom dm = { d with trans := .entering dest (k + 1) }) ∧
      (k = 4 ∨ k = 1 ∧ dest = .p1 → d.wake = false → d.pending = none → r.dom dm = { d with state := dest, trans := .none }) ∧
      (k = 4 → d.wake = true → r.dom dm = { d with state := dest, trans := .exiting, wake := false, wakes := satAdd d.wakes 1 }) ∧
      (k = 4 ∨ k = 1 ∧ dest = .p1 → d.wake = false → d.pending = some .p3 → dest = .p1 ∨ dest = .p2 → s.domAllows dm .p3 = true →
        r.dom dm = { d with state := dest, trans := .entering .p3 (if dest = .p1 then 2 else 4), pending := none })) ∧
    (d.trans = .exiting → ∃ r, exec (.domainExitDone dm) s = .next r ∧ restored r d.aborts d.wakes)

/-- R475, R476: D-Doze. -/
def Obligations.DozeRefusesOrSleepsAndWakes : Prop :=
  ∀ (s : State), s.start.powered = true → s.faults.halted = false →
    let frame := fun (r : State) => r = { s with power := r.power, ctrs := r.ctrs, chans := r.chans } ∧ r.dom 0 = s.dom 0
    let all := fun (r : State) (p : PState) => ∀ i, 0 < i → i < 55 →
      ((s.dom i).state = .p3 → r.dom i = s.dom i) ∧
      ((s.dom i).state ≠ .p3 → (r.dom i).state = p ∧ (r.dom i).trans = .none ∧ (r.dom i).pending = none ∧ (r.dom i).wake = false ∧
        ∀ b, b < 64 → ctrDomain b = i → (r.ctr b).gated = decide (p ≠ .p0))
    (s.start.entry = .none → s.power.dozing = false →
      (s.dozeRefusal = 0 → ∃ r, exec .doze s = .next r ∧ frame r ∧ r.power.dozing = true ∧ all r .p2 ∧
        ∀ c, c < 24 → (s.chan c).state = .active → (r.chan c).selfRefresh = true ∨ (r.chan c).srPending = true) ∧
      (s.dozeRefusal ≠ 0 → exec .doze s = .next { s with power := { s.power with
        dozeRefused := true, refuseCause := BitVec.ofNat 3 s.dozeRefusal } }) ∧
      (∀ p, p < 16 → (s.port p).up = true → s.dozeRefusal = 1) ∧
      ((∀ p, (s.port p).up = false ∧ (s.port p).training = false) →
        (∀ u, u < 3 → (s.uli u).lstate = .active → s.dozeRefusal = 2) ∧
        ((∀ u, (s.uli u).lstate = .down ∨ (s.uli u).lstate = .detect ∨ (s.uli u).lstate = .retired) →
          (∀ c, c < 24 → (s.chan c).evac.isSome = true → s.dozeRefusal = 3) ∧
          ((∀ q, (s.quad q).records = [] ∧ (s.quad q).jobs = [] ∧ (s.quad q).heatJobs = []) → (∀ c, (s.chan c).evac = none) →
            (s.ril.mbox ≠ [] → s.dozeRefusal = 4) ∧
            (s.ril.mbox = [] → (∀ e ∈ s.ccis, e.2.background.running = false) →
              s.dozeRefusal = if s.img.act.isSome then 5 else 0))))) ∧
    (∀ cause : BitVec 3, cause ≠ 0 → s.power.dozing = true → ∃ r, exec (.dozeWake cause) s = .next r ∧ frame r ∧
      r.power.dozing = false ∧ r.power.wakeCause = cause ∧ all r .p0)

/-- R482, R485, R487, R488: what changes the timebase beside its increments. -/
def Obligations.TimebaseIsSetSteeredAndKeptInFallback : Prop :=
  ∀ (s : State), s.start.powered = true →
    let now := s.time.now
    exec .refclkLoss s = .next { s with time := { s.time with fallback := true } } ∧
    exec .refclkRestore s = .next { s with time := { s.time with fallback := false } } ∧
    (s.faults.halted = false → s.start.entry = .none → s.ident.role = true → ∀ v : BitVec 64, ∃ r, exec (.tbSet v) s = .next r ∧
      r.time = { s.time with tb := v, uncert := 0, fallbackNs := 0, setEver := true } ∧
      ((s.queue 11).entries.length < 64 → (r.queue 11).entries = (s.queue 11).entries ++ [{ g1 := s.time.tb, g2 := v, timebase := v }]) ∧
      (∀ q, q ≠ 11 → r.queue q = s.queue q) ∧ r.dram = s.dram ∧ r.cap = s.cap ∧ r.threads = s.threads ∧ r.power = s.power) ∧
    (s.ident.role = false → s.time.slewAt + 1000000 / s.time.slewPpm.toNat ≤ now →
      (0 < s.time.slew → exec .timebaseSlew s = .next { s with time := { s.time with
        tb := s.time.tb + 1, slewAt := now, slew := if s.time.freeRun then s.time.slew else s.time.slew - 1 } }) ∧
      (s.time.slew < 0 → exec .timebaseSlew s = .next { s with time := { s.time with
        tb := s.time.tb - 1, slewAt := now, slew := if s.time.freeRun then s.time.slew else s.time.slew + 1 } })) ∧
    (s.faults.halted = false → s.start.entry = .none → s.ident.role = false → s.time.freeRun = false → s.time.parentAt + 8192 ≤ now →
      ∃ r, exec .timebaseFreeRun s = .next r ∧ { s with time := { s.time with sync := false, freeRun := true } }.Reports r ∧
        r.holds 693 = true)

/-- R429, R492 to R494, R500, R508: supplies and cold starts. -/
def Obligations.LossOfPowerLeavesOnlyWhatPowerDoesNotHold : Prop :=
  ∀ s : State,
    let lost := fun (r : State) => r.dram = [] ∧ r.mdata = {} ∧ r.cap = {} ∧ r.quads = [] ∧ r.gather = {} ∧ r.path = {} ∧ r.ril = {} ∧
      r.threads = [] ∧ r.queues = [] ∧ r.lds = [] ∧ r.allocs = [] ∧ r.img.tenants = [] ∧ r.img.act = none ∧ r.const.members = [] ∧
      r.const.epoch = Config.drawn s.draws ∧ r.keys.staged = [] ∧
      (∀ n, n < 48 → r.slot n = { prsnt := (s.slot n).prsnt }) ∧ (∀ p, p < 16 → r.port p = { perst := (s.port p).perst }) ∧
      (∀ u, u < 3 → r.uli u = { prsnt := (s.uli u).prsnt }) ∧
      (∀ c, c < 24 → (r.chan c).state = if (s.slot (2 * c)).prsnt ∨ (s.slot (2 * c + 1)).prsnt then .untrained else .absent)
    let kept := fun (r : State) => r.ident.serial = s.ident.serial ∧ r.ident.variant = s.ident.variant ∧
      r.img = { s.img with opRuns := false, tenants := [], loads := [], act := none, lastSwap := 0 } ∧
      r.integ.softFuse = s.integ.softFuse ∧ r.integ.spares = s.integ.spares
    (s.start.powered = true → ∃ r, exec .pwrOkDeassert s = .next r ∧ lost r ∧ kept r ∧ r.time = {} ∧ r.rec_ = {} ∧ r.ident.role = true ∧
      r.faults = { haltSource := s.faults.haltSource, haltValid := s.faults.haltValid, haltTime := s.faults.haltTime } ∧
      r.start = { vaon := s.start.vaon, resetLow := s.start.resetLow, powered := false, qspi := false }) ∧
    (∃ r, exec .vaonPowerLoss s = .next r ∧ lost r ∧ kept r ∧ r.time = {} ∧ r.rec_ = {} ∧ r.faults = {} ∧
      r.start.vaon = false ∧ r.start.powered = false ∧ r.start.alive = false) ∧
    (s.start.vaon = false → ∃ r, exec .vaonPowerUp s = .next r ∧ r = { s with slots := r.slots, start := { s.start with
        vaon := true, powered := false } } ∧
      (∀ n, n < 48 → r.slot n = { s.slot n with state := .off, limiting := false })) ∧
    (∀ (role : Bool) (devId : BitVec 2), s.start.vaon = true → s.start.powered = false →
      ∃ r, exec (.pwrOkAssert role devId none) s = .next r ∧ lost r ∧ kept r ∧ r.time = {} ∧
        r.ident.role = role ∧ r.ident.devId = devId ∧ r.ident.strapErr = (role && decide (devId ≠ 0)) ∧
        r.start = { resetLow := s.start.resetLow } ∧ r.power.latched = true ∧ r.power.cxlLatched = true ∧
        r.faults.haltSource = s.faults.haltSource ∧ r.faults.haltValid = s.faults.haltValid ∧ r.faults.haltTime = s.faults.haltTime ∧
        (r.faults.live = if role && decide (devId ≠ 0) then [692] else []))

/-- R249, R500 to R504, R508: warm and immediate resets. -/
def Obligations.WarmAndImmediateResetsEnterAndRestart : Prop :=
  ∀ s : State, s.start.powered = true → s.faults.halted = false →
    let now := s.time.now
    let restarted := fun (r : State) (kind : BitVec 2) => r.start.kind = kind ∧ r.start.cause = s.start.cause ∧
      (s.start.resetLow = true → r.start.entry = .holding) ∧
      (s.start.resetLow = false → r.start.entry = .none ∧ r.start.phase = 2 ∧ r.start.phase2At = now) ∧
      r.start.memValid = s.start.memValid ∧ r.start.earlyDone = false ∧ r.start.memActive = 0 ∧ r.start.immTimes = s.start.immTimes ∧
      r.power.latched = true ∧ r.power.cxlLatched = true ∧ r.power.dozing = false ∧
      (∀ i, i < 55 → r.dom i = if i ∈ r.outOfService then { state := .p3 } else {}) ∧ r.time = s.time ∧ r.ident = s.ident ∧ r.slots = s.slots ∧
      r.faults.sticky = s.faults.sticky ∧ r.cap.extents = s.cap.extents ∧ r.cap.dpaMap = s.cap.dpaMap ∧ r.cap.footprint = s.cap.footprint ∧
      r.mdata.desc = s.mdata.desc ∧ r.allocs = s.allocs ∧ r.rec_.store = s.rec_.store ∧ r.rec_.seq = s.rec_.seq ∧ r.img.tenants = s.img.tenants ∧
      r.keys.deviceKey = s.keys.deviceKey ∧ r.const.epoch = s.const.epoch ∧ r.const.remotes = s.const.remotes ∧
      r.threads = [] ∧ r.queues = [] ∧ r.ccis = [] ∧ r.gather = {} ∧ r.path = {} ∧ r.ril.trapCounts = s.ril.trapCounts ∧
      (∀ p, p < 16 → r.port p = { perst := (s.port p).perst, retrainTotal := (s.port p).retrainTotal }) ∧
      (∀ i, i < 256 → (r.ld i).regions = (s.ld i).regions ∧ (r.ld i).mgmt = (s.ld i).mgmt ∧ (r.ld i).info = {} ∧ (r.ld i).fatal = {}) ∧
      (∀ u, u < 3 → (r.uli u).retired = (s.uli u).retired ∧ (r.uli u).lstate = if (s.uli u).retired then .retired else .down) ∧
      (∀ c, c < 24 → (s.chan c).state = .active → s.start.memValid = true → (r.chan c).state = .untrained ∧ (r.chan c).selfRefresh = true ∧
        (r.chan c).usable = (s.chan c).usable ∧ (r.chan c).frontier = (s.chan c).frontier ∧ (r.chan c).train.resume = some .active) ∧
      (∀ c, c < 24 → (s.chan c).state = .retired → (r.chan c).state = .retired)
    let entered := fun (r : State) (cause : BitVec 3) => r.start.entry = .warm now ∧ r.start.cause = cause ∧
      r.start.kind = (if s.start.memValid = true ∨ s.start.lantern = true then 2 else 1) ∧ r.start.alive = false ∧
      r.start.memActive = 0 ∧ r.power.latched = true ∧ r.power.cxlLatched = true ∧ r.time = s.time ∧ r.path.reqs = [] ∧
      (∀ p, p < 16 → (r.port p).up = false) ∧ ∀ u, u < 3 → (r.uli u).lstate = if (s.uli u).retired then .retired else .down
    (s.start.entry = .none → ∃ r, exec .resetNAssert s = .next r ∧ entered r 1 ∧ r.start.resetLow = true) ∧
    (s.start.entry = .none → s.start.earlyDone = true → s.start.lantern = false → s.power.dozing = false → (s.dom 0).state = .p0 →
      (∀ t : Fin 32, (s.thread t).state = .running → (s.thread t).priv ≠ .tenant → ∃ r, exec (.rstCtlWarm (.rilia t)) s = .next r ∧ entered r 2) ∧
      ∃ r, exec (.rstCtlWarm .engine) s = .next r ∧ r = { s with regwin := r.regwin } ∧ r.regwin.lastCause = 6 ∧
        r.regwin.ignored = satAdd s.regwin.ignored 1 ∧ r.regwin.lastEngine = true) ∧
    (s.start.entry ≠ .none → s.power.dozing = false →
      exec .resetNAssert s = .next { s with start := { s.start with resetLow := true } }) ∧
    (∀ t, s.start.entry = .warm t → s.gather = {} → s.mdata.dirty = [] → (∀ q, q < 4 → (s.quad q).records = []) →
      ∃ r, exec .warmEntryDone s = .next r ∧ restarted r s.start.kind ∧ r.start.warmCount = satAdd s.start.warmCount 1) ∧
    (∀ t, s.start.entry = .warm t → t + 50000000 ≤ now → ∃ r, exec .warmEntryOverrun s = .next r ∧ r.start.entry = .immediate ∧
      r.start.cause = 4 ∧ r.start.immCount = satAdd s.start.immCount 1 ∧ r.stickySet 5 = true ∧ r.gather = {} ∧ now ∈ r.start.immTimes) ∧
    (s.start.entry = .immediate → ∃ r, exec .immediateEntryDone s = .next r ∧ restarted r 3 ∧ r.start.warmCount = s.start.warmCount ∧
      r.dram = s.dram) ∧
    (s.start.entry = .holding → exec .resetNRelease s = .next { s with start := { s.start with
      resetLow := false, entry := .none, phase := 2, phase2At := now } }) ∧
    (s.start.entry ≠ .holding → exec .resetNRelease s = .next { s with start := { s.start with resetLow := false } }) ∧
    exec .immRecentExpiry s = .next { s with start := { s.start with immTimes := s.start.immTimes.filter fun t => now < t + 600000000000 } }

/-- R360, R361, R468, R469, R496, R498, R499, R507: the phases up to 8. -/
def Obligations.VigilThePadsAndTheBootLeadToPhaseEight : Prop :=
  ∀ s : State, s.start.powered = true → s.faults.halted = false → s.start.entry = .none →
    let now := s.time.now
    (s.power.cxlLatched = true → ∃ r, exec .cxlPadRelease s = .next r ∧ r = { s with
        ports := r.ports, power := { s.power with cxlLatched := false }, start := { s.start with phase := if s.start.phase < 4 then 4 else s.start.phase } } ∧
      ∀ p, p < 16 → r.port p = if s.isHead p = true ∧ (s.port p).perst = false ∧ (s.port p).downLatched = false then
        { s.port p with training := true, clkreq := true } else s.port p) ∧
    (∀ failed times fw0 fw1 op0 op1, s.start.earlyDone = false → ∃ r, exec (.earlyVigilDone failed times fw0 fw1 op0 op1) s = .next r ∧
      r.start.earlyDone = true ∧ r.power.cxlLatched = false ∧ r.alm.built = true ∧ r.time = s.time ∧ r.dram = s.dram ∧
      (∃ v, r.start.report.head? = some v ∧ v.code = 1 ∧ v.inst = 0xFFFF) ∧
      (r.start.reportPassed = true ↔ r.start.lantern = s.start.lantern ∧ r.start.phase = 5) ∧
      (r.start.reportPassed = false → r.start.lantern = true ∧ r.start.phase = 4 ∧ r.start.alive = false ∧ r.start.qspi = false) ∧
      ((∃ f ∈ failed, f.1 ∈ [0x01#8, 0x02#8, 0x11#8, 0x30#8] ∨ (f.1 ∈ [0x10#8, 0x12#8] ∧ s.start.kind = 1) ∨ (f.1 = 0x20 ∧ f.2.1 = 0)) →
        r.start.reportPassed = false) ∧
      (s.start.kind = 3 → 3 ≤ (s.start.immTimes.filter fun t => now < t + 600000000000).length → r.start.reportPassed = false) ∧
      (fw0 = false → fw1 = false → r.start.reportPassed = false) ∧
      ((∀ f ∈ failed, f.1 ∉ [0x01#8, 0x02#8, 0x10#8, 0x11#8, 0x12#8, 0x20#8, 0x21#8, 0x30#8]) → s.start.kind ≠ 3 →
        (s.verdict 0 0xFFFF (s.img.copy false s.img.fwCopy) (if s.img.fwCopy then fw1 else fw0)).1 = 1 →
        r.start.reportPassed = true ∧ r.img.fwCopy = s.img.fwCopy)) ∧
    (s.start.earlyDone = true → s.start.lantern = false → s.start.phase = 5 → ∃ r, exec .bootStart s = .next r ∧
      r.start = { s.start with phase := 6 } ∧ (r.thread 0).state = .running ∧ (r.thread 0).bank = false ∧ r.ril.active = false ∧
      (r.thread 0).pc = BitVec.ofNat 19 (secField (s.img.copy false s.img.fwCopy) secManifest 0 4) ∧ r.time = s.time ∧ r.dram = s.dram ∧ r.cap = s.cap ∧ r.power = s.power ∧
      ∀ t, 0 < t → t < 32 → (r.thread t).state = (s.thread t).state) ∧
    (s.start.earlyDone = true → s.start.lantern = false → s.power.dozing = false → (s.dom 0).state = .p0 → (s.dom 0).trans = .none →
      let off := (List.range 48).filter fun n => (s.slot n).prsnt ∧ (s.slot n).state = .off
      ∃ r, exec (.padRelease .engine) s = .next r ∧ r.regwin = s.regwin ∧ r.time = s.time ∧ r.dram = s.dram ∧
        (s.power.latched = true → 6 ≤ s.start.phase → r.power.latched = false ∧ r.power.cxlLatched = s.power.cxlLatched ∧
          (s.start.kind ≠ 1 → s.start.memValid = true ∨ off = [] → r.start = { s.start with phase := 8, phase8At := now }) ∧
          (s.start.kind = 1 ∨ s.start.memValid = false → (∀ m ∈ off, m ∉ s.slotMgr.queue) → off ≠ [] → r.start.phase = 7)) ∧
        (s.power.latched = false ∨ s.start.phase < 6 → r.start = s.start ∧ r.power.latched = s.power.latched ∧ r.slotMgr = s.slotMgr)) ∧
    (s.start.phase = 8 → s.start.phase8At + 4500000000 ≤ now ∨ s.start.phase8At + 2500000000 ≤ now ∧
        (∀ c, c < 24 → (s.slot (2 * c)).prsnt = false ∨ (s.slot (2 * c + 1)).prsnt = false) →
      exec .phase8Cutoff s = .next { s with start := { s.start with phase8Done := true } })

/-- R263, R266, R505 to R507, R512: phases 9 and 10. -/
def Obligations.MetadataIsFormattedRecoveredAndServed : Prop :=
  ∀ s : State, s.start.powered = true → s.faults.halted = false → s.start.entry = .none →
    let ready := s.start.lantern = false ∧ s.start.phase = 8 ∧ s.start.phase9Done = false ∧
      (s.start.phase8Done = true ∨ ∀ c, c < 24 → (s.chan c).state ∈ [ChanState.active, .trainFailed, .retired, .absent])
    let act := fun c => (s.chan c).state = .active
    let empty := fun (r : State) => r.cap.extents = [] ∧ r.cap.dpaMap = [] ∧ r.integ.poison = [] ∧ r.integ.overflow = false ∧
      r.mdata.desc = [] ∧ r.mdata.copyB = [] ∧ r.start.phase9Done = true ∧ r.start.phase = 9 ∧ r.dram = s.dram ∧ r.time = s.time ∧ r.keys = s.keys
    (ready → s.start.memValid = false → (∀ a b, a < 24 → b < 24 → act a → (∀ c, c < a → ¬ act c) → act b → a / 6 ≠ b / 6 →
        (∀ c, c < b → act c → c / 6 = a / 6) → 131072 ≤ (s.chan a).frontier → 131072 ≤ (s.chan b).frontier →
      ∃ r, exec .metadataFormat s = .next r ∧ empty r ∧ r.start.memValid = true ∧ r.cap.rootA.isSome = true ∧ r.cap.rootB.isSome = true ∧
        r.cap.rootA.map (fun m => m.toNat / 2 ^ 19) = some a ∧ r.cap.rootB.map (fun m => m.toNat / 2 ^ 19) = some b)) ∧
    (ready → s.start.memValid = true →
      (s.start.kind = 2 ∨ s.start.kind = 3 → ∃ r, exec (.metadataRecovery false []) s = .next r ∧ r.start.phase9Done = true ∧ r.start.phase = 9 ∧
        r.start.rebuilding = true ∧ r.start.memValid = true ∧ r.mdata.dirty = [] ∧ (∀ q, q < 4 → (r.quad q).records = []) ∧ r.dram = s.dram ∧
        (s.mdata.dirty = [] → (∀ q, q < 4 → (s.quad q).records = []) → r.mdata.desc = s.mdata.desc ∧ r.cap.footprint = s.cap.footprint)) ∧
      (∀ lines, s.start.kind = 2 → lines ≠ [] → ∃ r, exec (.metadataRecovery false lines) s = .next r ∧ r.stickySet 2 = true ∧
        r.start.entry = .immediate ∧ r.start.cause = 3 ∧ r.cap.extents = s.cap.extents) ∧
      (∀ lines, s.start.kind = 3 → ∃ r, exec (.metadataRecovery true lines) s = .next r ∧ empty r ∧
        r.cap.rootA = s.cap.rootA ∧ r.cap.rootB = s.cap.rootB)) ∧
    (s.start.phase9Done = true → s.start.phase = 9 → (s.queue 0).bound.isSome = true → ∃ r, exec .memoryActiveSet s = .next r ∧
      r.start.phase = 10 ∧ r.start.alive = true ∧ r.alm.owed = true ∧ r.time = s.time ∧ r.dram = s.dram ∧ r.cap = s.cap ∧
      (∀ h, h < 16 → (r.start.memActive.getLsbD h = true ↔ s.isHead h = true)) ∧
      (s.start.kind ≠ 3 → r.start.immTimes = []) ∧ (s.start.kind = 3 → r.start.immTimes = s.start.immTimes)) ∧
    (s.start.rebuilding = true → ∃ r, exec .freeMapRebuildDone s = .next r ∧ r = { s with start := { s.start with rebuilding := false }, allocs := r.allocs } ∧
      ∀ c, c < 24 → (r.alloc c).megas = (s.alloc c).megas ∧ (∀ f, f ∈ (r.alloc c).frames → f ∈ (s.alloc c).frames) ∧
        (∀ f, (f, some Owner.lost) ∈ (s.alloc c).frames → (f, some Owner.lost) ∈ (r.alloc c).frames) ∧
        (∀ f o, (f, o) ∈ (r.alloc c).frames → o ≠ none) ∧
        ∀ f i, (f, some (Owner.guest i)) ∈ (r.alloc c).frames → (Tab.get ({} : Remote) s.const.remotes i).state ≠ 0)

/-- R519, R525 to R527, R570: sensors, supplies and checks in service. -/
def Obligations.SensorsAndSuppliesWarnTripAndHalt : Prop :=
  ∀ s : State, s.start.powered = true → s.faults.halted = false →
    let now := s.time.now
    let haltedBy := fun (r : State) (n : Nat) => r.faults.halted = true ∧ r.faults.haltSource = BitVec.ofNat 10 n ∧ r.faults.haltValid = true ∧
      r.faults.haltTime = BitVec.ofNat 64 now ∧ r.stickySet n = true ∧ r.keys.slots = [] ∧ r.keys.deviceKey = none ∧ r.img.tenants = [] ∧
      (∀ m, m < 48 → (r.slot m).state = .off) ∧ (∀ t, t < 32 → (r.thread t).state = .out) ∧ (∀ i, 0 < i → i < 55 → (r.dom i).state = .p3) ∧
      r.dram = [] ∧ r.start.alive = false ∧ r.start.memActive = 0 ∧ (∀ p, p < 16 → (r.port p).up = false) ∧
      r.faults.thermtrip = (s.faults.thermtrip || decide (n = 20))
    (∀ (q : Fin 4) (temp : BitVec 8), temp ≠ 0xFF → let w := s.faults.tempWarn.toNat
      ∃ r, exec (.sensorReading q temp) s = .next r ∧ (∀ p, p ≠ q.val → r.sensor p = s.sensor p) ∧
      r.sensor q = { s.sensor q with
        temp, valid := true, failed := false, lastValid := now, tempMax := if (s.sensor q).tempMax < temp then temp else (s.sensor q).tempMax } ∧
      (s.faults.live.Nodup → r.holds (961 + 4 * q) = false) ∧ (w < temp.toNat → r.holds (960 + 4 * q) = true) ∧
      (s.faults.live.Nodup → temp.toNat + 5 ≤ w → r.holds (960 + 4 * q) = false) ∧
      (temp.toNat ≤ w → w < temp.toNat + 5 → r.holds (960 + 4 * q) = s.holds (960 + 4 * q)) ∧
      (120 ≤ temp.toNat → haltedBy r 20) ∧ (temp.toNat < 120 → r.faults.halted = false ∧ r.dram = s.dram ∧ r.threads = s.threads ∧ r.time = s.time)) ∧
    (∀ q : Fin 4, (s.sensor q).failed = false → (s.sensor q).lastValid + 1000000 ≤ now → ∃ r, exec (.sensorTimeout q) s = .next r ∧
      r.sensor q = { s.sensor q with failed := true, valid := false, temp := 0xFF } ∧ (∀ p, p ≠ q.val → r.sensor p = s.sensor p) ∧
      r.holds (961 + 4 * q) = true ∧ ((∀ p, p < 4 → p ≠ q.val → (s.sensor p).failed = true) → haltedBy r 20) ∧
      (∀ p, p < 4 → p ≠ q.val → (s.sensor p).failed = false → r.faults.halted = false)) ∧
    (∀ q : Fin 4, (∃ r, exec (.supplyDetectorTrip q 0) s = .next r ∧ r.sensor q = { s.sensor q with supplyOk := false } ∧
        r.holds (962 + 4 * q) = true ∧ r.power.dozing = false ∧ (s.power.dozing = true → r.power.wakeCause = 6)) ∧
      (∃ r, exec (.supplyDetectorTrip q 1) s = .next r ∧ r.sensor q = { s.sensor q with supplyOk := true } ∧
        (s.faults.live.Nodup → r.holds (962 + 4 * q) = false) ∧ r.power = s.power) ∧
      ∃ r, exec (.supplyDetectorTrip q 2) s = .next r ∧ haltedBy r 19) ∧
    (exec (.fuseMapCheck true) s = .next s ∧
      (s.start.earlyDone = true → ∃ r, exec (.fuseMapCheck false) s = .next r ∧ haltedBy r 18)) ∧
    (∃ r, exec (.enclaveIntegrityLoss true) s = .next r ∧ haltedBy r 16) ∧ ∃ r, exec (.enclaveIntegrityLoss false) s = .next r ∧ haltedBy r 17

/-- R57, R58, R60, R532, R535: epochs and publications. -/
def Obligations.RecorderAndAlmanacTurnOver : Prop :=
  ∀ s : State, s.start.powered = true → s.faults.halted = false →
    let now := s.time.now
    let open_ := (s.rec_.opened.filter fun e => e.2.isSome).length
    (s.rec_.lastEpoch < now / (1000000 * s.rec_.epochNow.toNat) * (1000000 * s.rec_.epochNow.toNat) → ∃ r, exec .epochBoundary s = .next r ∧
      r.rec_.lastEpoch = now ∧ r.rec_.epochNow = s.rec_.epoch ∧ (∀ n, Tab.get none r.rec_.opened n = none) ∧ r.rec_.seq = s.rec_.seq + BitVec.ofNat 64 open_ ∧
      r.time = s.time ∧ r.dram = s.dram ∧ r.threads = s.threads ∧
      (∀ n t, s.rec_.opened = [(n, some t)] → s.ident.role = true → s.rec_.store.length < s.rec_.capacity →
        r.rec_.store = s.rec_.store ++ [{ t with
          seq := s.rec_.seq, tbClose := s.time.tb, upClose := BitVec.ofNat 64 now, reason := 0, device := s.ident.devId.setWidth 8 }])) ∧
    (s.start.entry = .none → s.alm.built = true → s.alm.upd = false → s.alm.nextFrom ≤ now →
      s.alm.owed = true ∨ s.entryWords ≠ s.alm.words.drop 8 → exec .almanacPublication s = .next { s with alm := { s.alm with
        upd := true, early := false, owed := false, started := now, next := s.almanac (s.alm.generation + 1) } }) ∧
    (s.start.entry = .none → s.alm.upd = true → ∃ r, exec .almanacPublicationComplete s = .next r ∧ r.alm.upd = false ∧ r.alm.words = s.alm.next ∧
      r.alm.generation = s.alm.generation + 1 ∧ r.alm.nextFrom = now + 1000000 ∧ r.alm.waiting = [] ∧
      (s.alm.early = false → (s.queue 1).entries.length < 64 → ∃ e, (r.queue 1).entries = (s.queue 1).entries ++ [e] ∧ e.g1 = s.alm.generation + 1) ∧
      (s.alm.early = true → r.queue 1 = s.queue 1) ∧ r.dram = s.dram ∧ r.cap = s.cap ∧ r.power = s.power ∧ r.threads = s.threads)

/-- R517, R518, R520, R522, R529: sticky bits and masks. -/
def Obligations.StickyBitsClearAndMasksHideOnlyLowClasses : Prop :=
  ∀ s : State, s.start.powered = true → s.faults.halted = false → s.start.entry = .none →
    (s.start.earlyDone = true → s.power.dozing = false → (s.dom 0).state = .p0 → ∀ (i : Fin 16) (w : BitVec 64),
      (∃ r, exec (.fstickyClear .engine i w) s = .next r ∧ (∀ j, j ≠ i.val → r.fsticky j = s.fsticky j) ∧
        (∀ b, b < 64 → (r.fsticky i).getLsbD b = ((s.fsticky i).getLsbD b && (!w.getLsbD b || s.holds (64 * i + b)))) ∧
        r = { s with faults := { s.faults with sticky := r.faults.sticky }, power := { s.power with doms := r.power.doms } } ∧
        ∀ d, 0 < d → r.dom d = s.dom d) ∧
      (∃ r, exec (.faultMaskWrite .engine i w) s = .next r ∧
        (∀ j, j ≠ i.val → Tab.get 0 r.faults.mask j = Tab.get 0 s.faults.mask j) ∧
        (∀ b, b < 64 → (Tab.get 0 r.faults.mask i).getLsbD b =
          (w.getLsbD b && !((sourceInfo (64 * i + b)).map fun x => decide (3 ≤ x.cls)).getD false)) ∧
        r = { s with faults := { s.faults with mask := r.faults.mask }, power := { s.power with doms := r.power.doms } })) ∧
    (∀ p : Fin 16, (s.port (s.leaderOf p)).up = true → ∃ r, exec (.malformedCxlMemRequest p) s = .next r ∧
      r.stickySet ((8 + p / 8) * 64 + 8 * (p % 8) + 6) = true ∧ s.Reports r)

/-- R66, R68, R70, R71, R111, R112, R507: the life of a link. -/
def Obligations.PortsTrainRetrainLatchAndReset : Prop :=
  ∀ (p : Fin 16) (s : State), s.start.powered = true → s.faults.halted = false → s.start.entry = .none → s.power.cxlLatched = false →
    let u := s.port p
    let now := s.time.now
    let src := fun k => (8 + p.val / 8) * 64 + 8 * (p.val % 8) + k
    let others := fun (r : State) => ∀ q, q ≠ p.val → r.port q = s.port q
    let resetPort := fun (r : State) => others r ∧ (r.port p).up = false ∧ (r.port p).width = 0 ∧ (r.port p).rate = 0 ∧
      (r.port p).retraining = false ∧ (r.port p).ideState = (if u.ideState = 3 then 3 else 0) ∧ (r.port p).trained = u.trained ∧
      (∀ k, k < u.trained.ldCount.toNat → (r.ld (16 * p.val + k)).decoders = [])
    let full : BitVec 3 := if u.trained.merge = 2 then 5 else if u.trained.merge = 1 then 4 else 3
    (u.perst = true → ∃ r, exec (.portPerstRelease p) s = .next r ∧ others r ∧ (r.port p).perst = false ∧ (r.port p).trained = u.cfg ∧
      (r.port p).downLatched = false ∧
      ((s.modPort p fun q => { q with trained := q.cfg }).isHead p = true → (r.port p).training = true ∧ (r.port p).clkreq = true)) ∧
    (s.isHead p = true →
      (u.perst = false → ∃ r, exec (.portPerstAssert p) s = .next r ∧ resetPort r ∧ (r.port p).perst = true ∧ (r.port p).training = false) ∧
      (∀ (width rate : BitVec 3) (flit : Bool), u.training = true → 1 ≤ width → width ≤ full → 1 ≤ rate → rate ≤ u.trained.maxRate →
        rate ≤ 4 → (flit = true ∨ rate ≠ 4) → ∃ r, exec (.linkTrained p width rate flit) s = .next r ∧ others r ∧
          (∃ bw, r.port p = { u with up := true, training := false, retraining := false, width, rate, flit256 := flit, cdatBandwidth := bw }) ∧
          (width ≠ full ∨ rate ≠ u.trained.maxRate → r.holds (src 1) = true) ∧
          (width = full → rate = u.trained.maxRate → s.faults.live.Nodup → r.holds (src 1) = false) ∧
          (s.start.phase = 10 → r.start.memActive.getLsbD p = true) ∧ (s.start.phase ≠ 10 → r.start = s.start) ∧ r.cap = s.cap) ∧
      (u.up = true → u.perst = false → u.downLatched = false → ∃ r, exec (.linkDown p) s = .next r ∧ resetPort r ∧ (r.port p).training = true) ∧
      (u.up = true → ∃ r, exec (.linkRetrain p) s = .next r ∧ others r ∧ (r.port p).retrainTotal = satAdd u.retrainTotal 1 ∧ (r.port p).up = false ∧
        r.stickySet (src 0) = true ∧
        (u.windowFrom = none → (r.port p).retrains = 1 ∧ (r.port p).windowFrom = some now ∧ (r.port p).training = true) ∧
        (∀ t, u.windowFrom = some t → now < t + 10000000000 →
          ((u.retrains + 1).toNat < 3 → (r.port p).retrains = u.retrains + 1 ∧ (r.port p).windowFrom = some t ∧ (r.port p).training = true ∧
            (r.port p).downLatched = u.downLatched) ∧
          (3 ≤ (u.retrains + 1).toNat → (r.port p).downLatched = true ∧ (r.port p).training = false ∧ r.holds (src 2) = true))) ∧
      (u.downLatched = true → u.perst = false → ∃ r, exec (.downLatchedClear p) s = .next r ∧ others r ∧
        r.port p = { u with downLatched := false, retrains := 0, windowFrom := none, training := true, clkreq := true } ∧
        (s.faults.live.Nodup → r.holds (src 2) = false))) ∧
    (∀ t, u.windowFrom = some t → t + 10000000000 ≤ now →
      exec (.portRetrainWindowEnd p) s = .next (s.modPort p fun q => { q with retrains := 0, windowFrom := none }))

/-- R76, R82, R84, R85, R90, R214: services of a head. -/
def Obligations.IdeCdatAndDecodersServeTheirHead : Prop :=
  ∀ (h : Fin 16) (s : State), s.start.powered = true → s.faults.halted = false → s.start.entry = .none →
    let u := s.port h
    let src := (8 + h.val / 8) * 64 + 8 * (h.val % 8) + 3
    let others := fun (r : State) => ∀ q, q ≠ h.val → r.port q = s.port q
    (s.isHead h = true → u.up = true →
      (∀ skid : Bool, (if skid then u.trained.ideCap = 2 else u.trained.ideCap ≠ 0) → u.ideState ≠ 3 ∨ u.ideReset = true →
        ∃ r, exec (.ideKeyExchange h skid) s = .next r ∧ others r ∧ r.port h = { u with ideState := if skid then 2 else 1, ideReset := false } ∧
          (s.faults.live.Nodup → r.holds src = false)) ∧
      (u.ideState = 1 ∨ u.ideState = 2 → s.path.reqs = [] →
        (∃ r, exec (.ideMacPass h) s = .next r ∧ others r ∧ r.port h = u ∧ r.path.reqs = [] ∧
          ∀ g ∈ r.gather.entries, g.source = h.val → g.verified = true) ∧
        ∃ r, exec (.ideMacFailure h) s = .next r ∧ others r ∧ r.port h = { u with ideState := 3, ideReset := false } ∧ r.holds src = true ∧
          r.gather.entries = s.gather.entries.filter fun g => g.source ≠ h.val ∨ g.verified) ∧
      (∀ ld : Fin 256, ld.val / 16 = h.val → ld.val % 16 < u.trained.ldCount.toNat →
        (s.start.earlyDone = true → s.start.lantern = false → exec (.doeCdatTableAccess ld) s = .next { s with
          out := .cdat ld ((s.ld ld).regions.map fun e => (e.2.base, e.2.len, s.regionShared ld e.2)) 98 40 u.cdatBandwidth u.cdatBandwidth :: s.out }) ∧
        (∀ (d : Fin 8) (base size : BitVec 64) (ways gran : BitVec 16), s.start.memActive.getLsbD h = true →
          (Tab.get {} (s.ld ld).decoders d).committed = false → ways.toNat ∈ [1, 2, 3, 4, 6, 8, 12, 16] →
          gran.toNat ∈ [256, 512, 1024, 2048, 4096, 8192, 16384] → ∃ r, exec (.hdmDecoderCommit ld d base size ways gran) s = .next r ∧
            r = { s with lds := r.lds } ∧ (∀ i, i ≠ ld.val → r.ld i = s.ld i) ∧
            Tab.get {} (r.ld ld).decoders d = { base, size, ways, granularity := gran, committed := true } ∧
            ∀ e, e ≠ d.val → Tab.get {} (r.ld ld).decoders e = Tab.get {} (s.ld ld).decoders e) ∧
        (s.start.earlyDone = true → s.power.dozing = false → ∀ v13 auth : Bool, ∃ r, exec (.spdmSecureSession (.ld ld) v13 auth) s = .next r ∧
          r = { s with ccis := r.ccis } ∧ (∀ i, i ≠ ld.val → r.cci i = s.cci i) ∧ (r.cci ld).spdm =
            { established := true, version13 := v13, mutualAuth := auth && s.img.opKey.isSome }))) ∧
    (∀ (n : Snoop) (home : BitVec 2) (dlpn : BitVec 34) (line : BitVec 6), s.path.snoops = [n] → n.head = h.val →
      n.line = lineKey home.toNat dlpn.toNat line.toNat → s.path.reqs = [] → s.const.snooped = [] →
      ∃ r, exec (.birsp h home dlpn line) s = .next r ∧ r.path.snoops = [] ∧ r.path.reqs = [] ∧ r.dram = s.dram ∧
        (n.inv = true → (r.dirEntry n.line).getLsbD h = false))

/-- R70, R253, R428, R437, R555, R560, R563, R566: writes of control registers. -/
def Obligations.ControlRegistersTakeFieldsInRangeAndCountOthers : Prop :=
  ∀ s : State, s.start.powered = true → s.faults.halted = false → s.start.entry = .none → s.start.earlyDone = true → s.power.dozing = false →
    s.start.lantern = false →
    let awake := fun (i : Nat) => (s.dom i).state = .p0 ∧ (s.dom i).trans = .none
    let bits := fun (w : BitVec 64) (lo n : Nat) => w.toNat / 2 ^ lo % 2 ^ n
    (∀ (p : Fin 16) (w : BitVec 64), awake (28 + p) →
      (bits w 0 2 = 0 ∨ (bits w 0 2 = 1 ∧ p.val % 2 = 0) ∨ (bits w 0 2 = 2 ∧ p.val % 4 = 0) → 1 ≤ bits w 2 3 → bits w 2 3 ≤ 4 → bits w 6 2 ≤ 2 →
        1 ≤ bits w 8 5 → bits w 8 5 ≤ 16 → bits w 13 1 = 1 → (s.port p).commit = false →
        ∃ r, exec (.portCtlWrite .engine p w) s = .next r ∧ r.regwin = s.regwin ∧ (∀ q, q ≠ p.val → r.port q = s.port q) ∧
          r.port p = { s.port p with commit := decide (bits w 63 1 = 1), cfg := {
            merge := w.extractLsb' 0 2, maxRate := w.extractLsb' 2 3, sris := decide (bits w 5 1 = 1), ideCap := w.extractLsb' 6 2, ldCount := w.extractLsb' 8 5, enable := true } }) ∧
      ((s.port p).commit = true → ∃ r, exec (.portCtlWrite .engine p w) s = .next r ∧ r.port p = s.port p ∧
        r.regwin.ignored = satAdd s.regwin.ignored 1 ∧ r.regwin.lastCause = 2) ∧
      (∀ ld : Fin 256, s.ldExists ld = true → (s.port (ld / 16)).up = true → (s.ld ld).mgmt = true →
        ∃ r, exec (.portCtlWrite (.host ld) p w) s = .next r ∧ r = { s with regwin := r.regwin } ∧
          r.regwin.ignored = satAdd s.regwin.ignored 1 ∧ r.regwin.lastCause = 1 ∧ r.regwin.lastSrc = BitVec.ofNat 8 ld ∧
          r.regwin.lastRilia = false ∧ r.regwin.lastEngine = false)) ∧
    (∀ (c : Fin 24) (w : BitVec 64), awake (4 + c) → 1 ≤ bits w 0 2 → bits w 2 1 = 0 → 1 ≤ bits w 11 8 → 48 ≤ bits w 19 8 → bits w 19 8 ≤ 64 →
      8 ≤ bits w 28 7 → bits w 28 7 ≤ 120 → 1 ≤ bits w 35 7 → bits w 35 7 < bits w 28 7 → (s.chan c).commit = false →
      decide (bits w 27 1 = 1) = (s.chan c).ref2x → ∃ r, exec (.chCtlWrite .engine c w) s = .next r ∧ r.regwin = s.regwin ∧
        (∀ d, d ≠ c.val → r.chan d = s.chan d) ∧ r.chan c = { s.chan c with
          pageDefault := w.extractLsb' 0 2, express := false, pdTimer := w.extractLsb' 3 8, rowIdle := w.extractLsb' 11 8,
          speedMax := w.extractLsb' 19 8, wrHigh := w.extractLsb' 28 7, wrLow := w.extractLsb' 35 7, commit := decide (bits w 63 1 = 1) }) ∧
    (∀ (u : Fin 3) (w : BitVec 64), awake (44 + u) → 2 ≤ bits w 0 4 → bits w 0 4 ≤ 8 → bits w 4 1 = 1 → 5 ≤ bits w 5 7 → 1 ≤ bits w 12 4 →
      1 ≤ bits w 16 4 → 1 ≤ bits w 20 8 → (s.uli u).commit = false → ∃ r, exec (.ultCtlWrite .engine u w) s = .next r ∧ r.regwin = s.regwin ∧
        (∀ v, v ≠ u.val → r.uli v = s.uli v) ∧ r.uli u = { s.uli u with
          vcs := w.extractLsb' 0 4, enable := true, replayTo := w.extractLsb' 5 7, replayN := w.extractLsb' 12 4, retrainN := w.extractLsb' 16 4,
          retrainWin := w.extractLsb' 20 8, commit := decide (bits w 63 1 = 1) }) ∧
    (awake 0 → ∀ u : Fin 3,
      (∃ r, exec (.ultRetireRetire .engine u) s = .next r ∧ (r.uli u).lstate = .retired ∧ (r.uli u).retired = true ∧ (r.uli u).cause = 3 ∧
        r.holds (640 + 16 * u + 5) = true ∧ ∀ v, v < 3 → v ≠ u.val → (r.uli v).lstate = (s.uli v).lstate) ∧
      ((s.uli u).retired = true → ∃ r, exec (.ultRetireClear .engine u) s = .next r ∧ (r.uli u).lstate = .down ∧ (r.uli u).retired = false ∧
        (r.uli u).cause = (s.uli u).cause ∧ (r.uli u).retrainTimes = [] ∧ (r.uli u).since = s.time.now ∧
        (s.faults.live.Nodup → r.holds (640 + 16 * u + 5) = false) ∧ ∀ v, v ≠ u.val → r.uli v = s.uli v)) ∧
    (awake 2 → ∀ w : BitVec 64, let code := s.xmapCode (bits w 0 8) (bits w 8 24) (bits w 32 2) (bits w 34 18)
      s.const.xmap.busy = false → ∃ r, exec (.constXmapWrite .engine w) s = .next r ∧ r.regwin = s.regwin ∧
        r.const.xmap.busy = decide (code = 0) ∧ r.const.xmap.result = BitVec.ofNat 4 code ∧ r.const.xmap.ld = bits w 0 8 ∧
        r.const.xmap.block = bits w 8 24 ∧ r.const.xmap.home = bits w 32 2 ∧ r.const.xmap.extent = bits w 34 18 ∧ r.cap = s.cap)

/-- R45, R61, R554, R556, R558, R560, R564, R566: the register window. -/
def Obligations.TheRegisterWindowReadsAndWritesWhatItHolds : Prop :=
  ∀ s : State, s.start.powered = true → s.faults.halted = false → s.start.entry = .none → s.start.earlyDone = true → s.power.dozing = false →
    (∀ (ld : Fin 256) (off : BitVec 26), s.ldExists ld = true → (s.port (ld / 16)).up = true →
      let answers := fun (n : Nat) (v : Word) => exec (.registerRead ld off n) s = .next { s with out := .register ld v :: s.out }
      (off.toNat < 0x10000 → s.alm.built = true → s.alm.upd = false →
        (off.toNat % 8 = 0 → answers 8 (s.alm.words.getD (off.toNat / 8) 0)) ∧
        (off.toNat % 8 = 0 → answers 4 ((s.alm.words.getD (off.toNat / 8) 0).setWidth 32 |>.setWidth 64)) ∧
        (off.toNat % 8 = 4 → answers 4 ((s.alm.words.getD (off.toNat / 8) 0).extractLsb' 32 32 |>.setWidth 64)) ∧
        (∀ n, off.toNat % 4 ≠ 0 → answers n 0)) ∧
      (0x10000 ≤ off.toNat → ∀ n, (s.ld ld).mgmt = false ∨ n ≠ 8 ∨ off.toNat % 8 ≠ 0 → answers n 0) ∧
      (off.toNat < 0x10000 → ∀ n w, exec (.registerWrite (.host ld) off n w) s = .next s)) ∧
    (∀ (off : BitVec 26) (w : BitVec 64), (s.dom 0).state = .p0 → (s.dom 0).trans = .none → s.start.lantern = false → off.toNat % 8 = 0 →
      ∃ r, exec (.registerWrite .engine off 8 w) s = .next r ∧
        match locate off.toNat with
        | none => r = s
        | some (0x01, 0, 0x780) =>
          let th := w.toNat % 8
          let warn := w.toNat / 256 % 128
          let thOk := decide (1 ≤ th ∧ th ≤ 4)
          let warnOk := decide (70 ≤ warn ∧ warn ≤ 115)
          let f := { s.faults with
            threshold := if thOk then BitVec.ofNat 3 th else s.faults.threshold, tempWarn := if warnOk then BitVec.ofNat 7 warn else s.faults.tempWarn }
          r = { s with faults := f, power := r.power, regwin := r.regwin } ∧
            (thOk = true → warnOk = true → r.regwin = s.regwin) ∧
            (thOk = false ∨ warnOk = false → r.regwin = { s.regwin with
              ignored := satAdd s.regwin.ignored 1, lastCause := 5, lastOffset := off, lastRilia := false, lastSrc := 0, lastEngine := true })
        | some (0x70, i, 0) => ∀ b, b < 64 → i < 16 → (r.fsticky i).getLsbD b = ((s.fsticky i).getLsbD b && (!w.getLsbD b || s.holds (64 * i + b)))
        | some _ => True)

/-- R59, R62, R93 to R96, R101, R104, R106, R109, R539, R549: commands that the mailbox engine handles. -/
def Obligations.EngineCommandsAnswerAtOnce : Prop :=
  ∀ (cci : Cci) (s : State), s.cciLive cci = true → s.cciBusy cci = false →
    let gives := fun (c : Instr) (t : State) (payload : List Byte) => exec c s = .next { t with out := .command cci .success payload :: t.out }
    let b := (s.cci (cciIndex cci)).background
    gives (.identify cci 0) s (wordsLe [Config.identifyWord.toNat, s.ident.serial.toNat, payloadBuffer cci]) ∧
    gives (.backgroundOperationStatus cci 0) s (wordsLe [flag b.running + 2 * b.percent.toNat, b.opcode.toNat, b.code.toNat]) ∧
    gives (.getSupportedLogs cci 0) s (wordsLe [1, (effectsLog cci).length]) ∧
    (∀ off n : BitVec 32, off.toNat + n.toNat ≤ (effectsLog cci).length → n.toNat ≤ payloadBuffer cci →
      gives (.getLog cci 24 off n) s (((effectsLog cci).drop off.toNat).take n.toNat)) ∧
    (cci = .mctp → (∀ v, gives (.setResponseMessageLimit cci 1 v) (s.modCci 256 fun c => { c with respLimit := v }) [v]) ∧
      gives (.getResponseMessageLimit cci 0) s [(s.cci 256).respLimit] ∧ gives (.getMctpEventInterruptPolicy cci 0) s (leBytes 2 (s.cci 256).mctpPolicy.toNat) ∧
      ∀ v, gives (.setMctpEventInterruptPolicy cci 2 v) (s.modCci 256 fun c => { c with mctpPolicy := v }) []) ∧
    (∀ ld : Fin 256, s.permits cci (.self ld) = true → s.ldExists ld = true →
      (∀ v, gives (.setEventInterruptPolicy cci 5 ld v) (s.modLd ld fun d => { d with intPolicy := v }) []) ∧
      gives (.getEventInterruptPolicy cci 0 ld) s (leBytes 5 (s.ld ld).intPolicy.toNat) ∧
      gives (.getTimestamp cci 0 ld) s (leBytes 8 (s.time.tb + (s.ld ld).timeOffset).toNat) ∧
      (∀ v, gives (.setTimestamp cci 8 ld v) (s.modLd ld fun d => { d with timeOffset := v - s.time.tb }) []) ∧
      ∀ (n : BitVec 8) (k : LogKind), logOf n.toNat = some k → let l := (s.ld ld).log k
        let empty := fun (rest : List EventRec) => s.modLd ld fun d =>
          d.setLog k { l with records := rest, overflow := 0, firstOverflow := 0, lastOverflow := 0 }
        (128 * l.records.length + 32 ≤ payloadBuffer cci → gives (.getEventRecords cci 1 ld n) s (wordsLe [flag (decide (l.overflow ≠ 0)) +
          65536 * l.overflow.toNat, l.firstOverflow.toNat, l.lastOverflow.toNat, l.records.length] ++ l.records.flatMap EventRec.bytes)) ∧
        gives (.clearEventRecords cci 6 ld n true []) (empty []) [] ∧
        ∀ e rest, l.records = e :: rest → gives (.clearEventRecords cci 8 ld n false [e.handle]) (empty rest) []) ∧
    (∀ off n : BitVec 32, n ≠ 0 → off.toNat % 8 = 0 → n.toNat % 8 = 0 → 8 + n.toNat ≤ payloadBuffer cci → (cci = .mctp → n.toNat ≤ 1024) →
      (off.toNat + n.toNat ≤ 8 * s.alm.words.length →
        (s.alm.upd = false → gives (.getAlmanac cci 8 off n) s (leBytes 8 s.alm.generation.toNat ++
          ((s.alm.words.drop (off.toNat / 8)).take (n.toNat / 8)).flatMap fun w => leBytes 8 w.toNat)) ∧
        (s.alm.upd = true → exec (.getAlmanac cci 8 off n) s =
          .next { s with alm := { s.alm with waiting := s.alm.waiting ++ [(cci, 8, off.toNat, n.toNat)] } })) ∧
      (off.toNat + n.toNat ≤ s.vigilReport.length → gives (.getVigilReport cci 8 off n) s (leBytes 8 s.start.reportEnded.toNat ++
        (s.vigilReport.drop off.toNat).take n.toNat))) ∧
    (s.permits cci .mgmt = true →
      (∀ (first : BitVec 64) (n : BitVec 32) (flt : BitVec 16), n ≠ 0 → 16 + 256 * n.toNat ≤ payloadBuffer cci →
        ∀ t l, s.rec_.pick first n.toNat flt = t :: l → ∃ head, head.length = 16 ∧
          gives (.getTallies cci 16 first n flt) s (head ++ (t :: l).flatMap Tally.bytes) ∧ head.take 8 = leBytes 8 (((t :: l).getLast?.getD t).seq + 1).toNat) ∧
      ∀ (q : Fin 4) (n : BitVec 16), n ≠ 0 → n.toNat ≤ 256 → 8 + 128 * n.toNat ≤ payloadBuffer cci → let x := s.cometQuad q
        gives (.getCometSamples cci 4 (BitVec.ofNat 8 q) n) (s.modCometQuad q fun c => { c with buffer := c.buffer.drop n.toNat, lostSinceGet := 0 })
          (leBytes 4 (x.buffer.take n.toNat).length ++ leBytes 4 x.lostSinceGet.toNat ++ (x.buffer.take n.toNat).flatMap Comet.bytes)) ∧
    (∃ l, l.length = 63 ∧ gives (.getRiliaStatus cci 0) s ((if s.start.lantern ∨ (s.ril.bank0.words = [] ∧ s.ril.bank1.words = []) then 0xFF
      else if s.ril.active then 1 else 0) :: l)) ∧
    (∀ op : BitVec 16, op.toNat ∉ standardOpcodes ++ fabricOpcodes ++ vendorOpcodes →
      exec (.unsupportedCommand cci 0 op) s = .next { s with out := .command cci .unsupported [] :: s.out })

/-- R77, R93, R95, R96, R102, R105, R107, R108, R110, R524: commands that the firmware handles. -/
def Obligations.FirmwareCommandsReportAndConfigure : Prop :=
  ∀ (cci : Cci) (s : State), s.serves cci →
    let does := fun (c : Instr) (t : State) (code : Code) (payload : List Byte) => ∃ r, exec c s = .next r ∧ t.answered r cci code payload
    (∀ ld : Fin 256, s.permits cci (.self ld) = true → s.ldExists ld = true → let a := (s.ld ld).alerts
      does (.identifyMemoryDevice cci 0 ld) s .success (wordsLe [0, 0, 0]) ∧
      (∃ l, l.length = 15 ∧ does (.getHealthInfo cci 0 ld) s .success (leBytes 1 s.health.toNat ++ l)) ∧
      does (.getAlertConfiguration cci 0 ld) s .success (leBytes 1 a.valid.toNat ++ leBytes 2 a.warnTemp.toNat ++ leBytes 2 a.lowTemp.toNat ++
        leBytes 2 a.ceThreshold.toNat) ∧
      ∀ v w l c, does (.setAlertConfiguration cci 12 ld v w l c)
        (s.modLd ld fun d => { d with alerts := { valid := v, warnTemp := w, lowTemp := l, ceThreshold := c } }) .success []) ∧
    does (.getFwInfo cci 0) s .success (wordsLe [1, 1, s.img.fwVersion.toNat]) ∧
    (s.permits cci .mgmt = true →
      (∃ l, l.length = 128 ∧ does (.constellationStatus cci 0) s .success (leBytes 8 s.time.tb.toNat ++ l)) ∧
      (∀ slot action : BitVec 8, 47 < slot.toNat ∨ 3 < action.toNat → does (.slotPowerControl cci 4 slot action) s .invalidInput []) ∧
      (∀ n : Fin 48, let u := s.slot n
        does (.slotPowerControl cci 4 (BitVec.ofNat 8 n) 0) s .success (leBytes 1 n ++ leBytes 1 (s.slotPower n) ++ leBytes 1 u.retriesLeft.toNat ++
          leBytes 1 u.lastFault.toNat ++ leBytes 4 u.i12.toNat) ∧
        ((s.chan (n / 2)).state = .active → ∀ a : BitVec 8, 1 ≤ a.toNat → a.toNat ≤ 3 →
          does (.slotPowerControl cci 4 (BitVec.ofNat 8 n) a) s .invalidInput [])) ∧
      (∀ (time : BitVec 64) (back : Bool), (s.ident.role = false → does (.setTimebase cci 16 time back) s .invalidInput []) ∧
        (s.ident.role = true → time < s.time.tb → back = false → does (.setTimebase cci 16 time back) s .invalidInput []) ∧
        (s.ident.role = true → s.time.tb ≤ time ∨ back = true → ∃ r, exec (.setTimebase cci 16 time back) s = .next r ∧
          r.time = { s.time with tb := time, uncert := 0, fallbackNs := 0, setEver := true } ∧
          r.out.head? = some (.command cci .success (leBytes 8 s.time.tb.toNat ++ leBytes 8 time.toNat)))) ∧
      (∀ (config : BitVec 8) (epoch : BitVec 16) (ring : BitVec 32), epoch ≠ 0 →
        (config = 0 ∧ ring = 0 ∨ config = 1 ∧ 16 ≤ ring.toNat ∧ ring.toNat ≤ 1024 ∧ ring.toNat % 16 = 0) →
        let t := { s with rec_ := { s.rec_ with epoch, pendLarge := decide (config = 1), pendRing := ring.setWidth 11 } }
        does (.configureRecorder cci 16 config epoch ring) t .success t.rec_.settings) ∧
      (∀ (config : BitVec 8) (ring : BitVec 32), does (.configureRecorder cci 16 config 0 ring) s .invalidInput []) ∧
      ∀ (ld : Fin 256) (mask : BitVec 64), s.ldExists ld = true → let g := (s.ld ld).ctrGrant
        let grant := fun (a : BitVec 8) => Instr.counterAccessGrant cci 16 (BitVec.ofNat 8 (ld / 16)) (BitVec.ofNat 8 (ld % 16)) a mask
        does (grant 0) (s.modLd ld fun d => d) .success (leBytes 8 g.toNat) ∧
        does (grant 1) (s.modLd ld fun d => { d with ctrGrant := g ||| mask }) .success (leBytes 8 (g ||| mask).toNat) ∧
        does (grant 2) (s.modLd ld fun d => { d with ctrGrant := g &&& ~~~mask }) .success (leBytes 8 (g &&& ~~~mask).toNat))

/-- R93 to R95: the checks that come before any action. -/
def Obligations.CommandsAreCheckedBeforeTheyAct : Prop :=
  ∀ (cci : Cci) (ld : Fin 256) (s : State) (len : BitVec 32),
    let sent := fun (c : Instr) (code : Code) => exec c s = .next { s with out := .command cci code [] :: s.out }
    let rows : List (Instr × Nat × Via) :=
      [(.getHealthInfo cci len ld, 0, .self ld), (.getAlertConfiguration cci len ld, 0, .self ld), (.getDcdInfo cci len, 0, .mctp),
       (.getLdInfo cci len, 0, .mctp), (.getQosControl cci len, 0, .mctp), (.constellationStatus cci len, 0, .mgmt),
       (.slotPowerControl cci len 0 0, 4, .mgmt), (.channelRestore cci len 0, 4, .mgmt), (.setTimebase cci len 0 true, 16, .mgmt),
       (.injectPoison cci len ld 0, 8, s.injectVia cci ld), (.getFwInfo cci len, 0, .any)]
    ∀ x ∈ rows,
      (s.cciLive cci = false → exec x.1 s = .next s) ∧
      (s.cciLive cci = true → s.cciBusy cci = true → sent x.1 .busy) ∧
      (s.cciLive cci = true → s.cciBusy cci = false →
        (len.toNat ≠ x.2.1 → sent x.1 .invalidPayloadLength) ∧
        (len.toNat = x.2.1 → s.permits cci x.2.2 = false → sent x.1 .unsupportedMailbox) ∧
        (len.toNat = x.2.1 → s.permits cci x.2.2 = true → s.start.lantern = true → sent x.1 .mediaDisabled) ∧
        (len.toNat = x.2.1 → s.permits cci x.2.2 = true → s.start.lantern = false → (s.queue 0).bound = none → sent x.1 .busy))

/-- R77, R96, R97, R115, R395: what the fabric manager and a host read of logical devices. -/
def Obligations.FabricManagerReadsLdsRegionsAndQos : Prop :=
  ∀ (cci : Cci) (s : State), s.serves cci →
    let does := fun (c : Instr) (code : Code) (payload : List Byte) => ∃ r, exec c s = .next r ∧ s.answered r cci code payload
    let n := s.allLds.length
    let range := fun (start count : BitVec 8) => (s.allLds.drop start.toNat).take count.toNat
    let share := fun (k i : Nat) => let u := s.usableHead (i / 16)
      if u = 0 then (if s.param i k = 0 then 0 else 255) else min 255 (256 * s.param i k / u)
    let regions := fun (i a c : Nat) => wordsLe (8 :: ((List.range 8).filter fun j => a ≤ j ∧ j < a + c).flatMap fun j =>
      let g := Tab.get ({} : Region) (s.ld i).regions j
      [g.base * 2 ^ 28, g.len * 2 ^ 28, g.len * 2 ^ 28, 2 ^ 28, 0])
    (cci = .mctp →
      does (.getLdInfo cci 0) .success (wordsLe [64 * s.capP, n, 0]) ∧
      does (.getDcdInfo cci 0) .success (wordsLe [n, 8, 64 * s.capP, 2 ^ 28]) ∧
      does (.getQosControl cci 0) .success (leBytes 1 0 ++ leBytes 1 s.qos.devloadMod.toNat ++ leBytes 1 s.qos.devloadSev.toNat ++ leBytes 4 0) ∧
      (∀ h : Fin 16, does (.getQosStatus cci 0 h) .success (leBytes 1 (s.holdPercent h))) ∧
      (∀ start count : BitVec 8,
        (start.toNat ≤ n →
          does (.getLdAllocations cci 2 start count) .success (wordsLe ([n, 2 ^ 28, start.toNat, (range start count).length] ++
            (range start count).flatMap fun i => [i, (s.ldEntries i).length])) ∧
          does (.getMultiHeadedInfo cci 2 start count) .success (wordsLe ([n, s.heads.length, start.toNat, (range start count).length] ++
            (range start count).map (· / 16)))) ∧
        (count ≠ 0 → start.toNat + count.toNat ≤ n →
          does (.getQosAllocatedBw cci 2 start count) .success (leBytes 1 (range start count).length ++ leBytes 1 start.toNat ++
            (range start count).flatMap fun i => leBytes 1 (share 4 i)) ∧
          does (.getQosBwLimit cci 2 start count) .success (leBytes 1 (range start count).length ++ leBytes 1 start.toNat ++
            (range start count).flatMap fun i => leBytes 1 (share 5 i))) ∧
        (start.toNat + count.toNat ≤ s.heads.length → does (.getHeadInfo cci 2 start count) .success
          (let l := (s.heads.drop start.toNat).take count.toNat
           wordsLe (l.length :: l.flatMap fun h => [h, s.headPorts h, (s.port h).width.toNat, (s.port h).rate.toNat, flag (s.port h).up]))) ∧
        (start.toNat + count.toNat ≤ 8 → ∀ ld : Fin 256,
          (s.ldExists ld = true → does (.getHostDcRegionConfiguration cci 4 ld start count) .success (regions ld start.toNat count.toNat)) ∧
          (s.ldExists ld = false → does (.getHostDcRegionConfiguration cci 4 ld start count) .invalidInput []))) ∧
      (∀ (ld : Fin 256) (first count : BitVec 32), s.ldExists ld = true → first.toNat ≤ (s.ldEntries ld).length →
        16 + 40 * count.toNat ≤ payloadBuffer cci →
        does (.getDcRegionExtentLists cci 12 ld first count) .success (s.extentList (s.ldEntries ld) first.toNat count.toNat))) ∧
    (∀ ld : Fin 256, s.permits cci (.self ld) = true → s.ldExists ld = true →
      (∀ first count : BitVec 8, first.toNat + count.toNat ≤ 8 →
        does (.getDynamicCapacityConfiguration cci 2 ld first count) .success (regions ld first.toNat count.toNat)) ∧
      ∀ first count : BitVec 32, first.toNat ≤ ((s.ldEntries ld).filter s.accepted).length → 16 + 40 * count.toNat ≤ payloadBuffer cci →
        does (.getDynamicCapacityExtentList cci 8 ld first count) .success
          (s.extentList ((s.ldEntries ld).filter s.accepted) first.toNat count.toNat)) ∧
    (∀ (i : Nat) (m : DpaEntry), m ∈ s.ldEntries i → m.ld.toNat = i) ∧ ∀ i, ((s.ldEntries i).map (·.block)).Pairwise (· ≤ ·)

/-- R77 to R80, R115, R133, R211: regions, offers, acceptance and release. -/
def Obligations.DynamicCapacityIsOfferedAcceptedAndReleased : Prop :=
  ∀ (cci : Cci) (ld : Fin 256) (s : State), s.serves cci → s.ldExists ld = true →
    let does := fun (c : Instr) (t : State) (code : Code) => ∃ r, exec c s = .next r ∧ t.answered r cci code []
    let last := fun (c : Instr) (code : Code) (p : State → Prop) => ∃ r, exec c s = .next r ∧ r.out.head? = some (.command cci code []) ∧ p r
    (cci = .mctp →
      (∀ (g : BitVec 8) (base length : BitVec 64), s.regionOk ld g.toNat base length = true →
        does (.setDcRegionConfiguration cci 8 ld g base length) (s.modLd ld fun d => { d with
          regions := Tab.set {} d.regions g.toNat { base := base.toNat / 2 ^ 28, len := length.toNat / 2 ^ 28 } }) .success) ∧
      (∀ (g : BitVec 8) (base length : BitVec 64), base.toNat % 2 ^ 28 ≠ 0 ∨ length.toNat % 2 ^ 28 ≠ 0 ∨ 8 ≤ g.toNat →
        does (.setDcRegionConfiguration cci 8 ld g base length) s .invalidInput) ∧
      (∀ (block : BitVec 24) (count : BitVec 32) (loaned fixed packed : Bool) (fill : Option (Fin 24)) (slot : BitVec 12) (tag : BitVec 64),
        s.ident.role = true → s.start.phase9Done = true → count ≠ 0 → count.toNat ≤ 4096 → s.keyGives slot.toNat ld = true →
        let q := postMailbox cci 0x5604 8 false s
        s.answered { q with out := .command cci .success [] :: s.out } cci .success [] ∧
          let a := admitGrant { ld := ld.val, block := block.toNat, count := count.toNat, loaned, fixed, packed, slot := slot.toNat, tag,
                                fill := fill.map (·.val), map := none } q
          exec (.initiateDynamicCapacityAdd cci 8 ld block count loaned fixed packed fill none slot tag) s =
            .next (a.2.2.emit (.command cci (if a.1 = 0 then .success else .resourcesExhausted) [])))) ∧
    (s.permits cci (.self ld) = true →
      (∀ m : DpaEntry, let e := m.extent.toNat
        s.dpaFind ld m.block.toNat = some m → m.ld.toNat = ld → s.isOffer ld m.block.toNat = false → m.home = s.ident.devId →
        (s.extent e).state = .offered → (s.extent e).announced = true → (s.extent e).grantCount = 1 → (s.extent e).grantFirst = e →
        s.inRegion ld m.block.toNat = true →
        last (.addDynamicCapacityResponse cci 32 ld [(BitVec.ofNat 64 (m.block.toNat * 2 ^ 28), BitVec.ofNat 64 (2 ^ 28))]) .success fun r =>
          (r.extent e).state = .active ∧ (∀ i, i ≠ e → r.extent i = s.extent i) ∧ r.cap.dpaMap = s.cap.dpaMap ∧ r.dram = s.dram) ∧
      (s.oldestOffer ld = none → does (.addDynamicCapacityResponse cci 8 ld []) s .success) ∧
      (∀ m : DpaEntry, let e := m.extent.toNat
        s.dpaFind ld m.block.toNat = some m → m.ld.toNat = ld → s.isOffer ld m.block.toNat = false → m.home = s.ident.devId →
        (s.extent e).state = .active → (s.extent e).releasing = false → (s.extent e).mappings = 2 → s.inRegion ld m.block.toNat = true →
        let x := [(BitVec.ofNat 64 (m.block.toNat * 2 ^ 28), BitVec.ofNat 64 (2 ^ 28))]
        last (.releaseDynamicCapacity cci 32 ld x) .success (fun r => (r.extent e).mappings = 1 ∧ (r.extent e).state = .active ∧
          ∀ i, i ≠ e → r.extent i = s.extent i) ∧
        (cci = .mctp → last (.initiateDynamicCapacityRelease cci 8 ld true x) .success fun r => (r.extent e).mappings = 1)) ∧
      ∀ x : BitVec 64 × BitVec 64, x.1.toNat % 2 ^ 28 ≠ 0 ∨ x.2.toNat ≠ 2 ^ 28 ∨ s.dpaFind ld (x.1.toNat / 2 ^ 28) = none →
        does (.addDynamicCapacityResponse cci 32 ld [x]) s .invalidExtentList ∧ does (.releaseDynamicCapacity cci 32 ld [x]) s .invalidExtentList ∧
        (cci = .mctp → ∀ f, does (.initiateDynamicCapacityRelease cci 8 ld f [x]) s .invalidExtentList))

/-- R99, R100, R355, R358, R362, R363, R366, R370, R371: program images. -/
def Obligations.ImagesAreLoadedActivatedAndSwapped : Prop :=
  (∀ (cci : Cci) (op : Bool) (off total len : BitVec 32) (chunk : List Byte) (sigOk : Bool) (s : State), s.serves cci → let t := flag op
    let c := Instr.loadRiliaImage cci len off total (BitVec.ofNat 8 t) 0 0 chunk sigOk
    let reply := fun (n st : Nat) => Output.command cci .success (leBytes 4 n ++ leBytes 1 st ++ leBytes 3 0)
    let loaded := fun (r : State) (old : List Byte) => let b := old ++ chunk
      let st := if b.length < total.toNat then 0 else (s.verdict t 0 b sigOk).1
      r.out.head? = some (reply b.length st) ∧ r.img.copy op (s.img.inactive t) = b ∧
        (∃ l, r.loadOf t 0 = some l ∧ l.bytes = b ∧ l.state = st ∧ l.total = total.toNat ∧ l.at_ = s.time.now)
    s.mayImage cci t 0 = true → s.activating t 0 = false → chunk ≠ [] → len.toNat = 16 + chunk.length → len.toNat ≤ payloadBuffer cci →
    total.toNat ≤ 524288 → off.toNat + chunk.length ≤ total.toNat →
      (off = 0 → s.loadOf t 0 = none → ∃ r, exec c s = .next r ∧ loaded r []) ∧
      (∀ l, off ≠ 0 → s.loadOf t 0 = some l → l.cci = cci → l.state = 0 → l.bytes.length = off.toNat → l.total = total.toNat →
        ∃ r, exec c s = .next r ∧ loaded r l.bytes)) ∧
  (∀ (cci : Cci) (op : Bool) (l : Load) (s : State), s.serves cci → let t := flag op
    s.mayImage cci t 0 = true → s.loadOf t 0 = some l → l.state = 1 → s.img.act = none → (s.cci (cciIndex cci)).background.running = false →
    ∃ r, exec (.activateRiliaImage cci 4 (BitVec.ofNat 8 t) 0 0 0) s = .next r ∧ r.out.head? = some (.command cci .backgroundStarted []) ∧
      r.img = { s.img with act := some { target := t, bytes := l.bytes, cci, at_ := s.time.now } } ∧
      (r.cci (cciIndex cci)).background = { opcode := 0xC002, running := true } ∧ r.ril.active = s.ril.active ∧ r.threads = s.threads) ∧
  (∀ (a : Activation) (s : State), s.running = true → s.img.act = some a →
    let old := s.ril.active
    let busyOld := fun (s : State) (t : Nat) => t < 32 ∧ (s.thread t).state.busy = true ∧ (s.thread t).bank = old
    (s.power.dozing = false → a.swapped = none → a.target < 2 → ∃ r, exec .activationSwap s = .next r ∧ r.ril.active = !old ∧
      r.bank (!old) = ((s.bank old).withText a.target a.ld a.bytes).1 ∧ r.img.lastSwap = s.time.tb ∧
      (a.target = 0 → r.img.fwCopy = !s.img.fwCopy) ∧
      (∀ t, (s.thread t).state.busy = true → (r.thread t).state = (s.thread t).state ∧ (r.thread t).bank = (s.thread t).bank) ∧
      ((∃ t, busyOld s t) → r.img.act = some { a with swapped := some s.time.now } ∧ r.bank old = s.bank old ∧
        (a.target = 0 → r.img.fwPrevious = true ∧ r.img.sequence = s.img.sequence + 1)) ∧
      ((¬ ∃ t, busyOld s t) → r.img.act = none ∧ r.bank old = {}) ∧ r.dram = s.dram ∧ r.time = s.time) ∧
    (∀ d, a.swapped = some d → d + 100000000 ≤ s.time.now → ∃ r, exec .gracePeriodExpiry s = .next r ∧ r.img.act = none ∧
      r.ril.active = old ∧ r.bank (!old) = {} ∧ r.bank old = s.bank old ∧ (r.cci (cciIndex a.cci)).background.running = false ∧
      ∀ t, t < 32 → ((s.thread t).state.busy = true → (s.thread t).bank ≠ old →
          ((s.thread t).state ≠ .deviceOp → (r.thread t).state = .free) ∧
          ((s.thread t).state = .deviceOp → (r.thread t).state = .deviceOp ∧ (r.thread t).cut = true)) ∧
        ((s.thread t).state.busy = true → (s.thread t).bank = old → (r.thread t).state = (s.thread t).state))) ∧
  (∀ (key : List Byte) (s : State), let p := (s.cci 256).spdm
    s.cciLive .mctp = true → p.established = true → p.version13 = true → s.img.opKey = none → key.length = 96 →
    ∃ v, exec (.opkeyEnrol .mctp 208 1 key true) s = .next { s with
      img := { s.img with opKey := some key, keyCounter := 1, writes := s.img.writes + 1 }, out := .spdm .mctp v :: s.out })

/-- R210, R214 to R216: key messages and the staging entries. -/
def Obligations.KeysAreStagedQueriedAndClosed : Prop :=
  ∀ (cci : Cci) (s : State), s.cciLive cci = true →
    let p := (s.cci (cciIndex cci)).spdm
    let gives := fun (c : Instr) (t : State) (op status st n : Nat) => exec c s = .next { t with out := .spdm cci (keyBody op status st n) :: t.out }
    (p.established = false ∨ p.version13 = false ∨ p.mutualAuth = false → ∀ c ∈ [Instr.keyPut cci 80 0 0 1 1 2, .keyQuery cci 16 0 1, .keyClose cci 16 0 1],
      exec c s = .next { s with out := .spdmUnexpected cci :: s.out }) ∧
    (p.established = true → p.version13 = true → p.mutualAuth = true →
      (∀ (ld : BitVec 16) (handle : BitVec 32) (k1 k2 : BitVec 256) (owner : Option Nat), ownerOf cci ld = some owner → handle ≠ 0 →
        let put := fun (d : BitVec 8) => Instr.keyPut cci 80 ld d handle k1 k2
        let own : BitVec 8 := s.ident.devId.setWidth 8
        (∀ d, d.toNat ≤ 3 → k1 = k2 → gives (put d) s 1 2 0 0) ∧
        (k1 ≠ k2 → (s.keys.staged.any fun k => k.handle = handle) = true → gives (put own) s 1 5 0 0) ∧
        (k1 ≠ k2 → (s.keys.staged.any fun k => k.handle = handle) = false → 64 ≤ s.keys.staged.length → gives (put own) s 1 3 0 0) ∧
        (k1 ≠ k2 → (s.keys.staged.any fun k => k.handle = handle) = false → s.keys.staged.length < 64 → ∃ r, exec (put own) s = .next r ∧
          r.keys = { s.keys with staged := s.keys.staged ++ [{ handle, owner, key := k2 ++ k1, at_ := s.time.now }] } ∧
          r.out.head? = some (.spdm cci (keyBody 1 0 0 0)) ∧
          ((s.queue 5).entries.length < 64 → ∃ e, (r.queue 5).entries = (s.queue 5).entries ++ [e] ∧ e.g1 = handle.setWidth 64)) ∧
        (∀ d, d.toNat ≤ 3 → d ≠ own → k1 ≠ k2 →
          (s.keyReach d.toNat = false → gives (put d) s 1 4 0 0) ∧
          (s.keyReach d.toNat = true → ∃ r, exec (put d) s = .next r ∧ r.out = s.out ∧ r.keys = { s.keys with
            puts := s.keys.puts ++ [(s.keys.nextPut, cci, d.toNat)], nextPut := s.keys.nextPut + 1 }))) ∧
      (∀ slot : BitVec 16, slot ≠ 0 → slot.toNat < 4096 → let k := s.keySlot slot.toNat
        (∀ i, cci = .ld i → k.state ≠ .empty → k.owner = some i.val →
          gives (.keyQuery cci 16 0 slot) s 2 0 k.state.code k.count ∧
          (k.state = .bound → gives (.keyClose cci 16 0 slot) (s.modKeySlot slot.toNat fun x => { x with state := .closing }) 3 0 3 k.count) ∧
          (k.state = .loaded → ∃ r, exec (.keyClose cci 16 0 slot) s = .next r ∧ (r.keySlot slot.toNat).state = .empty ∧
            ∀ j, j ≠ slot.toNat → r.keySlot j = s.keySlot j)) ∧
        (∀ i, cci = .ld i → k.state = .empty ∨ k.owner ≠ some i.val → gives (.keyQuery cci 16 0 slot) s 2 1 0 0 ∧ gives (.keyClose cci 16 0 slot) s 3 1 0 0))) ∧
    ∀ handle : BitVec 32, exec (.keyStagingTimeout handle) s = .next { s with keys := { s.keys with
      staged := s.keys.staged.filter fun x => x.handle ≠ handle ∨ s.time.now < x.at_ + 10000000000 } }

/-- R86, R87, R96, R270, R275: the poison list and its commands, and Scan Media. -/
def Obligations.PoisonIsListedInjectedClearedAndScanned : Prop :=
  ∀ (cci : Cci) (ld : Fin 256) (s : State), s.serves cci → s.ldExists ld = true → s.permits cci (.self ld) = true →
    let does := fun (c : Instr) (t : State) (code : Code) (payload : List Byte) => ∃ r, exec c s = .next r ∧ t.answered r cci code payload
    let last := fun (c : Instr) (p : State → Prop) => ∃ r, exec c s = .next r ∧ r.out.head? = some (.command cci .success []) ∧ p r
    let sc := (s.ld ld).scan
    let busy := (s.cci (cciIndex cci)).background.running || sc.running
    let fit := (payloadBuffer cci - 32) / 16
    (∀ lo hi a n k, (a, n, k) ∈ s.ldPoison ld lo hi ↔ ∃ p ∈ s.integ.poison, ∃ b, (ld.val, b) ∈ s.mappings (extentOf p.dlpn) ∧
      a = b * 2 ^ 28 + p.dlpn % 65536 * 4096 + unitByte p.unit p.place ∧ n = (if p.unit = 0 then 64 else if p.unit = 1 then 1024 else 4096) ∧
      k = p.source ∧ a < hi ∧ lo < a + n) ∧
    (∀ dpa length : BitVec 64,
      let all := s.ldPoison ld dpa.toNat (dpa.toNat + 64 * length.toNat)
      does (.getPoisonList cci 16 ld dpa length) s .success (wordsLe ([flag (decide ((all.take fit).length < all.length)) +
          2 * flag s.integ.overflow, (s.integ.firstRefused + (s.ld ld).timeOffset).toNat, (all.take fit).length] ++ poisonWords (all.take fit))) ∧
      does (.getScanMediaCapabilities cci 16 ld dpa length) s .success (leBytes 4 (64 * length.toNat * 1000 / s.scanRate)) ∧
      (busy = true → does (.scanMedia cci 17 ld dpa length) s .busy []) ∧
      (busy = false → does (.scanMedia cci 17 ld dpa length)
        ((s.modCci (cciIndex cci) fun c => { c with background := { opcode := 0x4304, running := true } }).modLd ld fun d => { d with
          scan := { fromDpa := dpa.toNat, toDpa := dpa.toNat + 64 * length.toNat, running := true, by_ := cciIndex cci } })
        .backgroundStarted [])) ∧
    (sc.running = true →
      does (.getScanMediaResults cci 0 ld) s .busy [] ∧
      ∀ ues, ∃ r, exec (.scanMediaComplete ld ues) s = .next r ∧ (r.ld ld).scan.running = false ∧
        (r.ld ld).scan.results = (r.ldPoison ld sc.fromDpa sc.toDpa).map (fun p => (p.1, p.2.1)) ∧
        (r.cci sc.by_).background.running = false ∧ (r.cci sc.by_).background.percent = 100) ∧
    (sc.running = false → does (.getScanMediaResults cci 0 ld) s .success (wordsLe ([sc.fromDpa, (sc.toDpa - sc.fromDpa) / 64,
      (sc.results.take fit).length] ++ (sc.results.take fit).flatMap fun p => [p.1, p.2 / 64]))) ∧
    (∀ i, cci = .ld i → (s.ld ld).injectPoison = false → ∀ dpa, does (.injectPoison cci 8 ld dpa) s .unsupportedMailbox []) ∧
    ∀ dpa : BitVec 64,
      let may := ∀ i, cci = .ld i → (s.ld ld).injectPoison = true
      (s.ownLine ld dpa = none → (may → does (.injectPoison cci 8 ld dpa) s .invalidInput []) ∧
        ∀ data, does (.clearPoison cci 72 ld dpa data) s .invalidInput []) ∧
      ∀ (d n : Nat), s.ownLine ld dpa = some (d, n) → s.integ.poison.length < 65536 →
        let l := locLine (s.desc d).location + n
        let b := n / 16
        let listed := fun (u k : Nat) (x : State) => x.modInteg fun i => { i with
          poison := i.poison ++ [{ dlpn := d, unit := u, place := k, source := 2, timebase := s.time.tb }] }
        (may →
          ((s.desc d).state = .poisoned → does (.injectPoison cci 8 ld dpa) s .success []) ∧
          ((s.desc d).state = .plain → s.poisonListed d 0 n = false →
            does (.injectPoison cci 8 ld dpa) (listed 0 n (putLine l { s.lineNow l with poisoned := true } s)) .success []) ∧
          ((s.desc d).state ≠ .poisoned → (s.desc d).state ≠ .plain → s.poisonListed d 1 b = false →
            (s.desc d).bpoison ||| BitVec.ofNat 4 (2 ^ b) ≠ 15 →
            does (.injectPoison cci 8 ld dpa) (listed 1 b (modDesc d (fun x => { x with bpoison := x.bpoison ||| BitVec.ofNat 4 (2 ^ b) }) s))
              .success [])) ∧
        ((∀ q, ∀ x ∈ (s.quad q).records, x.dlpn ≠ d) → ∀ data : BitVec 512,
          ((s.desc d).state = .plain → (s.desc d).bpoison.getLsbD b = false → last (.clearPoison cci 72 ld dpa data) fun r =>
            r.overlay d n = (data, BitVec.allOnes 64, false) ∧ r.poisonListed d 0 n = false) ∧
          ((s.desc d).state = .plain → (s.desc d).bpoison.getLsbD b = true → last (.clearPoison cci 72 ld dpa data) fun r =>
            (∀ k, k / 16 = b → r.overlay d k = (if k = n then data else 0, BitVec.allOnes 64, false)) ∧ r.poisonListed d 1 b = false ∧
              (r.desc d).bpoison.getLsbD b = false) ∧
          ((s.desc d).state = .poisoned → s.chargeOk (extentOf d) 64 = true → last (.clearPoison cci 72 ld dpa data) fun r =>
            r.overlay d n = (data, BitVec.allOnes 64, false) ∧ (∀ p ∈ r.integ.poison, p.dlpn ≠ d) ∧
              (r.desc d).state = if (takeFrameOn (.page d) s (s.firstPlaces d)).isSome then .plain else .zero))

/-- R259, R262 to R265, R271 to R273, R276, R279, R280: errors met by the scrubber, the write bus and guests. -/
def Obligations.ErrorsAreCountedMarkedAndReported : Prop :=
  ∀ (s : State), s.running = true →
    let listed := fun (d u k n : Nat) (x : State) => x.modInteg fun i => { i with
      poison := i.poison ++ [{ dlpn := d, unit := u, place := k, source := n, timebase := s.time.tb }] }
    let block := fun (d b : Nat) (x : State) => modDesc d (fun e => { e with bpoison := e.bpoison ||| BitVec.ofNat 4 (2 ^ b) }) x
    let room := s.integ.poison.length < 65536
    (∀ (line : BitVec 38) (flips again : List (BitVec 80)) (lanes : BitVec 40),
      let l := line.toNat
      let c := lineChan l
      let p := (s.chan c).place l
      s.start.phase9Done = true → s.integ.scrubEn = true → s.activeChan c = true → (s.chan c).framesBelow (lineFrame l) 1 = true →
      s.scrubSkips l = false → (s.chan c).ueRun = 0 →
        let o := s.scrubOutcome l flips again
        let t := s.modInteg fun i => { i with scrubbed := i.scrubbed + 1 }
        (o.1.out ≠ .ue → o.2 = false → o.1.corrected = false → s.lineUse l = .free →
          exec (.patrolScrubRead line flips again lanes) s = .next t) ∧
        (o.1.out = .clean → (o.2 || o.1.corrected) = true → s.lineUse l = .free →
          ∃ r, exec (.patrolScrubRead line flips again lanes) s = .next r ∧ r.stickySet (srcChannel c 0) = true ∧
            (((s.modInteg fun i => { i with scrubbed := i.scrubbed + 1, ceFound := satAdd i.ceFound 1 }).modChan c fun h =>
              { h with ce := satAdd h.ce 1 }).modFaults fun f => { f with ceTotal := satAdd f.ceTotal 1 }).Reports r) ∧
        (o.1.out = .ue → o.1.tagBad = false → onesIn o.1.bad ≤ 1 → (s.rank c p.rankBit).ueRows = [] → s.integ.rowsN ≠ 1 →
          let u := (s.modInteg fun i => { i with scrubbed := i.scrubbed + 1, ueFound := satAdd i.ueFound 1 }).modChan c fun h => { h with
            ue := satAdd h.ue 1, ueRun := 1, ueRunRows := insertNat (p.rankBit * 2 ^ 24 + p.rowId) h.ueRunRows
            ranks := Tab.set {} h.ranks p.rankBit { s.rank c p.rankBit with ueRows := [(p.rowId, s.now)] } }
          (s.lineUse l = .free → ∃ r, exec (.patrolScrubRead line flips again lanes) s = .next r ∧ (putLine l {} u).Reports r ∧
            r.stickySet (srcChannel c 3) = true) ∧
          ∀ d n, s.lineUse l = .page d n → (s.source d).1 = .plain → s.poisonListed d 0 n = false → s.superseded l d n = false → room →
            ∃ r, exec (.patrolScrubRead line flips again lanes) s = .next r ∧ r.stickySet (srcChannel c 1) = true ∧
              (listed d 0 n 0 (putLine l { s.lineNow l with poisoned := true } u)).Reports r)) ∧
    (s.integ.periodAt + s.integ.periodNow.toNat * 3600 * secNs ≤ s.now →
      ∃ r, exec .scrubPeriodEnd s = .next r ∧
        (s.modInteg fun i => { i with passes := i.passes + 1, periodNow := i.period, periodAt := s.now, scrubbed := 0
                                      overflow := i.overflow && i.refusedNow, refusedNow := false }).Reports r ∧
        r.faults.live = if s.integ.overflow && s.integ.refusedNow then s.faults.live else s.faults.live.erase 24) ∧
    (∀ (c : Fin 24) (k : Fin 16), (s.rank c k).device ≠ none → (s.chan c).failing.getLsbD k = false → (s.rank c k).since + s.rowsWin ≤ s.now →
      exec (.rankRecordExpiry c k) s = .next (modRank c k (fun x => { x with device := none, rows := [], since := 0 }) s)) ∧
    (∀ line : BitVec 38,
      let l := line.toNat
      let c := lineChan l
      let n := Tab.get 0 (s.chan c).wcrc l
      let times := s.now :: (s.chan c).wcrcTimes.filter fun x => s.now < x + s.integ.wcrcWin.toNat * msNs
      let u := s.modChan c fun h => { h with wcrcExhaust := satAdd h.wcrcExhaust 1, wcrcTimes := times, wcrc := Tab.erase h.wcrc l }
      c < 24 → (s.chan c).refreshes = true →
        (n < 4 → ∃ r, exec (.writeCrcError line) s = .next r ∧ r.stickySet (srcChannel c 4) = true ∧
          (s.modChan c fun h => { h with wcrcRetry := satAdd h.wcrcRetry 1, wcrc := Tab.set 0 h.wcrc l (n + 1) }).Reports r) ∧
        (4 ≤ n → times.length ≠ s.integ.wcrcN.toNat →
          (s.lineUse l = .free → ∃ r, exec (.writeCrcError line) s = .next r ∧ u.Reports r ∧ r.stickySet (srcChannel c 5) = true) ∧
          ∀ d k, let b := s.pageLine d k / 16
            s.lineUse l = .page d k → s.record d = none → s.poisonListed d 1 b = false → room →
            (s.desc d).bpoison ||| BitVec.ofNat 4 (2 ^ b) ≠ 15 →
            ∃ r, exec (.writeCrcError line) s = .next r ∧ (listed d 1 b 0 (block d b u)).Reports r)) ∧
    (∀ c : Fin 24, (s.chan c).retirePending ≠ none → (s.chan c).state = .active → (s.chan c).retryAt ≤ s.now →
      (s.evacCode c true ≠ 0 → exec (.retirementRetry c) s = .next (s.modChan c fun h => { h with retryAt := s.now + secNs })) ∧
      (s.evacCode c true = 0 → ∃ r, exec (.retirementRetry c) s = .next r ∧ (r.chan c).state = .evacuating ∧
        (r.chan c).evac = some { force := true, slotsOff := true, retire := true, total := 4096 * s.framesUsed c, queue := none })) ∧
    (∀ (d : Fin 4) (dlpn : BitVec 34), let p := dlpn.toNat
      (s.source p).1 = .far → locGuest (s.source p).2.1 = d → room →
        (∀ b : Fin 5, b.val < 4 → (s.desc p).bpoison.getLsbD b = false → s.poisonListed p 1 b = false →
          (s.desc p).bpoison ||| BitVec.ofNat 4 (2 ^ b.val) ≠ 15 →
          ∃ r, exec (.guestPoisonReport d dlpn b) s = .next r ∧ (listed p 1 b 0 (block p b s)).Reports r) ∧
        ((∀ q, ∀ x ∈ (s.quad q).records, x.dlpn ≠ p) → ∃ r, exec (.guestPoisonReport d dlpn 4) s = .next r ∧
          (r.desc p).state = .poisoned ∧ r.poisonListed p 2 0 = true ∧ ∀ x ∈ r.integ.poison, x.dlpn = p → x.unit = 2))

/-- R283, R284: row fences and repairs. -/
def Obligations.RowsAreFencedAndRepaired : Prop :=
  ∀ (c : Fin 24) (s : State), s.running = true →
    let h := s.chan c
    (h.repairBusy = false → h.state = .active ∨ h.state = .evacuating →
      exec (.repairLiftFence c) s = .next (s.modChan c fun h => { h with repairKind := 0, fence := none, repairResult := 1 }) ∧
      ∀ (slot : BitVec 1) (rank bg : BitVec 3) (bank : BitVec 2) (row : BitVec 17),
        let t := repairTarget slot rank bg bank row
        let free := h.rowExists t = true ∧ (h.fence = none ∨ h.fence = some t)
        (free → exec (.repairFence c slot rank bg bank row) s = .next (s.modChan c fun h => { h with
          repairKind := 1, target := t, fence := some t, repairResult := 1 })) ∧
        (¬ free → exec (.repairFence c slot rank bg bank row) s = .next (s.modChan c fun h => { h with
          repairKind := 1, target := t, repairResult := 6 })) ∧
        ∀ resource : Bool,
          let inUse := ∃ f ∈ h.rowFrames t, clearOf (s.alloc c).used f 1 = false
          let full := 16 ≤ (s.rankSpares (2 * c + t.slot) t.rank).length
          let both := fun (f : BitVec 2 → Bool → State) =>
            exec (.repairSoft c slot rank bg bank row resource) s = .next (f 2 false) ∧
            exec (.repairHard c slot rank bg bank row resource) s = .next (f 3 true)
          let result := fun (n : BitVec 3) => both fun k _ => s.modChan c fun h => { h with repairKind := k, target := t, repairResult := n }
          (h.fence ≠ some t → result 6) ∧
          (h.fence = some t → inUse → result 2) ∧
          (h.fence = some t → ¬ inUse → full → result 4) ∧
          (h.fence = some t → ¬ inUse → ¬ full → resource = false → result 3) ∧
          (h.fence = some t → ¬ inUse → ¬ full → resource = true → both fun k hard => s.modChan c fun h => { prechargeAll h with
            repairKind := k, target := t, repairBusy := true, repairHard := hard
            repairAt := if h.retrainBusy then max s.now h.retrainEnd else s.now })) ∧
    (h.repairBusy = true → h.repairAt + 100 * usNs ≤ s.now →
      exec (.repairDone c false) s = .next (s.modChan c fun h => { h with repairBusy := false, repairResult := 5 }) ∧
      ∃ r, exec (.repairDone c true) s = .next r ∧ (r.chan c).repairBusy = false ∧ (r.chan c).repairResult = 1 ∧ (r.chan c).fence = none ∧
        (∀ f ∈ h.rowFrames h.target, ∀ i < 64, r.lineNow (frameLine c f + i) = {}) ∧
        r.integ = { s.integ with
          spares := s.integ.spares ++ [{ serial := ((h.spd h.target.slot).map (·.serial)).getD 0, slot := 2 * c + h.target.slot
                                         rank := h.target.rank, bg := h.target.bg, bank := h.target.bank
                                         kind := if h.repairHard then 2 else 1, row := h.target.row }]
          flashWrites := satAdd s.integ.flashWrites 1 })

/-- R103, R197 to R201: evacuation and restore of channels. -/
def Obligations.ChannelsAreEvacuatedAndRestored : Prop :=
  ∀ (s : State),
    (∀ (cci : Cci) (cb : BitVec 8), s.serves cci → s.permits cci .mgmt = true →
      let c := cb.toNat
      let does := fun (i : Instr) (t : State) (code : Code) (payload : List Byte) => ∃ r, exec i s = .next r ∧ t.answered r cci code payload
      let last := fun (i : Instr) (p : State → List Byte → Prop) => ∃ r w, exec i s = .next r ∧ r.out.head? = some (.command cci .success w) ∧ p r w
      (∀ action flags, 23 < c ∨ 2 < action.toNat → does (.channelEvacuate cci 4 cb action flags) s .invalidInput []) ∧
      (23 < c → does (.channelRestore cci 4 cb) s .invalidInput []) ∧
      (c ≤ 23 → ∀ flags : BitVec 8,
        (let code := s.evacCode c false;
          (code ≠ 0 → does (.channelEvacuate cci 4 cb 0 flags) (s.modChan c fun h => { h with evacLast := some code }) .success
            (evacReply c code (s.evacLeft c))) ∧
          (code = 0 → last (.channelEvacuate cci 4 cb 0 flags) fun r w => w = evacReply c 0 (r.evacLeft c) ∧ (r.chan c).state = .evacuating ∧
            (r.chan c).evac = some { slotsOff := flags.getLsbD 0, total := 4096 * s.framesUsed c })) ∧
        (let query := fun (k : Nat) => does (.channelEvacuate cci 4 cb 1 flags) s.takeFree .success (evacReply c k (s.evacLeft c));
          ((s.chan c).evac ≠ none → query 0) ∧
          ((s.chan c).evac = none → (s.chan c).state = .evacuated ∨ (s.chan c).state = .retired → query 1) ∧
          ∀ k, (s.chan c).evac = none → (s.chan c).state ≠ .evacuated → (s.chan c).state ≠ .retired → (s.chan c).evacLast = some k → query k) ∧
        ((s.chan c).state ≠ .evacuating → does (.channelEvacuate cci 4 cb 2 flags) (s.modChan c fun h => { h with evacLast := some 3 })
          .success (evacReply c 3 (s.evacLeft c))) ∧
        (∀ v, (s.chan c).state = .evacuating → (s.chan c).evac = some v →
          last (.channelEvacuate cci 4 cb 2 flags) fun r w => w = evacReply c 5 (r.evacLeft c) ∧
            if s.evacRecords c = [] then (r.chan c).state = .active ∧ (r.chan c).evac = none
            else (r.chan c).state = .evacuating ∧ (r.chan c).evac = some { v with cancelled := true }) ∧
        (let code := s.restoreCode c;
          let reply := leBytes 1 c ++ leBytes 1 code ++ leBytes 6 0;
          (code ≠ 0 → does (.channelRestore cci 4 cb) s .success reply) ∧
          (code = 0 → last (.channelRestore cci 4 cb) fun r w => w = reply ∧ (r.chan c).state = .untrained ∧ (r.chan c).usable = 0 ∧
            (r.chan c).frontier = 0 ∧ (r.chan c).train = { restore := true } ∧ r.alloc c = {} ∧
            ∀ k ∈ s.presentSlots c, (s.slot (2 * c + k)).state = .off → (2 * c + k) ∈ r.slotMgr.queue ∨ s.slotWaits (2 * c + k) = true)))) ∧
    (∀ (c : Fin 24) (f i : Nat), s.running = true → s.start.phase9Done = true → (s.chan c).state = .evacuating →
      (s.chan c).evac.map (·.cancelled) = some false → s.firstMega c = some (f, .ring i) →
      let free := fun d => decide (d ≠ c.val) && s.activeChan d && (s.lowestRun d 4096 256 (2 ^ 26)).isSome
      (∀ d b, (List.range 24).find? free = some d → s.lowestRun d 4096 256 (2 ^ 26) = some b →
        ∃ r, exec (.evacuationStructureMoved c) s = .next r ∧ r.rec_.segments = s.rec_.segments.set i d ∧
          (∀ k < 16, Tab.get none (r.alloc d).megas (b / 256 + k) = some (.ring i)) ∧
          ∀ e ∈ (r.alloc c).megas, e.2 ≠ some (.ring i)) ∧
      ((List.range 24).find? free = none → ∃ r, exec (.evacuationStructureMoved c) s = .next r ∧ Waiter.evac c ∈ r.waiters ∧
        r.allocs = s.allocs ∧ r.rec_.segments = s.rec_.segments)) ∧
    (∀ (c : Fin 24) (v : Evac), s.running = true → (s.chan c).state = .evacuating → (s.chan c).evac = some v →
      (v.cancelled = true → s.evacRecords c = [] → ∃ r, exec (.evacuationEnd c) s = .next r ∧ (r.chan c).state = .active ∧
        (r.chan c).evac = none) ∧
      (v.cancelled = false → s.evacEmpty c = false → exec (.evacuationEnd c) s = .next s) ∧
      (v.cancelled = false → s.evacEmpty c = true → (s.chan c).retrainBusy = false → (s.chan c).repairBusy = false →
        ∃ r, exec (.evacuationEnd c) s = .next r ∧ (r.chan c).state = (if v.retire then .retired else .evacuated) ∧ (r.chan c).evac = none ∧
          (r.chan c).usable = 0 ∧ (r.chan c).speed = 0 ∧ (r.chan c).refreshing = false ∧ (r.chan c).selfRefresh = false ∧
          (v.slotsOff = true → ∀ k < 2, (s.slot (2 * c + k)).state.powered = true → (r.slot (2 * c + k)).state = .off) ∧
          (v.slotsOff = false → r.slots = s.slots) ∧ (v.retire = true → r.holds (srcChannel c 10) = true) ∧
          ∀ q, v.queue = some q → (s.queue q).entries.length < queueCap q →
            (r.queue q).entries = (s.queue q).entries ++ [{ g1 := BitVec.ofNat 64 c, g2 := 1, g3 := 0, g4 := 0, timebase := s.time.tb }]))

/-- R176, R178, R179, R187 to R189, R194, R306, R331: an operation of the mover from its claim to its end. -/
def Obligations.PagesAreClaimedCopiedCheckedAndFreed : Prop :=
  ∀ (q : Fin 4) (s : State), s.running = true → s.start.phase9Done = true →
    let frame := fun (r : State) (l : Nat) => Tab.get none (r.alloc (lineChan l)).frames (lineFrame l)
    let told := fun (r : State) (ticket : Option (BitVec 16)) (code : Nat) => ∀ tk k c, ticket = some tk →
      Tab.get none s.ril.tickets tk.toNat = some k → k.queue = some c → c ≠ 3 → (s.queue c).entries.length < queueCap c →
      (r.queue c).entries = (s.queue c).entries ++
        [{ g1 := tk.setWidth 64, g2 := BitVec.ofNat 64 code, g3 := BitVec.ofNat 64 k.dlpn, g4 := 0, timebase := s.time.tb }]
    (∀ (flips : List (Nat × List (BitVec 80))) (j : MoverJob) (rest : List MoverJob),
      s.readyClaim q = none → (s.quad q).records.length < (s.quad q).maxInflight.toNat → (s.quad q).heatJobs = [] →
      s.evacChan q = none → (s.quad q).jobs = j :: rest →
      let d := s.desc j.dlpn
      let op := resolveOp j.op d.state
      (s.claiming j.dlpn = true → exec (.moverClaim q flips) s = .next s) ∧
      ((∀ p, ∀ x ∈ (s.quad p).records, x.dlpn ≠ j.dlpn) → s.pageLive j.dlpn = true →
        (∀ code, s.opCode op d = some code → j.op ≠ .evacPage → ∃ r, exec (.moverClaim q flips) s = .next r ∧ (r.quad q).jobs = rest ∧
          (r.quad q).records = (s.quad q).records ∧ r.mdata = s.mdata ∧ r.allocs = s.allocs ∧ told r j.ticket code) ∧
        (∀ c f, op = .move c → d.state = .plain → s.activeChan c = true → d.lock = false → s.gathered j.dlpn = false →
          s.lowestRun c 1 1 1 = some f → s.moverOk (s.inM (extentOf j.dlpn) 64) = true →
          ∃ r, exec (.moverClaim q flips) s = .next r ∧ (r.quad q).jobs = rest ∧
            r.desc j.dlpn = { d with state := .moving, lock := true } ∧ (r.alloc c).frames = Tab.set none (s.alloc c).frames f (some (.dest j.dlpn)) ∧
            (r.quad q).records = (s.quad q).records ++ [{ dlpn := j.dlpn, op, srcState := 1, phase := .copy, srcLoc := d.location
                                                          srcLen := d.blockLen, rgen := d.wgen, passGen := d.wgen, placed := true
                                                          dstState := 1, dstLoc := BitVec.ofNat 44 (frameLine c f), charge := 64
                                                          inM := s.inM (extentOf j.dlpn) 64, limit := (s.quad q).maxRestarts.toNat
                                                          ticket := j.ticket }] ∧
            r.dram = s.dram ∧ r.cap.m = s.cap.m + s.inM (extentOf j.dlpn) 64))) ∧
    (∀ (dlpn : BitVec 34) (m : MoverRec) (c : Nat), let d := dlpn.toNat
      (s.quad q).records = [m] → (∀ p, p ≠ q.val → (s.quad p).records = []) → m.dlpn = d → m.op = .move c → m.phase = .copy →
      m.srcState = 1 → m.dstState = 1 → m.placed = true → m.dstSlots = 0 → (s.desc d).state = .moving → s.gathered d = false →
      lineChan (locLine m.dstLoc) / 6 = lineChan (locLine m.srcLoc) / 6 → (s.desc d).bpoison ≠ 15 →
      (locLine m.dstLoc + 64 ≤ locLine m.srcLoc ∨ locLine m.srcLoc + 64 ≤ locLine m.dstLoc) →
      (∀ o ∈ s.const.opened, o.dlpn ≠ d) → (∀ x ∈ s.path.reqs, x.stage ≠ .stalled ∧ x.dlpn ≠ d) →
        let line := fun i => let x := s.lineNow (locLine m.srcLoc + i)
          ({ x with poisoned := x.poisoned || (s.desc d).bpoison.getLsbD (i / 16) } : DLine)
        ∃ r, exec (.moverCopyDone q dlpn 0) s = .next r ∧ (∀ i < 64, r.lineNow (locLine m.dstLoc + i) = line i) ∧
          (m.rgen = m.passGen → m.race = 0 →
            r.desc d = { s.desc d with state := .plain, location := m.dstLoc, blockLen := m.dstLen, wgen := m.rgen, lock := false } ∧
              (r.quad q).records = [{ m with phase := .free }] ∧ frame r (locLine m.dstLoc) = some (.page d)) ∧
          (m.rgen ≠ m.passGen → r.desc d = s.desc d ∧ (r.quad q).restarts = satAdd (s.quad q).restarts 1 ∧
            (r.quad q).records = [{ m with phase := .check, restarts := m.restarts + 1, passGen := m.rgen, race := 0
                                           stall := m.stall || decide (m.limit ≤ m.restarts + 1) }])) ∧
    (∀ (dlpn : BitVec 34) (m : MoverRec),
      (s.quad q).records.find? (fun x => decide (x.dlpn = dlpn.toNat ∧ x.phase = .free)) = some m →
      (m.readers ≠ 0 ∨ s.dirty (dlpn.toNat / 4) ≠ none → exec (.moverFree q dlpn) s = .next s) ∧
      (m.readers = 0 → s.dirty (dlpn.toNat / 4) = none → m.srcState = 1 → m.op ≠ .evacPage →
        ∃ r, exec (.moverFree q dlpn) s = .next r ∧ (r.quad q).records = removeFirst (fun x => decide (x = m)) (s.quad q).records ∧
          frame r (locLine m.srcLoc) = none ∧ r.cap.m = s.cap.m - m.inM ∧ told r m.ticket 0))

/-- R127, R133, R141, R218, R393: the fill of FIXED extents, the zeroing of ended ones, and what repeats in distress and scaling. -/
def Obligations.CapacityIsFilledZeroedAskedBackAndReported : Prop :=
  ∀ (eb : BitVec 18) (s : State), s.running = true →
    let e := eb.toNat
    let x := s.extent e
    (s.start.phase9Done = true → x.state = .offered → x.fixed = true → x.filled < 65536 →
      let d := e * 65536 + x.filled
      let order := s.fillOrder x.fillChannel.toNat
      (∀ c f, order.find? (fun k => (s.lowestRun k 1 1 1).isSome) = some c → s.lowestRun c 1 1 1 = some f →
        ∃ r, exec (.fixedExtentFillWrite eb) s = .next r ∧ (∀ i < 64, r.lineNow (frameLine c f + i) = { cipher := s.cipherOf d 0 i 0 }) ∧
          r.desc d = { s.desc d with state := .plain, location := BitVec.ofNat 44 (frameLine c f) } ∧
          Tab.get none (r.alloc c).frames f = some (.page d) ∧ (r.extent e).filled = x.filled + 1 ∧ r.footprint e = s.footprint e + 64) ∧
      (order.find? (fun k => (s.lowestRun k 1 1 1).isSome) = none → ∃ r, exec (.fixedExtentFillWrite eb) s = .next r ∧
        Waiter.fill e ∈ r.waiters ∧ r.dram = s.dram ∧ r.mdata = s.mdata ∧ (r.extent e) = x)) ∧
    (x.state = .offered → x.fixed = true → x.announced = false → x.filled = 65536 →
      ∃ r, exec (.fixedExtentFillDone eb) s = .next r ∧ (r.extent e).announced = true ∧
        (r.ld x.ld.toNat).dynCap = (s.ld x.ld.toNat).dynCap.place (s.time.tb + (s.ld x.ld.toNat).timeOffset)
          (.dynamicCapacity 0 (BitVec.ofNat 64 (x.block.toNat * 2 ^ 28)) x.tag)) ∧
    (s.start.phase9Done = true → x.state = .erasing →
      (∀ d l, s.nextToZero e = some (d, l) →
        let n := pageLines (s.desc d).state (s.desc d).blockLen
        ∃ r, exec (.zeroingWrite eb) s = .next r ∧ (∀ i < n, r.lineNow (l + i) = {}) ∧ (r.desc d).state = .unmapped ∧
          r.cap.z = s.cap.z - n ∧ r.footprint e = s.footprint e - n) ∧
      (s.nextToZero e = none → s.farPages e = [] → s.dirtyLines e = [] →
        ∃ r, exec (.zeroingWrite eb) s = .next r ∧ (r.extent e).state = .free ∧ (∀ d, extentOf d = e → r.desc d = {}))) ∧
    (s.now < s.cap.lastRepeat + 100 * msNs ∨ s.cap.distress = false → exec .distressRepeat s = .next s) ∧
    (s.cap.distress = true → s.cap.lastRepeat + 100 * msNs ≤ s.now →
      (s.cap.lastU < s.capU → exec .distressRepeat s = .next (s.modCap fun c => { c with lastU := s.capU, lastRepeat := s.now })) ∧
      (s.capU ≤ s.cap.lastU → ∃ r, exec .distressRepeat s = .next r ∧ r.cap.lastRepeat = s.now ∧ r.cap.lastU = s.capU ∧ r.dram = s.dram ∧
        (∀ e l, s.releaseOrder = e :: l → (s.requested : Int) < (s.capF : Int) + s.capHyst - s.capU → (r.extent e).state = .releaseReq) ∧
        ((s.capF : Int) + s.capHyst - s.capU ≤ s.requested → r.cap.extents = s.cap.extents))) ∧
    ∀ k : Fin 17,
      let due := k.val ∈ s.qos.owed ∧ ∀ t, Tab.get none s.qos.reported k = some t → t + 10 * msNs ≤ s.now
      (¬ due → exec (.guaranteeScaleReport k) s = .next s) ∧
      (due → ∃ r, exec (.guaranteeScaleReport k) s = .next r ∧ r.qos.owed = s.qos.owed.erase k ∧
        Tab.get none r.qos.reported k = some s.now ∧ ((s.queue 9).entries.length < 64 → (r.queue 9).entries = (s.queue 9).entries ++
          [{ g1 := BitVec.ofNat 64 (s.scale k), g2 := BitVec.ofNat 64 s.qos.dHost, g3 := BitVec.ofNat 64 s.guarSum
             g4 := BitVec.ofNat 64 (if k.val = 16 then 0xFF else k.val), timebase := s.time.tb }]))

/-- R201, R228 to R232, R234, R504: training, resume and initialisation. -/
def Obligations.ChannelsTrainRestoreAndInitialise : Prop :=
  ∀ (c : Fin 24) (s : State),
    let h := s.chan c
    let t := h.train
    (∀ pass spd0 spd1 t0 t1 hardOk,
      let run := exec (.channelTrainingStepDone c pass spd0 spd1 t0 t1 hardOk) s
      (∀ st, t.resume = some st → s.running = true → s.power.latched = false →
        (pass = 3 → ∃ r, run = .next r ∧ (r.chan c).state = st ∧ (r.chan c).train = {} ∧ (r.chan c).selfRefresh = false ∧
          (r.chan c).refreshing = true ∧ (r.chan c).refCount = h.refCount + 1 ∧ (r.chan c).frontier = h.frontier) ∧
        (pass ≠ 3 → ∃ r, run = .next r ∧ (r.chan c).state = .retired ∧ (r.chan c).unreadable = true)) ∧
      (t.resume = none → s.mayTrain c = true → t.running = false → h.speed = 0 ∨ t.restore = false →
        let read := fun (k : Nat) (d : Option Spd) => if (s.presentSlots c).contains k then some (d.getD { ok := false }) else none
        let g : Chan := { h with spd0 := read 0 spd0, spd1 := read 1 spd1 }
        let code := s.populationCause g
        (code ≠ 0 → ∃ r, run = .next r ∧ (r.chan c).state = .trainFailed ∧ (r.chan c).cause = BitVec.ofNat 3 code ∧ (r.chan c).usable = 0 ∧
          r.holds (srcChannel c 9) = true) ∧
        ∀ v l, code = 0 → s.allowedSpeeds g = v :: l → ∃ r, run = .next r ∧ (r.chan c).state = .untrained ∧ (r.chan c).spd0 = g.spd0 ∧
          (r.chan c).spd1 = g.spd1 ∧ (r.chan c).train = { running := true, step := 2, speed := v, restore := t.restore }) ∧
      (t.resume = none → s.mayTrain c = true → t.running = true →
        let set := h.trainSet
        let failed := t.failed ||| (set &&& ~~~ pass)
        let lower := (s.allowedSpeeds h).find? fun v => decide (v < t.speed)
        let begun := fun (x : Training) (v : Nat) => s.modChan c fun h => { h with
          train := { x with running := true, step := 2, speed := v, failed := 0 } }
        (failed ≠ set → t.step < h.lastStep → t.step ≠ 9 → run = .next (s.modChan c fun h => { h with
          train := { t with failed, step := t.step + 1 } })) ∧
        (failed = set → t.step ≠ 9 → t.lone = none →
          (∀ v, lower = some v → run = .next (begun t v)) ∧
          (∀ v l, lower = none → t.second = false → s.allowedSpeeds h = v :: l →
            run = .next (begun { t with second := true, best0 := 0, best1 := 0 } v)) ∧
          (lower = none → t.second = true → h.dimms.length ≠ 2 → ∃ r, run = .next r ∧ (r.chan c).state = .trainFailed ∧ (r.chan c).cause = 1)) ∧
        (set ≠ 0 → failed = 0 → t.step = h.lastStep → ∃ r, run = .next r ∧ (r.chan c).speed = BitVec.ofNat 8 t.speed ∧
          (r.chan c).usable = set ∧ (r.chan c).timing = h.timingAt set t.speed ∧ (r.chan c).frontier = 0 ∧ (r.chan c).train.running = false ∧
          (r.chan c).state = if t.restore then .untrained else .active))) ∧
    (∀ n : BitVec 24, s.running = true → h.initDone = false → h.selfRefresh = false →
      (h.state = .active ∨ h.state = .untrained ∧ t.restore = true ∧ t.running = false ∧ h.speed ≠ 0) →
      let dest := max h.frontier (min (h.frontier + n.toNat) h.capacity)
      ∃ r, exec (.memoryInitWrite c n) s = .next r ∧ r.chan c = { h with frontier := dest } ∧
        ∀ l, let o := h.order (lineSlot l) (l % 2 ^ 32)
          Tab.get {} r.dram l = if lineChan l = c ∧ h.frontier ≤ o ∧ o < dest then {} else Tab.get {} s.dram l) ∧
    (s.running = true → h.state = .untrained → t.restore = true → t.running = false → h.speed ≠ 0 →
      (h.initDone = true → ∃ r, exec (.channelInitDone c) s = .next r ∧ (r.chan c).state = .active ∧ (r.chan c).frontier = h.frontier) ∧
      (h.initDone = false → exec (.channelInitDone c) s = .next s))

/-- R244 to R252: refresh, temperature, power states and training in service. -/
def Obligations.ChannelsRefreshSleepCalibrateAndRetrain : Prop :=
  ∀ (c : Fin 24) (s : State), s.running = true →
    let h := s.chan c
    let live := h.state = .active ∨ h.state = .evacuating
    (∀ late : BitVec 6, live → h.selfRefresh = false → h.refreshing = false → h.lastPulse ≠ some s.time.tb →
      let m := s.time.tb.toNat % 3900
      let due := m = 650 * c / 4 ∨ (h.hot = true ∧ m = (650 * c + 8125) % 15600 / 4)
      (¬ due → exec (.refreshPulse c late) s = .next s) ∧
      (due → ∃ r, exec (.refreshPulse c late) s = .next r ∧ (∀ d, d ≠ c.val → r.chan d = s.chan d) ∧ r.dram = s.dram ∧
        (∀ b, ((r.chan c).bankState b).row = none) ∧ (Tab.wf {} h.banks = true → ∀ b, ((r.chan c).bankState b).predictor = (h.bankState b).predictor) ∧
        r.chan c = { h with
          banks := (r.chan c).banks, powerDown := [], refreshing := true, refreshAt := s.now, lastPulse := some s.time.tb
          refCount := h.refCount + 1, hot := h.warm || h.sensorFail || h.ref2x
          lateMax := if h.lateMax.toNat < late.toNat then late.setWidth 16 else h.lateMax
          retrainEnd := if h.retrainBusy then h.retrainEnd + h.trfcNs else h.retrainEnd
          repairAt := if h.repairBusy then h.repairAt + h.trfcNs else h.repairAt })) ∧
    (h.refreshing = true →
      (h.refreshAt + h.trfcNs ≤ s.now → exec (.refreshDone c) s = .next (s.modChan c fun h => { h with refreshing := false })) ∧
      (s.now < h.refreshAt + h.trfcNs → exec (.refreshDone c) s = .next s)) ∧
    (∀ t0 t1 : Option (BitVec 11), live → h.lastPoll + 16 * msNs ≤ s.now →
      let p := fun (k : Nat) => (s.slot (2 * c + k)).prsnt
      let got := fun (k : Nat) => if k = 0 then t0 else t1
      let missed := fun (k : Nat) (g : Chan) => if k = 0 then g.missed0 else g.missed1
      ∃ r, exec (.dimmThermalPoll c t0 t1) s = .next r ∧ (r.chan c).lastPoll = s.now ∧
        (∀ k v, k < 2 → p k = true → got k = some v →
          (if k = 0 then (r.chan c).temp0 else (r.chan c).temp1) = BitVec.ofNat 8 (min 254 (v.toNat / 10)) ∧ missed k (r.chan c) = 0 ∧
          (r.chan c).overCrit.getLsbD k = decide (10 * h.tempCrit.toNat < v.toNat)) ∧
        (∀ k, k < 2 → p k = true → got k = none → missed k (r.chan c) = missed k h + 1) ∧
        (∀ k v, k < 2 → p k = true → got k = some v → 850 < v.toNat → (r.chan c).warm = true) ∧
        (p 0 = true → (∀ k, k < 2 → p k = true → ∃ v, got k = some v ∧ v.toNat ≤ 830) → (r.chan c).warm = false) ∧
        (r.chan c).sensorFail = ((p 0 && decide (3 ≤ (r.chan c).missed0)) || (p 1 && decide (3 ≤ (r.chan c).missed1))) ∧
        ((r.chan c).overCrit ≠ 0 → r.holds (srcChannel c 11) = true) ∧ ((r.chan c).sensorFail = true → r.holds (srcChannel c 12) = true)) ∧
    (∀ k : Fin 32, live → h.selfRefresh = false → h.refreshing = false → h.retrainBusy = false → h.pdTimer ≠ 0 →
      k.val % 8 < h.slotRanks (k.val / 8 % 2) → k.val ∉ h.powerDown → Tab.get 0 h.lastCmd k + 8 * h.pdTimer.toNat ≤ s.now →
      (∀ x ∈ h.queue, (h.place x.line).subRank ≠ k.val) →
      exec (.rankPowerDown c k) s = .next (s.modChan c fun h => { h with powerDown := insertNat k h.powerDown })) ∧
    (h.srPending = true → h.queue = [] → h.gate.cmds = [] → h.flight = [] → exec (.selfRefreshEntry c) s = .next (s.modChan c fun h => { h with
      selfRefresh := true, srPending := false, queue := [], gate := {}, flight := [], banks := [], powerDown := [], refreshing := false
      retrainBusy := false, retrainResult := if h.retrainBusy then 3 else h.retrainResult })) ∧
    (h.selfRefresh = true → live → s.power.dozing = false → s.power.latched = false → (s.dom (4 + c)).state = .p0 →
      exec (.selfRefreshExit c) s = .next (s.modChan c fun h => { h with
        selfRefresh := false, refCount := h.refCount + 1, refreshing := true, refreshAt := s.now })) ∧
    (live → h.selfRefresh = false → h.refreshing = true →
      (h.zqAt + 128 * msNs ≤ s.now →
        exec (.zqCalibration c) s = .next (s.modChan c fun h => { h with zqAt := s.now, zqNext := h.nextRank h.zqNext })) ∧
      (h.dqsAt + 32 * msNs ≤ s.now →
        exec (.dqsOscillatorTracking c) s = .next (s.modChan c fun h => { h with dqsAt := s.now, dqsNext := h.nextRank h.dqsNext }))) ∧
    (∀ (kind : BitVec 2) (mask : BitVec 16),
      let ok := h.retrainBusy = false ∧ h.state = .active ∧ kind ≠ 0 ∧ ∀ k, mask.getLsbD k = true → k ∈ h.rankList
      let each := if kind = 1 then 4000 else if kind = 2 then 6000 else 10000
      (ok → exec (.retrainingWindowStart c kind mask) s = .next (s.modChan c fun h => { prechargeAll h with
        retrainKind := kind, retrainMask := mask, retrainBusy := true
        retrainEnd := (if h.repairBusy then h.repairAt + 100 * usNs else s.now) + onesIn mask * each })) ∧
      (¬ ok → exec (.retrainingWindowStart c kind mask) s = .next (s.modChan c fun h => { h with
        retrainKind := if kind = 0 then h.retrainKind else kind, retrainMask := mask }))) ∧
    (h.retrainBusy = true → h.retrainEnd ≤ s.now →
      exec (.retrainingWindowEnd c true) s = .next (s.modChan c fun h => { h with retrainBusy := false, retrainResult := 1 }) ∧
      (h.failsActive + 1 ≠ s.integ.trainN.toNat → ∃ r, exec (.retrainingWindowEnd c false) s = .next r ∧ r.stickySet (srcChannel c 8) = true ∧
        (s.modChan c fun h => { h with retrainBusy := false, retrainResult := 2, retrainFails := satAdd h.retrainFails 1
                                       failsActive := h.failsActive + 1 }).Reports r))

/-- R238 to R243, R383: the gate, the command queue, the banks, and data at the DIMM. -/
def Obligations.GatesAndPickersServeTheCommandQueue : Prop :=
  ∀ (c : Fin 24) (s : State), s.running = true →
    let h := s.chan c
    (∀ x, h.gatePick = some x → s.readable c = true → (s.dom (4 + c)).state = .p0 → h.hostEntries < 208 → lineChan x.line = c →
      ∃ r, exec (.channelGatePick c) s = .next r ∧ x ∈ h.gate.cmds ∧ (r.chan c).gate.cmds.length + 1 = h.gate.cmds.length ∧
        (r.chan c).queue = (if x.write = none ∧ s.queuedWrite x.line ≠ none then h.queue else h.queue ++ [{ x with passed := 0 }])) ∧
    (h.gatePick = none → exec (.channelGatePick c) s = .next s) ∧
    (∀ (sub : Fin 2) (x : LineCmd), s.issues c = true →
      (if h.express then h.expressPick sub else h.rotatingPick sub) = some x → lineChan x.line = c →
      let p := h.place x.line
      let bank := fun (g : Chan) => g.bankState p.bankId
      ∃ r, exec (.dramCommandPick c sub) s = .next r ∧ (∀ d, d ≠ c.val → r.chan d = s.chan d) ∧
        (∀ b, b ≠ p.bankId → (r.chan c).bankState b = h.bankState b) ∧
        (r.chan c).powerDown = h.powerDown.erase p.subRank ∧
        ((bank h).row = none → (bank (r.chan c)).row = some p.row ∧ (r.chan c).queue = h.queue ∧ r.dram = s.dram) ∧
        (∀ row, (bank h).row = some row → row ≠ p.row → (bank (r.chan c)).row = none ∧ (r.chan c).queue = h.queue ∧ r.dram = s.dram) ∧
        ((bank h).row = some p.row → (r.chan c).queue.length + 1 = h.queue.length ∧
          (∀ d, x.write = some d → (∀ l, Tab.get {} r.dram l = if l = x.line then d else Tab.get {} s.dram l) ∧ (r.chan c).flight = h.flight) ∧
          (x.write = none → r.dram = s.dram ∧ (r.chan c).flight = h.flight ++ [(x.req, x.line, Tab.get {} s.dram x.line)]))) ∧
    (∀ sub : Fin 2, h.refreshes = true →
      (h.oldWrite sub s.now = true → exec (.writeDrainTimeout c sub) s = .next (s.modChan c fun h => { h with
        subs := Tab.set {} h.subs sub { Tab.get ({} : Subchannel) h.subs sub with draining := true } })) ∧
      (h.oldWrite sub s.now = false → exec (.writeDrainTimeout c sub) s = .next s)) ∧
    (∀ b : BitVec 12, s.issues c = true → (h.bankState b.toNat).row ≠ none →
      (h.bankState b.toNat).lastUse + 8 * h.rowIdle.toNat ≤ s.now →
      ∃ r, exec (.rowIdleClose c b) s = .next r ∧
        r = { s.modChan c fun h => { h with banks := Tab.set {} h.banks b.toNat { h.bankState b.toNat with
                row := none, fresh := false, closedByPredict := false } } with ctrs := r.ctrs })

/-- R29, R31, R40, R86, R90, R118, R124, R125, R144: host requests from arrival to their answer, or to DRAM. -/
def Obligations.HostRequestsAreServedFromTheirPages : Prop :=
  ∀ (p i : Fin 16) (dpa : BitVec 52) (tag : BitVec 16) (own : Bool) (data : BitVec 512) (mask : BitVec 64) (a b : BitVec 2) (s : State),
    let ld := 16 * p.val + i.val
    let read := exec (.hostRead p i dpa tag own a b) s
    let write := exec (.hostWrite p i dpa tag data mask false 0 a b) s
    let gives := fun (x : Line) (poison : Bool) => ∃ r n, read = .next r ∧ r.out.head? = some (.readData p ld tag x poison n) ∧ r.path.reqs = []
    let done := fun (q : State → Prop) => ∃ r n, write = .next r ∧ r.out.head? = some (.writeDone p ld tag n) ∧ r.path.reqs = [] ∧ q r
    (s.accepts p = false ∨ s.ldExists ld = false → read = .next s ∧ write = .next s) ∧
    (s.accepts p = true → s.ldExists ld = true →
      ((s.port p).ideState = 1 → ∃ r, read = .next r ∧ r.out = s.out ∧ ∃ q, r.path.reqs = s.path.reqs ++ [q] ∧ q.stage = .mac ∧ q.tag = tag) ∧
      ((s.port p).ideState = 0 → s.path.reqs = [] → s.mayClaim 0 p = true → 0 < s.param ld 1 → 0 ≤ s.credit ld →
        (s.dpaFind ld (dpa.toNat / 2 ^ 28) = none →
          (∃ r n, read = .next r ∧ r.out.head? = some (.readData p ld tag 0 true n) ∧ r.cap.noMapping = s.cap.noMapping + 1) ∧
          done fun r => r.cap.noMapping = s.cap.noMapping + 1 ∧ r.gather = s.gather) ∧
        ∀ m, s.dpaFind ld (dpa.toNat / 2 ^ 28) = some m → m.home = s.ident.devId →
          let d := m.extent.toNat * 65536 + dpa.toNat / 4096 % 65536
          let n := dpa.toNat / 64 % 64
          let st := (s.source d).1
          let l := locLine (s.source d).2.1 + n
          let o := s.overlay d n
          let cached := ∃ w, w < 16 ∧ (s.metaSet (d / 4 % s.metaSets)).ways.getD w none = some (d / 4)
          s.pageLive d = true → (s.extent m.extent.toNat).shared = false → cached → (∀ g ∈ s.gather.entries, g.verified = true) →
            ((s.desc d).state = .poisoned → o = (0, 0, false) → gives 0 true) ∧
            ((s.desc d).state ≠ .poisoned → (s.desc d).bpoison.getLsbD (n / 16) = true → gives 0 true) ∧
            ((s.desc d).bpoison = 0 →
              (o.2 = (BitVec.allOnes 64, false) → gives o.1 false) ∧
              (o = (0, 0, false) →
                (st = .unmapped ∨ st = .zero → gives 0 false) ∧
                (st = .pattern → gives (patternLine (s.desc d)) false) ∧
                (st = .plain → s.readable (lineChan l) = true → s.sketch.parity = [] → ∃ r x q, read = .next r ∧ r.out = s.out ∧ r.path.reqs = [q] ∧
                  q.stage = .lines ∧ q.lines = [{ line := l }] ∧ x.line = l ∧ x.req = q.id ∧ x.write = none ∧
                  (r.chan (lineChan l)).gate.cmds = (s.chan (lineChan l)).gate.cmds ++ [x]))) ∧
            (s.record d = none → s.mayClaim 1 p = true → s.ril.hints = [] →
              let stored := fun (r : State) => (r.overlay d n).1 = mergeLine o.1 data mask ∧ (r.overlay d n).2.1 = o.2.1 ||| mask
              (s.chargeDue d (n / 16) = none → done stored) ∧
              ∀ k c, s.chargeDue d (n / 16) = some (k, c) →
                (s.chargeOk m.extent.toNat c = true → done stored) ∧
                (s.chargeOk m.extent.toNat c = false → done fun r => (r.desc d).bpoison.getLsbD (n / 16) = true ∧
                  r.cap.poolExhausted = true ∧ r.cap.unstored = satAdd s.cap.unstored 1 ∧
                  ∀ g ∈ r.gather.entries, ¬ (g.dlpn = d ∧ g.lineNo / 16 = n / 16)))))

/-- R164, R170, R257 to R259, R262, R263: reads from the DIMM through the engines. -/
def Obligations.DramDataReturnsThroughTheEngines : Prop :=
  ∀ (s : State), s.running = true →
    let answered := fun (r : State) (q : Req) (x : Line) (poison : Bool) => ∃ n,
      r.out.head? = some (.readData q.source q.ld q.tag x poison n) ∧ r.req q.id = none
    let plainRead := fun (q : Req) => q.source < 16 ∧ q.write = false ∧ q.verified = true ∧ q.dead = false ∧ q.reader = false ∧ q.scratch = none ∧
      q.comet = none ∧ q.overlay = none
    (∀ (c : Fin 24) (sub : Fin 2) (retried : Bool) (q : Req) (l : Nat) (d : DLine) (flips : List (BitVec 80)) (lanes : BitVec 40),
      s.nextFlight c sub retried = some (q.id, l, d) → s.req q.id = some q → plainRead q → q.stage = .lines →
      q.lines = [{ line := l, retried }] →
        let run := if retried then exec (.ueRetryRead c sub flips lanes) s else exec (.dramReadData c sub flips) s
        let o := readOutcome (s.pairRule l) d.data d.poisoned flips
        let gone := fun (r : State) => (r.chan c).flight = removeFirst (fun x => decide (x = (q.id, l, d))) (s.chan c).flight
        (s.readable c = false → ∃ r, run = .next r ∧ answered r q 0 true) ∧
        (s.readable c = true →
          (o.out = .clean → ∃ r, run = .next r ∧ gone r ∧ (retried = false → o.corrected = false → r.out = s.out) ∧
            r.req q.id = some { q with stage := .xts, lines := [{ line := l, retried, data := some (s.lineValue q.id l d o.data, .clean) }] } ∧
            (r.chan c).ce = if retried || o.corrected then satAdd (s.chan c).ce 1 else (s.chan c).ce) ∧
          (o.out = .poison → ∃ r, run = .next r ∧ gone r ∧ answered r q 0 true) ∧
          (o.out = .ue → retried = false → ∃ r, run = .next r ∧ r.out = s.out ∧ r.chans = s.chans ∧
            r.req q.id = some { q with lines := [{ line := l, retried := true }] }) ∧
          (o.out = .ue → retried = true → ∃ r n, run = .next r ∧ r.out.head? = some (.readData q.source q.ld q.tag 0 true n) ∧
            (r.chan c).ue = satAdd (s.chan c).ue 1))) ∧
    (∀ (e : Fin 8) (q : Req) (cls : Nat), (s.dom (47 + e)).state = .p0 → s.req q.id = some q → plainRead q →
      (s.cluster e).xtsIn ≠ 0 → (s.cluster e).dcmpIn ≠ 0 → (s.cluster e).cmpIn ≠ 0 →
      let bytes := q.plain.flatMap bytesOfLine
      (∀ kind : Fin 3, (s.cluster e).nextJob (engineKind kind) = none → exec (.engineWorkDone e kind) s = .next s) ∧
      ((s.cluster e).nextJob .xts = some (.xts, cls, q.id) → q.stage = .xts →
        (q.slots = 0 → ∃ r, exec (.engineWorkDone e 2) s = .next r ∧ answered r q (q.plain.headD 0) false) ∧
        (q.slots = 16 → ∃ r, exec (.engineWorkDone e 2) s = .next r ∧ answered r q (q.plain.getD (q.lineNo % 16) 0) false) ∧
        (q.slots ≠ 0 → q.slots ≠ 16 → ∃ r, exec (.engineWorkDone e 2) s = .next r ∧ r.out = s.out ∧
          r.req q.id = some { q with stage := .decompress })) ∧
      ((s.cluster e).nextJob .decompress = some (.decompress, cls, q.id) → q.stage = .decompress →
        (∀ x, decodeBlock q.slots bytes = .data x → ∃ r, exec (.engineWorkDone e 1) s = .next r ∧
          answered r q ((linesOfBytes 16 x).getD (q.lineNo % 16) 0) false ∧ (r.cluster e).decoded = (s.cluster e).decoded + 1) ∧
        (∀ k, decodeBlock q.slots bytes = .malformed k → ∃ r, exec (.engineWorkDone e 1) s = .next r ∧ answered r q 0 true ∧
          (r.cluster e).malformed = satAdd (s.cluster e).malformed 1 ∧ (r.cluster e).lastCause = BitVec.ofNat 3 k)) ∧
      ((s.cluster e).nextJob .compress = some (.compress, cls, q.id) → q.stage = .lines → ∃ r, exec (.engineWorkDone e 0) s = .next r ∧
        r = s.modCluster e fun x => { x with queue := removeFirst (fun y => decide (y = (EngineKind.compress, cls, q.id))) x.queue }))

/-- R32, R38, R126, R162, R165, R166, R192, R195, R267, R381: evictions, descriptor copies, and what waited. -/
def Obligations.GatheredLinesAreEvictedAndWaitersResume : Prop :=
  ∀ (dlpn : BitVec 34) (s : State), s.running = true →
    let d := dlpn.toNat
    let loc := (s.source d).2.1
    let len := (s.source d).2.2
    (∀ g flips, s.pageLive d = true → (s.desc d).state = .plain → s.gather.entries = [g] → g.dlpn = d → g.lineNo < 64 → g.mask = BitVec.allOnes 64 →
      g.verified = true → g.frozen = false → g.poisoned = false →
      let l := locLine loc + g.lineNo
      let c := lineChan l
      ∃ r x, exec (.gatherEviction dlpn flips) s = .next r ∧ r.gather.entries = [] ∧ (r.chan c).gate.cmds = (s.chan c).gate.cmds ++ [x] ∧
        x.line = l ∧ x.write = some { data := g.data, cipher := s.cipherOf d 0 g.lineNo 0 } ∧ r.poisonListed d 0 g.lineNo = false) ∧
    (let old := (s.entriesOf d false).any fun g => decide (g.at_ + (s.quad (s.pageQuad d)).hold.toNat * 250 ≤ s.now);
      (s.packedNow d = true → old = true → (s.desc d).lock = false → ∃ r, exec (.holdExpiry dlpn) s = .next r ∧ (r.desc d).lock = true ∧
        r.gather.entries = s.gather.entries.map fun x => if x.dlpn = d ∧ x.verified = true then { x with frozen := true } else x) ∧
      (s.packedNow d = false ∨ old = false → exec (.holdExpiry dlpn) s = .next s)) ∧
    (∀ b : Fin 4, s.pageLive d = true → (s.desc d).state = .packed → (s.desc d).bpoison = 0 →
      (∀ g ∈ s.entriesOf d true, g.lineNo / 16 = b ∧ g.poisoned = false) → fullBlock (s.entriesOf d true) b = true →
      let k := s.quad (s.pageQuad d)
      let enc := encodeBlock k.m0 k.m1 k.m2 (mergeBlock (s.entriesOf d true) b [])
      let lens := (List.range 4).map fun j => if j = b.val then enc.1 else blockLen len j
      let first := fun (j : Nat) => (lens.take j).sum
      lens.sum ≠ 0 →
      (∀ l t, takeStorage (s.pageChan d) lens.sum false (.page d) s = some (l, t) → ∃ r, exec (.packedEviction dlpn 0) s = .next r ∧
        (r.desc d).state = .packed ∧ (r.desc d).location = BitVec.ofNat 44 l ∧ (r.desc d).blockLen = packLens lens ∧ (r.desc d).lock = false ∧
        (r.desc d).wgen = (s.desc d).wgen + 1 ∧ r.entriesOf d true = [] ∧
        (∀ i < enc.1, r.lineNow (l + first b + i) = { data := lineOfBytes (enc.2.drop (64 * i)), cipher := s.cipherOf d 1 b i }) ∧
        ∀ j i, j < 4 → j ≠ b.val → i < blockLen len j → r.lineNow (l + first j + i) = s.lineNow (locLine loc + lenSum len j + i)) ∧
      (takeStorage (s.pageChan d) lens.sum false (.page d) s = none → ∃ r, exec (.packedEviction dlpn 0) s = .next r ∧
        Waiter.packed d lens.sum ∈ r.waiters ∧ r.mdata = s.mdata ∧ r.gather = s.gather)) ∧
    (∀ (k : BitVec 32) (m : MetaDirty), s.dirty k.toNat = some m → s.path.reqs = [] → (s.extent (k.toNat / 16384)).state ≠ .erasing →
      (m.aOut = false → ∃ r, exec (.descriptorCopyWritten k) s = .next r ∧ (∀ x ∈ lineDlpns k.toNat, r.descA x = s.descWritten x ∧ r.descB x = s.descB x) ∧
        (r.dirty k.toNat).map (·.aOut) = some true) ∧
      (m.aOut = true → m.acks = [] → m.frees = [] → m.acksB = [] → m.freesB = [] → (∀ x ∈ lineDlpns k.toNat, s.descWritten x = s.descA x) →
        ∃ r, exec (.descriptorCopyWritten k) s = .next r ∧ (∀ x ∈ lineDlpns k.toNat, r.descB x = s.descA x ∧ r.descA x = s.descA x) ∧
          r.dirty k.toNat = none)) ∧
    (∀ (pool : Fin 10) (x : Fin 21), let key := pool.val * 32 + x.val
      (Tab.get 0 s.path.freed key = 0 → exec (.poolEntryRelease pool x) s = .next s) ∧
      (Tab.get 0 s.path.freed key ≠ 0 → s.path.reqs = [] → exec (.poolEntryRelease pool x) s = .next (s.modPath fun p => { p with
        freed := Tab.set 0 p.freed key (Tab.get 0 p.freed key - 1), held := Tab.set 0 p.held key (Tab.get 0 p.held key - 1) }))) ∧
    (∀ (ld : Fin 256), let waits := s.path.reqs.find? fun r => decide (r.source < 16 ∧ r.ld = ld.val ∧ r.stage = .shaper)
      (s.credit ld < 0 ∨ waits = none → exec (.shaperRelease ld) s = .next s) ∧
      (∀ q, 0 ≤ s.credit ld → waits = some q → ∃ r, exec (.shaperRelease ld) s = .next r ∧ r.credit ld = s.credit ld - 8000)) ∧
    (∀ n : BitVec 32, s.start.rebuilding = false →
      (s.waiters[n.toNat]? = none → exec (.allocationResume n) s = .next s) ∧
      (∀ e : BitVec 18, s.waiters[n.toNat]? = some (.fill e.toNat) → s.start.phase9Done = true →
        exec (.allocationResume n) s = exec (.fixedExtentFillWrite e) s) ∧
      (∀ k, s.waiters[n.toNat]? = some (.packed d k) → s.pageLive d = true → s.packedNow d = true → s.entriesOf d true ≠ [] →
        exec (.allocationResume n) s = exec (.packedEviction dlpn 0) s) ∧
      (s.waiters[n.toNat]? = some (.first d) → s.pageLive d = true → s.firstPacked d = false → (s.desc d).state.bare = true →
        exec (.allocationResume n) s = exec (.gatherEviction dlpn []) s) ∧
      (∀ c, s.waiters[n.toNat]? = some (.evac c) → exec (.allocationResume n) s = .next
        { s.modChan c fun h => { h with evac := h.evac.map fun v => { v with waiting := false, placed := false } } with
          waiters := s.waiters.filter (· != .evac c) }))

/-- R402 to R404, R410 to R412, R420, R421, R424 to R426: the states of a link. -/
def Obligations.UliletLinksRiseAndFall : Prop :=
  ∀ (u : Fin 3) (s : State), s.linkMayRun = true →
    let p := s.uli u
    let becomes := fun (c : Instr) (st : LState) (q : State → Prop) => ∃ r, exec c s = .next r ∧ (r.uli u).lstate = st ∧ q r
    let live := p.lstate = .param ∨ p.lstate = .session ∨ p.lstate = .active
    let recent := (p.retrainTimes.filter fun t => decide (s.now < t + p.retrainWin.toNat * secNs)).length
    let retrains := fun (c : Instr) =>
      (recent + 1 < p.retrainN.toNat → becomes c .train fun r => (r.uli u).totalRetrains = satAdd p.totalRetrains 1 ∧ (r.uli u).retired = p.retired) ∧
      (p.retrainN.toNat ≤ recent + 1 → becomes c .retired fun r => (r.uli u).totalRetrains = satAdd p.totalRetrains 1 ∧ (r.uli u).retired = true ∧
        (r.uli u).cause = 1 ∧ r.holds (srcUlilet u 5) = true)
    (p.lstate = .down → p.retired = false → s.power.dozing = false →
      ((s.dom (44 + u)).state = .p0 → (s.dom (44 + u)).trans = .none → p.enable = true → exec (.uliletPresence u) s = .next (s.modUli u fun p =>
        { p with prsnt := true, prsntSince := if p.prsnt then p.prsntSince else s.now, lstate := .detect, since := s.now })) ∧
      (s.domLost (44 + u) = true → becomes (.uliletPresence u) .detect fun r => (r.dom (44 + u)).trans = .exiting ∧ (r.uli u).vcs = 4 ∧
        (r.uli u).totalRetrains = p.totalRetrains)) ∧
    (p.lstate = .detect → exec (.uliletReceiverDetect u) s = .next (s.modUli u fun p => { p with lstate := .train, since := s.now })) ∧
    (p.lstate = .train → ∀ (ok : BitVec 16) (rev : Bool),
      let w := trainedWidth ok
      (w ≠ 0 → becomes (.uliletTrainingDone u ok rev) .param fun r => (r.uli u).lanes = BitVec.ofNat 5 w ∧ (r.uli u).reversed = rev ∧
        (r.uli u).trainFails = 0) ∧
      (w = 0 → p.trainFails = 0 → becomes (.uliletTrainingDone u ok rev) .detect fun r => (r.uli u).trainFails = 1 ∧
        r.stickySet (srcUlilet u 9) = true) ∧
      (w = 0 → 1 ≤ p.trainFails → becomes (.uliletTrainingDone u ok rev) .retired fun r => (r.uli u).cause = 2 ∧ (r.uli u).retired = true)) ∧
    (∀ (h : Header) (id : BitVec 2) (role : Bool) (v : BitVec 8) (serial : BitVec 64),
      let c := Instr.param u h id role v serial
      (p.lstate = .active → p.resync = false → becomes c .param fun r => (r.uli u).lanes = p.lanes) ∧
      (p.lstate = .param → s.takes u 4 h → s.paramConflict id role = false → p.paramSent ≠ none → p.refusedAt = none → p.vcs ≠ 0 →
        becomes c .session fun r => (r.uli u).vcsActive = BitVec.ofNat 4 (min p.vcs.toNat v.toNat) ∧ (r.uli u).peerId = id ∧ (r.uli u).txSeq = 0) ∧
      (p.lstate = .param → s.takes u 4 h → s.paramConflict id role = true → becomes c .discord fun r => r.holds (srcUlilet u 6) = true ∧
        (r.uli u).peerSerial = serial)) ∧
    (p.lstate = .param → p.paramSeen = false →
      (∀ t, p.paramSent = some t → s.now < t + 10 * usNs → exec (.paramSend u) s = .next s) ∧
      (s.slotFits u 80 = true → (∀ t, p.paramSent = some t → t + 10 * usNs ≤ s.now) → becomes (.paramSend u) .param fun r => (r.uli u).paramSent = some s.now ∧ ∃ a k c,
        r.out = .unnumbered u 4 a k c [1, s.self, flag s.ident.role, p.vcs.toNat, s.ident.serial.toNat] :: s.out)) ∧
    (p.lstate = .session → becomes (.sessionEstablished u true) .active (fun r => (r.uli u).secure = true ∧ (r.uli u).txSeq = 0 ∧
        (r.uli u).rxExpect = 0 ∧ (r.uli u).txCounter = 0 ∧ (r.uli u).keyAt = s.now) ∧
      becomes (.sessionEstablished u false) .param fun r => (r.uli u).refusedAt = some s.now ∧ r.holds (srcUlilet u 8) = true) ∧
    (∀ t, p.lstate = .param → p.refusedAt = some t →
      (t + secNs ≤ s.now → becomes (.sessionRetry u) (if p.paramSeen then .session else .param) fun r => (r.uli u).refusedAt = none) ∧
      (s.now < t + secNs → exec (.sessionRetry u) s = .next s)) ∧
    (live → ∃ r, exec (.uliletCrcFailure u) s = .next r ∧ r.stickySet (srcUlilet u 0) = true ∧ (s.modUli u fun p =>
      { p with crcErr := satAdd p.crcErr 1, resync := true, resyncAt := if p.resync then p.resyncAt else s.now }).Reports r) ∧
    (p.resync = true → (p.resyncAt + 4096 ≤ s.now → retrains (.resyncTimeout u)) ∧
      (s.now < p.resyncAt + 4096 → exec (.resyncTimeout u) s = .next s)) ∧
    (p.lstate = .active → retrains (.receiverLockLoss u)) ∧
    (∀ t, p.lstate = .session ∨ p.lstate = .active → p.timer = some t →
      (s.now < t → exec (.replayTimerExpiry u) s = .next s) ∧
      (t ≤ s.now → p.replayN.toNat ≤ p.expiries + 1 → retrains (.replayTimerExpiry u)) ∧
      (t ≤ s.now → p.expiries + 1 < p.replayN.toNat → ∃ r, exec (.replayTimerExpiry u) s = .next r ∧ (s.modUli u fun p =>
        { p with replays := satAdd p.replays 1, expiries := p.expiries + 1, replayAt := some 0
                 timer := some (s.now + p.replayTo.toNat * 100) }).Reports r)) ∧
    (live → p.resync = false → becomes (.uliletMalformedPacket u) .param fun r => (r.uli u).protoErr = satAdd p.protoErr 1 ∧
      r.stickySet (srcUlilet u 3) = true ∧ (r.uli u).lanes = p.lanes) ∧
    (∀ h, live → s.takes u 4 h → becomes (.retireNotice u h) .retired fun r => (r.uli u).retired = true ∧ (r.uli u).cause = 4 ∧
      r.holds (srcUlilet u 5) = true) ∧
    (p.lstate ≠ .retired → p.lstate ≠ .down → becomes (.uliletSilence u true) .down fun r => (r.uli u).prsnt = false) ∧
    (live → (p.lastGood + 10 * usNs ≤ s.now → becomes (.uliletSilence u false) .down fun r => (r.uli u).prsnt = p.prsnt ∧
        r.stickySet (srcUlilet u 7) = true) ∧
      (s.now < p.lastGood + 10 * usNs → exec (.uliletSilence u false) s = .next s))

/-- R222, R411, R413 to R423: packets received and sent. -/
def Obligations.UliletPacketsAreCheckedAcknowledgedAndSent : Prop :=
  ∀ (u : Fin 3) (s : State), s.linkMayRun = true →
    let p := s.uli u
    (∀ h : Header, takesType p.lstate 0 = true →
      (p.check 0 h = .drop → exec (.ackOnly u h) s = .next s) ∧
      (p.check 0 h = .protocol → p.lstate ≠ .discord → ∃ r, exec (.ackOnly u h) s = .next r ∧ (r.uli u).lstate = .param ∧
        (r.uli u).protoErr = satAdd p.protoErr 1 ∧ r.stickySet (srcUlilet u 3) = true) ∧
      (p.check 0 h = .badTag → ∃ r, exec (.ackOnly u h) s = .next r ∧ (r.uli u).lstate = .param ∧
        (r.uli u).tagErr = satAdd p.tagErr 1 ∧ r.stickySet (srcUlilet u 4) = true) ∧
      (p.check 0 h = .accept → p.lstate.counts = true → ∃ r, exec (.ackOnly u h) s = .next r ∧ (∀ v, v ≠ u.val → r.uli v = s.uli v) ∧
        (r.uli u).replay = p.replay.drop (p.acks h) ∧ (r.uli u).acked = (if p.acks h = 0 then p.acked else h.ack) ∧
        Tab.get 0 (r.uli u).credited h.crVc = Tab.get 0 p.credited h.crVc + p.creditBack h ∧ (r.uli u).lastGood = s.now ∧ r.out = s.out ∧
        (r.uli u).rxExpect = p.rxExpect ∧ (p.acks h ≠ 0 → (r.uli u).expiries = 0) ∧ (p.replay.length ≤ p.acks h → p.acks h ≠ 0 →
          (r.uli u).timer = none ∧ (r.uli u).replayAt = none))) ∧
    (∀ (h : Header) (t1 t2 t3 : BitVec 64) (hops : BitVec 8) (sync : Bool), p.lstate = .active →
      ({ p with resync := false } : Uli).check 3 h = .accept → ∃ r, exec (.beacon u h t1 t2 t3 hops sync) s = .next r ∧
        (r.uli u).peerSync = some (t1, s.time.tb) ∧ (r.uli u).hops = hops ∧ (r.uli u).peerSynced = sync ∧ (r.uli u).resync = false ∧
        (s.ident.role = true → r.time = s.time) ∧
        (s.ident.role = false → r.parentLink = some u.val → r.time.parent = p.peerId ∧ r.time.freeRun = false ∧
          r.time.hops = (if hops = 0xFF then 0xFF else hops + 1) ∧ r.time.parentAt = s.now)) ∧
    (∀ h : Header, p.lstate = .active → h.vc = 0 → s.takes u 5 h → h.dst = s.ident.devId →
      ∃ r, exec (.enclaveMessage u h .keyUpdate) s = .next r ∧ (r.uli u).txCounter = 0 ∧ (r.uli u).highCounter = none ∧
        (r.uli u).keyAt = s.now ∧ (r.uli u).rxExpect = p.rxExpect + 1 ∧ (r.uli u).oldKeyTo = some p.rxExpect) ∧
    (p.lstate = .active →
      (s.self < p.peerId.toNat → exec (.linkKeyUpdate u) s = .next (s.modUli u fun p => { p with
        tx := p.tx ++ [{ type := 5, vc := 0, len := 1, dst := p.peerId.toNat, src := s.self, msg := some .keyUpdate }]
        txCounter := 0, highCounter := none, keyAt := s.now, oldKeyTo := some (p.rxExpect - 1) })) ∧
      (p.peerId.toNat ≤ s.self → exec (.linkKeyUpdate u) s = .next s)) ∧
    (p.lstate.counts = true →
      (∀ i x, p.replayAt = some i → p.replay[i]? = some x → s.slotFits u (48 + 32 * x.pkt.len) = true →
        ∃ r, exec (.uliletPacketSend u) s = .next r ∧ r.out = .packet u x :: s.out ∧ (r.uli u).replay = p.replay ∧ (r.uli u).txSeq = p.txSeq ∧
          (r.uli u).replayAt = if i + 1 < p.replay.length then some (i + 1) else none) ∧
      (∀ x, p.replayAt = none → p.nextNew = some x → p.bufferTakes x.len = true → s.slotFits u (48 + 32 * x.len) = true →
        x ∈ p.tx ∧ x.len + 1 ≤ p.credit x.vc ∧
        ∃ r n, exec (.uliletPacketSend u) s = .next r ∧ r.out = .packet u n :: s.out ∧ n.pkt = x ∧ n.seq = p.txSeq ∧ n.ack = p.rxExpect - 1 ∧
          (r.uli u).txSeq = p.txSeq + 1 ∧ (r.uli u).replay = p.replay ++ [n] ∧ (r.uli u).tx.length + 1 = p.tx.length ∧
          Tab.get 0 (r.uli u).charged x.vc = Tab.get 0 p.charged x.vc + x.len + 1 ∧
          (p.replay = [] → (r.uli u).timer = some (s.now + p.replayTo.toNat * 100))) ∧
      (p.replayAt = none → p.nextNew = none → exec (.uliletPacketSend u) s = .next s)) ∧
    (p.lstate = .param ∨ p.lstate.counts = true → s.slotFits u 48 = true →
      (p.lastStart + 64 ≤ s.now → ∃ r k c, exec (.ackOnlySend u) s = .next r ∧ r.out = .unnumbered u 0 (p.rxExpect - 1) k c [] :: s.out ∧
        (r.uli u).lastStart = s.now ∧ (r.uli u).tx = p.tx) ∧
      (s.now < p.lastStart + 64 → exec (.ackOnlySend u) s = .next s)) ∧
    (p.lstate = .active →
      let t := s.time.tb.toNat
      let y := p.peerSync.getD (0, 0)
      (t % 1024 < 64 → p.lastSlot ≠ some (t / 1024) → ∃ r a k c, exec (.beaconSlotStart u) s = .next r ∧
        r.out = .unnumbered u 3 a k c [t, y.1.toNat, y.2.toNat, s.ownHops, flag s.synced] :: s.out ∧ (r.uli u).lastSlot = some (t / 1024) ∧
        (r.uli u).ownSync = some s.time.tb) ∧
      (64 ≤ t % 1024 ∨ p.lastSlot = some (t / 1024) → exec (.beaconSlotStart u) s = .next s))

/-- R118, R431 to R440, R541: requests of other members. -/
def Obligations.RequestsOfOtherMembersAreServed : Prop :=
  ∀ (u v : Fin 3) (h : Header) (x : Txn) (s : State), s.asked u h → s.route h.src.toNat = some v.val →
    let d := h.src.toNat
    let words := fun (n : Nat) => x.words.getD n 0
    let answers := fun (c : Instr) (op status : Nat) (lines : List Line) (ws : List Nat) (q : State → Prop) =>
      ∃ r, exec c s = .next r ∧ r.replied v d op x.tag status lines ws ∧ q r
    let k := x.index / 4
    let n := x.unit % 64
    let cached := ∃ w, w < 16 ∧ (s.metaSet (k % s.metaSets)).ways.getD w none = some k
    let quiet := s.path.reqs = [] ∧ (s.extent (extentOf x.index)).shared = false ∧ cached
    let g := s.remote x.index
    let l := g.location + x.unit
    let mine := g.state ≠ 0 ∧ g.home = d
    (s.mayClaim 0 (16 + u) = false → ∃ r q, exec (.fwdRd u h x) s = .next r ∧ r.path.reqs = s.path.reqs ++ [q] ∧ q.stage = .tracker ∧
      q.units = h.len + 1 ∧ q.tag = x.tag ∧ q.write = false) ∧
    (s.mayClaim 0 (16 + u) = true →
      (s.pageLive x.index = false →
        answers (.fwdRd u h x) 1 1 [0] [] (fun r => r.cap.noMapping = s.cap.noMapping + 1) ∧
        (x.tag.toNat ∉ s.appliedOf d → answers (.fwdWr u h x) 2 0 [] [] fun r => r.cap.noMapping = s.cap.noMapping + 1 ∧
          x.tag.toNat ∈ r.appliedOf d)) ∧
      (s.pageLive x.index = true → quiet →
        ((s.desc x.index).state = .zero → (s.desc x.index).bpoison = 0 → s.gathered x.index = false → answers (.fwdRd u h x) 1 0 [0] [] fun _ => True) ∧
        (s.record x.index = none → s.mayClaim 1 (16 + u) = true → s.chargeDue x.index (n / 16) = none → s.ril.hints = [] →
          x.tag.toNat ∉ s.appliedOf d → answers (.fwdWr u h x) 2 0 [] [] fun r => x.tag.toNat ∈ r.appliedOf d ∧
            (r.overlay x.index n).1 = mergeLine (s.overlay x.index n).1 (x.lines.headD 0)
              ((x.words.head?.map (BitVec.ofNat 64 ·)).getD (BitVec.allOnes 64))))) ∧
    (x.tag.toNat ∈ s.appliedOf d → s.path.reqs = [] → answers (.fwdWr u h x) 2 0 [] [] fun r => r.gather = s.gather ∧ r.path.reqs = []) ∧
    (let same := s.const.remotes.find? fun r => decide (r.2.home = d) && decide (r.2.homeDlpn = x.index) && !r.2.committed &&
        decide (r.2.state = 1) && decide (r.2.blockLen = BitVec.ofNat 20 (words 1))
      let i := s.freeRemote
      let units := x.words.getD 2 64
      x.words.getD 0 1 = 1 → s.hasRemoteBlock (i / 65536) = true →
        (∀ e, same = some e → answers (.farAlloc u h x) 3 0 [] [e.1] fun r => r.const.remotes = s.const.remotes ∧ r.cap = s.cap) ∧
        (same = none → s.moverOk units = false → answers (.farAlloc u h x) 3 2 [] [] fun r => r.const.remotes = s.const.remotes) ∧
        (same = none → s.moverOk units = true →
          let dest := (s.placeOrder (6 * u) false).find? fun c => (s.lowestRun c 1 1 1).isSome
          (dest = none → answers (.farAlloc u h x) 3 3 [] [] fun r => r.const.remotes = s.const.remotes) ∧
          ∀ c f, dest = some c → s.lowestRun c 1 1 1 = some f → answers (.farAlloc u h x) 3 0 [] [i] fun r =>
            r.remote i = { state := 1, home := d, homeDlpn := x.index, blockLen := BitVec.ofNat 20 (words 1), location := frameLine c f, units } ∧
              Tab.get none (r.alloc c).frames f = some (.guest i) ∧ r.cap.g = s.cap.g + units)) ∧
    (mine → s.unitGood g x.unit = true → answers (.farRd u h x false) 4 0 [(s.lineNow l).data] [] (fun r => r.dram = s.dram) ∧
      answers (.farRd u h x true) 4 1 [0] [] fun r => ∃ b, Output.guestReport g.home g.homeDlpn b ∈ r.out) ∧
    (¬ mine ∨ s.unitGood g x.unit = false → ∀ ue, answers (.farRd u h x ue) 4 1 [0] [] fun r => r.dram = s.dram) ∧
    (g.state = 1 → g.home = d → x.unit < g.units → answers (.farWr u h x) 5 0 [] [] fun r => r.lineNow l = { data := x.lines.headD 0 }) ∧
    (¬ mine → answers (.farWr u h x) 5 2 [] [] (fun r => r.dram = s.dram) ∧ answers (.farPut u h x) 6 2 [] [] (fun r => r.dram = s.dram) ∧
      answers (.farCommit u h x) 7 2 [] [] fun r => r.const.remotes = s.const.remotes) ∧
    (mine →
      (g.committed = false → answers (.farPut u h x) 6 0 [] [] fun r => ∀ j < x.lines.length, x.unit + j < g.units →
        r.lineNow (g.location + (x.unit + j)) = { data := x.lines.getD j 0 }) ∧
      (g.committed = true → answers (.farPut u h x) 6 0 [] [] fun r => r.dram = s.dram ∧
        ∀ j < x.lines.length, (x.unit + j, x.lines.getD j 0) ∈ (r.remote x.index).staged) ∧
      (g.committed = false ∨ g.staged = [] → answers (.farCommit u h x) 7 0 [] [] fun r =>
        r.remote x.index = { g with state := x.words.getD 0 1, blockLen := BitVec.ofNat 20 (words 1), committed := true }) ∧
      answers (.farFree u h x) 8 0 [] [] fun r => r.remote x.index = {} ∧ (∀ j < g.units, r.lineNow (g.location + j) = {}) ∧
        r.cap.g = s.cap.g - g.units) ∧
    (g.home ≠ d → answers (.farFree u h x) 8 0 [] [] fun r => r.const.remotes = s.const.remotes ∧ r.dram = s.dram) ∧
    (let key := lineKey d x.index n;
      s.path.snoops = [] → s.const.journal = [] →
      (s.dirEntry key = 0 → answers (.snoop u h x) 9 0 [] [] fun r => r.path = s.path) ∧
      (s.dirEntry key ≠ 0 → ∃ r, exec (.snoop u h x) s = .next r ∧ (d, x.tag, key) ∈ r.const.snooped ∧
        ∀ p < 16, (s.dirEntry key).getLsbD p = true → Output.snoop p key (decide (words 0 = 1)) ∈ r.out)) ∧
    (let e := words 0
      let y := s.extent e;
      (words 1 ≠ 1 → y.shared = true → y.state = .active → y.mappings < 64 → answers (.xmap u h x) 10 0 [] [] fun r =>
        (r.extent e).mappings = y.mappings + 1 ∧ r.const.remoteMaps = s.const.remoteMaps ++ [(e, d)]) ∧
      (words 1 ≠ 1 → y.shared = false ∨ y.state ≠ .active → y.mappings < 64 → answers (.xmap u h x) 10 2 [] [] fun r => r.cap = s.cap) ∧
      (words 1 ≠ 1 → 64 ≤ y.mappings → answers (.xmap u h x) 10 3 [] [] fun r => r.cap = s.cap) ∧
      (words 1 = 1 → (e, d) ∉ s.const.remoteMaps → answers (.xmap u h x) 10 0 [] [] fun r => r.cap = s.cap) ∧
      (words 1 = 1 → (e, d) ∈ s.const.remoteMaps → 1 < y.mappings → answers (.xmap u h x) 10 0 [] [] fun r =>
        (r.extent e).mappings = y.mappings - 1 ∧ r.const.remoteMaps.length + 1 = s.const.remoteMaps.length)) ∧
    (s.ident.role = true → (x.words.getD 2 1 = 0 → answers (.admitReq u h x) 11 0 [] [] fun r => ∃ t, (words 3, t) ∈ r.const.register ∧ d ∈ t) ∧
      (x.words.getD 2 1 ≠ 0 → answers (.admitReq u h x) 11 0 [] [] fun r => r.const.register = s.const.register) ∧
      (s.rec_.store.length < s.rec_.capacity → answers (.uliletTally u h x) 15 0 [] [] fun r => r.rec_.seq = s.rec_.seq + 1 ∧
        ∃ t, r.rec_.store = s.rec_.store ++ [t] ∧ t.seq = s.rec_.seq ∧ t.copySeq = BitVec.ofNat 64 (words 0) ∧ t.reason = 4 ∧
          t.count = BitVec.ofNat 64 (words 9) ∧ t.device = BitVec.ofNat 8 (words 7) ||| 0x80)) ∧
    (s.ident.role = false → answers (.admitReq u h x) 11 2 [] [] (fun r => r.const.register = s.const.register) ∧
      answers (.uliletTally u h x) 15 0 [] [] fun r => r.rec_ = s.rec_)

/-- R430 to R432, R434, R435, R437, R441, R443, R445, R446: members, reconcile, and responses at their originator. -/
def Obligations.MembersJoinReconcileAndComplete : Prop :=
  ∀ (u : Fin 3) (h : Header) (x : Txn) (s : State),
    let d := h.src.toNat
    let words := fun (n : Nat) => x.words.getD n 0
    let gone := fun (r : State) (o : Open) => r.const.opened = s.const.opened.filter (· != o)
    let hostRead := fun (q : Req) => q.source < 16 ∧ q.verified = true ∧ q.dead = false ∧ q.comet = none
    (s.asked u h → ∀ v : Fin 3, s.route d = some v.val →
      (let barred := (s.ident.role = false ∧ s.self = 0) ∨ d = 0 ∨ words 1 = 1 ∨ s.refusesJoin d u = true;
        (¬ barred → (s.member d).state = .absent → (s.member d).epoch = none → ∃ r, exec (.join u h x) s = .next r ∧ r.replied v d 13 x.tag 0 [] s.joinWords ∧
          (r.member d).state = .joined ∧ (r.member d).epoch = some (BitVec.ofNat 64 (words 2)) ∧
          ∀ e ∈ x.words.drop 5, ∃ t, (d * 2 ^ 18 + e, t) ∈ r.const.register) ∧
        (barred → (s.uli u).peerId = h.src → ∃ r, exec (.join u h x) s = .next r ∧ (r.uli u).foreign = true)) ∧
      (∀ (p n : Nat), x.words = [p, 2 ^ n] → n < 64 → p < 2 ^ 34 → (s.extent (extentOf p)).state ≠ .free → (s.desc p).state = .plain →
        (∀ q, ∀ y ∈ (s.quad q).records, y.dlpn ≠ p) → s.poisonListed p 0 n = false → s.integ.poison.length < 65536 →
        let l := locLine (s.desc p).location + n;
        ∃ r, exec (.recon u h x) s = .next r ∧ r.replied v d 14 x.tag 0 [] [] ∧ r.lineNow l = { s.lineNow l with poisoned := true } ∧
          r.integ.poison = s.integ.poison ++ [{ dlpn := p, unit := 0, place := n, source := 4, timebase := s.time.tb }])) ∧
    (s.asked u h → ∃ r, exec (.reach u h x) s = .next r ∧ (r.uli u).reach = BitVec.ofNat 4 (words 0) ∧ (r.uli u).reachAt = some s.now) ∧
    (s.running = true → ∃ r, exec .reachSend s = .next r ∧
      let p := s.uli u
      let due := p.lstate = .active ∧ p.foreign = false ∧ p.reachSent + 8 * usNs ≤ s.now
      (due → r.uli u = { p with reachSent := s.now, tx := (r.uli u).tx } ∧ ∃ y, (r.uli u).tx = p.tx ++ [y] ∧ y.type = 1 ∧
        y.txn = { op := 12, words := [s.reachMask] } ∧ y.dst = p.peerId.toNat) ∧ (¬ due → r.uli u = p)) ∧
    (s.takes u 2 h → h.dst = s.ident.devId →
      let found := s.const.opened.find? fun o => decide (o.op = x.op ∧ o.tag = x.tag ∧ o.target = d);
      (3 < x.status → ∃ r, exec (.txnResponse u h x) s = .next r ∧ (r.uli u).lstate = .param) ∧
      (x.status ≤ 3 → found = none → ∃ r, exec (.txnResponse u h x) s = .next r ∧ r.const = s.const ∧ r.path = s.path ∧ r.out = s.out) ∧
      ∀ o, x.status ≤ 3 → found = some o →
        (x.op = 1 → ∀ q, s.req o.req = some q → hostRead q → q.write = false → ∃ r n, exec (.txnResponse u h x) s = .next r ∧ gone r o ∧
          r.out.head? = some (.readData q.source q.ld q.tag (x.lines.headD 0) (decide (x.status ≠ 0)) n) ∧ r.req q.id = none) ∧
        (x.op = 2 → ∀ q, s.path.reqs = [q] → q.id = o.req → hostRead q → q.write = true → ∃ r n, exec (.txnResponse u h x) s = .next r ∧
          Output.writeDone q.source q.ld q.tag n ∈ r.out ∧ r.path.reqs = [] ∧
          r.const.journal = s.const.journal.filter fun j => !decide (j.seq = o.tag ∧ j.home = o.target)) ∧
        (x.op = 10 → o.words.getD 1 0 = 0 → s.const.xmap.busy = true → x.status ≠ 0 → ∃ r, exec (.txnResponse u h x) s = .next r ∧ gone r o ∧
          r.const.xmap = { s.const.xmap with busy := false, result := if x.status = 2 then 10 else 9 }) ∧
        (x.op = 11 → s.const.admits = [] → s.const.xmap.busy = true → x.status ≠ 0 → ∃ r, exec (.txnResponse u h x) s = .next r ∧ gone r o ∧
          r.const.xmap = { s.const.xmap with busy := false, result := 1 }) ∧
        (x.op = 13 → x.status = 0 → (s.member d).state = .absent → (s.member d).epoch = none → ∃ r, exec (.txnResponse u h x) s = .next r ∧ (r.member d).state = .joined ∧
          (r.member d).epoch = some (BitVec.ofNat 64 (words 2))) ∧
        (x.op = 14 → (∀ p ∈ s.const.opened, p = o ∨ p.op ≠ 14) → ∃ r, exec (.txnResponse u h x) s = .next r ∧
          (r.member d).reconciling = false ∧ ∀ i ∈ r.const.indet, i.device ≠ d)) ∧
    ∀ (write : Bool) (tag : BitVec 16), s.running = true →
      let found := s.const.opened.find? fun o =>
        decide (o.op = (if write then 2 else 1) ∧ o.tag = tag ∧ o.at_ + s.const.orphanTo.toNat * usNs ≤ s.now);
      (found = none → exec (.orphanTimeout write tag) s = .next s) ∧
      ∀ o q, found = some o → s.path.reqs = [q] → q.id = o.req → hostRead q → q.write = write → ∃ r n, exec (.orphanTimeout write tag) s = .next r ∧
        (r.member o.target).orphans = satAdd (s.member o.target).orphans 1 ∧ r.path.reqs = [] ∧
        (write = false → r.out.head? = some (.readData q.source q.ld q.tag 0 true n)) ∧
        (write = true → Output.writeDone q.source q.ld q.tag n ∈ r.out ∧ (s.const.indet = [] →
          r.const.indet = [{ dlpn := o.dlpn, device := o.target, far := false, mask := BitVec.ofNat 64 (2 ^ o.unit) }]))

/-- The step of a block. What it does on an empty queue is the model's choice (log 2). -/
def Obligations.StepRunsTheCommandAtTheFront : Prop :=
  (∀ (c : Instr) (rest : List Instr) (s : State), step { s with pending := c :: rest } = exec c { s with pending := rest }) ∧
  ∀ s : State, s.pending = [] →
    (s.start.powered = false → step s = .next s) ∧
    (s.start.powered = true → ∃ r, step s = .next r ∧ r = { s with time := r.time, qos := r.qos } ∧ r.time.now = s.time.now + 1 ∧
      r.time.tb = s.time.tb + 1 ∧ r.qos = { s.qos with holdSum := r.qos.holdSum, holdLast := r.qos.holdLast })

/-- What reset leaves in the registers (R12, and the Reset columns of the register tables). -/
def Obligations.ResetGivesTheRegistersTheirValues : Prop :=
  let reads := fun (type n : Nat) (l : List (Nat × BitVec 64)) =>
    ∀ e ∈ l, ∀ i < n, (readRegister type i e.1 State.reset).1 = e.2
  reads 0x01 1 [(0x400, 0x1801414), (0x408, 0x0), (0x410, 0x0), (0x418, 0x0), (0x420, 0x0), (0x428, 0x0), (0x440, 0x64000D),
    (0x480, 0x0), (0x488, 0x8), (0x490, 0x0), (0x4C0, 0x118), (0x4C8, 0x0), (0x4D0, 0xA23C083E83), (0x4D8, 0x0),
    (0x4E0, 0x0), (0x500, 0x808), (0x580, 0x4B3200), (0x588, 0x3200), (0x5D8, 0x10000), (0x5E0, 0x0), (0x5E8, 0x0),
    (0x680, 0x32), (0x688, 0x0), (0x698, 0x0), (0x700, 0x6), (0x708, 0x0), (0x720, 0x0), (0x738, 0x6403E8), (0x740, 0x0),
    (0x748, 0x41), (0x750, 0x0), (0x758, 0x0), (0x780, 0x6402), (0x788, 0x0), (0x790, 0x0), (0x798, 0x0), (0x018, 0x0)] ∧
  reads 0x02 4 [(0x200, 0x74010), (0x210, 0x3800314), (0x218, 0x0), (0x220, 0x7D009), (0x228, 0x0), (0x240, 0x0), (0x000, 0xFF)] ∧
  reads 0x10 24 [(0x000, 0x8282C08103), (0x010, 0x0), (0x018, 0x0), (0x020, 0x0), (0x028, 0x0), (0x030, 0x6), (0x038, 0x5FFFFF),
    (0x040, 0x0), (0x048, 0x0), (0x050, 0x0), (0x058, 0x2)] ∧
  reads 0x20 16 [(0x000, 0x2190), (0x010, 0x0), (0x018, 0x0), (0x100, 0x0)] ∧
  reads 0x30 3 [(0x200, 0x3), (0x208, 0x1F4001F400), (0x000, 0xA34294), (0x008, 0x0), (0x010, 0x0), (0x018, 0x0)] ∧
  reads 0x40 8 [(0x100, 0x0), (0x108, 0x0), (0x110, 0x0)] ∧
  reads 0x80 1 [(0x000, 0xFA0), (0x008, 0x0), (0x010, 0x10C), (0x018, 0x1), (0x100, 0x820)] ∧
  reads 0x90 48 [(0x000, 0x3C08040F1E), (0x010, 0xC0), (0x018, 0x0), (0x020, 0x0)] ∧
  State.reset.pending = [] ∧ State.reset.out = [] ∧ State.reset.memoriesWf = true ∧ State.reset.strapsAgree = true

/-- R429: the strap rule, as an invariant of every step. -/
def Obligations.EveryStepKeepsTheStrapRule : Prop :=
  ∀ s : State, s.strapsAgree = true → ∃ r, step s = .next r ∧ r.strapsAgree = true

/-- R120, R122, R150 to R158: what is stored is what is read. -/
def Obligations.StoredFormsDecodeToWhatWasEncoded : Prop :=
  (∀ d : Desc,
    let w := encodeDesc d
    decodeDesc w = d ∧ (w.extractLsb' 0 4).toNat = d.state.code ∧ w.getLsbD 4 = d.lock ∧ w.getLsbD 5 = d.fixed ∧ w.extractLsb' 6 2 = 0#2 ∧
      w.extractLsb' 8 12 = d.keySlot ∧ w.extractLsb' 20 44 = d.location ∧ w.extractLsb' 64 20 = d.blockLen ∧
      w.extractLsb' 84 12 = d.wgen ∧ w.extractLsb' 96 4 = d.bpoison ∧ w.extractLsb' 100 12 = 0#12 ∧
      w.extractLsb' 112 16 = crc16 ((List.range 14).map fun i => w.extractLsb' (8 * i) 8)) ∧
  crc16 [0x31, 0x32, 0x33, 0x34, 0x35, 0x36, 0x37, 0x38, 0x39] = 0x29B1 ∧
  ∀ (m0 m1 m2 : Bool) (block : List Byte), block.length = 1024 →
    let r := encodeBlock m0 m1 m2 block
    decodeBlock r.1 r.2 = .data block ∧ r.2.length = 64 * r.1 ∧ r.1 ≤ 16 ∧ (r.1 = 0 ↔ ∀ b ∈ block, b = 0)
end

