-- ==== Sys2Proof/Laws/Tab.lean ====
section
/-! SUPPORT. Tables and the memories that are tables of bytes: a read after a write, the other keys, and the canonical form that every
write keeps. -/
namespace Sys2Proof.Machine

variable {α : Type}

@[simp] theorem Tab.get_nil (d : α) (k : Nat) : Tab.get d [] k = d := rfl

theorem Tab.get_erase_self (d : α) (t : Tab α) (k : Nat) : Tab.get d (Tab.erase t k) k = d := by
  induction t with
  | nil => rfl
  | cons e t ih =>
    obtain ⟨j, v⟩ := e
    by_cases h : j = k
    · simpa [Tab.erase, h] using ih
    · have : Tab.erase ((j, v) :: t) k = (j, v) :: Tab.erase t k := by simp [Tab.erase, h]
      rw [this, Tab.get, if_neg h, ih]

theorem Tab.get_erase_other (d : α) (t : Tab α) {j k : Nat} (hn : j ≠ k) : Tab.get d (Tab.erase t k) j = Tab.get d t j := by
  induction t with
  | nil => rfl
  | cons e t ih =>
    obtain ⟨i, v⟩ := e
    by_cases h : i = k
    · have : Tab.erase ((i, v) :: t) k = Tab.erase t k := by simp [Tab.erase, h]
      rw [this, ih, Tab.get, if_neg (by omega)]
    · have : Tab.erase ((i, v) :: t) k = (i, v) :: Tab.erase t k := by simp [Tab.erase, h]
      rw [this, Tab.get, Tab.get, ih]

theorem Tab.get_insert (d : α) (t : Tab α) (k j : Nat) (v : α) (hf : ∀ e ∈ t, e.1 ≠ k) :
    Tab.get d (Tab.insert k v t) j = if j = k then v else Tab.get d t j := by
  induction t with
  | nil => by_cases h : k = j <;> simp [Tab.insert, Tab.get, h, eq_comm]
  | cons e t ih =>
    obtain ⟨i, w⟩ := e
    have hi : i ≠ k := hf (i, w) (by simp)
    have ih := ih fun e he => hf e (by simp [he])
    simp only [Tab.insert]
    split <;> rename_i h
    · simp only [Tab.get, eq_comm]
    · simp only [Tab.get, ih]
      by_cases hij : i = j
      · rw [if_pos hij, if_neg (by omega), if_pos hij]
      · rw [if_neg hij, if_neg hij]

theorem Tab.not_mem_erase (t : Tab α) (k : Nat) : ∀ e ∈ Tab.erase t k, e.1 ≠ k := by
  intro e he
  simpa [Tab.erase] using (List.mem_filter.mp he).2

/-- A read after a write: the key written has the value, every other key what it had. -/
theorem Tab.get_set [DecidableEq α] (d : α) (t : Tab α) (k j : Nat) (v : α) :
    Tab.get d (Tab.set d t k v) j = if j = k then v else Tab.get d t j := by
  unfold Tab.set
  by_cases h : v = d
  · rw [if_pos h]
    by_cases hj : j = k
    · rw [hj, Tab.get_erase_self, if_pos rfl, h]
    · rw [if_neg hj, Tab.get_erase_other d t hj]
  · rw [if_neg h, Tab.get_insert d _ k j v (Tab.not_mem_erase t k)]
    by_cases hj : j = k
    · simp [hj]
    · rw [if_neg hj, if_neg hj, Tab.get_erase_other d t hj]

@[simp] theorem Tab.get_set_self [DecidableEq α] (d : α) (t : Tab α) (k : Nat) (v : α) : Tab.get d (Tab.set d t k v) k = v := by
  simp [Tab.get_set]

theorem Tab.get_set_other [DecidableEq α] (d : α) (t : Tab α) {k j : Nat} (v : α) (h : j ≠ k) :
    Tab.get d (Tab.set d t k v) j = Tab.get d t j := by simp [Tab.get_set, h]

/-- The other keys, whatever default they are read with. -/
theorem Tab.get_set_ne [DecidableEq α] (d d' : α) (t : Tab α) {k j : Nat} (v : α) (h : j ≠ k) :
    Tab.get d' (Tab.set d t k v) j = Tab.get d' t j := by
  unfold Tab.set
  split
  · exact Tab.get_erase_other d' t h
  · rw [Tab.get_insert d' _ k j v (Tab.not_mem_erase t k), if_neg h, Tab.get_erase_other d' t h]

/-! ### The canonical form -/

/-- The canonical form, said of the list as a whole: keys strictly rising, no value at the default. -/
theorem Tab.wf_iff [DecidableEq α] (d : α) (t : Tab α) :
    Tab.wf d t = true ↔ t.Pairwise (fun a b => a.1 < b.1) ∧ ∀ e ∈ t, e.2 ≠ d := by
  induction t with
  | nil => simp [Tab.wf]
  | cons e t ih =>
    obtain ⟨j, v⟩ := e
    cases t with
    | nil => simp [Tab.wf]
    | cons f t =>
      obtain ⟨k, w⟩ := f
      simp only [Tab.wf, Bool.and_eq_true, decide_eq_true_eq]
      rw [ih]
      simp only [List.pairwise_cons, List.mem_cons, forall_eq_or_imp]
      constructor
      · rintro ⟨⟨hv, hjk⟩, ⟨hk, hp⟩, hw, hd⟩
        exact ⟨⟨⟨hjk, fun e he => Nat.lt_trans hjk (hk e he)⟩, hk, hp⟩, hv, hw, hd⟩
      · rintro ⟨⟨⟨hjk, _⟩, hk, hp⟩, hv, hw, hd⟩
        exact ⟨⟨hv, hjk⟩, ⟨hk, hp⟩, hw, hd⟩

theorem Tab.mem_insert (k : Nat) (v : α) (t : Tab α) (e : Nat × α) : e ∈ Tab.insert k v t ↔ e = (k, v) ∨ e ∈ t := by
  induction t with
  | nil => simp [Tab.insert]
  | cons f t ih =>
    obtain ⟨j, w⟩ := f
    by_cases h : k < j
    · simp [Tab.insert, h]
    · simp only [Tab.insert, if_neg h, List.mem_cons, ih]; tauto

theorem Tab.pairwise_insert (k : Nat) (v : α) (t : Tab α) (hp : t.Pairwise (fun a b => a.1 < b.1)) (hf : ∀ e ∈ t, e.1 ≠ k) :
    (Tab.insert k v t).Pairwise (fun a b => a.1 < b.1) := by
  induction t with
  | nil => simp [Tab.insert]
  | cons f t ih =>
    obtain ⟨j, w⟩ := f
    rw [List.pairwise_cons] at hp
    by_cases h : k < j
    · simp only [Tab.insert, if_pos h, List.pairwise_cons, List.mem_cons, forall_eq_or_imp]
      exact ⟨⟨h, fun e he => Nat.lt_trans h (hp.1 e he)⟩, hp⟩
    · have hj : j < k := by have := hf (j, w) (by simp); simp at this; omega
      simp only [Tab.insert, if_neg h, List.pairwise_cons, Tab.mem_insert]
      refine ⟨?_, ih hp.2 fun e he => hf e (by simp [he])⟩
      rintro e (rfl | he)
      · exact hj
      · exact hp.1 e he

/-- Every write of a table keeps its canonical form. -/
theorem Tab.wf_set [DecidableEq α] (d : α) (t : Tab α) (k : Nat) (v : α) (h : Tab.wf d t = true) : Tab.wf d (Tab.set d t k v) = true := by
  rw [Tab.wf_iff] at h ⊢
  have he : (Tab.erase t k).Pairwise (fun a b => a.1 < b.1) ∧ ∀ e ∈ Tab.erase t k, e.2 ≠ d :=
    ⟨h.1.sublist List.filter_sublist, fun e he => h.2 e (List.mem_of_mem_filter he)⟩
  unfold Tab.set
  split
  · exact he
  · rename_i hv
    refine ⟨Tab.pairwise_insert k v _ he.1 (Tab.not_mem_erase t k), ?_⟩
    intro e hm
    rcases (Tab.mem_insert k v _ e).mp hm with rfl | hm
    · exact hv
    · exact he.2 e hm

/-! ### Memories -/

@[simp] theorem Memory.wf_nil : Memory.wf [] = true := rfl

/-- Every write of a byte keeps the canonical form of a memory. -/
theorem Memory.wf_write (m : Tab Byte) (a : Nat) (b : Byte) (h : Memory.wf m = true) : Memory.wf (Memory.write m a b) = true :=
  Tab.wf_set 0 m a b h

/-- A read of a byte after the write of a byte. -/
theorem Memory.read_write (m : Tab Byte) (a c : Nat) (b : Byte) :
    Memory.read (Memory.write m a b) c = if c = a then b else Memory.read m c := Tab.get_set 0 m a c b

/-- Every write of several bytes keeps the canonical form. -/
theorem Memory.wf_writeLe (m : Tab Byte) (a n v : Nat) (h : Memory.wf m = true) : Memory.wf (Memory.writeLe m a n v) = true := by
  induction n generalizing m a v with
  | zero => exact h
  | succ n ih => exact ih _ _ _ (Memory.wf_write m a _ h)

/-- A write of `n` bytes at `a` leaves every byte outside them alone. -/
theorem Memory.read_writeLe_other (m : Tab Byte) (a n v c : Nat) (h : c < a ∨ a + n ≤ c) :
    Memory.read (Memory.writeLe m a n v) c = Memory.read m c := by
  induction n generalizing m a v with
  | zero => rfl
  | succ n ih => rw [Memory.writeLe, ih _ _ _ (by omega), Memory.read_write, if_neg (by omega)]

/-- A write of `n` bytes at `a` leaves byte `i` of the value at `a + i`. -/
theorem Memory.read_writeLe (m : Tab Byte) (a n v i : Nat) (h : i < n) :
    Memory.read (Memory.writeLe m a n v) (a + i) = BitVec.ofNat 8 (v / 256 ^ i) := by
  induction n generalizing m a v i with
  | zero => omega
  | succ n ih =>
    cases i with
    | zero => rw [Memory.writeLe, Memory.read_writeLe_other _ _ _ _ _ (by omega), Memory.read_write, if_pos (by omega)]; simp
    | succ i =>
      have := ih (Memory.write m a (BitVec.ofNat 8 v)) (a + 1) (v / 256) i (by omega)
      rw [Memory.writeLe, show a + (i + 1) = a + 1 + i by omega, this, Nat.div_div_eq_div_mul, pow_succ, Nat.mul_comm]

/-- Reading back what was written gives the value. -/
theorem Memory.readLe_writeLe (m : Tab Byte) (a n v : Nat) : Memory.readLe (Memory.writeLe m a n v) a n = v % 256 ^ n := by
  have aux : ∀ (k : Nat) (m : Tab Byte) (b v : Nat), (∀ i < k, Memory.read m (b + i) = BitVec.ofNat 8 (v / 256 ^ i)) →
      Memory.readLe m b k = v % 256 ^ k := by
    intro k
    induction k with
    | zero => intro m b v _; simp [Memory.readLe, Nat.mod_one]
    | succ k ih =>
      intro m b v h
      have h0 : Memory.read m b = BitVec.ofNat 8 v := by simpa using h 0 (by omega)
      have h1 := ih m (b + 1) (v / 256) fun i hi => by
        have := h (i + 1) (by omega)
        rw [show b + 1 + i = b + (i + 1) by omega, this, Nat.div_div_eq_div_mul, pow_succ, Nat.mul_comm]
      rw [Memory.readLe, h0, h1, pow_succ, Nat.mul_comm (256 ^ k), Nat.mod_mul]
      simp
  exact aux n _ a v fun i hi => Memory.read_writeLe m a n v i hi

end Sys2Proof.Machine
end

