-- ==== Sys2Proof/Laws/State.lean ====
section
/-! SUPPORT. What each update of the state leaves alone, one lemma for each field and each accessor, and what it writes. -/
namespace Sys2Proof.Machine

/-! ### modSlot -/

section
variable (s : State) (n : Nat) (f : Slot → Slot)

@[simp] theorem State.modSlot_ident : (s.modSlot n f).ident = s.ident := rfl
@[simp] theorem State.modSlot_time : (s.modSlot n f).time = s.time := rfl
@[simp] theorem State.modSlot_power : (s.modSlot n f).power = s.power := rfl
@[simp] theorem State.modSlot_start : (s.modSlot n f).start = s.start := rfl
@[simp] theorem State.modSlot_slotMgr : (s.modSlot n f).slotMgr = s.slotMgr := rfl
@[simp] theorem State.modSlot_sensors : (s.modSlot n f).sensors = s.sensors := rfl
@[simp] theorem State.modSlot_faults : (s.modSlot n f).faults = s.faults := rfl
@[simp] theorem State.modSlot_rec_ : (s.modSlot n f).rec_ = s.rec_ := rfl
@[simp] theorem State.modSlot_ctrs : (s.modSlot n f).ctrs = s.ctrs := rfl
@[simp] theorem State.modSlot_comets : (s.modSlot n f).comets = s.comets := rfl
@[simp] theorem State.modSlot_alm : (s.modSlot n f).alm = s.alm := rfl
@[simp] theorem State.modSlot_regwin : (s.modSlot n f).regwin = s.regwin := rfl
@[simp] theorem State.modSlot_ports : (s.modSlot n f).ports = s.ports := rfl
@[simp] theorem State.modSlot_lds : (s.modSlot n f).lds = s.lds := rfl
@[simp] theorem State.modSlot_ccis : (s.modSlot n f).ccis = s.ccis := rfl
@[simp] theorem State.modSlot_chans : (s.modSlot n f).chans = s.chans := rfl
@[simp] theorem State.modSlot_cap : (s.modSlot n f).cap = s.cap := rfl
@[simp] theorem State.modSlot_mdata : (s.modSlot n f).mdata = s.mdata := rfl
@[simp] theorem State.modSlot_allocs : (s.modSlot n f).allocs = s.allocs := rfl
@[simp] theorem State.modSlot_waiters : (s.modSlot n f).waiters = s.waiters := rfl
@[simp] theorem State.modSlot_dram : (s.modSlot n f).dram = s.dram := rfl
@[simp] theorem State.modSlot_quads : (s.modSlot n f).quads = s.quads := rfl
@[simp] theorem State.modSlot_clusters : (s.modSlot n f).clusters = s.clusters := rfl
@[simp] theorem State.modSlot_sketch : (s.modSlot n f).sketch = s.sketch := rfl
@[simp] theorem State.modSlot_keys : (s.modSlot n f).keys = s.keys := rfl
@[simp] theorem State.modSlot_path : (s.modSlot n f).path = s.path := rfl
@[simp] theorem State.modSlot_gather : (s.modSlot n f).gather = s.gather := rfl
@[simp] theorem State.modSlot_qos : (s.modSlot n f).qos = s.qos := rfl
@[simp] theorem State.modSlot_integ : (s.modSlot n f).integ = s.integ := rfl
@[simp] theorem State.modSlot_ulis : (s.modSlot n f).ulis = s.ulis := rfl
@[simp] theorem State.modSlot_const : (s.modSlot n f).const = s.const := rfl
@[simp] theorem State.modSlot_img : (s.modSlot n f).img = s.img := rfl
@[simp] theorem State.modSlot_ril : (s.modSlot n f).ril = s.ril := rfl
@[simp] theorem State.modSlot_threads : (s.modSlot n f).threads = s.threads := rfl
@[simp] theorem State.modSlot_queues : (s.modSlot n f).queues = s.queues := rfl
@[simp] theorem State.modSlot_out : (s.modSlot n f).out = s.out := rfl
@[simp] theorem State.modSlot_free : (s.modSlot n f).free = s.free := rfl
@[simp] theorem State.modSlot_draws : (s.modSlot n f).draws = s.draws := rfl
@[simp] theorem State.modSlot_pending : (s.modSlot n f).pending = s.pending := rfl
@[simp] theorem State.modSlot_at_sensor (m : Nat) : (s.modSlot n f).sensor m = s.sensor m := rfl
@[simp] theorem State.modSlot_at_port (m : Nat) : (s.modSlot n f).port m = s.port m := rfl
@[simp] theorem State.modSlot_at_ld (m : Nat) : (s.modSlot n f).ld m = s.ld m := rfl
@[simp] theorem State.modSlot_at_cci (m : Nat) : (s.modSlot n f).cci m = s.cci m := rfl
@[simp] theorem State.modSlot_at_chan (m : Nat) : (s.modSlot n f).chan m = s.chan m := rfl
@[simp] theorem State.modSlot_at_thread (m : Nat) : (s.modSlot n f).thread m = s.thread m := rfl
@[simp] theorem State.modSlot_at_queue (m : Nat) : (s.modSlot n f).queue m = s.queue m := rfl
@[simp] theorem State.modSlot_at_ctr (m : Nat) : (s.modSlot n f).ctr m = s.ctr m := rfl
@[simp] theorem State.modSlot_at_cometQuad (m : Nat) : (s.modSlot n f).cometQuad m = s.cometQuad m := rfl
@[simp] theorem State.modSlot_at_dom (m : Nat) : (s.modSlot n f).dom m = s.dom m := rfl
@[simp] theorem State.modSlot_at_uli (m : Nat) : (s.modSlot n f).uli m = s.uli m := rfl
@[simp] theorem State.modSlot_at_member (m : Nat) : (s.modSlot n f).member m = s.member m := rfl
@[simp] theorem State.modSlot_at_alloc (m : Nat) : (s.modSlot n f).alloc m = s.alloc m := rfl
@[simp] theorem State.modSlot_at_quad (m : Nat) : (s.modSlot n f).quad m = s.quad m := rfl
@[simp] theorem State.modSlot_at_cluster (m : Nat) : (s.modSlot n f).cluster m = s.cluster m := rfl
@[simp] theorem State.modSlot_at_extent (m : Nat) : (s.modSlot n f).extent m = s.extent m := rfl
@[simp] theorem State.modSlot_at_keySlot (m : Nat) : (s.modSlot n f).keySlot m = s.keySlot m := rfl
@[simp] theorem State.modSlot_at_remote (m : Nat) : (s.modSlot n f).remote m = s.remote m := rfl

theorem State.modSlot_at (m : Nat) : (s.modSlot n f).slot m = if m = n then f (s.slot n) else s.slot m := by
  simp [State.modSlot, State.slot, Tab.get_set]
@[simp] theorem State.modSlot_self : (s.modSlot n f).slot n = f (s.slot n) := by simp [State.modSlot_at]
theorem State.modSlot_other (m : Nat) (h : m ≠ n) : (s.modSlot n f).slot m = s.slot m := by simp [State.modSlot_at, h]

end

/-! ### modSensor -/

section
variable (s : State) (n : Nat) (f : Sensor → Sensor)

@[simp] theorem State.modSensor_ident : (s.modSensor n f).ident = s.ident := rfl
@[simp] theorem State.modSensor_time : (s.modSensor n f).time = s.time := rfl
@[simp] theorem State.modSensor_power : (s.modSensor n f).power = s.power := rfl
@[simp] theorem State.modSensor_start : (s.modSensor n f).start = s.start := rfl
@[simp] theorem State.modSensor_slots : (s.modSensor n f).slots = s.slots := rfl
@[simp] theorem State.modSensor_slotMgr : (s.modSensor n f).slotMgr = s.slotMgr := rfl
@[simp] theorem State.modSensor_faults : (s.modSensor n f).faults = s.faults := rfl
@[simp] theorem State.modSensor_rec_ : (s.modSensor n f).rec_ = s.rec_ := rfl
@[simp] theorem State.modSensor_ctrs : (s.modSensor n f).ctrs = s.ctrs := rfl
@[simp] theorem State.modSensor_comets : (s.modSensor n f).comets = s.comets := rfl
@[simp] theorem State.modSensor_alm : (s.modSensor n f).alm = s.alm := rfl
@[simp] theorem State.modSensor_regwin : (s.modSensor n f).regwin = s.regwin := rfl
@[simp] theorem State.modSensor_ports : (s.modSensor n f).ports = s.ports := rfl
@[simp] theorem State.modSensor_lds : (s.modSensor n f).lds = s.lds := rfl
@[simp] theorem State.modSensor_ccis : (s.modSensor n f).ccis = s.ccis := rfl
@[simp] theorem State.modSensor_chans : (s.modSensor n f).chans = s.chans := rfl
@[simp] theorem State.modSensor_cap : (s.modSensor n f).cap = s.cap := rfl
@[simp] theorem State.modSensor_mdata : (s.modSensor n f).mdata = s.mdata := rfl
@[simp] theorem State.modSensor_allocs : (s.modSensor n f).allocs = s.allocs := rfl
@[simp] theorem State.modSensor_waiters : (s.modSensor n f).waiters = s.waiters := rfl
@[simp] theorem State.modSensor_dram : (s.modSensor n f).dram = s.dram := rfl
@[simp] theorem State.modSensor_quads : (s.modSensor n f).quads = s.quads := rfl
@[simp] theorem State.modSensor_clusters : (s.modSensor n f).clusters = s.clusters := rfl
@[simp] theorem State.modSensor_sketch : (s.modSensor n f).sketch = s.sketch := rfl
@[simp] theorem State.modSensor_keys : (s.modSensor n f).keys = s.keys := rfl
@[simp] theorem State.modSensor_path : (s.modSensor n f).path = s.path := rfl
@[simp] theorem State.modSensor_gather : (s.modSensor n f).gather = s.gather := rfl
@[simp] theorem State.modSensor_qos : (s.modSensor n f).qos = s.qos := rfl
@[simp] theorem State.modSensor_integ : (s.modSensor n f).integ = s.integ := rfl
@[simp] theorem State.modSensor_ulis : (s.modSensor n f).ulis = s.ulis := rfl
@[simp] theorem State.modSensor_const : (s.modSensor n f).const = s.const := rfl
@[simp] theorem State.modSensor_img : (s.modSensor n f).img = s.img := rfl
@[simp] theorem State.modSensor_ril : (s.modSensor n f).ril = s.ril := rfl
@[simp] theorem State.modSensor_threads : (s.modSensor n f).threads = s.threads := rfl
@[simp] theorem State.modSensor_queues : (s.modSensor n f).queues = s.queues := rfl
@[simp] theorem State.modSensor_out : (s.modSensor n f).out = s.out := rfl
@[simp] theorem State.modSensor_free : (s.modSensor n f).free = s.free := rfl
@[simp] theorem State.modSensor_draws : (s.modSensor n f).draws = s.draws := rfl
@[simp] theorem State.modSensor_pending : (s.modSensor n f).pending = s.pending := rfl
@[simp] theorem State.modSensor_at_slot (m : Nat) : (s.modSensor n f).slot m = s.slot m := rfl
@[simp] theorem State.modSensor_at_port (m : Nat) : (s.modSensor n f).port m = s.port m := rfl
@[simp] theorem State.modSensor_at_ld (m : Nat) : (s.modSensor n f).ld m = s.ld m := rfl
@[simp] theorem State.modSensor_at_cci (m : Nat) : (s.modSensor n f).cci m = s.cci m := rfl
@[simp] theorem State.modSensor_at_chan (m : Nat) : (s.modSensor n f).chan m = s.chan m := rfl
@[simp] theorem State.modSensor_at_thread (m : Nat) : (s.modSensor n f).thread m = s.thread m := rfl
@[simp] theorem State.modSensor_at_queue (m : Nat) : (s.modSensor n f).queue m = s.queue m := rfl
@[simp] theorem State.modSensor_at_ctr (m : Nat) : (s.modSensor n f).ctr m = s.ctr m := rfl
@[simp] theorem State.modSensor_at_cometQuad (m : Nat) : (s.modSensor n f).cometQuad m = s.cometQuad m := rfl
@[simp] theorem State.modSensor_at_dom (m : Nat) : (s.modSensor n f).dom m = s.dom m := rfl
@[simp] theorem State.modSensor_at_uli (m : Nat) : (s.modSensor n f).uli m = s.uli m := rfl
@[simp] theorem State.modSensor_at_member (m : Nat) : (s.modSensor n f).member m = s.member m := rfl
@[simp] theorem State.modSensor_at_alloc (m : Nat) : (s.modSensor n f).alloc m = s.alloc m := rfl
@[simp] theorem State.modSensor_at_quad (m : Nat) : (s.modSensor n f).quad m = s.quad m := rfl
@[simp] theorem State.modSensor_at_cluster (m : Nat) : (s.modSensor n f).cluster m = s.cluster m := rfl
@[simp] theorem State.modSensor_at_extent (m : Nat) : (s.modSensor n f).extent m = s.extent m := rfl
@[simp] theorem State.modSensor_at_keySlot (m : Nat) : (s.modSensor n f).keySlot m = s.keySlot m := rfl
@[simp] theorem State.modSensor_at_remote (m : Nat) : (s.modSensor n f).remote m = s.remote m := rfl

theorem State.modSensor_at (m : Nat) : (s.modSensor n f).sensor m = if m = n then f (s.sensor n) else s.sensor m := by
  simp [State.modSensor, State.sensor, Tab.get_set]
@[simp] theorem State.modSensor_self : (s.modSensor n f).sensor n = f (s.sensor n) := by simp [State.modSensor_at]
theorem State.modSensor_other (m : Nat) (h : m ≠ n) : (s.modSensor n f).sensor m = s.sensor m := by simp [State.modSensor_at, h]

end

/-! ### modPort -/

section
variable (s : State) (n : Nat) (f : Port → Port)

@[simp] theorem State.modPort_ident : (s.modPort n f).ident = s.ident := rfl
@[simp] theorem State.modPort_time : (s.modPort n f).time = s.time := rfl
@[simp] theorem State.modPort_power : (s.modPort n f).power = s.power := rfl
@[simp] theorem State.modPort_start : (s.modPort n f).start = s.start := rfl
@[simp] theorem State.modPort_slots : (s.modPort n f).slots = s.slots := rfl
@[simp] theorem State.modPort_slotMgr : (s.modPort n f).slotMgr = s.slotMgr := rfl
@[simp] theorem State.modPort_sensors : (s.modPort n f).sensors = s.sensors := rfl
@[simp] theorem State.modPort_faults : (s.modPort n f).faults = s.faults := rfl
@[simp] theorem State.modPort_rec_ : (s.modPort n f).rec_ = s.rec_ := rfl
@[simp] theorem State.modPort_ctrs : (s.modPort n f).ctrs = s.ctrs := rfl
@[simp] theorem State.modPort_comets : (s.modPort n f).comets = s.comets := rfl
@[simp] theorem State.modPort_alm : (s.modPort n f).alm = s.alm := rfl
@[simp] theorem State.modPort_regwin : (s.modPort n f).regwin = s.regwin := rfl
@[simp] theorem State.modPort_lds : (s.modPort n f).lds = s.lds := rfl
@[simp] theorem State.modPort_ccis : (s.modPort n f).ccis = s.ccis := rfl
@[simp] theorem State.modPort_chans : (s.modPort n f).chans = s.chans := rfl
@[simp] theorem State.modPort_cap : (s.modPort n f).cap = s.cap := rfl
@[simp] theorem State.modPort_mdata : (s.modPort n f).mdata = s.mdata := rfl
@[simp] theorem State.modPort_allocs : (s.modPort n f).allocs = s.allocs := rfl
@[simp] theorem State.modPort_waiters : (s.modPort n f).waiters = s.waiters := rfl
@[simp] theorem State.modPort_dram : (s.modPort n f).dram = s.dram := rfl
@[simp] theorem State.modPort_quads : (s.modPort n f).quads = s.quads := rfl
@[simp] theorem State.modPort_clusters : (s.modPort n f).clusters = s.clusters := rfl
@[simp] theorem State.modPort_sketch : (s.modPort n f).sketch = s.sketch := rfl
@[simp] theorem State.modPort_keys : (s.modPort n f).keys = s.keys := rfl
@[simp] theorem State.modPort_path : (s.modPort n f).path = s.path := rfl
@[simp] theorem State.modPort_gather : (s.modPort n f).gather = s.gather := rfl
@[simp] theorem State.modPort_qos : (s.modPort n f).qos = s.qos := rfl
@[simp] theorem State.modPort_integ : (s.modPort n f).integ = s.integ := rfl
@[simp] theorem State.modPort_ulis : (s.modPort n f).ulis = s.ulis := rfl
@[simp] theorem State.modPort_const : (s.modPort n f).const = s.const := rfl
@[simp] theorem State.modPort_img : (s.modPort n f).img = s.img := rfl
@[simp] theorem State.modPort_ril : (s.modPort n f).ril = s.ril := rfl
@[simp] theorem State.modPort_threads : (s.modPort n f).threads = s.threads := rfl
@[simp] theorem State.modPort_queues : (s.modPort n f).queues = s.queues := rfl
@[simp] theorem State.modPort_out : (s.modPort n f).out = s.out := rfl
@[simp] theorem State.modPort_free : (s.modPort n f).free = s.free := rfl
@[simp] theorem State.modPort_draws : (s.modPort n f).draws = s.draws := rfl
@[simp] theorem State.modPort_pending : (s.modPort n f).pending = s.pending := rfl
@[simp] theorem State.modPort_at_slot (m : Nat) : (s.modPort n f).slot m = s.slot m := rfl
@[simp] theorem State.modPort_at_sensor (m : Nat) : (s.modPort n f).sensor m = s.sensor m := rfl
@[simp] theorem State.modPort_at_ld (m : Nat) : (s.modPort n f).ld m = s.ld m := rfl
@[simp] theorem State.modPort_at_cci (m : Nat) : (s.modPort n f).cci m = s.cci m := rfl
@[simp] theorem State.modPort_at_chan (m : Nat) : (s.modPort n f).chan m = s.chan m := rfl
@[simp] theorem State.modPort_at_thread (m : Nat) : (s.modPort n f).thread m = s.thread m := rfl
@[simp] theorem State.modPort_at_queue (m : Nat) : (s.modPort n f).queue m = s.queue m := rfl
@[simp] theorem State.modPort_at_ctr (m : Nat) : (s.modPort n f).ctr m = s.ctr m := rfl
@[simp] theorem State.modPort_at_cometQuad (m : Nat) : (s.modPort n f).cometQuad m = s.cometQuad m := rfl
@[simp] theorem State.modPort_at_dom (m : Nat) : (s.modPort n f).dom m = s.dom m := rfl
@[simp] theorem State.modPort_at_uli (m : Nat) : (s.modPort n f).uli m = s.uli m := rfl
@[simp] theorem State.modPort_at_member (m : Nat) : (s.modPort n f).member m = s.member m := rfl
@[simp] theorem State.modPort_at_alloc (m : Nat) : (s.modPort n f).alloc m = s.alloc m := rfl
@[simp] theorem State.modPort_at_quad (m : Nat) : (s.modPort n f).quad m = s.quad m := rfl
@[simp] theorem State.modPort_at_cluster (m : Nat) : (s.modPort n f).cluster m = s.cluster m := rfl
@[simp] theorem State.modPort_at_extent (m : Nat) : (s.modPort n f).extent m = s.extent m := rfl
@[simp] theorem State.modPort_at_keySlot (m : Nat) : (s.modPort n f).keySlot m = s.keySlot m := rfl
@[simp] theorem State.modPort_at_remote (m : Nat) : (s.modPort n f).remote m = s.remote m := rfl

theorem State.modPort_at (m : Nat) : (s.modPort n f).port m = if m = n then f (s.port n) else s.port m := by
  simp [State.modPort, State.port, Tab.get_set]
@[simp] theorem State.modPort_self : (s.modPort n f).port n = f (s.port n) := by simp [State.modPort_at]
theorem State.modPort_other (m : Nat) (h : m ≠ n) : (s.modPort n f).port m = s.port m := by simp [State.modPort_at, h]

end

/-! ### modLd -/

section
variable (s : State) (n : Nat) (f : Ld → Ld)

@[simp] theorem State.modLd_ident : (s.modLd n f).ident = s.ident := rfl
@[simp] theorem State.modLd_time : (s.modLd n f).time = s.time := rfl
@[simp] theorem State.modLd_power : (s.modLd n f).power = s.power := rfl
@[simp] theorem State.modLd_start : (s.modLd n f).start = s.start := rfl
@[simp] theorem State.modLd_slots : (s.modLd n f).slots = s.slots := rfl
@[simp] theorem State.modLd_slotMgr : (s.modLd n f).slotMgr = s.slotMgr := rfl
@[simp] theorem State.modLd_sensors : (s.modLd n f).sensors = s.sensors := rfl
@[simp] theorem State.modLd_faults : (s.modLd n f).faults = s.faults := rfl
@[simp] theorem State.modLd_rec_ : (s.modLd n f).rec_ = s.rec_ := rfl
@[simp] theorem State.modLd_ctrs : (s.modLd n f).ctrs = s.ctrs := rfl
@[simp] theorem State.modLd_comets : (s.modLd n f).comets = s.comets := rfl
@[simp] theorem State.modLd_alm : (s.modLd n f).alm = s.alm := rfl
@[simp] theorem State.modLd_regwin : (s.modLd n f).regwin = s.regwin := rfl
@[simp] theorem State.modLd_ports : (s.modLd n f).ports = s.ports := rfl
@[simp] theorem State.modLd_ccis : (s.modLd n f).ccis = s.ccis := rfl
@[simp] theorem State.modLd_chans : (s.modLd n f).chans = s.chans := rfl
@[simp] theorem State.modLd_cap : (s.modLd n f).cap = s.cap := rfl
@[simp] theorem State.modLd_mdata : (s.modLd n f).mdata = s.mdata := rfl
@[simp] theorem State.modLd_allocs : (s.modLd n f).allocs = s.allocs := rfl
@[simp] theorem State.modLd_waiters : (s.modLd n f).waiters = s.waiters := rfl
@[simp] theorem State.modLd_dram : (s.modLd n f).dram = s.dram := rfl
@[simp] theorem State.modLd_quads : (s.modLd n f).quads = s.quads := rfl
@[simp] theorem State.modLd_clusters : (s.modLd n f).clusters = s.clusters := rfl
@[simp] theorem State.modLd_sketch : (s.modLd n f).sketch = s.sketch := rfl
@[simp] theorem State.modLd_keys : (s.modLd n f).keys = s.keys := rfl
@[simp] theorem State.modLd_path : (s.modLd n f).path = s.path := rfl
@[simp] theorem State.modLd_gather : (s.modLd n f).gather = s.gather := rfl
@[simp] theorem State.modLd_qos : (s.modLd n f).qos = s.qos := rfl
@[simp] theorem State.modLd_integ : (s.modLd n f).integ = s.integ := rfl
@[simp] theorem State.modLd_ulis : (s.modLd n f).ulis = s.ulis := rfl
@[simp] theorem State.modLd_const : (s.modLd n f).const = s.const := rfl
@[simp] theorem State.modLd_img : (s.modLd n f).img = s.img := rfl
@[simp] theorem State.modLd_ril : (s.modLd n f).ril = s.ril := rfl
@[simp] theorem State.modLd_threads : (s.modLd n f).threads = s.threads := rfl
@[simp] theorem State.modLd_queues : (s.modLd n f).queues = s.queues := rfl
@[simp] theorem State.modLd_out : (s.modLd n f).out = s.out := rfl
@[simp] theorem State.modLd_free : (s.modLd n f).free = s.free := rfl
@[simp] theorem State.modLd_draws : (s.modLd n f).draws = s.draws := rfl
@[simp] theorem State.modLd_pending : (s.modLd n f).pending = s.pending := rfl
@[simp] theorem State.modLd_at_slot (m : Nat) : (s.modLd n f).slot m = s.slot m := rfl
@[simp] theorem State.modLd_at_sensor (m : Nat) : (s.modLd n f).sensor m = s.sensor m := rfl
@[simp] theorem State.modLd_at_port (m : Nat) : (s.modLd n f).port m = s.port m := rfl
@[simp] theorem State.modLd_at_cci (m : Nat) : (s.modLd n f).cci m = s.cci m := rfl
@[simp] theorem State.modLd_at_chan (m : Nat) : (s.modLd n f).chan m = s.chan m := rfl
@[simp] theorem State.modLd_at_thread (m : Nat) : (s.modLd n f).thread m = s.thread m := rfl
@[simp] theorem State.modLd_at_queue (m : Nat) : (s.modLd n f).queue m = s.queue m := rfl
@[simp] theorem State.modLd_at_ctr (m : Nat) : (s.modLd n f).ctr m = s.ctr m := rfl
@[simp] theorem State.modLd_at_cometQuad (m : Nat) : (s.modLd n f).cometQuad m = s.cometQuad m := rfl
@[simp] theorem State.modLd_at_dom (m : Nat) : (s.modLd n f).dom m = s.dom m := rfl
@[simp] theorem State.modLd_at_uli (m : Nat) : (s.modLd n f).uli m = s.uli m := rfl
@[simp] theorem State.modLd_at_member (m : Nat) : (s.modLd n f).member m = s.member m := rfl
@[simp] theorem State.modLd_at_alloc (m : Nat) : (s.modLd n f).alloc m = s.alloc m := rfl
@[simp] theorem State.modLd_at_quad (m : Nat) : (s.modLd n f).quad m = s.quad m := rfl
@[simp] theorem State.modLd_at_cluster (m : Nat) : (s.modLd n f).cluster m = s.cluster m := rfl
@[simp] theorem State.modLd_at_extent (m : Nat) : (s.modLd n f).extent m = s.extent m := rfl
@[simp] theorem State.modLd_at_keySlot (m : Nat) : (s.modLd n f).keySlot m = s.keySlot m := rfl
@[simp] theorem State.modLd_at_remote (m : Nat) : (s.modLd n f).remote m = s.remote m := rfl

theorem State.modLd_at (m : Nat) : (s.modLd n f).ld m = if m = n then f (s.ld n) else s.ld m := by
  simp [State.modLd, State.ld, Tab.get_set]
@[simp] theorem State.modLd_self : (s.modLd n f).ld n = f (s.ld n) := by simp [State.modLd_at]
theorem State.modLd_other (m : Nat) (h : m ≠ n) : (s.modLd n f).ld m = s.ld m := by simp [State.modLd_at, h]

end

/-! ### modCci -/

section
variable (s : State) (n : Nat) (f : CciState → CciState)

@[simp] theorem State.modCci_ident : (s.modCci n f).ident = s.ident := rfl
@[simp] theorem State.modCci_time : (s.modCci n f).time = s.time := rfl
@[simp] theorem State.modCci_power : (s.modCci n f).power = s.power := rfl
@[simp] theorem State.modCci_start : (s.modCci n f).start = s.start := rfl
@[simp] theorem State.modCci_slots : (s.modCci n f).slots = s.slots := rfl
@[simp] theorem State.modCci_slotMgr : (s.modCci n f).slotMgr = s.slotMgr := rfl
@[simp] theorem State.modCci_sensors : (s.modCci n f).sensors = s.sensors := rfl
@[simp] theorem State.modCci_faults : (s.modCci n f).faults = s.faults := rfl
@[simp] theorem State.modCci_rec_ : (s.modCci n f).rec_ = s.rec_ := rfl
@[simp] theorem State.modCci_ctrs : (s.modCci n f).ctrs = s.ctrs := rfl
@[simp] theorem State.modCci_comets : (s.modCci n f).comets = s.comets := rfl
@[simp] theorem State.modCci_alm : (s.modCci n f).alm = s.alm := rfl
@[simp] theorem State.modCci_regwin : (s.modCci n f).regwin = s.regwin := rfl
@[simp] theorem State.modCci_ports : (s.modCci n f).ports = s.ports := rfl
@[simp] theorem State.modCci_lds : (s.modCci n f).lds = s.lds := rfl
@[simp] theorem State.modCci_chans : (s.modCci n f).chans = s.chans := rfl
@[simp] theorem State.modCci_cap : (s.modCci n f).cap = s.cap := rfl
@[simp] theorem State.modCci_mdata : (s.modCci n f).mdata = s.mdata := rfl
@[simp] theorem State.modCci_allocs : (s.modCci n f).allocs = s.allocs := rfl
@[simp] theorem State.modCci_waiters : (s.modCci n f).waiters = s.waiters := rfl
@[simp] theorem State.modCci_dram : (s.modCci n f).dram = s.dram := rfl
@[simp] theorem State.modCci_quads : (s.modCci n f).quads = s.quads := rfl
@[simp] theorem State.modCci_clusters : (s.modCci n f).clusters = s.clusters := rfl
@[simp] theorem State.modCci_sketch : (s.modCci n f).sketch = s.sketch := rfl
@[simp] theorem State.modCci_keys : (s.modCci n f).keys = s.keys := rfl
@[simp] theorem State.modCci_path : (s.modCci n f).path = s.path := rfl
@[simp] theorem State.modCci_gather : (s.modCci n f).gather = s.gather := rfl
@[simp] theorem State.modCci_qos : (s.modCci n f).qos = s.qos := rfl
@[simp] theorem State.modCci_integ : (s.modCci n f).integ = s.integ := rfl
@[simp] theorem State.modCci_ulis : (s.modCci n f).ulis = s.ulis := rfl
@[simp] theorem State.modCci_const : (s.modCci n f).const = s.const := rfl
@[simp] theorem State.modCci_img : (s.modCci n f).img = s.img := rfl
@[simp] theorem State.modCci_ril : (s.modCci n f).ril = s.ril := rfl
@[simp] theorem State.modCci_threads : (s.modCci n f).threads = s.threads := rfl
@[simp] theorem State.modCci_queues : (s.modCci n f).queues = s.queues := rfl
@[simp] theorem State.modCci_out : (s.modCci n f).out = s.out := rfl
@[simp] theorem State.modCci_free : (s.modCci n f).free = s.free := rfl
@[simp] theorem State.modCci_draws : (s.modCci n f).draws = s.draws := rfl
@[simp] theorem State.modCci_pending : (s.modCci n f).pending = s.pending := rfl
@[simp] theorem State.modCci_at_slot (m : Nat) : (s.modCci n f).slot m = s.slot m := rfl
@[simp] theorem State.modCci_at_sensor (m : Nat) : (s.modCci n f).sensor m = s.sensor m := rfl
@[simp] theorem State.modCci_at_port (m : Nat) : (s.modCci n f).port m = s.port m := rfl
@[simp] theorem State.modCci_at_ld (m : Nat) : (s.modCci n f).ld m = s.ld m := rfl
@[simp] theorem State.modCci_at_chan (m : Nat) : (s.modCci n f).chan m = s.chan m := rfl
@[simp] theorem State.modCci_at_thread (m : Nat) : (s.modCci n f).thread m = s.thread m := rfl
@[simp] theorem State.modCci_at_queue (m : Nat) : (s.modCci n f).queue m = s.queue m := rfl
@[simp] theorem State.modCci_at_ctr (m : Nat) : (s.modCci n f).ctr m = s.ctr m := rfl
@[simp] theorem State.modCci_at_cometQuad (m : Nat) : (s.modCci n f).cometQuad m = s.cometQuad m := rfl
@[simp] theorem State.modCci_at_dom (m : Nat) : (s.modCci n f).dom m = s.dom m := rfl
@[simp] theorem State.modCci_at_uli (m : Nat) : (s.modCci n f).uli m = s.uli m := rfl
@[simp] theorem State.modCci_at_member (m : Nat) : (s.modCci n f).member m = s.member m := rfl
@[simp] theorem State.modCci_at_alloc (m : Nat) : (s.modCci n f).alloc m = s.alloc m := rfl
@[simp] theorem State.modCci_at_quad (m : Nat) : (s.modCci n f).quad m = s.quad m := rfl
@[simp] theorem State.modCci_at_cluster (m : Nat) : (s.modCci n f).cluster m = s.cluster m := rfl
@[simp] theorem State.modCci_at_extent (m : Nat) : (s.modCci n f).extent m = s.extent m := rfl
@[simp] theorem State.modCci_at_keySlot (m : Nat) : (s.modCci n f).keySlot m = s.keySlot m := rfl
@[simp] theorem State.modCci_at_remote (m : Nat) : (s.modCci n f).remote m = s.remote m := rfl

theorem State.modCci_at (m : Nat) : (s.modCci n f).cci m = if m = n then f (s.cci n) else s.cci m := by
  simp [State.modCci, State.cci, Tab.get_set]
@[simp] theorem State.modCci_self : (s.modCci n f).cci n = f (s.cci n) := by simp [State.modCci_at]
theorem State.modCci_other (m : Nat) (h : m ≠ n) : (s.modCci n f).cci m = s.cci m := by simp [State.modCci_at, h]

end

/-! ### modChan -/

section
variable (s : State) (n : Nat) (f : Chan → Chan)

@[simp] theorem State.modChan_ident : (s.modChan n f).ident = s.ident := rfl
@[simp] theorem State.modChan_time : (s.modChan n f).time = s.time := rfl
@[simp] theorem State.modChan_power : (s.modChan n f).power = s.power := rfl
@[simp] theorem State.modChan_start : (s.modChan n f).start = s.start := rfl
@[simp] theorem State.modChan_slots : (s.modChan n f).slots = s.slots := rfl
@[simp] theorem State.modChan_slotMgr : (s.modChan n f).slotMgr = s.slotMgr := rfl
@[simp] theorem State.modChan_sensors : (s.modChan n f).sensors = s.sensors := rfl
@[simp] theorem State.modChan_faults : (s.modChan n f).faults = s.faults := rfl
@[simp] theorem State.modChan_rec_ : (s.modChan n f).rec_ = s.rec_ := rfl
@[simp] theorem State.modChan_ctrs : (s.modChan n f).ctrs = s.ctrs := rfl
@[simp] theorem State.modChan_comets : (s.modChan n f).comets = s.comets := rfl
@[simp] theorem State.modChan_alm : (s.modChan n f).alm = s.alm := rfl
@[simp] theorem State.modChan_regwin : (s.modChan n f).regwin = s.regwin := rfl
@[simp] theorem State.modChan_ports : (s.modChan n f).ports = s.ports := rfl
@[simp] theorem State.modChan_lds : (s.modChan n f).lds = s.lds := rfl
@[simp] theorem State.modChan_ccis : (s.modChan n f).ccis = s.ccis := rfl
@[simp] theorem State.modChan_cap : (s.modChan n f).cap = s.cap := rfl
@[simp] theorem State.modChan_mdata : (s.modChan n f).mdata = s.mdata := rfl
@[simp] theorem State.modChan_allocs : (s.modChan n f).allocs = s.allocs := rfl
@[simp] theorem State.modChan_waiters : (s.modChan n f).waiters = s.waiters := rfl
@[simp] theorem State.modChan_dram : (s.modChan n f).dram = s.dram := rfl
@[simp] theorem State.modChan_quads : (s.modChan n f).quads = s.quads := rfl
@[simp] theorem State.modChan_clusters : (s.modChan n f).clusters = s.clusters := rfl
@[simp] theorem State.modChan_sketch : (s.modChan n f).sketch = s.sketch := rfl
@[simp] theorem State.modChan_keys : (s.modChan n f).keys = s.keys := rfl
@[simp] theorem State.modChan_path : (s.modChan n f).path = s.path := rfl
@[simp] theorem State.modChan_gather : (s.modChan n f).gather = s.gather := rfl
@[simp] theorem State.modChan_qos : (s.modChan n f).qos = s.qos := rfl
@[simp] theorem State.modChan_integ : (s.modChan n f).integ = s.integ := rfl
@[simp] theorem State.modChan_ulis : (s.modChan n f).ulis = s.ulis := rfl
@[simp] theorem State.modChan_const : (s.modChan n f).const = s.const := rfl
@[simp] theorem State.modChan_img : (s.modChan n f).img = s.img := rfl
@[simp] theorem State.modChan_ril : (s.modChan n f).ril = s.ril := rfl
@[simp] theorem State.modChan_threads : (s.modChan n f).threads = s.threads := rfl
@[simp] theorem State.modChan_queues : (s.modChan n f).queues = s.queues := rfl
@[simp] theorem State.modChan_out : (s.modChan n f).out = s.out := rfl
@[simp] theorem State.modChan_free : (s.modChan n f).free = s.free := rfl
@[simp] theorem State.modChan_draws : (s.modChan n f).draws = s.draws := rfl
@[simp] theorem State.modChan_pending : (s.modChan n f).pending = s.pending := rfl
@[simp] theorem State.modChan_at_slot (m : Nat) : (s.modChan n f).slot m = s.slot m := rfl
@[simp] theorem State.modChan_at_sensor (m : Nat) : (s.modChan n f).sensor m = s.sensor m := rfl
@[simp] theorem State.modChan_at_port (m : Nat) : (s.modChan n f).port m = s.port m := rfl
@[simp] theorem State.modChan_at_ld (m : Nat) : (s.modChan n f).ld m = s.ld m := rfl
@[simp] theorem State.modChan_at_cci (m : Nat) : (s.modChan n f).cci m = s.cci m := rfl
@[simp] theorem State.modChan_at_thread (m : Nat) : (s.modChan n f).thread m = s.thread m := rfl
@[simp] theorem State.modChan_at_queue (m : Nat) : (s.modChan n f).queue m = s.queue m := rfl
@[simp] theorem State.modChan_at_ctr (m : Nat) : (s.modChan n f).ctr m = s.ctr m := rfl
@[simp] theorem State.modChan_at_cometQuad (m : Nat) : (s.modChan n f).cometQuad m = s.cometQuad m := rfl
@[simp] theorem State.modChan_at_dom (m : Nat) : (s.modChan n f).dom m = s.dom m := rfl
@[simp] theorem State.modChan_at_uli (m : Nat) : (s.modChan n f).uli m = s.uli m := rfl
@[simp] theorem State.modChan_at_member (m : Nat) : (s.modChan n f).member m = s.member m := rfl
@[simp] theorem State.modChan_at_alloc (m : Nat) : (s.modChan n f).alloc m = s.alloc m := rfl
@[simp] theorem State.modChan_at_quad (m : Nat) : (s.modChan n f).quad m = s.quad m := rfl
@[simp] theorem State.modChan_at_cluster (m : Nat) : (s.modChan n f).cluster m = s.cluster m := rfl
@[simp] theorem State.modChan_at_extent (m : Nat) : (s.modChan n f).extent m = s.extent m := rfl
@[simp] theorem State.modChan_at_keySlot (m : Nat) : (s.modChan n f).keySlot m = s.keySlot m := rfl
@[simp] theorem State.modChan_at_remote (m : Nat) : (s.modChan n f).remote m = s.remote m := rfl

theorem State.modChan_at (m : Nat) : (s.modChan n f).chan m = if m = n then f (s.chan n) else s.chan m := by
  simp [State.modChan, State.chan, Tab.get_set]
@[simp] theorem State.modChan_self : (s.modChan n f).chan n = f (s.chan n) := by simp [State.modChan_at]
theorem State.modChan_other (m : Nat) (h : m ≠ n) : (s.modChan n f).chan m = s.chan m := by simp [State.modChan_at, h]

end

/-! ### modThread -/

section
variable (s : State) (n : Nat) (f : Thread → Thread)

@[simp] theorem State.modThread_ident : (s.modThread n f).ident = s.ident := rfl
@[simp] theorem State.modThread_time : (s.modThread n f).time = s.time := rfl
@[simp] theorem State.modThread_power : (s.modThread n f).power = s.power := rfl
@[simp] theorem State.modThread_start : (s.modThread n f).start = s.start := rfl
@[simp] theorem State.modThread_slots : (s.modThread n f).slots = s.slots := rfl
@[simp] theorem State.modThread_slotMgr : (s.modThread n f).slotMgr = s.slotMgr := rfl
@[simp] theorem State.modThread_sensors : (s.modThread n f).sensors = s.sensors := rfl
@[simp] theorem State.modThread_faults : (s.modThread n f).faults = s.faults := rfl
@[simp] theorem State.modThread_rec_ : (s.modThread n f).rec_ = s.rec_ := rfl
@[simp] theorem State.modThread_ctrs : (s.modThread n f).ctrs = s.ctrs := rfl
@[simp] theorem State.modThread_comets : (s.modThread n f).comets = s.comets := rfl
@[simp] theorem State.modThread_alm : (s.modThread n f).alm = s.alm := rfl
@[simp] theorem State.modThread_regwin : (s.modThread n f).regwin = s.regwin := rfl
@[simp] theorem State.modThread_ports : (s.modThread n f).ports = s.ports := rfl
@[simp] theorem State.modThread_lds : (s.modThread n f).lds = s.lds := rfl
@[simp] theorem State.modThread_ccis : (s.modThread n f).ccis = s.ccis := rfl
@[simp] theorem State.modThread_chans : (s.modThread n f).chans = s.chans := rfl
@[simp] theorem State.modThread_cap : (s.modThread n f).cap = s.cap := rfl
@[simp] theorem State.modThread_mdata : (s.modThread n f).mdata = s.mdata := rfl
@[simp] theorem State.modThread_allocs : (s.modThread n f).allocs = s.allocs := rfl
@[simp] theorem State.modThread_waiters : (s.modThread n f).waiters = s.waiters := rfl
@[simp] theorem State.modThread_dram : (s.modThread n f).dram = s.dram := rfl
@[simp] theorem State.modThread_quads : (s.modThread n f).quads = s.quads := rfl
@[simp] theorem State.modThread_clusters : (s.modThread n f).clusters = s.clusters := rfl
@[simp] theorem State.modThread_sketch : (s.modThread n f).sketch = s.sketch := rfl
@[simp] theorem State.modThread_keys : (s.modThread n f).keys = s.keys := rfl
@[simp] theorem State.modThread_path : (s.modThread n f).path = s.path := rfl
@[simp] theorem State.modThread_gather : (s.modThread n f).gather = s.gather := rfl
@[simp] theorem State.modThread_qos : (s.modThread n f).qos = s.qos := rfl
@[simp] theorem State.modThread_integ : (s.modThread n f).integ = s.integ := rfl
@[simp] theorem State.modThread_ulis : (s.modThread n f).ulis = s.ulis := rfl
@[simp] theorem State.modThread_const : (s.modThread n f).const = s.const := rfl
@[simp] theorem State.modThread_img : (s.modThread n f).img = s.img := rfl
@[simp] theorem State.modThread_ril : (s.modThread n f).ril = s.ril := rfl
@[simp] theorem State.modThread_queues : (s.modThread n f).queues = s.queues := rfl
@[simp] theorem State.modThread_out : (s.modThread n f).out = s.out := rfl
@[simp] theorem State.modThread_free : (s.modThread n f).free = s.free := rfl
@[simp] theorem State.modThread_draws : (s.modThread n f).draws = s.draws := rfl
@[simp] theorem State.modThread_pending : (s.modThread n f).pending = s.pending := rfl
@[simp] theorem State.modThread_at_slot (m : Nat) : (s.modThread n f).slot m = s.slot m := rfl
@[simp] theorem State.modThread_at_sensor (m : Nat) : (s.modThread n f).sensor m = s.sensor m := rfl
@[simp] theorem State.modThread_at_port (m : Nat) : (s.modThread n f).port m = s.port m := rfl
@[simp] theorem State.modThread_at_ld (m : Nat) : (s.modThread n f).ld m = s.ld m := rfl
@[simp] theorem State.modThread_at_cci (m : Nat) : (s.modThread n f).cci m = s.cci m := rfl
@[simp] theorem State.modThread_at_chan (m : Nat) : (s.modThread n f).chan m = s.chan m := rfl
@[simp] theorem State.modThread_at_queue (m : Nat) : (s.modThread n f).queue m = s.queue m := rfl
@[simp] theorem State.modThread_at_ctr (m : Nat) : (s.modThread n f).ctr m = s.ctr m := rfl
@[simp] theorem State.modThread_at_cometQuad (m : Nat) : (s.modThread n f).cometQuad m = s.cometQuad m := rfl
@[simp] theorem State.modThread_at_dom (m : Nat) : (s.modThread n f).dom m = s.dom m := rfl
@[simp] theorem State.modThread_at_uli (m : Nat) : (s.modThread n f).uli m = s.uli m := rfl
@[simp] theorem State.modThread_at_member (m : Nat) : (s.modThread n f).member m = s.member m := rfl
@[simp] theorem State.modThread_at_alloc (m : Nat) : (s.modThread n f).alloc m = s.alloc m := rfl
@[simp] theorem State.modThread_at_quad (m : Nat) : (s.modThread n f).quad m = s.quad m := rfl
@[simp] theorem State.modThread_at_cluster (m : Nat) : (s.modThread n f).cluster m = s.cluster m := rfl
@[simp] theorem State.modThread_at_extent (m : Nat) : (s.modThread n f).extent m = s.extent m := rfl
@[simp] theorem State.modThread_at_keySlot (m : Nat) : (s.modThread n f).keySlot m = s.keySlot m := rfl
@[simp] theorem State.modThread_at_remote (m : Nat) : (s.modThread n f).remote m = s.remote m := rfl

theorem State.modThread_at (m : Nat) : (s.modThread n f).thread m = if m = n then f (s.thread n) else s.thread m := by
  simp [State.modThread, State.thread, Tab.get_set]
@[simp] theorem State.modThread_self : (s.modThread n f).thread n = f (s.thread n) := by simp [State.modThread_at]
theorem State.modThread_other (m : Nat) (h : m ≠ n) : (s.modThread n f).thread m = s.thread m := by simp [State.modThread_at, h]

end

/-! ### modQueue -/

section
variable (s : State) (n : Nat) (f : Queue → Queue)

@[simp] theorem State.modQueue_ident : (s.modQueue n f).ident = s.ident := rfl
@[simp] theorem State.modQueue_time : (s.modQueue n f).time = s.time := rfl
@[simp] theorem State.modQueue_power : (s.modQueue n f).power = s.power := rfl
@[simp] theorem State.modQueue_start : (s.modQueue n f).start = s.start := rfl
@[simp] theorem State.modQueue_slots : (s.modQueue n f).slots = s.slots := rfl
@[simp] theorem State.modQueue_slotMgr : (s.modQueue n f).slotMgr = s.slotMgr := rfl
@[simp] theorem State.modQueue_sensors : (s.modQueue n f).sensors = s.sensors := rfl
@[simp] theorem State.modQueue_faults : (s.modQueue n f).faults = s.faults := rfl
@[simp] theorem State.modQueue_rec_ : (s.modQueue n f).rec_ = s.rec_ := rfl
@[simp] theorem State.modQueue_ctrs : (s.modQueue n f).ctrs = s.ctrs := rfl
@[simp] theorem State.modQueue_comets : (s.modQueue n f).comets = s.comets := rfl
@[simp] theorem State.modQueue_alm : (s.modQueue n f).alm = s.alm := rfl
@[simp] theorem State.modQueue_regwin : (s.modQueue n f).regwin = s.regwin := rfl
@[simp] theorem State.modQueue_ports : (s.modQueue n f).ports = s.ports := rfl
@[simp] theorem State.modQueue_lds : (s.modQueue n f).lds = s.lds := rfl
@[simp] theorem State.modQueue_ccis : (s.modQueue n f).ccis = s.ccis := rfl
@[simp] theorem State.modQueue_chans : (s.modQueue n f).chans = s.chans := rfl
@[simp] theorem State.modQueue_cap : (s.modQueue n f).cap = s.cap := rfl
@[simp] theorem State.modQueue_mdata : (s.modQueue n f).mdata = s.mdata := rfl
@[simp] theorem State.modQueue_allocs : (s.modQueue n f).allocs = s.allocs := rfl
@[simp] theorem State.modQueue_waiters : (s.modQueue n f).waiters = s.waiters := rfl
@[simp] theorem State.modQueue_dram : (s.modQueue n f).dram = s.dram := rfl
@[simp] theorem State.modQueue_quads : (s.modQueue n f).quads = s.quads := rfl
@[simp] theorem State.modQueue_clusters : (s.modQueue n f).clusters = s.clusters := rfl
@[simp] theorem State.modQueue_sketch : (s.modQueue n f).sketch = s.sketch := rfl
@[simp] theorem State.modQueue_keys : (s.modQueue n f).keys = s.keys := rfl
@[simp] theorem State.modQueue_path : (s.modQueue n f).path = s.path := rfl
@[simp] theorem State.modQueue_gather : (s.modQueue n f).gather = s.gather := rfl
@[simp] theorem State.modQueue_qos : (s.modQueue n f).qos = s.qos := rfl
@[simp] theorem State.modQueue_integ : (s.modQueue n f).integ = s.integ := rfl
@[simp] theorem State.modQueue_ulis : (s.modQueue n f).ulis = s.ulis := rfl
@[simp] theorem State.modQueue_const : (s.modQueue n f).const = s.const := rfl
@[simp] theorem State.modQueue_img : (s.modQueue n f).img = s.img := rfl
@[simp] theorem State.modQueue_ril : (s.modQueue n f).ril = s.ril := rfl
@[simp] theorem State.modQueue_threads : (s.modQueue n f).threads = s.threads := rfl
@[simp] theorem State.modQueue_out : (s.modQueue n f).out = s.out := rfl
@[simp] theorem State.modQueue_free : (s.modQueue n f).free = s.free := rfl
@[simp] theorem State.modQueue_draws : (s.modQueue n f).draws = s.draws := rfl
@[simp] theorem State.modQueue_pending : (s.modQueue n f).pending = s.pending := rfl
@[simp] theorem State.modQueue_at_slot (m : Nat) : (s.modQueue n f).slot m = s.slot m := rfl
@[simp] theorem State.modQueue_at_sensor (m : Nat) : (s.modQueue n f).sensor m = s.sensor m := rfl
@[simp] theorem State.modQueue_at_port (m : Nat) : (s.modQueue n f).port m = s.port m := rfl
@[simp] theorem State.modQueue_at_ld (m : Nat) : (s.modQueue n f).ld m = s.ld m := rfl
@[simp] theorem State.modQueue_at_cci (m : Nat) : (s.modQueue n f).cci m = s.cci m := rfl
@[simp] theorem State.modQueue_at_chan (m : Nat) : (s.modQueue n f).chan m = s.chan m := rfl
@[simp] theorem State.modQueue_at_thread (m : Nat) : (s.modQueue n f).thread m = s.thread m := rfl
@[simp] theorem State.modQueue_at_ctr (m : Nat) : (s.modQueue n f).ctr m = s.ctr m := rfl
@[simp] theorem State.modQueue_at_cometQuad (m : Nat) : (s.modQueue n f).cometQuad m = s.cometQuad m := rfl
@[simp] theorem State.modQueue_at_dom (m : Nat) : (s.modQueue n f).dom m = s.dom m := rfl
@[simp] theorem State.modQueue_at_uli (m : Nat) : (s.modQueue n f).uli m = s.uli m := rfl
@[simp] theorem State.modQueue_at_member (m : Nat) : (s.modQueue n f).member m = s.member m := rfl
@[simp] theorem State.modQueue_at_alloc (m : Nat) : (s.modQueue n f).alloc m = s.alloc m := rfl
@[simp] theorem State.modQueue_at_quad (m : Nat) : (s.modQueue n f).quad m = s.quad m := rfl
@[simp] theorem State.modQueue_at_cluster (m : Nat) : (s.modQueue n f).cluster m = s.cluster m := rfl
@[simp] theorem State.modQueue_at_extent (m : Nat) : (s.modQueue n f).extent m = s.extent m := rfl
@[simp] theorem State.modQueue_at_keySlot (m : Nat) : (s.modQueue n f).keySlot m = s.keySlot m := rfl
@[simp] theorem State.modQueue_at_remote (m : Nat) : (s.modQueue n f).remote m = s.remote m := rfl

theorem State.modQueue_at (m : Nat) : (s.modQueue n f).queue m = if m = n then f (s.queue n) else s.queue m := by
  simp [State.modQueue, State.queue, Tab.get_set]
@[simp] theorem State.modQueue_self : (s.modQueue n f).queue n = f (s.queue n) := by simp [State.modQueue_at]
theorem State.modQueue_other (m : Nat) (h : m ≠ n) : (s.modQueue n f).queue m = s.queue m := by simp [State.modQueue_at, h]

end

/-! ### modCtr -/

section
variable (s : State) (n : Nat) (f : CtrBlock → CtrBlock)

@[simp] theorem State.modCtr_ident : (s.modCtr n f).ident = s.ident := rfl
@[simp] theorem State.modCtr_time : (s.modCtr n f).time = s.time := rfl
@[simp] theorem State.modCtr_power : (s.modCtr n f).power = s.power := rfl
@[simp] theorem State.modCtr_start : (s.modCtr n f).start = s.start := rfl
@[simp] theorem State.modCtr_slots : (s.modCtr n f).slots = s.slots := rfl
@[simp] theorem State.modCtr_slotMgr : (s.modCtr n f).slotMgr = s.slotMgr := rfl
@[simp] theorem State.modCtr_sensors : (s.modCtr n f).sensors = s.sensors := rfl
@[simp] theorem State.modCtr_faults : (s.modCtr n f).faults = s.faults := rfl
@[simp] theorem State.modCtr_rec_ : (s.modCtr n f).rec_ = s.rec_ := rfl
@[simp] theorem State.modCtr_comets : (s.modCtr n f).comets = s.comets := rfl
@[simp] theorem State.modCtr_alm : (s.modCtr n f).alm = s.alm := rfl
@[simp] theorem State.modCtr_regwin : (s.modCtr n f).regwin = s.regwin := rfl
@[simp] theorem State.modCtr_ports : (s.modCtr n f).ports = s.ports := rfl
@[simp] theorem State.modCtr_lds : (s.modCtr n f).lds = s.lds := rfl
@[simp] theorem State.modCtr_ccis : (s.modCtr n f).ccis = s.ccis := rfl
@[simp] theorem State.modCtr_chans : (s.modCtr n f).chans = s.chans := rfl
@[simp] theorem State.modCtr_cap : (s.modCtr n f).cap = s.cap := rfl
@[simp] theorem State.modCtr_mdata : (s.modCtr n f).mdata = s.mdata := rfl
@[simp] theorem State.modCtr_allocs : (s.modCtr n f).allocs = s.allocs := rfl
@[simp] theorem State.modCtr_waiters : (s.modCtr n f).waiters = s.waiters := rfl
@[simp] theorem State.modCtr_dram : (s.modCtr n f).dram = s.dram := rfl
@[simp] theorem State.modCtr_quads : (s.modCtr n f).quads = s.quads := rfl
@[simp] theorem State.modCtr_clusters : (s.modCtr n f).clusters = s.clusters := rfl
@[simp] theorem State.modCtr_sketch : (s.modCtr n f).sketch = s.sketch := rfl
@[simp] theorem State.modCtr_keys : (s.modCtr n f).keys = s.keys := rfl
@[simp] theorem State.modCtr_path : (s.modCtr n f).path = s.path := rfl
@[simp] theorem State.modCtr_gather : (s.modCtr n f).gather = s.gather := rfl
@[simp] theorem State.modCtr_qos : (s.modCtr n f).qos = s.qos := rfl
@[simp] theorem State.modCtr_integ : (s.modCtr n f).integ = s.integ := rfl
@[simp] theorem State.modCtr_ulis : (s.modCtr n f).ulis = s.ulis := rfl
@[simp] theorem State.modCtr_const : (s.modCtr n f).const = s.const := rfl
@[simp] theorem State.modCtr_img : (s.modCtr n f).img = s.img := rfl
@[simp] theorem State.modCtr_ril : (s.modCtr n f).ril = s.ril := rfl
@[simp] theorem State.modCtr_threads : (s.modCtr n f).threads = s.threads := rfl
@[simp] theorem State.modCtr_queues : (s.modCtr n f).queues = s.queues := rfl
@[simp] theorem State.modCtr_out : (s.modCtr n f).out = s.out := rfl
@[simp] theorem State.modCtr_free : (s.modCtr n f).free = s.free := rfl
@[simp] theorem State.modCtr_draws : (s.modCtr n f).draws = s.draws := rfl
@[simp] theorem State.modCtr_pending : (s.modCtr n f).pending = s.pending := rfl
@[simp] theorem State.modCtr_at_slot (m : Nat) : (s.modCtr n f).slot m = s.slot m := rfl
@[simp] theorem State.modCtr_at_sensor (m : Nat) : (s.modCtr n f).sensor m = s.sensor m := rfl
@[simp] theorem State.modCtr_at_port (m : Nat) : (s.modCtr n f).port m = s.port m := rfl
@[simp] theorem State.modCtr_at_ld (m : Nat) : (s.modCtr n f).ld m = s.ld m := rfl
@[simp] theorem State.modCtr_at_cci (m : Nat) : (s.modCtr n f).cci m = s.cci m := rfl
@[simp] theorem State.modCtr_at_chan (m : Nat) : (s.modCtr n f).chan m = s.chan m := rfl
@[simp] theorem State.modCtr_at_thread (m : Nat) : (s.modCtr n f).thread m = s.thread m := rfl
@[simp] theorem State.modCtr_at_queue (m : Nat) : (s.modCtr n f).queue m = s.queue m := rfl
@[simp] theorem State.modCtr_at_cometQuad (m : Nat) : (s.modCtr n f).cometQuad m = s.cometQuad m := rfl
@[simp] theorem State.modCtr_at_dom (m : Nat) : (s.modCtr n f).dom m = s.dom m := rfl
@[simp] theorem State.modCtr_at_uli (m : Nat) : (s.modCtr n f).uli m = s.uli m := rfl
@[simp] theorem State.modCtr_at_member (m : Nat) : (s.modCtr n f).member m = s.member m := rfl
@[simp] theorem State.modCtr_at_alloc (m : Nat) : (s.modCtr n f).alloc m = s.alloc m := rfl
@[simp] theorem State.modCtr_at_quad (m : Nat) : (s.modCtr n f).quad m = s.quad m := rfl
@[simp] theorem State.modCtr_at_cluster (m : Nat) : (s.modCtr n f).cluster m = s.cluster m := rfl
@[simp] theorem State.modCtr_at_extent (m : Nat) : (s.modCtr n f).extent m = s.extent m := rfl
@[simp] theorem State.modCtr_at_keySlot (m : Nat) : (s.modCtr n f).keySlot m = s.keySlot m := rfl
@[simp] theorem State.modCtr_at_remote (m : Nat) : (s.modCtr n f).remote m = s.remote m := rfl

theorem State.modCtr_at (m : Nat) : (s.modCtr n f).ctr m = if m = n then f (s.ctr n) else s.ctr m := by
  simp [State.modCtr, State.ctr, Tab.get_set]
@[simp] theorem State.modCtr_self : (s.modCtr n f).ctr n = f (s.ctr n) := by simp [State.modCtr_at]
theorem State.modCtr_other (m : Nat) (h : m ≠ n) : (s.modCtr n f).ctr m = s.ctr m := by simp [State.modCtr_at, h]

end

/-! ### modCometQuad -/

section
variable (s : State) (n : Nat) (f : CometQuad → CometQuad)

@[simp] theorem State.modCometQuad_ident : (s.modCometQuad n f).ident = s.ident := rfl
@[simp] theorem State.modCometQuad_time : (s.modCometQuad n f).time = s.time := rfl
@[simp] theorem State.modCometQuad_power : (s.modCometQuad n f).power = s.power := rfl
@[simp] theorem State.modCometQuad_start : (s.modCometQuad n f).start = s.start := rfl
@[simp] theorem State.modCometQuad_slots : (s.modCometQuad n f).slots = s.slots := rfl
@[simp] theorem State.modCometQuad_slotMgr : (s.modCometQuad n f).slotMgr = s.slotMgr := rfl
@[simp] theorem State.modCometQuad_sensors : (s.modCometQuad n f).sensors = s.sensors := rfl
@[simp] theorem State.modCometQuad_faults : (s.modCometQuad n f).faults = s.faults := rfl
@[simp] theorem State.modCometQuad_rec_ : (s.modCometQuad n f).rec_ = s.rec_ := rfl
@[simp] theorem State.modCometQuad_ctrs : (s.modCometQuad n f).ctrs = s.ctrs := rfl
@[simp] theorem State.modCometQuad_alm : (s.modCometQuad n f).alm = s.alm := rfl
@[simp] theorem State.modCometQuad_regwin : (s.modCometQuad n f).regwin = s.regwin := rfl
@[simp] theorem State.modCometQuad_ports : (s.modCometQuad n f).ports = s.ports := rfl
@[simp] theorem State.modCometQuad_lds : (s.modCometQuad n f).lds = s.lds := rfl
@[simp] theorem State.modCometQuad_ccis : (s.modCometQuad n f).ccis = s.ccis := rfl
@[simp] theorem State.modCometQuad_chans : (s.modCometQuad n f).chans = s.chans := rfl
@[simp] theorem State.modCometQuad_cap : (s.modCometQuad n f).cap = s.cap := rfl
@[simp] theorem State.modCometQuad_mdata : (s.modCometQuad n f).mdata = s.mdata := rfl
@[simp] theorem State.modCometQuad_allocs : (s.modCometQuad n f).allocs = s.allocs := rfl
@[simp] theorem State.modCometQuad_waiters : (s.modCometQuad n f).waiters = s.waiters := rfl
@[simp] theorem State.modCometQuad_dram : (s.modCometQuad n f).dram = s.dram := rfl
@[simp] theorem State.modCometQuad_quads : (s.modCometQuad n f).quads = s.quads := rfl
@[simp] theorem State.modCometQuad_clusters : (s.modCometQuad n f).clusters = s.clusters := rfl
@[simp] theorem State.modCometQuad_sketch : (s.modCometQuad n f).sketch = s.sketch := rfl
@[simp] theorem State.modCometQuad_keys : (s.modCometQuad n f).keys = s.keys := rfl
@[simp] theorem State.modCometQuad_path : (s.modCometQuad n f).path = s.path := rfl
@[simp] theorem State.modCometQuad_gather : (s.modCometQuad n f).gather = s.gather := rfl
@[simp] theorem State.modCometQuad_qos : (s.modCometQuad n f).qos = s.qos := rfl
@[simp] theorem State.modCometQuad_integ : (s.modCometQuad n f).integ = s.integ := rfl
@[simp] theorem State.modCometQuad_ulis : (s.modCometQuad n f).ulis = s.ulis := rfl
@[simp] theorem State.modCometQuad_const : (s.modCometQuad n f).const = s.const := rfl
@[simp] theorem State.modCometQuad_img : (s.modCometQuad n f).img = s.img := rfl
@[simp] theorem State.modCometQuad_ril : (s.modCometQuad n f).ril = s.ril := rfl
@[simp] theorem State.modCometQuad_threads : (s.modCometQuad n f).threads = s.threads := rfl
@[simp] theorem State.modCometQuad_queues : (s.modCometQuad n f).queues = s.queues := rfl
@[simp] theorem State.modCometQuad_out : (s.modCometQuad n f).out = s.out := rfl
@[simp] theorem State.modCometQuad_free : (s.modCometQuad n f).free = s.free := rfl
@[simp] theorem State.modCometQuad_draws : (s.modCometQuad n f).draws = s.draws := rfl
@[simp] theorem State.modCometQuad_pending : (s.modCometQuad n f).pending = s.pending := rfl
@[simp] theorem State.modCometQuad_at_slot (m : Nat) : (s.modCometQuad n f).slot m = s.slot m := rfl
@[simp] theorem State.modCometQuad_at_sensor (m : Nat) : (s.modCometQuad n f).sensor m = s.sensor m := rfl
@[simp] theorem State.modCometQuad_at_port (m : Nat) : (s.modCometQuad n f).port m = s.port m := rfl
@[simp] theorem State.modCometQuad_at_ld (m : Nat) : (s.modCometQuad n f).ld m = s.ld m := rfl
@[simp] theorem State.modCometQuad_at_cci (m : Nat) : (s.modCometQuad n f).cci m = s.cci m := rfl
@[simp] theorem State.modCometQuad_at_chan (m : Nat) : (s.modCometQuad n f).chan m = s.chan m := rfl
@[simp] theorem State.modCometQuad_at_thread (m : Nat) : (s.modCometQuad n f).thread m = s.thread m := rfl
@[simp] theorem State.modCometQuad_at_queue (m : Nat) : (s.modCometQuad n f).queue m = s.queue m := rfl
@[simp] theorem State.modCometQuad_at_ctr (m : Nat) : (s.modCometQuad n f).ctr m = s.ctr m := rfl
@[simp] theorem State.modCometQuad_at_dom (m : Nat) : (s.modCometQuad n f).dom m = s.dom m := rfl
@[simp] theorem State.modCometQuad_at_uli (m : Nat) : (s.modCometQuad n f).uli m = s.uli m := rfl
@[simp] theorem State.modCometQuad_at_member (m : Nat) : (s.modCometQuad n f).member m = s.member m := rfl
@[simp] theorem State.modCometQuad_at_alloc (m : Nat) : (s.modCometQuad n f).alloc m = s.alloc m := rfl
@[simp] theorem State.modCometQuad_at_quad (m : Nat) : (s.modCometQuad n f).quad m = s.quad m := rfl
@[simp] theorem State.modCometQuad_at_cluster (m : Nat) : (s.modCometQuad n f).cluster m = s.cluster m := rfl
@[simp] theorem State.modCometQuad_at_extent (m : Nat) : (s.modCometQuad n f).extent m = s.extent m := rfl
@[simp] theorem State.modCometQuad_at_keySlot (m : Nat) : (s.modCometQuad n f).keySlot m = s.keySlot m := rfl
@[simp] theorem State.modCometQuad_at_remote (m : Nat) : (s.modCometQuad n f).remote m = s.remote m := rfl

theorem State.modCometQuad_at (m : Nat) : (s.modCometQuad n f).cometQuad m = if m = n then f (s.cometQuad n) else s.cometQuad m := by
  simp [State.modCometQuad, State.cometQuad, Tab.get_set]
@[simp] theorem State.modCometQuad_self : (s.modCometQuad n f).cometQuad n = f (s.cometQuad n) := by simp [State.modCometQuad_at]
theorem State.modCometQuad_other (m : Nat) (h : m ≠ n) : (s.modCometQuad n f).cometQuad m = s.cometQuad m := by simp [State.modCometQuad_at, h]

end

/-! ### modDom -/

section
variable (s : State) (n : Nat) (f : Dom → Dom)

@[simp] theorem State.modDom_ident : (s.modDom n f).ident = s.ident := rfl
@[simp] theorem State.modDom_time : (s.modDom n f).time = s.time := rfl
@[simp] theorem State.modDom_start : (s.modDom n f).start = s.start := rfl
@[simp] theorem State.modDom_slots : (s.modDom n f).slots = s.slots := rfl
@[simp] theorem State.modDom_slotMgr : (s.modDom n f).slotMgr = s.slotMgr := rfl
@[simp] theorem State.modDom_sensors : (s.modDom n f).sensors = s.sensors := rfl
@[simp] theorem State.modDom_faults : (s.modDom n f).faults = s.faults := rfl
@[simp] theorem State.modDom_rec_ : (s.modDom n f).rec_ = s.rec_ := rfl
@[simp] theorem State.modDom_ctrs : (s.modDom n f).ctrs = s.ctrs := rfl
@[simp] theorem State.modDom_comets : (s.modDom n f).comets = s.comets := rfl
@[simp] theorem State.modDom_alm : (s.modDom n f).alm = s.alm := rfl
@[simp] theorem State.modDom_regwin : (s.modDom n f).regwin = s.regwin := rfl
@[simp] theorem State.modDom_ports : (s.modDom n f).ports = s.ports := rfl
@[simp] theorem State.modDom_lds : (s.modDom n f).lds = s.lds := rfl
@[simp] theorem State.modDom_ccis : (s.modDom n f).ccis = s.ccis := rfl
@[simp] theorem State.modDom_chans : (s.modDom n f).chans = s.chans := rfl
@[simp] theorem State.modDom_cap : (s.modDom n f).cap = s.cap := rfl
@[simp] theorem State.modDom_mdata : (s.modDom n f).mdata = s.mdata := rfl
@[simp] theorem State.modDom_allocs : (s.modDom n f).allocs = s.allocs := rfl
@[simp] theorem State.modDom_waiters : (s.modDom n f).waiters = s.waiters := rfl
@[simp] theorem State.modDom_dram : (s.modDom n f).dram = s.dram := rfl
@[simp] theorem State.modDom_quads : (s.modDom n f).quads = s.quads := rfl
@[simp] theorem State.modDom_clusters : (s.modDom n f).clusters = s.clusters := rfl
@[simp] theorem State.modDom_sketch : (s.modDom n f).sketch = s.sketch := rfl
@[simp] theorem State.modDom_keys : (s.modDom n f).keys = s.keys := rfl
@[simp] theorem State.modDom_path : (s.modDom n f).path = s.path := rfl
@[simp] theorem State.modDom_gather : (s.modDom n f).gather = s.gather := rfl
@[simp] theorem State.modDom_qos : (s.modDom n f).qos = s.qos := rfl
@[simp] theorem State.modDom_integ : (s.modDom n f).integ = s.integ := rfl
@[simp] theorem State.modDom_ulis : (s.modDom n f).ulis = s.ulis := rfl
@[simp] theorem State.modDom_const : (s.modDom n f).const = s.const := rfl
@[simp] theorem State.modDom_img : (s.modDom n f).img = s.img := rfl
@[simp] theorem State.modDom_ril : (s.modDom n f).ril = s.ril := rfl
@[simp] theorem State.modDom_threads : (s.modDom n f).threads = s.threads := rfl
@[simp] theorem State.modDom_queues : (s.modDom n f).queues = s.queues := rfl
@[simp] theorem State.modDom_out : (s.modDom n f).out = s.out := rfl
@[simp] theorem State.modDom_free : (s.modDom n f).free = s.free := rfl
@[simp] theorem State.modDom_draws : (s.modDom n f).draws = s.draws := rfl
@[simp] theorem State.modDom_pending : (s.modDom n f).pending = s.pending := rfl
@[simp] theorem State.modDom_at_slot (m : Nat) : (s.modDom n f).slot m = s.slot m := rfl
@[simp] theorem State.modDom_at_sensor (m : Nat) : (s.modDom n f).sensor m = s.sensor m := rfl
@[simp] theorem State.modDom_at_port (m : Nat) : (s.modDom n f).port m = s.port m := rfl
@[simp] theorem State.modDom_at_ld (m : Nat) : (s.modDom n f).ld m = s.ld m := rfl
@[simp] theorem State.modDom_at_cci (m : Nat) : (s.modDom n f).cci m = s.cci m := rfl
@[simp] theorem State.modDom_at_chan (m : Nat) : (s.modDom n f).chan m = s.chan m := rfl
@[simp] theorem State.modDom_at_thread (m : Nat) : (s.modDom n f).thread m = s.thread m := rfl
@[simp] theorem State.modDom_at_queue (m : Nat) : (s.modDom n f).queue m = s.queue m := rfl
@[simp] theorem State.modDom_at_ctr (m : Nat) : (s.modDom n f).ctr m = s.ctr m := rfl
@[simp] theorem State.modDom_at_cometQuad (m : Nat) : (s.modDom n f).cometQuad m = s.cometQuad m := rfl
@[simp] theorem State.modDom_at_uli (m : Nat) : (s.modDom n f).uli m = s.uli m := rfl
@[simp] theorem State.modDom_at_member (m : Nat) : (s.modDom n f).member m = s.member m := rfl
@[simp] theorem State.modDom_at_alloc (m : Nat) : (s.modDom n f).alloc m = s.alloc m := rfl
@[simp] theorem State.modDom_at_quad (m : Nat) : (s.modDom n f).quad m = s.quad m := rfl
@[simp] theorem State.modDom_at_cluster (m : Nat) : (s.modDom n f).cluster m = s.cluster m := rfl
@[simp] theorem State.modDom_at_extent (m : Nat) : (s.modDom n f).extent m = s.extent m := rfl
@[simp] theorem State.modDom_at_keySlot (m : Nat) : (s.modDom n f).keySlot m = s.keySlot m := rfl
@[simp] theorem State.modDom_at_remote (m : Nat) : (s.modDom n f).remote m = s.remote m := rfl

theorem State.modDom_at (m : Nat) : (s.modDom n f).dom m = if m = n then f (s.dom n) else s.dom m := by
  by_cases h : m = n
  · subst h; simp [State.modDom, State.dom]
  · simpa [State.modDom, State.dom, h] using Tab.get_set_ne (domReset n) (domReset m) s.power.doms _ h
@[simp] theorem State.modDom_self : (s.modDom n f).dom n = f (s.dom n) := by simp [State.modDom_at]
theorem State.modDom_other (m : Nat) (h : m ≠ n) : (s.modDom n f).dom m = s.dom m := by simp [State.modDom_at, h]

end

/-! ### modUli -/

section
variable (s : State) (n : Nat) (f : Uli → Uli)

@[simp] theorem State.modUli_ident : (s.modUli n f).ident = s.ident := rfl
@[simp] theorem State.modUli_time : (s.modUli n f).time = s.time := rfl
@[simp] theorem State.modUli_power : (s.modUli n f).power = s.power := rfl
@[simp] theorem State.modUli_start : (s.modUli n f).start = s.start := rfl
@[simp] theorem State.modUli_slots : (s.modUli n f).slots = s.slots := rfl
@[simp] theorem State.modUli_slotMgr : (s.modUli n f).slotMgr = s.slotMgr := rfl
@[simp] theorem State.modUli_sensors : (s.modUli n f).sensors = s.sensors := rfl
@[simp] theorem State.modUli_faults : (s.modUli n f).faults = s.faults := rfl
@[simp] theorem State.modUli_rec_ : (s.modUli n f).rec_ = s.rec_ := rfl
@[simp] theorem State.modUli_ctrs : (s.modUli n f).ctrs = s.ctrs := rfl
@[simp] theorem State.modUli_comets : (s.modUli n f).comets = s.comets := rfl
@[simp] theorem State.modUli_alm : (s.modUli n f).alm = s.alm := rfl
@[simp] theorem State.modUli_regwin : (s.modUli n f).regwin = s.regwin := rfl
@[simp] theorem State.modUli_ports : (s.modUli n f).ports = s.ports := rfl
@[simp] theorem State.modUli_lds : (s.modUli n f).lds = s.lds := rfl
@[simp] theorem State.modUli_ccis : (s.modUli n f).ccis = s.ccis := rfl
@[simp] theorem State.modUli_chans : (s.modUli n f).chans = s.chans := rfl
@[simp] theorem State.modUli_cap : (s.modUli n f).cap = s.cap := rfl
@[simp] theorem State.modUli_mdata : (s.modUli n f).mdata = s.mdata := rfl
@[simp] theorem State.modUli_allocs : (s.modUli n f).allocs = s.allocs := rfl
@[simp] theorem State.modUli_waiters : (s.modUli n f).waiters = s.waiters := rfl
@[simp] theorem State.modUli_dram : (s.modUli n f).dram = s.dram := rfl
@[simp] theorem State.modUli_quads : (s.modUli n f).quads = s.quads := rfl
@[simp] theorem State.modUli_clusters : (s.modUli n f).clusters = s.clusters := rfl
@[simp] theorem State.modUli_sketch : (s.modUli n f).sketch = s.sketch := rfl
@[simp] theorem State.modUli_keys : (s.modUli n f).keys = s.keys := rfl
@[simp] theorem State.modUli_path : (s.modUli n f).path = s.path := rfl
@[simp] theorem State.modUli_gather : (s.modUli n f).gather = s.gather := rfl
@[simp] theorem State.modUli_qos : (s.modUli n f).qos = s.qos := rfl
@[simp] theorem State.modUli_integ : (s.modUli n f).integ = s.integ := rfl
@[simp] theorem State.modUli_const : (s.modUli n f).const = s.const := rfl
@[simp] theorem State.modUli_img : (s.modUli n f).img = s.img := rfl
@[simp] theorem State.modUli_ril : (s.modUli n f).ril = s.ril := rfl
@[simp] theorem State.modUli_threads : (s.modUli n f).threads = s.threads := rfl
@[simp] theorem State.modUli_queues : (s.modUli n f).queues = s.queues := rfl
@[simp] theorem State.modUli_out : (s.modUli n f).out = s.out := rfl
@[simp] theorem State.modUli_free : (s.modUli n f).free = s.free := rfl
@[simp] theorem State.modUli_draws : (s.modUli n f).draws = s.draws := rfl
@[simp] theorem State.modUli_pending : (s.modUli n f).pending = s.pending := rfl
@[simp] theorem State.modUli_at_slot (m : Nat) : (s.modUli n f).slot m = s.slot m := rfl
@[simp] theorem State.modUli_at_sensor (m : Nat) : (s.modUli n f).sensor m = s.sensor m := rfl
@[simp] theorem State.modUli_at_port (m : Nat) : (s.modUli n f).port m = s.port m := rfl
@[simp] theorem State.modUli_at_ld (m : Nat) : (s.modUli n f).ld m = s.ld m := rfl
@[simp] theorem State.modUli_at_cci (m : Nat) : (s.modUli n f).cci m = s.cci m := rfl
@[simp] theorem State.modUli_at_chan (m : Nat) : (s.modUli n f).chan m = s.chan m := rfl
@[simp] theorem State.modUli_at_thread (m : Nat) : (s.modUli n f).thread m = s.thread m := rfl
@[simp] theorem State.modUli_at_queue (m : Nat) : (s.modUli n f).queue m = s.queue m := rfl
@[simp] theorem State.modUli_at_ctr (m : Nat) : (s.modUli n f).ctr m = s.ctr m := rfl
@[simp] theorem State.modUli_at_cometQuad (m : Nat) : (s.modUli n f).cometQuad m = s.cometQuad m := rfl
@[simp] theorem State.modUli_at_dom (m : Nat) : (s.modUli n f).dom m = s.dom m := rfl
@[simp] theorem State.modUli_at_member (m : Nat) : (s.modUli n f).member m = s.member m := rfl
@[simp] theorem State.modUli_at_alloc (m : Nat) : (s.modUli n f).alloc m = s.alloc m := rfl
@[simp] theorem State.modUli_at_quad (m : Nat) : (s.modUli n f).quad m = s.quad m := rfl
@[simp] theorem State.modUli_at_cluster (m : Nat) : (s.modUli n f).cluster m = s.cluster m := rfl
@[simp] theorem State.modUli_at_extent (m : Nat) : (s.modUli n f).extent m = s.extent m := rfl
@[simp] theorem State.modUli_at_keySlot (m : Nat) : (s.modUli n f).keySlot m = s.keySlot m := rfl
@[simp] theorem State.modUli_at_remote (m : Nat) : (s.modUli n f).remote m = s.remote m := rfl

theorem State.modUli_at (m : Nat) : (s.modUli n f).uli m = if m = n then f (s.uli n) else s.uli m := by
  simp [State.modUli, State.uli, Tab.get_set]
@[simp] theorem State.modUli_self : (s.modUli n f).uli n = f (s.uli n) := by simp [State.modUli_at]
theorem State.modUli_other (m : Nat) (h : m ≠ n) : (s.modUli n f).uli m = s.uli m := by simp [State.modUli_at, h]

end

/-! ### modMember -/

section
variable (s : State) (n : Nat) (f : Member → Member)

@[simp] theorem State.modMember_ident : (s.modMember n f).ident = s.ident := rfl
@[simp] theorem State.modMember_time : (s.modMember n f).time = s.time := rfl
@[simp] theorem State.modMember_power : (s.modMember n f).power = s.power := rfl
@[simp] theorem State.modMember_start : (s.modMember n f).start = s.start := rfl
@[simp] theorem State.modMember_slots : (s.modMember n f).slots = s.slots := rfl
@[simp] theorem State.modMember_slotMgr : (s.modMember n f).slotMgr = s.slotMgr := rfl
@[simp] theorem State.modMember_sensors : (s.modMember n f).sensors = s.sensors := rfl
@[simp] theorem State.modMember_faults : (s.modMember n f).faults = s.faults := rfl
@[simp] theorem State.modMember_rec_ : (s.modMember n f).rec_ = s.rec_ := rfl
@[simp] theorem State.modMember_ctrs : (s.modMember n f).ctrs = s.ctrs := rfl
@[simp] theorem State.modMember_comets : (s.modMember n f).comets = s.comets := rfl
@[simp] theorem State.modMember_alm : (s.modMember n f).alm = s.alm := rfl
@[simp] theorem State.modMember_regwin : (s.modMember n f).regwin = s.regwin := rfl
@[simp] theorem State.modMember_ports : (s.modMember n f).ports = s.ports := rfl
@[simp] theorem State.modMember_lds : (s.modMember n f).lds = s.lds := rfl
@[simp] theorem State.modMember_ccis : (s.modMember n f).ccis = s.ccis := rfl
@[simp] theorem State.modMember_chans : (s.modMember n f).chans = s.chans := rfl
@[simp] theorem State.modMember_cap : (s.modMember n f).cap = s.cap := rfl
@[simp] theorem State.modMember_mdata : (s.modMember n f).mdata = s.mdata := rfl
@[simp] theorem State.modMember_allocs : (s.modMember n f).allocs = s.allocs := rfl
@[simp] theorem State.modMember_waiters : (s.modMember n f).waiters = s.waiters := rfl
@[simp] theorem State.modMember_dram : (s.modMember n f).dram = s.dram := rfl
@[simp] theorem State.modMember_quads : (s.modMember n f).quads = s.quads := rfl
@[simp] theorem State.modMember_clusters : (s.modMember n f).clusters = s.clusters := rfl
@[simp] theorem State.modMember_sketch : (s.modMember n f).sketch = s.sketch := rfl
@[simp] theorem State.modMember_keys : (s.modMember n f).keys = s.keys := rfl
@[simp] theorem State.modMember_path : (s.modMember n f).path = s.path := rfl
@[simp] theorem State.modMember_gather : (s.modMember n f).gather = s.gather := rfl
@[simp] theorem State.modMember_qos : (s.modMember n f).qos = s.qos := rfl
@[simp] theorem State.modMember_integ : (s.modMember n f).integ = s.integ := rfl
@[simp] theorem State.modMember_ulis : (s.modMember n f).ulis = s.ulis := rfl
@[simp] theorem State.modMember_img : (s.modMember n f).img = s.img := rfl
@[simp] theorem State.modMember_ril : (s.modMember n f).ril = s.ril := rfl
@[simp] theorem State.modMember_threads : (s.modMember n f).threads = s.threads := rfl
@[simp] theorem State.modMember_queues : (s.modMember n f).queues = s.queues := rfl
@[simp] theorem State.modMember_out : (s.modMember n f).out = s.out := rfl
@[simp] theorem State.modMember_free : (s.modMember n f).free = s.free := rfl
@[simp] theorem State.modMember_draws : (s.modMember n f).draws = s.draws := rfl
@[simp] theorem State.modMember_pending : (s.modMember n f).pending = s.pending := rfl
@[simp] theorem State.modMember_at_slot (m : Nat) : (s.modMember n f).slot m = s.slot m := rfl
@[simp] theorem State.modMember_at_sensor (m : Nat) : (s.modMember n f).sensor m = s.sensor m := rfl
@[simp] theorem State.modMember_at_port (m : Nat) : (s.modMember n f).port m = s.port m := rfl
@[simp] theorem State.modMember_at_ld (m : Nat) : (s.modMember n f).ld m = s.ld m := rfl
@[simp] theorem State.modMember_at_cci (m : Nat) : (s.modMember n f).cci m = s.cci m := rfl
@[simp] theorem State.modMember_at_chan (m : Nat) : (s.modMember n f).chan m = s.chan m := rfl
@[simp] theorem State.modMember_at_thread (m : Nat) : (s.modMember n f).thread m = s.thread m := rfl
@[simp] theorem State.modMember_at_queue (m : Nat) : (s.modMember n f).queue m = s.queue m := rfl
@[simp] theorem State.modMember_at_ctr (m : Nat) : (s.modMember n f).ctr m = s.ctr m := rfl
@[simp] theorem State.modMember_at_cometQuad (m : Nat) : (s.modMember n f).cometQuad m = s.cometQuad m := rfl
@[simp] theorem State.modMember_at_dom (m : Nat) : (s.modMember n f).dom m = s.dom m := rfl
@[simp] theorem State.modMember_at_uli (m : Nat) : (s.modMember n f).uli m = s.uli m := rfl
@[simp] theorem State.modMember_at_alloc (m : Nat) : (s.modMember n f).alloc m = s.alloc m := rfl
@[simp] theorem State.modMember_at_quad (m : Nat) : (s.modMember n f).quad m = s.quad m := rfl
@[simp] theorem State.modMember_at_cluster (m : Nat) : (s.modMember n f).cluster m = s.cluster m := rfl
@[simp] theorem State.modMember_at_extent (m : Nat) : (s.modMember n f).extent m = s.extent m := rfl
@[simp] theorem State.modMember_at_keySlot (m : Nat) : (s.modMember n f).keySlot m = s.keySlot m := rfl

theorem State.modMember_at (m : Nat) : (s.modMember n f).member m = if m = n then f (s.member n) else s.member m := by
  simp [State.modMember, State.member, State.modConst, Tab.get_set]
@[simp] theorem State.modMember_self : (s.modMember n f).member n = f (s.member n) := by simp [State.modMember_at]
theorem State.modMember_other (m : Nat) (h : m ≠ n) : (s.modMember n f).member m = s.member m := by simp [State.modMember_at, h]

end

/-! ### modAlloc -/

section
variable (s : State) (n : Nat) (f : Alloc → Alloc)

@[simp] theorem State.modAlloc_ident : (s.modAlloc n f).ident = s.ident := rfl
@[simp] theorem State.modAlloc_time : (s.modAlloc n f).time = s.time := rfl
@[simp] theorem State.modAlloc_power : (s.modAlloc n f).power = s.power := rfl
@[simp] theorem State.modAlloc_start : (s.modAlloc n f).start = s.start := rfl
@[simp] theorem State.modAlloc_slots : (s.modAlloc n f).slots = s.slots := rfl
@[simp] theorem State.modAlloc_slotMgr : (s.modAlloc n f).slotMgr = s.slotMgr := rfl
@[simp] theorem State.modAlloc_sensors : (s.modAlloc n f).sensors = s.sensors := rfl
@[simp] theorem State.modAlloc_faults : (s.modAlloc n f).faults = s.faults := rfl
@[simp] theorem State.modAlloc_rec_ : (s.modAlloc n f).rec_ = s.rec_ := rfl
@[simp] theorem State.modAlloc_ctrs : (s.modAlloc n f).ctrs = s.ctrs := rfl
@[simp] theorem State.modAlloc_comets : (s.modAlloc n f).comets = s.comets := rfl
@[simp] theorem State.modAlloc_alm : (s.modAlloc n f).alm = s.alm := rfl
@[simp] theorem State.modAlloc_regwin : (s.modAlloc n f).regwin = s.regwin := rfl
@[simp] theorem State.modAlloc_ports : (s.modAlloc n f).ports = s.ports := rfl
@[simp] theorem State.modAlloc_lds : (s.modAlloc n f).lds = s.lds := rfl
@[simp] theorem State.modAlloc_ccis : (s.modAlloc n f).ccis = s.ccis := rfl
@[simp] theorem State.modAlloc_chans : (s.modAlloc n f).chans = s.chans := rfl
@[simp] theorem State.modAlloc_cap : (s.modAlloc n f).cap = s.cap := rfl
@[simp] theorem State.modAlloc_mdata : (s.modAlloc n f).mdata = s.mdata := rfl
@[simp] theorem State.modAlloc_waiters : (s.modAlloc n f).waiters = s.waiters := rfl
@[simp] theorem State.modAlloc_dram : (s.modAlloc n f).dram = s.dram := rfl
@[simp] theorem State.modAlloc_quads : (s.modAlloc n f).quads = s.quads := rfl
@[simp] theorem State.modAlloc_clusters : (s.modAlloc n f).clusters = s.clusters := rfl
@[simp] theorem State.modAlloc_sketch : (s.modAlloc n f).sketch = s.sketch := rfl
@[simp] theorem State.modAlloc_keys : (s.modAlloc n f).keys = s.keys := rfl
@[simp] theorem State.modAlloc_path : (s.modAlloc n f).path = s.path := rfl
@[simp] theorem State.modAlloc_gather : (s.modAlloc n f).gather = s.gather := rfl
@[simp] theorem State.modAlloc_qos : (s.modAlloc n f).qos = s.qos := rfl
@[simp] theorem State.modAlloc_integ : (s.modAlloc n f).integ = s.integ := rfl
@[simp] theorem State.modAlloc_ulis : (s.modAlloc n f).ulis = s.ulis := rfl
@[simp] theorem State.modAlloc_const : (s.modAlloc n f).const = s.const := rfl
@[simp] theorem State.modAlloc_img : (s.modAlloc n f).img = s.img := rfl
@[simp] theorem State.modAlloc_ril : (s.modAlloc n f).ril = s.ril := rfl
@[simp] theorem State.modAlloc_threads : (s.modAlloc n f).threads = s.threads := rfl
@[simp] theorem State.modAlloc_queues : (s.modAlloc n f).queues = s.queues := rfl
@[simp] theorem State.modAlloc_out : (s.modAlloc n f).out = s.out := rfl
@[simp] theorem State.modAlloc_free : (s.modAlloc n f).free = s.free := rfl
@[simp] theorem State.modAlloc_draws : (s.modAlloc n f).draws = s.draws := rfl
@[simp] theorem State.modAlloc_pending : (s.modAlloc n f).pending = s.pending := rfl
@[simp] theorem State.modAlloc_at_slot (m : Nat) : (s.modAlloc n f).slot m = s.slot m := rfl
@[simp] theorem State.modAlloc_at_sensor (m : Nat) : (s.modAlloc n f).sensor m = s.sensor m := rfl
@[simp] theorem State.modAlloc_at_port (m : Nat) : (s.modAlloc n f).port m = s.port m := rfl
@[simp] theorem State.modAlloc_at_ld (m : Nat) : (s.modAlloc n f).ld m = s.ld m := rfl
@[simp] theorem State.modAlloc_at_cci (m : Nat) : (s.modAlloc n f).cci m = s.cci m := rfl
@[simp] theorem State.modAlloc_at_chan (m : Nat) : (s.modAlloc n f).chan m = s.chan m := rfl
@[simp] theorem State.modAlloc_at_thread (m : Nat) : (s.modAlloc n f).thread m = s.thread m := rfl
@[simp] theorem State.modAlloc_at_queue (m : Nat) : (s.modAlloc n f).queue m = s.queue m := rfl
@[simp] theorem State.modAlloc_at_ctr (m : Nat) : (s.modAlloc n f).ctr m = s.ctr m := rfl
@[simp] theorem State.modAlloc_at_cometQuad (m : Nat) : (s.modAlloc n f).cometQuad m = s.cometQuad m := rfl
@[simp] theorem State.modAlloc_at_dom (m : Nat) : (s.modAlloc n f).dom m = s.dom m := rfl
@[simp] theorem State.modAlloc_at_uli (m : Nat) : (s.modAlloc n f).uli m = s.uli m := rfl
@[simp] theorem State.modAlloc_at_member (m : Nat) : (s.modAlloc n f).member m = s.member m := rfl
@[simp] theorem State.modAlloc_at_quad (m : Nat) : (s.modAlloc n f).quad m = s.quad m := rfl
@[simp] theorem State.modAlloc_at_cluster (m : Nat) : (s.modAlloc n f).cluster m = s.cluster m := rfl
@[simp] theorem State.modAlloc_at_extent (m : Nat) : (s.modAlloc n f).extent m = s.extent m := rfl
@[simp] theorem State.modAlloc_at_keySlot (m : Nat) : (s.modAlloc n f).keySlot m = s.keySlot m := rfl
@[simp] theorem State.modAlloc_at_remote (m : Nat) : (s.modAlloc n f).remote m = s.remote m := rfl

theorem State.modAlloc_at (m : Nat) : (s.modAlloc n f).alloc m = if m = n then f (s.alloc n) else s.alloc m := by
  simp [State.modAlloc, State.alloc, Tab.get_set]
@[simp] theorem State.modAlloc_self : (s.modAlloc n f).alloc n = f (s.alloc n) := by simp [State.modAlloc_at]
theorem State.modAlloc_other (m : Nat) (h : m ≠ n) : (s.modAlloc n f).alloc m = s.alloc m := by simp [State.modAlloc_at, h]

end

/-! ### modQuad -/

section
variable (s : State) (n : Nat) (f : Quad → Quad)

@[simp] theorem State.modQuad_ident : (s.modQuad n f).ident = s.ident := rfl
@[simp] theorem State.modQuad_time : (s.modQuad n f).time = s.time := rfl
@[simp] theorem State.modQuad_power : (s.modQuad n f).power = s.power := rfl
@[simp] theorem State.modQuad_start : (s.modQuad n f).start = s.start := rfl
@[simp] theorem State.modQuad_slots : (s.modQuad n f).slots = s.slots := rfl
@[simp] theorem State.modQuad_slotMgr : (s.modQuad n f).slotMgr = s.slotMgr := rfl
@[simp] theorem State.modQuad_sensors : (s.modQuad n f).sensors = s.sensors := rfl
@[simp] theorem State.modQuad_faults : (s.modQuad n f).faults = s.faults := rfl
@[simp] theorem State.modQuad_rec_ : (s.modQuad n f).rec_ = s.rec_ := rfl
@[simp] theorem State.modQuad_ctrs : (s.modQuad n f).ctrs = s.ctrs := rfl
@[simp] theorem State.modQuad_comets : (s.modQuad n f).comets = s.comets := rfl
@[simp] theorem State.modQuad_alm : (s.modQuad n f).alm = s.alm := rfl
@[simp] theorem State.modQuad_regwin : (s.modQuad n f).regwin = s.regwin := rfl
@[simp] theorem State.modQuad_ports : (s.modQuad n f).ports = s.ports := rfl
@[simp] theorem State.modQuad_lds : (s.modQuad n f).lds = s.lds := rfl
@[simp] theorem State.modQuad_ccis : (s.modQuad n f).ccis = s.ccis := rfl
@[simp] theorem State.modQuad_chans : (s.modQuad n f).chans = s.chans := rfl
@[simp] theorem State.modQuad_cap : (s.modQuad n f).cap = s.cap := rfl
@[simp] theorem State.modQuad_mdata : (s.modQuad n f).mdata = s.mdata := rfl
@[simp] theorem State.modQuad_allocs : (s.modQuad n f).allocs = s.allocs := rfl
@[simp] theorem State.modQuad_waiters : (s.modQuad n f).waiters = s.waiters := rfl
@[simp] theorem State.modQuad_dram : (s.modQuad n f).dram = s.dram := rfl
@[simp] theorem State.modQuad_clusters : (s.modQuad n f).clusters = s.clusters := rfl
@[simp] theorem State.modQuad_sketch : (s.modQuad n f).sketch = s.sketch := rfl
@[simp] theorem State.modQuad_keys : (s.modQuad n f).keys = s.keys := rfl
@[simp] theorem State.modQuad_path : (s.modQuad n f).path = s.path := rfl
@[simp] theorem State.modQuad_gather : (s.modQuad n f).gather = s.gather := rfl
@[simp] theorem State.modQuad_qos : (s.modQuad n f).qos = s.qos := rfl
@[simp] theorem State.modQuad_integ : (s.modQuad n f).integ = s.integ := rfl
@[simp] theorem State.modQuad_ulis : (s.modQuad n f).ulis = s.ulis := rfl
@[simp] theorem State.modQuad_const : (s.modQuad n f).const = s.const := rfl
@[simp] theorem State.modQuad_img : (s.modQuad n f).img = s.img := rfl
@[simp] theorem State.modQuad_ril : (s.modQuad n f).ril = s.ril := rfl
@[simp] theorem State.modQuad_threads : (s.modQuad n f).threads = s.threads := rfl
@[simp] theorem State.modQuad_queues : (s.modQuad n f).queues = s.queues := rfl
@[simp] theorem State.modQuad_out : (s.modQuad n f).out = s.out := rfl
@[simp] theorem State.modQuad_free : (s.modQuad n f).free = s.free := rfl
@[simp] theorem State.modQuad_draws : (s.modQuad n f).draws = s.draws := rfl
@[simp] theorem State.modQuad_pending : (s.modQuad n f).pending = s.pending := rfl
@[simp] theorem State.modQuad_at_slot (m : Nat) : (s.modQuad n f).slot m = s.slot m := rfl
@[simp] theorem State.modQuad_at_sensor (m : Nat) : (s.modQuad n f).sensor m = s.sensor m := rfl
@[simp] theorem State.modQuad_at_port (m : Nat) : (s.modQuad n f).port m = s.port m := rfl
@[simp] theorem State.modQuad_at_ld (m : Nat) : (s.modQuad n f).ld m = s.ld m := rfl
@[simp] theorem State.modQuad_at_cci (m : Nat) : (s.modQuad n f).cci m = s.cci m := rfl
@[simp] theorem State.modQuad_at_chan (m : Nat) : (s.modQuad n f).chan m = s.chan m := rfl
@[simp] theorem State.modQuad_at_thread (m : Nat) : (s.modQuad n f).thread m = s.thread m := rfl
@[simp] theorem State.modQuad_at_queue (m : Nat) : (s.modQuad n f).queue m = s.queue m := rfl
@[simp] theorem State.modQuad_at_ctr (m : Nat) : (s.modQuad n f).ctr m = s.ctr m := rfl
@[simp] theorem State.modQuad_at_cometQuad (m : Nat) : (s.modQuad n f).cometQuad m = s.cometQuad m := rfl
@[simp] theorem State.modQuad_at_dom (m : Nat) : (s.modQuad n f).dom m = s.dom m := rfl
@[simp] theorem State.modQuad_at_uli (m : Nat) : (s.modQuad n f).uli m = s.uli m := rfl
@[simp] theorem State.modQuad_at_member (m : Nat) : (s.modQuad n f).member m = s.member m := rfl
@[simp] theorem State.modQuad_at_alloc (m : Nat) : (s.modQuad n f).alloc m = s.alloc m := rfl
@[simp] theorem State.modQuad_at_cluster (m : Nat) : (s.modQuad n f).cluster m = s.cluster m := rfl
@[simp] theorem State.modQuad_at_extent (m : Nat) : (s.modQuad n f).extent m = s.extent m := rfl
@[simp] theorem State.modQuad_at_keySlot (m : Nat) : (s.modQuad n f).keySlot m = s.keySlot m := rfl
@[simp] theorem State.modQuad_at_remote (m : Nat) : (s.modQuad n f).remote m = s.remote m := rfl

theorem State.modQuad_at (m : Nat) : (s.modQuad n f).quad m = if m = n then f (s.quad n) else s.quad m := by
  simp [State.modQuad, State.quad, Tab.get_set]
@[simp] theorem State.modQuad_self : (s.modQuad n f).quad n = f (s.quad n) := by simp [State.modQuad_at]
theorem State.modQuad_other (m : Nat) (h : m ≠ n) : (s.modQuad n f).quad m = s.quad m := by simp [State.modQuad_at, h]

end

/-! ### modCluster -/

section
variable (s : State) (n : Nat) (f : Cluster → Cluster)

@[simp] theorem State.modCluster_ident : (s.modCluster n f).ident = s.ident := rfl
@[simp] theorem State.modCluster_time : (s.modCluster n f).time = s.time := rfl
@[simp] theorem State.modCluster_power : (s.modCluster n f).power = s.power := rfl
@[simp] theorem State.modCluster_start : (s.modCluster n f).start = s.start := rfl
@[simp] theorem State.modCluster_slots : (s.modCluster n f).slots = s.slots := rfl
@[simp] theorem State.modCluster_slotMgr : (s.modCluster n f).slotMgr = s.slotMgr := rfl
@[simp] theorem State.modCluster_sensors : (s.modCluster n f).sensors = s.sensors := rfl
@[simp] theorem State.modCluster_faults : (s.modCluster n f).faults = s.faults := rfl
@[simp] theorem State.modCluster_rec_ : (s.modCluster n f).rec_ = s.rec_ := rfl
@[simp] theorem State.modCluster_ctrs : (s.modCluster n f).ctrs = s.ctrs := rfl
@[simp] theorem State.modCluster_comets : (s.modCluster n f).comets = s.comets := rfl
@[simp] theorem State.modCluster_alm : (s.modCluster n f).alm = s.alm := rfl
@[simp] theorem State.modCluster_regwin : (s.modCluster n f).regwin = s.regwin := rfl
@[simp] theorem State.modCluster_ports : (s.modCluster n f).ports = s.ports := rfl
@[simp] theorem State.modCluster_lds : (s.modCluster n f).lds = s.lds := rfl
@[simp] theorem State.modCluster_ccis : (s.modCluster n f).ccis = s.ccis := rfl
@[simp] theorem State.modCluster_chans : (s.modCluster n f).chans = s.chans := rfl
@[simp] theorem State.modCluster_cap : (s.modCluster n f).cap = s.cap := rfl
@[simp] theorem State.modCluster_mdata : (s.modCluster n f).mdata = s.mdata := rfl
@[simp] theorem State.modCluster_allocs : (s.modCluster n f).allocs = s.allocs := rfl
@[simp] theorem State.modCluster_waiters : (s.modCluster n f).waiters = s.waiters := rfl
@[simp] theorem State.modCluster_dram : (s.modCluster n f).dram = s.dram := rfl
@[simp] theorem State.modCluster_quads : (s.modCluster n f).quads = s.quads := rfl
@[simp] theorem State.modCluster_sketch : (s.modCluster n f).sketch = s.sketch := rfl
@[simp] theorem State.modCluster_keys : (s.modCluster n f).keys = s.keys := rfl
@[simp] theorem State.modCluster_path : (s.modCluster n f).path = s.path := rfl
@[simp] theorem State.modCluster_gather : (s.modCluster n f).gather = s.gather := rfl
@[simp] theorem State.modCluster_qos : (s.modCluster n f).qos = s.qos := rfl
@[simp] theorem State.modCluster_integ : (s.modCluster n f).integ = s.integ := rfl
@[simp] theorem State.modCluster_ulis : (s.modCluster n f).ulis = s.ulis := rfl
@[simp] theorem State.modCluster_const : (s.modCluster n f).const = s.const := rfl
@[simp] theorem State.modCluster_img : (s.modCluster n f).img = s.img := rfl
@[simp] theorem State.modCluster_ril : (s.modCluster n f).ril = s.ril := rfl
@[simp] theorem State.modCluster_threads : (s.modCluster n f).threads = s.threads := rfl
@[simp] theorem State.modCluster_queues : (s.modCluster n f).queues = s.queues := rfl
@[simp] theorem State.modCluster_out : (s.modCluster n f).out = s.out := rfl
@[simp] theorem State.modCluster_free : (s.modCluster n f).free = s.free := rfl
@[simp] theorem State.modCluster_draws : (s.modCluster n f).draws = s.draws := rfl
@[simp] theorem State.modCluster_pending : (s.modCluster n f).pending = s.pending := rfl
@[simp] theorem State.modCluster_at_slot (m : Nat) : (s.modCluster n f).slot m = s.slot m := rfl
@[simp] theorem State.modCluster_at_sensor (m : Nat) : (s.modCluster n f).sensor m = s.sensor m := rfl
@[simp] theorem State.modCluster_at_port (m : Nat) : (s.modCluster n f).port m = s.port m := rfl
@[simp] theorem State.modCluster_at_ld (m : Nat) : (s.modCluster n f).ld m = s.ld m := rfl
@[simp] theorem State.modCluster_at_cci (m : Nat) : (s.modCluster n f).cci m = s.cci m := rfl
@[simp] theorem State.modCluster_at_chan (m : Nat) : (s.modCluster n f).chan m = s.chan m := rfl
@[simp] theorem State.modCluster_at_thread (m : Nat) : (s.modCluster n f).thread m = s.thread m := rfl
@[simp] theorem State.modCluster_at_queue (m : Nat) : (s.modCluster n f).queue m = s.queue m := rfl
@[simp] theorem State.modCluster_at_ctr (m : Nat) : (s.modCluster n f).ctr m = s.ctr m := rfl
@[simp] theorem State.modCluster_at_cometQuad (m : Nat) : (s.modCluster n f).cometQuad m = s.cometQuad m := rfl
@[simp] theorem State.modCluster_at_dom (m : Nat) : (s.modCluster n f).dom m = s.dom m := rfl
@[simp] theorem State.modCluster_at_uli (m : Nat) : (s.modCluster n f).uli m = s.uli m := rfl
@[simp] theorem State.modCluster_at_member (m : Nat) : (s.modCluster n f).member m = s.member m := rfl
@[simp] theorem State.modCluster_at_alloc (m : Nat) : (s.modCluster n f).alloc m = s.alloc m := rfl
@[simp] theorem State.modCluster_at_quad (m : Nat) : (s.modCluster n f).quad m = s.quad m := rfl
@[simp] theorem State.modCluster_at_extent (m : Nat) : (s.modCluster n f).extent m = s.extent m := rfl
@[simp] theorem State.modCluster_at_keySlot (m : Nat) : (s.modCluster n f).keySlot m = s.keySlot m := rfl
@[simp] theorem State.modCluster_at_remote (m : Nat) : (s.modCluster n f).remote m = s.remote m := rfl

theorem State.modCluster_at (m : Nat) : (s.modCluster n f).cluster m = if m = n then f (s.cluster n) else s.cluster m := by
  simp [State.modCluster, State.cluster, Tab.get_set]
@[simp] theorem State.modCluster_self : (s.modCluster n f).cluster n = f (s.cluster n) := by simp [State.modCluster_at]
theorem State.modCluster_other (m : Nat) (h : m ≠ n) : (s.modCluster n f).cluster m = s.cluster m := by simp [State.modCluster_at, h]

end

/-! ### modExtent -/

section
variable (s : State) (n : Nat) (f : Extent → Extent)

@[simp] theorem State.modExtent_ident : (s.modExtent n f).ident = s.ident := rfl
@[simp] theorem State.modExtent_time : (s.modExtent n f).time = s.time := rfl
@[simp] theorem State.modExtent_power : (s.modExtent n f).power = s.power := rfl
@[simp] theorem State.modExtent_start : (s.modExtent n f).start = s.start := rfl
@[simp] theorem State.modExtent_slots : (s.modExtent n f).slots = s.slots := rfl
@[simp] theorem State.modExtent_slotMgr : (s.modExtent n f).slotMgr = s.slotMgr := rfl
@[simp] theorem State.modExtent_sensors : (s.modExtent n f).sensors = s.sensors := rfl
@[simp] theorem State.modExtent_faults : (s.modExtent n f).faults = s.faults := rfl
@[simp] theorem State.modExtent_rec_ : (s.modExtent n f).rec_ = s.rec_ := rfl
@[simp] theorem State.modExtent_ctrs : (s.modExtent n f).ctrs = s.ctrs := rfl
@[simp] theorem State.modExtent_comets : (s.modExtent n f).comets = s.comets := rfl
@[simp] theorem State.modExtent_alm : (s.modExtent n f).alm = s.alm := rfl
@[simp] theorem State.modExtent_regwin : (s.modExtent n f).regwin = s.regwin := rfl
@[simp] theorem State.modExtent_ports : (s.modExtent n f).ports = s.ports := rfl
@[simp] theorem State.modExtent_lds : (s.modExtent n f).lds = s.lds := rfl
@[simp] theorem State.modExtent_ccis : (s.modExtent n f).ccis = s.ccis := rfl
@[simp] theorem State.modExtent_chans : (s.modExtent n f).chans = s.chans := rfl
@[simp] theorem State.modExtent_mdata : (s.modExtent n f).mdata = s.mdata := rfl
@[simp] theorem State.modExtent_allocs : (s.modExtent n f).allocs = s.allocs := rfl
@[simp] theorem State.modExtent_waiters : (s.modExtent n f).waiters = s.waiters := rfl
@[simp] theorem State.modExtent_dram : (s.modExtent n f).dram = s.dram := rfl
@[simp] theorem State.modExtent_quads : (s.modExtent n f).quads = s.quads := rfl
@[simp] theorem State.modExtent_clusters : (s.modExtent n f).clusters = s.clusters := rfl
@[simp] theorem State.modExtent_sketch : (s.modExtent n f).sketch = s.sketch := rfl
@[simp] theorem State.modExtent_keys : (s.modExtent n f).keys = s.keys := rfl
@[simp] theorem State.modExtent_path : (s.modExtent n f).path = s.path := rfl
@[simp] theorem State.modExtent_gather : (s.modExtent n f).gather = s.gather := rfl
@[simp] theorem State.modExtent_qos : (s.modExtent n f).qos = s.qos := rfl
@[simp] theorem State.modExtent_integ : (s.modExtent n f).integ = s.integ := rfl
@[simp] theorem State.modExtent_ulis : (s.modExtent n f).ulis = s.ulis := rfl
@[simp] theorem State.modExtent_const : (s.modExtent n f).const = s.const := rfl
@[simp] theorem State.modExtent_img : (s.modExtent n f).img = s.img := rfl
@[simp] theorem State.modExtent_ril : (s.modExtent n f).ril = s.ril := rfl
@[simp] theorem State.modExtent_threads : (s.modExtent n f).threads = s.threads := rfl
@[simp] theorem State.modExtent_queues : (s.modExtent n f).queues = s.queues := rfl
@[simp] theorem State.modExtent_out : (s.modExtent n f).out = s.out := rfl
@[simp] theorem State.modExtent_free : (s.modExtent n f).free = s.free := rfl
@[simp] theorem State.modExtent_draws : (s.modExtent n f).draws = s.draws := rfl
@[simp] theorem State.modExtent_pending : (s.modExtent n f).pending = s.pending := rfl
@[simp] theorem State.modExtent_at_slot (m : Nat) : (s.modExtent n f).slot m = s.slot m := rfl
@[simp] theorem State.modExtent_at_sensor (m : Nat) : (s.modExtent n f).sensor m = s.sensor m := rfl
@[simp] theorem State.modExtent_at_port (m : Nat) : (s.modExtent n f).port m = s.port m := rfl
@[simp] theorem State.modExtent_at_ld (m : Nat) : (s.modExtent n f).ld m = s.ld m := rfl
@[simp] theorem State.modExtent_at_cci (m : Nat) : (s.modExtent n f).cci m = s.cci m := rfl
@[simp] theorem State.modExtent_at_chan (m : Nat) : (s.modExtent n f).chan m = s.chan m := rfl
@[simp] theorem State.modExtent_at_thread (m : Nat) : (s.modExtent n f).thread m = s.thread m := rfl
@[simp] theorem State.modExtent_at_queue (m : Nat) : (s.modExtent n f).queue m = s.queue m := rfl
@[simp] theorem State.modExtent_at_ctr (m : Nat) : (s.modExtent n f).ctr m = s.ctr m := rfl
@[simp] theorem State.modExtent_at_cometQuad (m : Nat) : (s.modExtent n f).cometQuad m = s.cometQuad m := rfl
@[simp] theorem State.modExtent_at_dom (m : Nat) : (s.modExtent n f).dom m = s.dom m := rfl
@[simp] theorem State.modExtent_at_uli (m : Nat) : (s.modExtent n f).uli m = s.uli m := rfl
@[simp] theorem State.modExtent_at_member (m : Nat) : (s.modExtent n f).member m = s.member m := rfl
@[simp] theorem State.modExtent_at_alloc (m : Nat) : (s.modExtent n f).alloc m = s.alloc m := rfl
@[simp] theorem State.modExtent_at_quad (m : Nat) : (s.modExtent n f).quad m = s.quad m := rfl
@[simp] theorem State.modExtent_at_cluster (m : Nat) : (s.modExtent n f).cluster m = s.cluster m := rfl
@[simp] theorem State.modExtent_at_keySlot (m : Nat) : (s.modExtent n f).keySlot m = s.keySlot m := rfl
@[simp] theorem State.modExtent_at_remote (m : Nat) : (s.modExtent n f).remote m = s.remote m := rfl

theorem State.modExtent_at (m : Nat) : (s.modExtent n f).extent m = if m = n then f (s.extent n) else s.extent m := by
  simp [State.modExtent, State.extent, Tab.get_set]
@[simp] theorem State.modExtent_self : (s.modExtent n f).extent n = f (s.extent n) := by simp [State.modExtent_at]
theorem State.modExtent_other (m : Nat) (h : m ≠ n) : (s.modExtent n f).extent m = s.extent m := by simp [State.modExtent_at, h]

end

/-! ### modKeySlot -/

section
variable (s : State) (n : Nat) (f : KeySlot → KeySlot)

@[simp] theorem State.modKeySlot_ident : (s.modKeySlot n f).ident = s.ident := rfl
@[simp] theorem State.modKeySlot_time : (s.modKeySlot n f).time = s.time := rfl
@[simp] theorem State.modKeySlot_power : (s.modKeySlot n f).power = s.power := rfl
@[simp] theorem State.modKeySlot_start : (s.modKeySlot n f).start = s.start := rfl
@[simp] theorem State.modKeySlot_slots : (s.modKeySlot n f).slots = s.slots := rfl
@[simp] theorem State.modKeySlot_slotMgr : (s.modKeySlot n f).slotMgr = s.slotMgr := rfl
@[simp] theorem State.modKeySlot_sensors : (s.modKeySlot n f).sensors = s.sensors := rfl
@[simp] theorem State.modKeySlot_faults : (s.modKeySlot n f).faults = s.faults := rfl
@[simp] theorem State.modKeySlot_rec_ : (s.modKeySlot n f).rec_ = s.rec_ := rfl
@[simp] theorem State.modKeySlot_ctrs : (s.modKeySlot n f).ctrs = s.ctrs := rfl
@[simp] theorem State.modKeySlot_comets : (s.modKeySlot n f).comets = s.comets := rfl
@[simp] theorem State.modKeySlot_alm : (s.modKeySlot n f).alm = s.alm := rfl
@[simp] theorem State.modKeySlot_regwin : (s.modKeySlot n f).regwin = s.regwin := rfl
@[simp] theorem State.modKeySlot_ports : (s.modKeySlot n f).ports = s.ports := rfl
@[simp] theorem State.modKeySlot_lds : (s.modKeySlot n f).lds = s.lds := rfl
@[simp] theorem State.modKeySlot_ccis : (s.modKeySlot n f).ccis = s.ccis := rfl
@[simp] theorem State.modKeySlot_chans : (s.modKeySlot n f).chans = s.chans := rfl
@[simp] theorem State.modKeySlot_cap : (s.modKeySlot n f).cap = s.cap := rfl
@[simp] theorem State.modKeySlot_mdata : (s.modKeySlot n f).mdata = s.mdata := rfl
@[simp] theorem State.modKeySlot_allocs : (s.modKeySlot n f).allocs = s.allocs := rfl
@[simp] theorem State.modKeySlot_waiters : (s.modKeySlot n f).waiters = s.waiters := rfl
@[simp] theorem State.modKeySlot_dram : (s.modKeySlot n f).dram = s.dram := rfl
@[simp] theorem State.modKeySlot_quads : (s.modKeySlot n f).quads = s.quads := rfl
@[simp] theorem State.modKeySlot_clusters : (s.modKeySlot n f).clusters = s.clusters := rfl
@[simp] theorem State.modKeySlot_sketch : (s.modKeySlot n f).sketch = s.sketch := rfl
@[simp] theorem State.modKeySlot_path : (s.modKeySlot n f).path = s.path := rfl
@[simp] theorem State.modKeySlot_gather : (s.modKeySlot n f).gather = s.gather := rfl
@[simp] theorem State.modKeySlot_qos : (s.modKeySlot n f).qos = s.qos := rfl
@[simp] theorem State.modKeySlot_integ : (s.modKeySlot n f).integ = s.integ := rfl
@[simp] theorem State.modKeySlot_ulis : (s.modKeySlot n f).ulis = s.ulis := rfl
@[simp] theorem State.modKeySlot_const : (s.modKeySlot n f).const = s.const := rfl
@[simp] theorem State.modKeySlot_img : (s.modKeySlot n f).img = s.img := rfl
@[simp] theorem State.modKeySlot_ril : (s.modKeySlot n f).ril = s.ril := rfl
@[simp] theorem State.modKeySlot_threads : (s.modKeySlot n f).threads = s.threads := rfl
@[simp] theorem State.modKeySlot_queues : (s.modKeySlot n f).queues = s.queues := rfl
@[simp] theorem State.modKeySlot_out : (s.modKeySlot n f).out = s.out := rfl
@[simp] theorem State.modKeySlot_free : (s.modKeySlot n f).free = s.free := rfl
@[simp] theorem State.modKeySlot_draws : (s.modKeySlot n f).draws = s.draws := rfl
@[simp] theorem State.modKeySlot_pending : (s.modKeySlot n f).pending = s.pending := rfl
@[simp] theorem State.modKeySlot_at_slot (m : Nat) : (s.modKeySlot n f).slot m = s.slot m := rfl
@[simp] theorem State.modKeySlot_at_sensor (m : Nat) : (s.modKeySlot n f).sensor m = s.sensor m := rfl
@[simp] theorem State.modKeySlot_at_port (m : Nat) : (s.modKeySlot n f).port m = s.port m := rfl
@[simp] theorem State.modKeySlot_at_ld (m : Nat) : (s.modKeySlot n f).ld m = s.ld m := rfl
@[simp] theorem State.modKeySlot_at_cci (m : Nat) : (s.modKeySlot n f).cci m = s.cci m := rfl
@[simp] theorem State.modKeySlot_at_chan (m : Nat) : (s.modKeySlot n f).chan m = s.chan m := rfl
@[simp] theorem State.modKeySlot_at_thread (m : Nat) : (s.modKeySlot n f).thread m = s.thread m := rfl
@[simp] theorem State.modKeySlot_at_queue (m : Nat) : (s.modKeySlot n f).queue m = s.queue m := rfl
@[simp] theorem State.modKeySlot_at_ctr (m : Nat) : (s.modKeySlot n f).ctr m = s.ctr m := rfl
@[simp] theorem State.modKeySlot_at_cometQuad (m : Nat) : (s.modKeySlot n f).cometQuad m = s.cometQuad m := rfl
@[simp] theorem State.modKeySlot_at_dom (m : Nat) : (s.modKeySlot n f).dom m = s.dom m := rfl
@[simp] theorem State.modKeySlot_at_uli (m : Nat) : (s.modKeySlot n f).uli m = s.uli m := rfl
@[simp] theorem State.modKeySlot_at_member (m : Nat) : (s.modKeySlot n f).member m = s.member m := rfl
@[simp] theorem State.modKeySlot_at_alloc (m : Nat) : (s.modKeySlot n f).alloc m = s.alloc m := rfl
@[simp] theorem State.modKeySlot_at_quad (m : Nat) : (s.modKeySlot n f).quad m = s.quad m := rfl
@[simp] theorem State.modKeySlot_at_cluster (m : Nat) : (s.modKeySlot n f).cluster m = s.cluster m := rfl
@[simp] theorem State.modKeySlot_at_extent (m : Nat) : (s.modKeySlot n f).extent m = s.extent m := rfl
@[simp] theorem State.modKeySlot_at_remote (m : Nat) : (s.modKeySlot n f).remote m = s.remote m := rfl

theorem State.modKeySlot_at (m : Nat) : (s.modKeySlot n f).keySlot m = if m = n then f (s.keySlot n) else s.keySlot m := by
  simp [State.modKeySlot, State.keySlot, Tab.get_set]
@[simp] theorem State.modKeySlot_self : (s.modKeySlot n f).keySlot n = f (s.keySlot n) := by simp [State.modKeySlot_at]
theorem State.modKeySlot_other (m : Nat) (h : m ≠ n) : (s.modKeySlot n f).keySlot m = s.keySlot m := by simp [State.modKeySlot_at, h]

end

/-! ### modRemote -/

section
variable (s : State) (n : Nat) (f : Remote → Remote)

@[simp] theorem State.modRemote_ident : (s.modRemote n f).ident = s.ident := rfl
@[simp] theorem State.modRemote_time : (s.modRemote n f).time = s.time := rfl
@[simp] theorem State.modRemote_power : (s.modRemote n f).power = s.power := rfl
@[simp] theorem State.modRemote_start : (s.modRemote n f).start = s.start := rfl
@[simp] theorem State.modRemote_slots : (s.modRemote n f).slots = s.slots := rfl
@[simp] theorem State.modRemote_slotMgr : (s.modRemote n f).slotMgr = s.slotMgr := rfl
@[simp] theorem State.modRemote_sensors : (s.modRemote n f).sensors = s.sensors := rfl
@[simp] theorem State.modRemote_faults : (s.modRemote n f).faults = s.faults := rfl
@[simp] theorem State.modRemote_rec_ : (s.modRemote n f).rec_ = s.rec_ := rfl
@[simp] theorem State.modRemote_ctrs : (s.modRemote n f).ctrs = s.ctrs := rfl
@[simp] theorem State.modRemote_comets : (s.modRemote n f).comets = s.comets := rfl
@[simp] theorem State.modRemote_alm : (s.modRemote n f).alm = s.alm := rfl
@[simp] theorem State.modRemote_regwin : (s.modRemote n f).regwin = s.regwin := rfl
@[simp] theorem State.modRemote_ports : (s.modRemote n f).ports = s.ports := rfl
@[simp] theorem State.modRemote_lds : (s.modRemote n f).lds = s.lds := rfl
@[simp] theorem State.modRemote_ccis : (s.modRemote n f).ccis = s.ccis := rfl
@[simp] theorem State.modRemote_chans : (s.modRemote n f).chans = s.chans := rfl
@[simp] theorem State.modRemote_cap : (s.modRemote n f).cap = s.cap := rfl
@[simp] theorem State.modRemote_mdata : (s.modRemote n f).mdata = s.mdata := rfl
@[simp] theorem State.modRemote_allocs : (s.modRemote n f).allocs = s.allocs := rfl
@[simp] theorem State.modRemote_waiters : (s.modRemote n f).waiters = s.waiters := rfl
@[simp] theorem State.modRemote_dram : (s.modRemote n f).dram = s.dram := rfl
@[simp] theorem State.modRemote_quads : (s.modRemote n f).quads = s.quads := rfl
@[simp] theorem State.modRemote_clusters : (s.modRemote n f).clusters = s.clusters := rfl
@[simp] theorem State.modRemote_sketch : (s.modRemote n f).sketch = s.sketch := rfl
@[simp] theorem State.modRemote_keys : (s.modRemote n f).keys = s.keys := rfl
@[simp] theorem State.modRemote_path : (s.modRemote n f).path = s.path := rfl
@[simp] theorem State.modRemote_gather : (s.modRemote n f).gather = s.gather := rfl
@[simp] theorem State.modRemote_qos : (s.modRemote n f).qos = s.qos := rfl
@[simp] theorem State.modRemote_integ : (s.modRemote n f).integ = s.integ := rfl
@[simp] theorem State.modRemote_ulis : (s.modRemote n f).ulis = s.ulis := rfl
@[simp] theorem State.modRemote_img : (s.modRemote n f).img = s.img := rfl
@[simp] theorem State.modRemote_ril : (s.modRemote n f).ril = s.ril := rfl
@[simp] theorem State.modRemote_threads : (s.modRemote n f).threads = s.threads := rfl
@[simp] theorem State.modRemote_queues : (s.modRemote n f).queues = s.queues := rfl
@[simp] theorem State.modRemote_out : (s.modRemote n f).out = s.out := rfl
@[simp] theorem State.modRemote_free : (s.modRemote n f).free = s.free := rfl
@[simp] theorem State.modRemote_draws : (s.modRemote n f).draws = s.draws := rfl
@[simp] theorem State.modRemote_pending : (s.modRemote n f).pending = s.pending := rfl
@[simp] theorem State.modRemote_at_slot (m : Nat) : (s.modRemote n f).slot m = s.slot m := rfl
@[simp] theorem State.modRemote_at_sensor (m : Nat) : (s.modRemote n f).sensor m = s.sensor m := rfl
@[simp] theorem State.modRemote_at_port (m : Nat) : (s.modRemote n f).port m = s.port m := rfl
@[simp] theorem State.modRemote_at_ld (m : Nat) : (s.modRemote n f).ld m = s.ld m := rfl
@[simp] theorem State.modRemote_at_cci (m : Nat) : (s.modRemote n f).cci m = s.cci m := rfl
@[simp] theorem State.modRemote_at_chan (m : Nat) : (s.modRemote n f).chan m = s.chan m := rfl
@[simp] theorem State.modRemote_at_thread (m : Nat) : (s.modRemote n f).thread m = s.thread m := rfl
@[simp] theorem State.modRemote_at_queue (m : Nat) : (s.modRemote n f).queue m = s.queue m := rfl
@[simp] theorem State.modRemote_at_ctr (m : Nat) : (s.modRemote n f).ctr m = s.ctr m := rfl
@[simp] theorem State.modRemote_at_cometQuad (m : Nat) : (s.modRemote n f).cometQuad m = s.cometQuad m := rfl
@[simp] theorem State.modRemote_at_dom (m : Nat) : (s.modRemote n f).dom m = s.dom m := rfl
@[simp] theorem State.modRemote_at_uli (m : Nat) : (s.modRemote n f).uli m = s.uli m := rfl
@[simp] theorem State.modRemote_at_alloc (m : Nat) : (s.modRemote n f).alloc m = s.alloc m := rfl
@[simp] theorem State.modRemote_at_quad (m : Nat) : (s.modRemote n f).quad m = s.quad m := rfl
@[simp] theorem State.modRemote_at_cluster (m : Nat) : (s.modRemote n f).cluster m = s.cluster m := rfl
@[simp] theorem State.modRemote_at_extent (m : Nat) : (s.modRemote n f).extent m = s.extent m := rfl
@[simp] theorem State.modRemote_at_keySlot (m : Nat) : (s.modRemote n f).keySlot m = s.keySlot m := rfl

theorem State.modRemote_at (m : Nat) : (s.modRemote n f).remote m = if m = n then f (s.remote n) else s.remote m := by
  simp [State.modRemote, State.remote, State.modConst, Tab.get_set]
@[simp] theorem State.modRemote_self : (s.modRemote n f).remote n = f (s.remote n) := by simp [State.modRemote_at]
theorem State.modRemote_other (m : Nat) (h : m ≠ n) : (s.modRemote n f).remote m = s.remote m := by simp [State.modRemote_at, h]

end

/-! ### modTime -/

section
variable (s : State) (f : Time → Time)

@[simp] theorem State.modTime_ident : (s.modTime f).ident = s.ident := rfl
@[simp] theorem State.modTime_power : (s.modTime f).power = s.power := rfl
@[simp] theorem State.modTime_start : (s.modTime f).start = s.start := rfl
@[simp] theorem State.modTime_slots : (s.modTime f).slots = s.slots := rfl
@[simp] theorem State.modTime_slotMgr : (s.modTime f).slotMgr = s.slotMgr := rfl
@[simp] theorem State.modTime_sensors : (s.modTime f).sensors = s.sensors := rfl
@[simp] theorem State.modTime_faults : (s.modTime f).faults = s.faults := rfl
@[simp] theorem State.modTime_rec_ : (s.modTime f).rec_ = s.rec_ := rfl
@[simp] theorem State.modTime_ctrs : (s.modTime f).ctrs = s.ctrs := rfl
@[simp] theorem State.modTime_comets : (s.modTime f).comets = s.comets := rfl
@[simp] theorem State.modTime_alm : (s.modTime f).alm = s.alm := rfl
@[simp] theorem State.modTime_regwin : (s.modTime f).regwin = s.regwin := rfl
@[simp] theorem State.modTime_ports : (s.modTime f).ports = s.ports := rfl
@[simp] theorem State.modTime_lds : (s.modTime f).lds = s.lds := rfl
@[simp] theorem State.modTime_ccis : (s.modTime f).ccis = s.ccis := rfl
@[simp] theorem State.modTime_chans : (s.modTime f).chans = s.chans := rfl
@[simp] theorem State.modTime_cap : (s.modTime f).cap = s.cap := rfl
@[simp] theorem State.modTime_mdata : (s.modTime f).mdata = s.mdata := rfl
@[simp] theorem State.modTime_allocs : (s.modTime f).allocs = s.allocs := rfl
@[simp] theorem State.modTime_waiters : (s.modTime f).waiters = s.waiters := rfl
@[simp] theorem State.modTime_dram : (s.modTime f).dram = s.dram := rfl
@[simp] theorem State.modTime_quads : (s.modTime f).quads = s.quads := rfl
@[simp] theorem State.modTime_clusters : (s.modTime f).clusters = s.clusters := rfl
@[simp] theorem State.modTime_sketch : (s.modTime f).sketch = s.sketch := rfl
@[simp] theorem State.modTime_keys : (s.modTime f).keys = s.keys := rfl
@[simp] theorem State.modTime_path : (s.modTime f).path = s.path := rfl
@[simp] theorem State.modTime_gather : (s.modTime f).gather = s.gather := rfl
@[simp] theorem State.modTime_qos : (s.modTime f).qos = s.qos := rfl
@[simp] theorem State.modTime_integ : (s.modTime f).integ = s.integ := rfl
@[simp] theorem State.modTime_ulis : (s.modTime f).ulis = s.ulis := rfl
@[simp] theorem State.modTime_const : (s.modTime f).const = s.const := rfl
@[simp] theorem State.modTime_img : (s.modTime f).img = s.img := rfl
@[simp] theorem State.modTime_ril : (s.modTime f).ril = s.ril := rfl
@[simp] theorem State.modTime_threads : (s.modTime f).threads = s.threads := rfl
@[simp] theorem State.modTime_queues : (s.modTime f).queues = s.queues := rfl
@[simp] theorem State.modTime_out : (s.modTime f).out = s.out := rfl
@[simp] theorem State.modTime_free : (s.modTime f).free = s.free := rfl
@[simp] theorem State.modTime_draws : (s.modTime f).draws = s.draws := rfl
@[simp] theorem State.modTime_pending : (s.modTime f).pending = s.pending := rfl
@[simp] theorem State.modTime_at_slot (m : Nat) : (s.modTime f).slot m = s.slot m := rfl
@[simp] theorem State.modTime_at_sensor (m : Nat) : (s.modTime f).sensor m = s.sensor m := rfl
@[simp] theorem State.modTime_at_port (m : Nat) : (s.modTime f).port m = s.port m := rfl
@[simp] theorem State.modTime_at_ld (m : Nat) : (s.modTime f).ld m = s.ld m := rfl
@[simp] theorem State.modTime_at_cci (m : Nat) : (s.modTime f).cci m = s.cci m := rfl
@[simp] theorem State.modTime_at_chan (m : Nat) : (s.modTime f).chan m = s.chan m := rfl
@[simp] theorem State.modTime_at_thread (m : Nat) : (s.modTime f).thread m = s.thread m := rfl
@[simp] theorem State.modTime_at_queue (m : Nat) : (s.modTime f).queue m = s.queue m := rfl
@[simp] theorem State.modTime_at_ctr (m : Nat) : (s.modTime f).ctr m = s.ctr m := rfl
@[simp] theorem State.modTime_at_cometQuad (m : Nat) : (s.modTime f).cometQuad m = s.cometQuad m := rfl
@[simp] theorem State.modTime_at_dom (m : Nat) : (s.modTime f).dom m = s.dom m := rfl
@[simp] theorem State.modTime_at_uli (m : Nat) : (s.modTime f).uli m = s.uli m := rfl
@[simp] theorem State.modTime_at_member (m : Nat) : (s.modTime f).member m = s.member m := rfl
@[simp] theorem State.modTime_at_alloc (m : Nat) : (s.modTime f).alloc m = s.alloc m := rfl
@[simp] theorem State.modTime_at_quad (m : Nat) : (s.modTime f).quad m = s.quad m := rfl
@[simp] theorem State.modTime_at_cluster (m : Nat) : (s.modTime f).cluster m = s.cluster m := rfl
@[simp] theorem State.modTime_at_extent (m : Nat) : (s.modTime f).extent m = s.extent m := rfl
@[simp] theorem State.modTime_at_keySlot (m : Nat) : (s.modTime f).keySlot m = s.keySlot m := rfl
@[simp] theorem State.modTime_at_remote (m : Nat) : (s.modTime f).remote m = s.remote m := rfl

@[simp] theorem State.modTime_time : (s.modTime f).time = f s.time := rfl

end

/-! ### modPower -/

section
variable (s : State) (f : Power → Power)

@[simp] theorem State.modPower_ident : (s.modPower f).ident = s.ident := rfl
@[simp] theorem State.modPower_time : (s.modPower f).time = s.time := rfl
@[simp] theorem State.modPower_start : (s.modPower f).start = s.start := rfl
@[simp] theorem State.modPower_slots : (s.modPower f).slots = s.slots := rfl
@[simp] theorem State.modPower_slotMgr : (s.modPower f).slotMgr = s.slotMgr := rfl
@[simp] theorem State.modPower_sensors : (s.modPower f).sensors = s.sensors := rfl
@[simp] theorem State.modPower_faults : (s.modPower f).faults = s.faults := rfl
@[simp] theorem State.modPower_rec_ : (s.modPower f).rec_ = s.rec_ := rfl
@[simp] theorem State.modPower_ctrs : (s.modPower f).ctrs = s.ctrs := rfl
@[simp] theorem State.modPower_comets : (s.modPower f).comets = s.comets := rfl
@[simp] theorem State.modPower_alm : (s.modPower f).alm = s.alm := rfl
@[simp] theorem State.modPower_regwin : (s.modPower f).regwin = s.regwin := rfl
@[simp] theorem State.modPower_ports : (s.modPower f).ports = s.ports := rfl
@[simp] theorem State.modPower_lds : (s.modPower f).lds = s.lds := rfl
@[simp] theorem State.modPower_ccis : (s.modPower f).ccis = s.ccis := rfl
@[simp] theorem State.modPower_chans : (s.modPower f).chans = s.chans := rfl
@[simp] theorem State.modPower_cap : (s.modPower f).cap = s.cap := rfl
@[simp] theorem State.modPower_mdata : (s.modPower f).mdata = s.mdata := rfl
@[simp] theorem State.modPower_allocs : (s.modPower f).allocs = s.allocs := rfl
@[simp] theorem State.modPower_waiters : (s.modPower f).waiters = s.waiters := rfl
@[simp] theorem State.modPower_dram : (s.modPower f).dram = s.dram := rfl
@[simp] theorem State.modPower_quads : (s.modPower f).quads = s.quads := rfl
@[simp] theorem State.modPower_clusters : (s.modPower f).clusters = s.clusters := rfl
@[simp] theorem State.modPower_sketch : (s.modPower f).sketch = s.sketch := rfl
@[simp] theorem State.modPower_keys : (s.modPower f).keys = s.keys := rfl
@[simp] theorem State.modPower_path : (s.modPower f).path = s.path := rfl
@[simp] theorem State.modPower_gather : (s.modPower f).gather = s.gather := rfl
@[simp] theorem State.modPower_qos : (s.modPower f).qos = s.qos := rfl
@[simp] theorem State.modPower_integ : (s.modPower f).integ = s.integ := rfl
@[simp] theorem State.modPower_ulis : (s.modPower f).ulis = s.ulis := rfl
@[simp] theorem State.modPower_const : (s.modPower f).const = s.const := rfl
@[simp] theorem State.modPower_img : (s.modPower f).img = s.img := rfl
@[simp] theorem State.modPower_ril : (s.modPower f).ril = s.ril := rfl
@[simp] theorem State.modPower_threads : (s.modPower f).threads = s.threads := rfl
@[simp] theorem State.modPower_queues : (s.modPower f).queues = s.queues := rfl
@[simp] theorem State.modPower_out : (s.modPower f).out = s.out := rfl
@[simp] theorem State.modPower_free : (s.modPower f).free = s.free := rfl
@[simp] theorem State.modPower_draws : (s.modPower f).draws = s.draws := rfl
@[simp] theorem State.modPower_pending : (s.modPower f).pending = s.pending := rfl
@[simp] theorem State.modPower_at_slot (m : Nat) : (s.modPower f).slot m = s.slot m := rfl
@[simp] theorem State.modPower_at_sensor (m : Nat) : (s.modPower f).sensor m = s.sensor m := rfl
@[simp] theorem State.modPower_at_port (m : Nat) : (s.modPower f).port m = s.port m := rfl
@[simp] theorem State.modPower_at_ld (m : Nat) : (s.modPower f).ld m = s.ld m := rfl
@[simp] theorem State.modPower_at_cci (m : Nat) : (s.modPower f).cci m = s.cci m := rfl
@[simp] theorem State.modPower_at_chan (m : Nat) : (s.modPower f).chan m = s.chan m := rfl
@[simp] theorem State.modPower_at_thread (m : Nat) : (s.modPower f).thread m = s.thread m := rfl
@[simp] theorem State.modPower_at_queue (m : Nat) : (s.modPower f).queue m = s.queue m := rfl
@[simp] theorem State.modPower_at_ctr (m : Nat) : (s.modPower f).ctr m = s.ctr m := rfl
@[simp] theorem State.modPower_at_cometQuad (m : Nat) : (s.modPower f).cometQuad m = s.cometQuad m := rfl
@[simp] theorem State.modPower_at_uli (m : Nat) : (s.modPower f).uli m = s.uli m := rfl
@[simp] theorem State.modPower_at_member (m : Nat) : (s.modPower f).member m = s.member m := rfl
@[simp] theorem State.modPower_at_alloc (m : Nat) : (s.modPower f).alloc m = s.alloc m := rfl
@[simp] theorem State.modPower_at_quad (m : Nat) : (s.modPower f).quad m = s.quad m := rfl
@[simp] theorem State.modPower_at_cluster (m : Nat) : (s.modPower f).cluster m = s.cluster m := rfl
@[simp] theorem State.modPower_at_extent (m : Nat) : (s.modPower f).extent m = s.extent m := rfl
@[simp] theorem State.modPower_at_keySlot (m : Nat) : (s.modPower f).keySlot m = s.keySlot m := rfl
@[simp] theorem State.modPower_at_remote (m : Nat) : (s.modPower f).remote m = s.remote m := rfl

@[simp] theorem State.modPower_power : (s.modPower f).power = f s.power := rfl

end

/-! ### modStart -/

section
variable (s : State) (f : Start → Start)

@[simp] theorem State.modStart_ident : (s.modStart f).ident = s.ident := rfl
@[simp] theorem State.modStart_time : (s.modStart f).time = s.time := rfl
@[simp] theorem State.modStart_power : (s.modStart f).power = s.power := rfl
@[simp] theorem State.modStart_slots : (s.modStart f).slots = s.slots := rfl
@[simp] theorem State.modStart_slotMgr : (s.modStart f).slotMgr = s.slotMgr := rfl
@[simp] theorem State.modStart_sensors : (s.modStart f).sensors = s.sensors := rfl
@[simp] theorem State.modStart_faults : (s.modStart f).faults = s.faults := rfl
@[simp] theorem State.modStart_rec_ : (s.modStart f).rec_ = s.rec_ := rfl
@[simp] theorem State.modStart_ctrs : (s.modStart f).ctrs = s.ctrs := rfl
@[simp] theorem State.modStart_comets : (s.modStart f).comets = s.comets := rfl
@[simp] theorem State.modStart_alm : (s.modStart f).alm = s.alm := rfl
@[simp] theorem State.modStart_regwin : (s.modStart f).regwin = s.regwin := rfl
@[simp] theorem State.modStart_ports : (s.modStart f).ports = s.ports := rfl
@[simp] theorem State.modStart_lds : (s.modStart f).lds = s.lds := rfl
@[simp] theorem State.modStart_ccis : (s.modStart f).ccis = s.ccis := rfl
@[simp] theorem State.modStart_chans : (s.modStart f).chans = s.chans := rfl
@[simp] theorem State.modStart_cap : (s.modStart f).cap = s.cap := rfl
@[simp] theorem State.modStart_mdata : (s.modStart f).mdata = s.mdata := rfl
@[simp] theorem State.modStart_allocs : (s.modStart f).allocs = s.allocs := rfl
@[simp] theorem State.modStart_waiters : (s.modStart f).waiters = s.waiters := rfl
@[simp] theorem State.modStart_dram : (s.modStart f).dram = s.dram := rfl
@[simp] theorem State.modStart_quads : (s.modStart f).quads = s.quads := rfl
@[simp] theorem State.modStart_clusters : (s.modStart f).clusters = s.clusters := rfl
@[simp] theorem State.modStart_sketch : (s.modStart f).sketch = s.sketch := rfl
@[simp] theorem State.modStart_keys : (s.modStart f).keys = s.keys := rfl
@[simp] theorem State.modStart_path : (s.modStart f).path = s.path := rfl
@[simp] theorem State.modStart_gather : (s.modStart f).gather = s.gather := rfl
@[simp] theorem State.modStart_qos : (s.modStart f).qos = s.qos := rfl
@[simp] theorem State.modStart_integ : (s.modStart f).integ = s.integ := rfl
@[simp] theorem State.modStart_ulis : (s.modStart f).ulis = s.ulis := rfl
@[simp] theorem State.modStart_const : (s.modStart f).const = s.const := rfl
@[simp] theorem State.modStart_img : (s.modStart f).img = s.img := rfl
@[simp] theorem State.modStart_ril : (s.modStart f).ril = s.ril := rfl
@[simp] theorem State.modStart_threads : (s.modStart f).threads = s.threads := rfl
@[simp] theorem State.modStart_queues : (s.modStart f).queues = s.queues := rfl
@[simp] theorem State.modStart_out : (s.modStart f).out = s.out := rfl
@[simp] theorem State.modStart_free : (s.modStart f).free = s.free := rfl
@[simp] theorem State.modStart_draws : (s.modStart f).draws = s.draws := rfl
@[simp] theorem State.modStart_pending : (s.modStart f).pending = s.pending := rfl
@[simp] theorem State.modStart_at_slot (m : Nat) : (s.modStart f).slot m = s.slot m := rfl
@[simp] theorem State.modStart_at_sensor (m : Nat) : (s.modStart f).sensor m = s.sensor m := rfl
@[simp] theorem State.modStart_at_port (m : Nat) : (s.modStart f).port m = s.port m := rfl
@[simp] theorem State.modStart_at_ld (m : Nat) : (s.modStart f).ld m = s.ld m := rfl
@[simp] theorem State.modStart_at_cci (m : Nat) : (s.modStart f).cci m = s.cci m := rfl
@[simp] theorem State.modStart_at_chan (m : Nat) : (s.modStart f).chan m = s.chan m := rfl
@[simp] theorem State.modStart_at_thread (m : Nat) : (s.modStart f).thread m = s.thread m := rfl
@[simp] theorem State.modStart_at_queue (m : Nat) : (s.modStart f).queue m = s.queue m := rfl
@[simp] theorem State.modStart_at_ctr (m : Nat) : (s.modStart f).ctr m = s.ctr m := rfl
@[simp] theorem State.modStart_at_cometQuad (m : Nat) : (s.modStart f).cometQuad m = s.cometQuad m := rfl
@[simp] theorem State.modStart_at_dom (m : Nat) : (s.modStart f).dom m = s.dom m := rfl
@[simp] theorem State.modStart_at_uli (m : Nat) : (s.modStart f).uli m = s.uli m := rfl
@[simp] theorem State.modStart_at_member (m : Nat) : (s.modStart f).member m = s.member m := rfl
@[simp] theorem State.modStart_at_alloc (m : Nat) : (s.modStart f).alloc m = s.alloc m := rfl
@[simp] theorem State.modStart_at_quad (m : Nat) : (s.modStart f).quad m = s.quad m := rfl
@[simp] theorem State.modStart_at_cluster (m : Nat) : (s.modStart f).cluster m = s.cluster m := rfl
@[simp] theorem State.modStart_at_extent (m : Nat) : (s.modStart f).extent m = s.extent m := rfl
@[simp] theorem State.modStart_at_keySlot (m : Nat) : (s.modStart f).keySlot m = s.keySlot m := rfl
@[simp] theorem State.modStart_at_remote (m : Nat) : (s.modStart f).remote m = s.remote m := rfl

@[simp] theorem State.modStart_start : (s.modStart f).start = f s.start := rfl

end

/-! ### modFaults -/

section
variable (s : State) (f : Faults → Faults)

@[simp] theorem State.modFaults_ident : (s.modFaults f).ident = s.ident := rfl
@[simp] theorem State.modFaults_time : (s.modFaults f).time = s.time := rfl
@[simp] theorem State.modFaults_power : (s.modFaults f).power = s.power := rfl
@[simp] theorem State.modFaults_start : (s.modFaults f).start = s.start := rfl
@[simp] theorem State.modFaults_slots : (s.modFaults f).slots = s.slots := rfl
@[simp] theorem State.modFaults_slotMgr : (s.modFaults f).slotMgr = s.slotMgr := rfl
@[simp] theorem State.modFaults_sensors : (s.modFaults f).sensors = s.sensors := rfl
@[simp] theorem State.modFaults_rec_ : (s.modFaults f).rec_ = s.rec_ := rfl
@[simp] theorem State.modFaults_ctrs : (s.modFaults f).ctrs = s.ctrs := rfl
@[simp] theorem State.modFaults_comets : (s.modFaults f).comets = s.comets := rfl
@[simp] theorem State.modFaults_alm : (s.modFaults f).alm = s.alm := rfl
@[simp] theorem State.modFaults_regwin : (s.modFaults f).regwin = s.regwin := rfl
@[simp] theorem State.modFaults_ports : (s.modFaults f).ports = s.ports := rfl
@[simp] theorem State.modFaults_lds : (s.modFaults f).lds = s.lds := rfl
@[simp] theorem State.modFaults_ccis : (s.modFaults f).ccis = s.ccis := rfl
@[simp] theorem State.modFaults_chans : (s.modFaults f).chans = s.chans := rfl
@[simp] theorem State.modFaults_cap : (s.modFaults f).cap = s.cap := rfl
@[simp] theorem State.modFaults_mdata : (s.modFaults f).mdata = s.mdata := rfl
@[simp] theorem State.modFaults_allocs : (s.modFaults f).allocs = s.allocs := rfl
@[simp] theorem State.modFaults_waiters : (s.modFaults f).waiters = s.waiters := rfl
@[simp] theorem State.modFaults_dram : (s.modFaults f).dram = s.dram := rfl
@[simp] theorem State.modFaults_quads : (s.modFaults f).quads = s.quads := rfl
@[simp] theorem State.modFaults_clusters : (s.modFaults f).clusters = s.clusters := rfl
@[simp] theorem State.modFaults_sketch : (s.modFaults f).sketch = s.sketch := rfl
@[simp] theorem State.modFaults_keys : (s.modFaults f).keys = s.keys := rfl
@[simp] theorem State.modFaults_path : (s.modFaults f).path = s.path := rfl
@[simp] theorem State.modFaults_gather : (s.modFaults f).gather = s.gather := rfl
@[simp] theorem State.modFaults_qos : (s.modFaults f).qos = s.qos := rfl
@[simp] theorem State.modFaults_integ : (s.modFaults f).integ = s.integ := rfl
@[simp] theorem State.modFaults_ulis : (s.modFaults f).ulis = s.ulis := rfl
@[simp] theorem State.modFaults_const : (s.modFaults f).const = s.const := rfl
@[simp] theorem State.modFaults_img : (s.modFaults f).img = s.img := rfl
@[simp] theorem State.modFaults_ril : (s.modFaults f).ril = s.ril := rfl
@[simp] theorem State.modFaults_threads : (s.modFaults f).threads = s.threads := rfl
@[simp] theorem State.modFaults_queues : (s.modFaults f).queues = s.queues := rfl
@[simp] theorem State.modFaults_out : (s.modFaults f).out = s.out := rfl
@[simp] theorem State.modFaults_free : (s.modFaults f).free = s.free := rfl
@[simp] theorem State.modFaults_draws : (s.modFaults f).draws = s.draws := rfl
@[simp] theorem State.modFaults_pending : (s.modFaults f).pending = s.pending := rfl
@[simp] theorem State.modFaults_at_slot (m : Nat) : (s.modFaults f).slot m = s.slot m := rfl
@[simp] theorem State.modFaults_at_sensor (m : Nat) : (s.modFaults f).sensor m = s.sensor m := rfl
@[simp] theorem State.modFaults_at_port (m : Nat) : (s.modFaults f).port m = s.port m := rfl
@[simp] theorem State.modFaults_at_ld (m : Nat) : (s.modFaults f).ld m = s.ld m := rfl
@[simp] theorem State.modFaults_at_cci (m : Nat) : (s.modFaults f).cci m = s.cci m := rfl
@[simp] theorem State.modFaults_at_chan (m : Nat) : (s.modFaults f).chan m = s.chan m := rfl
@[simp] theorem State.modFaults_at_thread (m : Nat) : (s.modFaults f).thread m = s.thread m := rfl
@[simp] theorem State.modFaults_at_queue (m : Nat) : (s.modFaults f).queue m = s.queue m := rfl
@[simp] theorem State.modFaults_at_ctr (m : Nat) : (s.modFaults f).ctr m = s.ctr m := rfl
@[simp] theorem State.modFaults_at_cometQuad (m : Nat) : (s.modFaults f).cometQuad m = s.cometQuad m := rfl
@[simp] theorem State.modFaults_at_dom (m : Nat) : (s.modFaults f).dom m = s.dom m := rfl
@[simp] theorem State.modFaults_at_uli (m : Nat) : (s.modFaults f).uli m = s.uli m := rfl
@[simp] theorem State.modFaults_at_member (m : Nat) : (s.modFaults f).member m = s.member m := rfl
@[simp] theorem State.modFaults_at_alloc (m : Nat) : (s.modFaults f).alloc m = s.alloc m := rfl
@[simp] theorem State.modFaults_at_quad (m : Nat) : (s.modFaults f).quad m = s.quad m := rfl
@[simp] theorem State.modFaults_at_cluster (m : Nat) : (s.modFaults f).cluster m = s.cluster m := rfl
@[simp] theorem State.modFaults_at_extent (m : Nat) : (s.modFaults f).extent m = s.extent m := rfl
@[simp] theorem State.modFaults_at_keySlot (m : Nat) : (s.modFaults f).keySlot m = s.keySlot m := rfl
@[simp] theorem State.modFaults_at_remote (m : Nat) : (s.modFaults f).remote m = s.remote m := rfl

@[simp] theorem State.modFaults_faults : (s.modFaults f).faults = f s.faults := rfl

end

/-! ### modRec -/

section
variable (s : State) (f : Recorder → Recorder)

@[simp] theorem State.modRec_ident : (s.modRec f).ident = s.ident := rfl
@[simp] theorem State.modRec_time : (s.modRec f).time = s.time := rfl
@[simp] theorem State.modRec_power : (s.modRec f).power = s.power := rfl
@[simp] theorem State.modRec_start : (s.modRec f).start = s.start := rfl
@[simp] theorem State.modRec_slots : (s.modRec f).slots = s.slots := rfl
@[simp] theorem State.modRec_slotMgr : (s.modRec f).slotMgr = s.slotMgr := rfl
@[simp] theorem State.modRec_sensors : (s.modRec f).sensors = s.sensors := rfl
@[simp] theorem State.modRec_faults : (s.modRec f).faults = s.faults := rfl
@[simp] theorem State.modRec_ctrs : (s.modRec f).ctrs = s.ctrs := rfl
@[simp] theorem State.modRec_comets : (s.modRec f).comets = s.comets := rfl
@[simp] theorem State.modRec_alm : (s.modRec f).alm = s.alm := rfl
@[simp] theorem State.modRec_regwin : (s.modRec f).regwin = s.regwin := rfl
@[simp] theorem State.modRec_ports : (s.modRec f).ports = s.ports := rfl
@[simp] theorem State.modRec_lds : (s.modRec f).lds = s.lds := rfl
@[simp] theorem State.modRec_ccis : (s.modRec f).ccis = s.ccis := rfl
@[simp] theorem State.modRec_chans : (s.modRec f).chans = s.chans := rfl
@[simp] theorem State.modRec_cap : (s.modRec f).cap = s.cap := rfl
@[simp] theorem State.modRec_mdata : (s.modRec f).mdata = s.mdata := rfl
@[simp] theorem State.modRec_allocs : (s.modRec f).allocs = s.allocs := rfl
@[simp] theorem State.modRec_waiters : (s.modRec f).waiters = s.waiters := rfl
@[simp] theorem State.modRec_dram : (s.modRec f).dram = s.dram := rfl
@[simp] theorem State.modRec_quads : (s.modRec f).quads = s.quads := rfl
@[simp] theorem State.modRec_clusters : (s.modRec f).clusters = s.clusters := rfl
@[simp] theorem State.modRec_sketch : (s.modRec f).sketch = s.sketch := rfl
@[simp] theorem State.modRec_keys : (s.modRec f).keys = s.keys := rfl
@[simp] theorem State.modRec_path : (s.modRec f).path = s.path := rfl
@[simp] theorem State.modRec_gather : (s.modRec f).gather = s.gather := rfl
@[simp] theorem State.modRec_qos : (s.modRec f).qos = s.qos := rfl
@[simp] theorem State.modRec_integ : (s.modRec f).integ = s.integ := rfl
@[simp] theorem State.modRec_ulis : (s.modRec f).ulis = s.ulis := rfl
@[simp] theorem State.modRec_const : (s.modRec f).const = s.const := rfl
@[simp] theorem State.modRec_img : (s.modRec f).img = s.img := rfl
@[simp] theorem State.modRec_ril : (s.modRec f).ril = s.ril := rfl
@[simp] theorem State.modRec_threads : (s.modRec f).threads = s.threads := rfl
@[simp] theorem State.modRec_queues : (s.modRec f).queues = s.queues := rfl
@[simp] theorem State.modRec_out : (s.modRec f).out = s.out := rfl
@[simp] theorem State.modRec_free : (s.modRec f).free = s.free := rfl
@[simp] theorem State.modRec_draws : (s.modRec f).draws = s.draws := rfl
@[simp] theorem State.modRec_pending : (s.modRec f).pending = s.pending := rfl
@[simp] theorem State.modRec_at_slot (m : Nat) : (s.modRec f).slot m = s.slot m := rfl
@[simp] theorem State.modRec_at_sensor (m : Nat) : (s.modRec f).sensor m = s.sensor m := rfl
@[simp] theorem State.modRec_at_port (m : Nat) : (s.modRec f).port m = s.port m := rfl
@[simp] theorem State.modRec_at_ld (m : Nat) : (s.modRec f).ld m = s.ld m := rfl
@[simp] theorem State.modRec_at_cci (m : Nat) : (s.modRec f).cci m = s.cci m := rfl
@[simp] theorem State.modRec_at_chan (m : Nat) : (s.modRec f).chan m = s.chan m := rfl
@[simp] theorem State.modRec_at_thread (m : Nat) : (s.modRec f).thread m = s.thread m := rfl
@[simp] theorem State.modRec_at_queue (m : Nat) : (s.modRec f).queue m = s.queue m := rfl
@[simp] theorem State.modRec_at_ctr (m : Nat) : (s.modRec f).ctr m = s.ctr m := rfl
@[simp] theorem State.modRec_at_cometQuad (m : Nat) : (s.modRec f).cometQuad m = s.cometQuad m := rfl
@[simp] theorem State.modRec_at_dom (m : Nat) : (s.modRec f).dom m = s.dom m := rfl
@[simp] theorem State.modRec_at_uli (m : Nat) : (s.modRec f).uli m = s.uli m := rfl
@[simp] theorem State.modRec_at_member (m : Nat) : (s.modRec f).member m = s.member m := rfl
@[simp] theorem State.modRec_at_alloc (m : Nat) : (s.modRec f).alloc m = s.alloc m := rfl
@[simp] theorem State.modRec_at_quad (m : Nat) : (s.modRec f).quad m = s.quad m := rfl
@[simp] theorem State.modRec_at_cluster (m : Nat) : (s.modRec f).cluster m = s.cluster m := rfl
@[simp] theorem State.modRec_at_extent (m : Nat) : (s.modRec f).extent m = s.extent m := rfl
@[simp] theorem State.modRec_at_keySlot (m : Nat) : (s.modRec f).keySlot m = s.keySlot m := rfl
@[simp] theorem State.modRec_at_remote (m : Nat) : (s.modRec f).remote m = s.remote m := rfl

@[simp] theorem State.modRec_rec_ : (s.modRec f).rec_ = f s.rec_ := rfl

end

/-! ### modAlm -/

section
variable (s : State) (f : Almanac → Almanac)

@[simp] theorem State.modAlm_ident : (s.modAlm f).ident = s.ident := rfl
@[simp] theorem State.modAlm_time : (s.modAlm f).time = s.time := rfl
@[simp] theorem State.modAlm_power : (s.modAlm f).power = s.power := rfl
@[simp] theorem State.modAlm_start : (s.modAlm f).start = s.start := rfl
@[simp] theorem State.modAlm_slots : (s.modAlm f).slots = s.slots := rfl
@[simp] theorem State.modAlm_slotMgr : (s.modAlm f).slotMgr = s.slotMgr := rfl
@[simp] theorem State.modAlm_sensors : (s.modAlm f).sensors = s.sensors := rfl
@[simp] theorem State.modAlm_faults : (s.modAlm f).faults = s.faults := rfl
@[simp] theorem State.modAlm_rec_ : (s.modAlm f).rec_ = s.rec_ := rfl
@[simp] theorem State.modAlm_ctrs : (s.modAlm f).ctrs = s.ctrs := rfl
@[simp] theorem State.modAlm_comets : (s.modAlm f).comets = s.comets := rfl
@[simp] theorem State.modAlm_regwin : (s.modAlm f).regwin = s.regwin := rfl
@[simp] theorem State.modAlm_ports : (s.modAlm f).ports = s.ports := rfl
@[simp] theorem State.modAlm_lds : (s.modAlm f).lds = s.lds := rfl
@[simp] theorem State.modAlm_ccis : (s.modAlm f).ccis = s.ccis := rfl
@[simp] theorem State.modAlm_chans : (s.modAlm f).chans = s.chans := rfl
@[simp] theorem State.modAlm_cap : (s.modAlm f).cap = s.cap := rfl
@[simp] theorem State.modAlm_mdata : (s.modAlm f).mdata = s.mdata := rfl
@[simp] theorem State.modAlm_allocs : (s.modAlm f).allocs = s.allocs := rfl
@[simp] theorem State.modAlm_waiters : (s.modAlm f).waiters = s.waiters := rfl
@[simp] theorem State.modAlm_dram : (s.modAlm f).dram = s.dram := rfl
@[simp] theorem State.modAlm_quads : (s.modAlm f).quads = s.quads := rfl
@[simp] theorem State.modAlm_clusters : (s.modAlm f).clusters = s.clusters := rfl
@[simp] theorem State.modAlm_sketch : (s.modAlm f).sketch = s.sketch := rfl
@[simp] theorem State.modAlm_keys : (s.modAlm f).keys = s.keys := rfl
@[simp] theorem State.modAlm_path : (s.modAlm f).path = s.path := rfl
@[simp] theorem State.modAlm_gather : (s.modAlm f).gather = s.gather := rfl
@[simp] theorem State.modAlm_qos : (s.modAlm f).qos = s.qos := rfl
@[simp] theorem State.modAlm_integ : (s.modAlm f).integ = s.integ := rfl
@[simp] theorem State.modAlm_ulis : (s.modAlm f).ulis = s.ulis := rfl
@[simp] theorem State.modAlm_const : (s.modAlm f).const = s.const := rfl
@[simp] theorem State.modAlm_img : (s.modAlm f).img = s.img := rfl
@[simp] theorem State.modAlm_ril : (s.modAlm f).ril = s.ril := rfl
@[simp] theorem State.modAlm_threads : (s.modAlm f).threads = s.threads := rfl
@[simp] theorem State.modAlm_queues : (s.modAlm f).queues = s.queues := rfl
@[simp] theorem State.modAlm_out : (s.modAlm f).out = s.out := rfl
@[simp] theorem State.modAlm_free : (s.modAlm f).free = s.free := rfl
@[simp] theorem State.modAlm_draws : (s.modAlm f).draws = s.draws := rfl
@[simp] theorem State.modAlm_pending : (s.modAlm f).pending = s.pending := rfl
@[simp] theorem State.modAlm_at_slot (m : Nat) : (s.modAlm f).slot m = s.slot m := rfl
@[simp] theorem State.modAlm_at_sensor (m : Nat) : (s.modAlm f).sensor m = s.sensor m := rfl
@[simp] theorem State.modAlm_at_port (m : Nat) : (s.modAlm f).port m = s.port m := rfl
@[simp] theorem State.modAlm_at_ld (m : Nat) : (s.modAlm f).ld m = s.ld m := rfl
@[simp] theorem State.modAlm_at_cci (m : Nat) : (s.modAlm f).cci m = s.cci m := rfl
@[simp] theorem State.modAlm_at_chan (m : Nat) : (s.modAlm f).chan m = s.chan m := rfl
@[simp] theorem State.modAlm_at_thread (m : Nat) : (s.modAlm f).thread m = s.thread m := rfl
@[simp] theorem State.modAlm_at_queue (m : Nat) : (s.modAlm f).queue m = s.queue m := rfl
@[simp] theorem State.modAlm_at_ctr (m : Nat) : (s.modAlm f).ctr m = s.ctr m := rfl
@[simp] theorem State.modAlm_at_cometQuad (m : Nat) : (s.modAlm f).cometQuad m = s.cometQuad m := rfl
@[simp] theorem State.modAlm_at_dom (m : Nat) : (s.modAlm f).dom m = s.dom m := rfl
@[simp] theorem State.modAlm_at_uli (m : Nat) : (s.modAlm f).uli m = s.uli m := rfl
@[simp] theorem State.modAlm_at_member (m : Nat) : (s.modAlm f).member m = s.member m := rfl
@[simp] theorem State.modAlm_at_alloc (m : Nat) : (s.modAlm f).alloc m = s.alloc m := rfl
@[simp] theorem State.modAlm_at_quad (m : Nat) : (s.modAlm f).quad m = s.quad m := rfl
@[simp] theorem State.modAlm_at_cluster (m : Nat) : (s.modAlm f).cluster m = s.cluster m := rfl
@[simp] theorem State.modAlm_at_extent (m : Nat) : (s.modAlm f).extent m = s.extent m := rfl
@[simp] theorem State.modAlm_at_keySlot (m : Nat) : (s.modAlm f).keySlot m = s.keySlot m := rfl
@[simp] theorem State.modAlm_at_remote (m : Nat) : (s.modAlm f).remote m = s.remote m := rfl

@[simp] theorem State.modAlm_alm : (s.modAlm f).alm = f s.alm := rfl

end

/-! ### modRil -/

section
variable (s : State) (f : Ril → Ril)

@[simp] theorem State.modRil_ident : (s.modRil f).ident = s.ident := rfl
@[simp] theorem State.modRil_time : (s.modRil f).time = s.time := rfl
@[simp] theorem State.modRil_power : (s.modRil f).power = s.power := rfl
@[simp] theorem State.modRil_start : (s.modRil f).start = s.start := rfl
@[simp] theorem State.modRil_slots : (s.modRil f).slots = s.slots := rfl
@[simp] theorem State.modRil_slotMgr : (s.modRil f).slotMgr = s.slotMgr := rfl
@[simp] theorem State.modRil_sensors : (s.modRil f).sensors = s.sensors := rfl
@[simp] theorem State.modRil_faults : (s.modRil f).faults = s.faults := rfl
@[simp] theorem State.modRil_rec_ : (s.modRil f).rec_ = s.rec_ := rfl
@[simp] theorem State.modRil_ctrs : (s.modRil f).ctrs = s.ctrs := rfl
@[simp] theorem State.modRil_comets : (s.modRil f).comets = s.comets := rfl
@[simp] theorem State.modRil_alm : (s.modRil f).alm = s.alm := rfl
@[simp] theorem State.modRil_regwin : (s.modRil f).regwin = s.regwin := rfl
@[simp] theorem State.modRil_ports : (s.modRil f).ports = s.ports := rfl
@[simp] theorem State.modRil_lds : (s.modRil f).lds = s.lds := rfl
@[simp] theorem State.modRil_ccis : (s.modRil f).ccis = s.ccis := rfl
@[simp] theorem State.modRil_chans : (s.modRil f).chans = s.chans := rfl
@[simp] theorem State.modRil_cap : (s.modRil f).cap = s.cap := rfl
@[simp] theorem State.modRil_mdata : (s.modRil f).mdata = s.mdata := rfl
@[simp] theorem State.modRil_allocs : (s.modRil f).allocs = s.allocs := rfl
@[simp] theorem State.modRil_waiters : (s.modRil f).waiters = s.waiters := rfl
@[simp] theorem State.modRil_dram : (s.modRil f).dram = s.dram := rfl
@[simp] theorem State.modRil_quads : (s.modRil f).quads = s.quads := rfl
@[simp] theorem State.modRil_clusters : (s.modRil f).clusters = s.clusters := rfl
@[simp] theorem State.modRil_sketch : (s.modRil f).sketch = s.sketch := rfl
@[simp] theorem State.modRil_keys : (s.modRil f).keys = s.keys := rfl
@[simp] theorem State.modRil_path : (s.modRil f).path = s.path := rfl
@[simp] theorem State.modRil_gather : (s.modRil f).gather = s.gather := rfl
@[simp] theorem State.modRil_qos : (s.modRil f).qos = s.qos := rfl
@[simp] theorem State.modRil_integ : (s.modRil f).integ = s.integ := rfl
@[simp] theorem State.modRil_ulis : (s.modRil f).ulis = s.ulis := rfl
@[simp] theorem State.modRil_const : (s.modRil f).const = s.const := rfl
@[simp] theorem State.modRil_img : (s.modRil f).img = s.img := rfl
@[simp] theorem State.modRil_threads : (s.modRil f).threads = s.threads := rfl
@[simp] theorem State.modRil_queues : (s.modRil f).queues = s.queues := rfl
@[simp] theorem State.modRil_out : (s.modRil f).out = s.out := rfl
@[simp] theorem State.modRil_free : (s.modRil f).free = s.free := rfl
@[simp] theorem State.modRil_draws : (s.modRil f).draws = s.draws := rfl
@[simp] theorem State.modRil_pending : (s.modRil f).pending = s.pending := rfl
@[simp] theorem State.modRil_at_slot (m : Nat) : (s.modRil f).slot m = s.slot m := rfl
@[simp] theorem State.modRil_at_sensor (m : Nat) : (s.modRil f).sensor m = s.sensor m := rfl
@[simp] theorem State.modRil_at_port (m : Nat) : (s.modRil f).port m = s.port m := rfl
@[simp] theorem State.modRil_at_ld (m : Nat) : (s.modRil f).ld m = s.ld m := rfl
@[simp] theorem State.modRil_at_cci (m : Nat) : (s.modRil f).cci m = s.cci m := rfl
@[simp] theorem State.modRil_at_chan (m : Nat) : (s.modRil f).chan m = s.chan m := rfl
@[simp] theorem State.modRil_at_thread (m : Nat) : (s.modRil f).thread m = s.thread m := rfl
@[simp] theorem State.modRil_at_queue (m : Nat) : (s.modRil f).queue m = s.queue m := rfl
@[simp] theorem State.modRil_at_ctr (m : Nat) : (s.modRil f).ctr m = s.ctr m := rfl
@[simp] theorem State.modRil_at_cometQuad (m : Nat) : (s.modRil f).cometQuad m = s.cometQuad m := rfl
@[simp] theorem State.modRil_at_dom (m : Nat) : (s.modRil f).dom m = s.dom m := rfl
@[simp] theorem State.modRil_at_uli (m : Nat) : (s.modRil f).uli m = s.uli m := rfl
@[simp] theorem State.modRil_at_member (m : Nat) : (s.modRil f).member m = s.member m := rfl
@[simp] theorem State.modRil_at_alloc (m : Nat) : (s.modRil f).alloc m = s.alloc m := rfl
@[simp] theorem State.modRil_at_quad (m : Nat) : (s.modRil f).quad m = s.quad m := rfl
@[simp] theorem State.modRil_at_cluster (m : Nat) : (s.modRil f).cluster m = s.cluster m := rfl
@[simp] theorem State.modRil_at_extent (m : Nat) : (s.modRil f).extent m = s.extent m := rfl
@[simp] theorem State.modRil_at_keySlot (m : Nat) : (s.modRil f).keySlot m = s.keySlot m := rfl
@[simp] theorem State.modRil_at_remote (m : Nat) : (s.modRil f).remote m = s.remote m := rfl

@[simp] theorem State.modRil_ril : (s.modRil f).ril = f s.ril := rfl

end

/-! ### modRegwin -/

section
variable (s : State) (f : RegWin → RegWin)

@[simp] theorem State.modRegwin_ident : (s.modRegwin f).ident = s.ident := rfl
@[simp] theorem State.modRegwin_time : (s.modRegwin f).time = s.time := rfl
@[simp] theorem State.modRegwin_power : (s.modRegwin f).power = s.power := rfl
@[simp] theorem State.modRegwin_start : (s.modRegwin f).start = s.start := rfl
@[simp] theorem State.modRegwin_slots : (s.modRegwin f).slots = s.slots := rfl
@[simp] theorem State.modRegwin_slotMgr : (s.modRegwin f).slotMgr = s.slotMgr := rfl
@[simp] theorem State.modRegwin_sensors : (s.modRegwin f).sensors = s.sensors := rfl
@[simp] theorem State.modRegwin_faults : (s.modRegwin f).faults = s.faults := rfl
@[simp] theorem State.modRegwin_rec_ : (s.modRegwin f).rec_ = s.rec_ := rfl
@[simp] theorem State.modRegwin_ctrs : (s.modRegwin f).ctrs = s.ctrs := rfl
@[simp] theorem State.modRegwin_comets : (s.modRegwin f).comets = s.comets := rfl
@[simp] theorem State.modRegwin_alm : (s.modRegwin f).alm = s.alm := rfl
@[simp] theorem State.modRegwin_ports : (s.modRegwin f).ports = s.ports := rfl
@[simp] theorem State.modRegwin_lds : (s.modRegwin f).lds = s.lds := rfl
@[simp] theorem State.modRegwin_ccis : (s.modRegwin f).ccis = s.ccis := rfl
@[simp] theorem State.modRegwin_chans : (s.modRegwin f).chans = s.chans := rfl
@[simp] theorem State.modRegwin_cap : (s.modRegwin f).cap = s.cap := rfl
@[simp] theorem State.modRegwin_mdata : (s.modRegwin f).mdata = s.mdata := rfl
@[simp] theorem State.modRegwin_allocs : (s.modRegwin f).allocs = s.allocs := rfl
@[simp] theorem State.modRegwin_waiters : (s.modRegwin f).waiters = s.waiters := rfl
@[simp] theorem State.modRegwin_dram : (s.modRegwin f).dram = s.dram := rfl
@[simp] theorem State.modRegwin_quads : (s.modRegwin f).quads = s.quads := rfl
@[simp] theorem State.modRegwin_clusters : (s.modRegwin f).clusters = s.clusters := rfl
@[simp] theorem State.modRegwin_sketch : (s.modRegwin f).sketch = s.sketch := rfl
@[simp] theorem State.modRegwin_keys : (s.modRegwin f).keys = s.keys := rfl
@[simp] theorem State.modRegwin_path : (s.modRegwin f).path = s.path := rfl
@[simp] theorem State.modRegwin_gather : (s.modRegwin f).gather = s.gather := rfl
@[simp] theorem State.modRegwin_qos : (s.modRegwin f).qos = s.qos := rfl
@[simp] theorem State.modRegwin_integ : (s.modRegwin f).integ = s.integ := rfl
@[simp] theorem State.modRegwin_ulis : (s.modRegwin f).ulis = s.ulis := rfl
@[simp] theorem State.modRegwin_const : (s.modRegwin f).const = s.const := rfl
@[simp] theorem State.modRegwin_img : (s.modRegwin f).img = s.img := rfl
@[simp] theorem State.modRegwin_ril : (s.modRegwin f).ril = s.ril := rfl
@[simp] theorem State.modRegwin_threads : (s.modRegwin f).threads = s.threads := rfl
@[simp] theorem State.modRegwin_queues : (s.modRegwin f).queues = s.queues := rfl
@[simp] theorem State.modRegwin_out : (s.modRegwin f).out = s.out := rfl
@[simp] theorem State.modRegwin_free : (s.modRegwin f).free = s.free := rfl
@[simp] theorem State.modRegwin_draws : (s.modRegwin f).draws = s.draws := rfl
@[simp] theorem State.modRegwin_pending : (s.modRegwin f).pending = s.pending := rfl
@[simp] theorem State.modRegwin_at_slot (m : Nat) : (s.modRegwin f).slot m = s.slot m := rfl
@[simp] theorem State.modRegwin_at_sensor (m : Nat) : (s.modRegwin f).sensor m = s.sensor m := rfl
@[simp] theorem State.modRegwin_at_port (m : Nat) : (s.modRegwin f).port m = s.port m := rfl
@[simp] theorem State.modRegwin_at_ld (m : Nat) : (s.modRegwin f).ld m = s.ld m := rfl
@[simp] theorem State.modRegwin_at_cci (m : Nat) : (s.modRegwin f).cci m = s.cci m := rfl
@[simp] theorem State.modRegwin_at_chan (m : Nat) : (s.modRegwin f).chan m = s.chan m := rfl
@[simp] theorem State.modRegwin_at_thread (m : Nat) : (s.modRegwin f).thread m = s.thread m := rfl
@[simp] theorem State.modRegwin_at_queue (m : Nat) : (s.modRegwin f).queue m = s.queue m := rfl
@[simp] theorem State.modRegwin_at_ctr (m : Nat) : (s.modRegwin f).ctr m = s.ctr m := rfl
@[simp] theorem State.modRegwin_at_cometQuad (m : Nat) : (s.modRegwin f).cometQuad m = s.cometQuad m := rfl
@[simp] theorem State.modRegwin_at_dom (m : Nat) : (s.modRegwin f).dom m = s.dom m := rfl
@[simp] theorem State.modRegwin_at_uli (m : Nat) : (s.modRegwin f).uli m = s.uli m := rfl
@[simp] theorem State.modRegwin_at_member (m : Nat) : (s.modRegwin f).member m = s.member m := rfl
@[simp] theorem State.modRegwin_at_alloc (m : Nat) : (s.modRegwin f).alloc m = s.alloc m := rfl
@[simp] theorem State.modRegwin_at_quad (m : Nat) : (s.modRegwin f).quad m = s.quad m := rfl
@[simp] theorem State.modRegwin_at_cluster (m : Nat) : (s.modRegwin f).cluster m = s.cluster m := rfl
@[simp] theorem State.modRegwin_at_extent (m : Nat) : (s.modRegwin f).extent m = s.extent m := rfl
@[simp] theorem State.modRegwin_at_keySlot (m : Nat) : (s.modRegwin f).keySlot m = s.keySlot m := rfl
@[simp] theorem State.modRegwin_at_remote (m : Nat) : (s.modRegwin f).remote m = s.remote m := rfl

@[simp] theorem State.modRegwin_regwin : (s.modRegwin f).regwin = f s.regwin := rfl

end

/-! ### modConst -/

section
variable (s : State) (f : Const → Const)

@[simp] theorem State.modConst_ident : (s.modConst f).ident = s.ident := rfl
@[simp] theorem State.modConst_time : (s.modConst f).time = s.time := rfl
@[simp] theorem State.modConst_power : (s.modConst f).power = s.power := rfl
@[simp] theorem State.modConst_start : (s.modConst f).start = s.start := rfl
@[simp] theorem State.modConst_slots : (s.modConst f).slots = s.slots := rfl
@[simp] theorem State.modConst_slotMgr : (s.modConst f).slotMgr = s.slotMgr := rfl
@[simp] theorem State.modConst_sensors : (s.modConst f).sensors = s.sensors := rfl
@[simp] theorem State.modConst_faults : (s.modConst f).faults = s.faults := rfl
@[simp] theorem State.modConst_rec_ : (s.modConst f).rec_ = s.rec_ := rfl
@[simp] theorem State.modConst_ctrs : (s.modConst f).ctrs = s.ctrs := rfl
@[simp] theorem State.modConst_comets : (s.modConst f).comets = s.comets := rfl
@[simp] theorem State.modConst_alm : (s.modConst f).alm = s.alm := rfl
@[simp] theorem State.modConst_regwin : (s.modConst f).regwin = s.regwin := rfl
@[simp] theorem State.modConst_ports : (s.modConst f).ports = s.ports := rfl
@[simp] theorem State.modConst_lds : (s.modConst f).lds = s.lds := rfl
@[simp] theorem State.modConst_ccis : (s.modConst f).ccis = s.ccis := rfl
@[simp] theorem State.modConst_chans : (s.modConst f).chans = s.chans := rfl
@[simp] theorem State.modConst_cap : (s.modConst f).cap = s.cap := rfl
@[simp] theorem State.modConst_mdata : (s.modConst f).mdata = s.mdata := rfl
@[simp] theorem State.modConst_allocs : (s.modConst f).allocs = s.allocs := rfl
@[simp] theorem State.modConst_waiters : (s.modConst f).waiters = s.waiters := rfl
@[simp] theorem State.modConst_dram : (s.modConst f).dram = s.dram := rfl
@[simp] theorem State.modConst_quads : (s.modConst f).quads = s.quads := rfl
@[simp] theorem State.modConst_clusters : (s.modConst f).clusters = s.clusters := rfl
@[simp] theorem State.modConst_sketch : (s.modConst f).sketch = s.sketch := rfl
@[simp] theorem State.modConst_keys : (s.modConst f).keys = s.keys := rfl
@[simp] theorem State.modConst_path : (s.modConst f).path = s.path := rfl
@[simp] theorem State.modConst_gather : (s.modConst f).gather = s.gather := rfl
@[simp] theorem State.modConst_qos : (s.modConst f).qos = s.qos := rfl
@[simp] theorem State.modConst_integ : (s.modConst f).integ = s.integ := rfl
@[simp] theorem State.modConst_ulis : (s.modConst f).ulis = s.ulis := rfl
@[simp] theorem State.modConst_img : (s.modConst f).img = s.img := rfl
@[simp] theorem State.modConst_ril : (s.modConst f).ril = s.ril := rfl
@[simp] theorem State.modConst_threads : (s.modConst f).threads = s.threads := rfl
@[simp] theorem State.modConst_queues : (s.modConst f).queues = s.queues := rfl
@[simp] theorem State.modConst_out : (s.modConst f).out = s.out := rfl
@[simp] theorem State.modConst_free : (s.modConst f).free = s.free := rfl
@[simp] theorem State.modConst_draws : (s.modConst f).draws = s.draws := rfl
@[simp] theorem State.modConst_pending : (s.modConst f).pending = s.pending := rfl
@[simp] theorem State.modConst_at_slot (m : Nat) : (s.modConst f).slot m = s.slot m := rfl
@[simp] theorem State.modConst_at_sensor (m : Nat) : (s.modConst f).sensor m = s.sensor m := rfl
@[simp] theorem State.modConst_at_port (m : Nat) : (s.modConst f).port m = s.port m := rfl
@[simp] theorem State.modConst_at_ld (m : Nat) : (s.modConst f).ld m = s.ld m := rfl
@[simp] theorem State.modConst_at_cci (m : Nat) : (s.modConst f).cci m = s.cci m := rfl
@[simp] theorem State.modConst_at_chan (m : Nat) : (s.modConst f).chan m = s.chan m := rfl
@[simp] theorem State.modConst_at_thread (m : Nat) : (s.modConst f).thread m = s.thread m := rfl
@[simp] theorem State.modConst_at_queue (m : Nat) : (s.modConst f).queue m = s.queue m := rfl
@[simp] theorem State.modConst_at_ctr (m : Nat) : (s.modConst f).ctr m = s.ctr m := rfl
@[simp] theorem State.modConst_at_cometQuad (m : Nat) : (s.modConst f).cometQuad m = s.cometQuad m := rfl
@[simp] theorem State.modConst_at_dom (m : Nat) : (s.modConst f).dom m = s.dom m := rfl
@[simp] theorem State.modConst_at_uli (m : Nat) : (s.modConst f).uli m = s.uli m := rfl
@[simp] theorem State.modConst_at_alloc (m : Nat) : (s.modConst f).alloc m = s.alloc m := rfl
@[simp] theorem State.modConst_at_quad (m : Nat) : (s.modConst f).quad m = s.quad m := rfl
@[simp] theorem State.modConst_at_cluster (m : Nat) : (s.modConst f).cluster m = s.cluster m := rfl
@[simp] theorem State.modConst_at_extent (m : Nat) : (s.modConst f).extent m = s.extent m := rfl
@[simp] theorem State.modConst_at_keySlot (m : Nat) : (s.modConst f).keySlot m = s.keySlot m := rfl

@[simp] theorem State.modConst_const : (s.modConst f).const = f s.const := rfl

end

/-! ### modCap -/

section
variable (s : State) (f : Cap → Cap)

@[simp] theorem State.modCap_ident : (s.modCap f).ident = s.ident := rfl
@[simp] theorem State.modCap_time : (s.modCap f).time = s.time := rfl
@[simp] theorem State.modCap_power : (s.modCap f).power = s.power := rfl
@[simp] theorem State.modCap_start : (s.modCap f).start = s.start := rfl
@[simp] theorem State.modCap_slots : (s.modCap f).slots = s.slots := rfl
@[simp] theorem State.modCap_slotMgr : (s.modCap f).slotMgr = s.slotMgr := rfl
@[simp] theorem State.modCap_sensors : (s.modCap f).sensors = s.sensors := rfl
@[simp] theorem State.modCap_faults : (s.modCap f).faults = s.faults := rfl
@[simp] theorem State.modCap_rec_ : (s.modCap f).rec_ = s.rec_ := rfl
@[simp] theorem State.modCap_ctrs : (s.modCap f).ctrs = s.ctrs := rfl
@[simp] theorem State.modCap_comets : (s.modCap f).comets = s.comets := rfl
@[simp] theorem State.modCap_alm : (s.modCap f).alm = s.alm := rfl
@[simp] theorem State.modCap_regwin : (s.modCap f).regwin = s.regwin := rfl
@[simp] theorem State.modCap_ports : (s.modCap f).ports = s.ports := rfl
@[simp] theorem State.modCap_lds : (s.modCap f).lds = s.lds := rfl
@[simp] theorem State.modCap_ccis : (s.modCap f).ccis = s.ccis := rfl
@[simp] theorem State.modCap_chans : (s.modCap f).chans = s.chans := rfl
@[simp] theorem State.modCap_mdata : (s.modCap f).mdata = s.mdata := rfl
@[simp] theorem State.modCap_allocs : (s.modCap f).allocs = s.allocs := rfl
@[simp] theorem State.modCap_waiters : (s.modCap f).waiters = s.waiters := rfl
@[simp] theorem State.modCap_dram : (s.modCap f).dram = s.dram := rfl
@[simp] theorem State.modCap_quads : (s.modCap f).quads = s.quads := rfl
@[simp] theorem State.modCap_clusters : (s.modCap f).clusters = s.clusters := rfl
@[simp] theorem State.modCap_sketch : (s.modCap f).sketch = s.sketch := rfl
@[simp] theorem State.modCap_keys : (s.modCap f).keys = s.keys := rfl
@[simp] theorem State.modCap_path : (s.modCap f).path = s.path := rfl
@[simp] theorem State.modCap_gather : (s.modCap f).gather = s.gather := rfl
@[simp] theorem State.modCap_qos : (s.modCap f).qos = s.qos := rfl
@[simp] theorem State.modCap_integ : (s.modCap f).integ = s.integ := rfl
@[simp] theorem State.modCap_ulis : (s.modCap f).ulis = s.ulis := rfl
@[simp] theorem State.modCap_const : (s.modCap f).const = s.const := rfl
@[simp] theorem State.modCap_img : (s.modCap f).img = s.img := rfl
@[simp] theorem State.modCap_ril : (s.modCap f).ril = s.ril := rfl
@[simp] theorem State.modCap_threads : (s.modCap f).threads = s.threads := rfl
@[simp] theorem State.modCap_queues : (s.modCap f).queues = s.queues := rfl
@[simp] theorem State.modCap_out : (s.modCap f).out = s.out := rfl
@[simp] theorem State.modCap_free : (s.modCap f).free = s.free := rfl
@[simp] theorem State.modCap_draws : (s.modCap f).draws = s.draws := rfl
@[simp] theorem State.modCap_pending : (s.modCap f).pending = s.pending := rfl
@[simp] theorem State.modCap_at_slot (m : Nat) : (s.modCap f).slot m = s.slot m := rfl
@[simp] theorem State.modCap_at_sensor (m : Nat) : (s.modCap f).sensor m = s.sensor m := rfl
@[simp] theorem State.modCap_at_port (m : Nat) : (s.modCap f).port m = s.port m := rfl
@[simp] theorem State.modCap_at_ld (m : Nat) : (s.modCap f).ld m = s.ld m := rfl
@[simp] theorem State.modCap_at_cci (m : Nat) : (s.modCap f).cci m = s.cci m := rfl
@[simp] theorem State.modCap_at_chan (m : Nat) : (s.modCap f).chan m = s.chan m := rfl
@[simp] theorem State.modCap_at_thread (m : Nat) : (s.modCap f).thread m = s.thread m := rfl
@[simp] theorem State.modCap_at_queue (m : Nat) : (s.modCap f).queue m = s.queue m := rfl
@[simp] theorem State.modCap_at_ctr (m : Nat) : (s.modCap f).ctr m = s.ctr m := rfl
@[simp] theorem State.modCap_at_cometQuad (m : Nat) : (s.modCap f).cometQuad m = s.cometQuad m := rfl
@[simp] theorem State.modCap_at_dom (m : Nat) : (s.modCap f).dom m = s.dom m := rfl
@[simp] theorem State.modCap_at_uli (m : Nat) : (s.modCap f).uli m = s.uli m := rfl
@[simp] theorem State.modCap_at_member (m : Nat) : (s.modCap f).member m = s.member m := rfl
@[simp] theorem State.modCap_at_alloc (m : Nat) : (s.modCap f).alloc m = s.alloc m := rfl
@[simp] theorem State.modCap_at_quad (m : Nat) : (s.modCap f).quad m = s.quad m := rfl
@[simp] theorem State.modCap_at_cluster (m : Nat) : (s.modCap f).cluster m = s.cluster m := rfl
@[simp] theorem State.modCap_at_keySlot (m : Nat) : (s.modCap f).keySlot m = s.keySlot m := rfl
@[simp] theorem State.modCap_at_remote (m : Nat) : (s.modCap f).remote m = s.remote m := rfl

@[simp] theorem State.modCap_cap : (s.modCap f).cap = f s.cap := rfl

end

/-! ### modMeta -/

section
variable (s : State) (f : Meta → Meta)

@[simp] theorem State.modMeta_ident : (s.modMeta f).ident = s.ident := rfl
@[simp] theorem State.modMeta_time : (s.modMeta f).time = s.time := rfl
@[simp] theorem State.modMeta_power : (s.modMeta f).power = s.power := rfl
@[simp] theorem State.modMeta_start : (s.modMeta f).start = s.start := rfl
@[simp] theorem State.modMeta_slots : (s.modMeta f).slots = s.slots := rfl
@[simp] theorem State.modMeta_slotMgr : (s.modMeta f).slotMgr = s.slotMgr := rfl
@[simp] theorem State.modMeta_sensors : (s.modMeta f).sensors = s.sensors := rfl
@[simp] theorem State.modMeta_faults : (s.modMeta f).faults = s.faults := rfl
@[simp] theorem State.modMeta_rec_ : (s.modMeta f).rec_ = s.rec_ := rfl
@[simp] theorem State.modMeta_ctrs : (s.modMeta f).ctrs = s.ctrs := rfl
@[simp] theorem State.modMeta_comets : (s.modMeta f).comets = s.comets := rfl
@[simp] theorem State.modMeta_alm : (s.modMeta f).alm = s.alm := rfl
@[simp] theorem State.modMeta_regwin : (s.modMeta f).regwin = s.regwin := rfl
@[simp] theorem State.modMeta_ports : (s.modMeta f).ports = s.ports := rfl
@[simp] theorem State.modMeta_lds : (s.modMeta f).lds = s.lds := rfl
@[simp] theorem State.modMeta_ccis : (s.modMeta f).ccis = s.ccis := rfl
@[simp] theorem State.modMeta_chans : (s.modMeta f).chans = s.chans := rfl
@[simp] theorem State.modMeta_cap : (s.modMeta f).cap = s.cap := rfl
@[simp] theorem State.modMeta_allocs : (s.modMeta f).allocs = s.allocs := rfl
@[simp] theorem State.modMeta_waiters : (s.modMeta f).waiters = s.waiters := rfl
@[simp] theorem State.modMeta_dram : (s.modMeta f).dram = s.dram := rfl
@[simp] theorem State.modMeta_quads : (s.modMeta f).quads = s.quads := rfl
@[simp] theorem State.modMeta_clusters : (s.modMeta f).clusters = s.clusters := rfl
@[simp] theorem State.modMeta_sketch : (s.modMeta f).sketch = s.sketch := rfl
@[simp] theorem State.modMeta_keys : (s.modMeta f).keys = s.keys := rfl
@[simp] theorem State.modMeta_path : (s.modMeta f).path = s.path := rfl
@[simp] theorem State.modMeta_gather : (s.modMeta f).gather = s.gather := rfl
@[simp] theorem State.modMeta_qos : (s.modMeta f).qos = s.qos := rfl
@[simp] theorem State.modMeta_integ : (s.modMeta f).integ = s.integ := rfl
@[simp] theorem State.modMeta_ulis : (s.modMeta f).ulis = s.ulis := rfl
@[simp] theorem State.modMeta_const : (s.modMeta f).const = s.const := rfl
@[simp] theorem State.modMeta_img : (s.modMeta f).img = s.img := rfl
@[simp] theorem State.modMeta_ril : (s.modMeta f).ril = s.ril := rfl
@[simp] theorem State.modMeta_threads : (s.modMeta f).threads = s.threads := rfl
@[simp] theorem State.modMeta_queues : (s.modMeta f).queues = s.queues := rfl
@[simp] theorem State.modMeta_out : (s.modMeta f).out = s.out := rfl
@[simp] theorem State.modMeta_free : (s.modMeta f).free = s.free := rfl
@[simp] theorem State.modMeta_draws : (s.modMeta f).draws = s.draws := rfl
@[simp] theorem State.modMeta_pending : (s.modMeta f).pending = s.pending := rfl
@[simp] theorem State.modMeta_at_slot (m : Nat) : (s.modMeta f).slot m = s.slot m := rfl
@[simp] theorem State.modMeta_at_sensor (m : Nat) : (s.modMeta f).sensor m = s.sensor m := rfl
@[simp] theorem State.modMeta_at_port (m : Nat) : (s.modMeta f).port m = s.port m := rfl
@[simp] theorem State.modMeta_at_ld (m : Nat) : (s.modMeta f).ld m = s.ld m := rfl
@[simp] theorem State.modMeta_at_cci (m : Nat) : (s.modMeta f).cci m = s.cci m := rfl
@[simp] theorem State.modMeta_at_chan (m : Nat) : (s.modMeta f).chan m = s.chan m := rfl
@[simp] theorem State.modMeta_at_thread (m : Nat) : (s.modMeta f).thread m = s.thread m := rfl
@[simp] theorem State.modMeta_at_queue (m : Nat) : (s.modMeta f).queue m = s.queue m := rfl
@[simp] theorem State.modMeta_at_ctr (m : Nat) : (s.modMeta f).ctr m = s.ctr m := rfl
@[simp] theorem State.modMeta_at_cometQuad (m : Nat) : (s.modMeta f).cometQuad m = s.cometQuad m := rfl
@[simp] theorem State.modMeta_at_dom (m : Nat) : (s.modMeta f).dom m = s.dom m := rfl
@[simp] theorem State.modMeta_at_uli (m : Nat) : (s.modMeta f).uli m = s.uli m := rfl
@[simp] theorem State.modMeta_at_member (m : Nat) : (s.modMeta f).member m = s.member m := rfl
@[simp] theorem State.modMeta_at_alloc (m : Nat) : (s.modMeta f).alloc m = s.alloc m := rfl
@[simp] theorem State.modMeta_at_quad (m : Nat) : (s.modMeta f).quad m = s.quad m := rfl
@[simp] theorem State.modMeta_at_cluster (m : Nat) : (s.modMeta f).cluster m = s.cluster m := rfl
@[simp] theorem State.modMeta_at_extent (m : Nat) : (s.modMeta f).extent m = s.extent m := rfl
@[simp] theorem State.modMeta_at_keySlot (m : Nat) : (s.modMeta f).keySlot m = s.keySlot m := rfl
@[simp] theorem State.modMeta_at_remote (m : Nat) : (s.modMeta f).remote m = s.remote m := rfl

@[simp] theorem State.modMeta_mdata : (s.modMeta f).mdata = f s.mdata := rfl

end

/-! ### modKeys -/

section
variable (s : State) (f : Keys → Keys)

@[simp] theorem State.modKeys_ident : (s.modKeys f).ident = s.ident := rfl
@[simp] theorem State.modKeys_time : (s.modKeys f).time = s.time := rfl
@[simp] theorem State.modKeys_power : (s.modKeys f).power = s.power := rfl
@[simp] theorem State.modKeys_start : (s.modKeys f).start = s.start := rfl
@[simp] theorem State.modKeys_slots : (s.modKeys f).slots = s.slots := rfl
@[simp] theorem State.modKeys_slotMgr : (s.modKeys f).slotMgr = s.slotMgr := rfl
@[simp] theorem State.modKeys_sensors : (s.modKeys f).sensors = s.sensors := rfl
@[simp] theorem State.modKeys_faults : (s.modKeys f).faults = s.faults := rfl
@[simp] theorem State.modKeys_rec_ : (s.modKeys f).rec_ = s.rec_ := rfl
@[simp] theorem State.modKeys_ctrs : (s.modKeys f).ctrs = s.ctrs := rfl
@[simp] theorem State.modKeys_comets : (s.modKeys f).comets = s.comets := rfl
@[simp] theorem State.modKeys_alm : (s.modKeys f).alm = s.alm := rfl
@[simp] theorem State.modKeys_regwin : (s.modKeys f).regwin = s.regwin := rfl
@[simp] theorem State.modKeys_ports : (s.modKeys f).ports = s.ports := rfl
@[simp] theorem State.modKeys_lds : (s.modKeys f).lds = s.lds := rfl
@[simp] theorem State.modKeys_ccis : (s.modKeys f).ccis = s.ccis := rfl
@[simp] theorem State.modKeys_chans : (s.modKeys f).chans = s.chans := rfl
@[simp] theorem State.modKeys_cap : (s.modKeys f).cap = s.cap := rfl
@[simp] theorem State.modKeys_mdata : (s.modKeys f).mdata = s.mdata := rfl
@[simp] theorem State.modKeys_allocs : (s.modKeys f).allocs = s.allocs := rfl
@[simp] theorem State.modKeys_waiters : (s.modKeys f).waiters = s.waiters := rfl
@[simp] theorem State.modKeys_dram : (s.modKeys f).dram = s.dram := rfl
@[simp] theorem State.modKeys_quads : (s.modKeys f).quads = s.quads := rfl
@[simp] theorem State.modKeys_clusters : (s.modKeys f).clusters = s.clusters := rfl
@[simp] theorem State.modKeys_sketch : (s.modKeys f).sketch = s.sketch := rfl
@[simp] theorem State.modKeys_path : (s.modKeys f).path = s.path := rfl
@[simp] theorem State.modKeys_gather : (s.modKeys f).gather = s.gather := rfl
@[simp] theorem State.modKeys_qos : (s.modKeys f).qos = s.qos := rfl
@[simp] theorem State.modKeys_integ : (s.modKeys f).integ = s.integ := rfl
@[simp] theorem State.modKeys_ulis : (s.modKeys f).ulis = s.ulis := rfl
@[simp] theorem State.modKeys_const : (s.modKeys f).const = s.const := rfl
@[simp] theorem State.modKeys_img : (s.modKeys f).img = s.img := rfl
@[simp] theorem State.modKeys_ril : (s.modKeys f).ril = s.ril := rfl
@[simp] theorem State.modKeys_threads : (s.modKeys f).threads = s.threads := rfl
@[simp] theorem State.modKeys_queues : (s.modKeys f).queues = s.queues := rfl
@[simp] theorem State.modKeys_out : (s.modKeys f).out = s.out := rfl
@[simp] theorem State.modKeys_free : (s.modKeys f).free = s.free := rfl
@[simp] theorem State.modKeys_draws : (s.modKeys f).draws = s.draws := rfl
@[simp] theorem State.modKeys_pending : (s.modKeys f).pending = s.pending := rfl
@[simp] theorem State.modKeys_at_slot (m : Nat) : (s.modKeys f).slot m = s.slot m := rfl
@[simp] theorem State.modKeys_at_sensor (m : Nat) : (s.modKeys f).sensor m = s.sensor m := rfl
@[simp] theorem State.modKeys_at_port (m : Nat) : (s.modKeys f).port m = s.port m := rfl
@[simp] theorem State.modKeys_at_ld (m : Nat) : (s.modKeys f).ld m = s.ld m := rfl
@[simp] theorem State.modKeys_at_cci (m : Nat) : (s.modKeys f).cci m = s.cci m := rfl
@[simp] theorem State.modKeys_at_chan (m : Nat) : (s.modKeys f).chan m = s.chan m := rfl
@[simp] theorem State.modKeys_at_thread (m : Nat) : (s.modKeys f).thread m = s.thread m := rfl
@[simp] theorem State.modKeys_at_queue (m : Nat) : (s.modKeys f).queue m = s.queue m := rfl
@[simp] theorem State.modKeys_at_ctr (m : Nat) : (s.modKeys f).ctr m = s.ctr m := rfl
@[simp] theorem State.modKeys_at_cometQuad (m : Nat) : (s.modKeys f).cometQuad m = s.cometQuad m := rfl
@[simp] theorem State.modKeys_at_dom (m : Nat) : (s.modKeys f).dom m = s.dom m := rfl
@[simp] theorem State.modKeys_at_uli (m : Nat) : (s.modKeys f).uli m = s.uli m := rfl
@[simp] theorem State.modKeys_at_member (m : Nat) : (s.modKeys f).member m = s.member m := rfl
@[simp] theorem State.modKeys_at_alloc (m : Nat) : (s.modKeys f).alloc m = s.alloc m := rfl
@[simp] theorem State.modKeys_at_quad (m : Nat) : (s.modKeys f).quad m = s.quad m := rfl
@[simp] theorem State.modKeys_at_cluster (m : Nat) : (s.modKeys f).cluster m = s.cluster m := rfl
@[simp] theorem State.modKeys_at_extent (m : Nat) : (s.modKeys f).extent m = s.extent m := rfl
@[simp] theorem State.modKeys_at_remote (m : Nat) : (s.modKeys f).remote m = s.remote m := rfl

@[simp] theorem State.modKeys_keys : (s.modKeys f).keys = f s.keys := rfl

end

/-! ### modPath -/

section
variable (s : State) (f : Path → Path)

@[simp] theorem State.modPath_ident : (s.modPath f).ident = s.ident := rfl
@[simp] theorem State.modPath_time : (s.modPath f).time = s.time := rfl
@[simp] theorem State.modPath_power : (s.modPath f).power = s.power := rfl
@[simp] theorem State.modPath_start : (s.modPath f).start = s.start := rfl
@[simp] theorem State.modPath_slots : (s.modPath f).slots = s.slots := rfl
@[simp] theorem State.modPath_slotMgr : (s.modPath f).slotMgr = s.slotMgr := rfl
@[simp] theorem State.modPath_sensors : (s.modPath f).sensors = s.sensors := rfl
@[simp] theorem State.modPath_faults : (s.modPath f).faults = s.faults := rfl
@[simp] theorem State.modPath_rec_ : (s.modPath f).rec_ = s.rec_ := rfl
@[simp] theorem State.modPath_ctrs : (s.modPath f).ctrs = s.ctrs := rfl
@[simp] theorem State.modPath_comets : (s.modPath f).comets = s.comets := rfl
@[simp] theorem State.modPath_alm : (s.modPath f).alm = s.alm := rfl
@[simp] theorem State.modPath_regwin : (s.modPath f).regwin = s.regwin := rfl
@[simp] theorem State.modPath_ports : (s.modPath f).ports = s.ports := rfl
@[simp] theorem State.modPath_lds : (s.modPath f).lds = s.lds := rfl
@[simp] theorem State.modPath_ccis : (s.modPath f).ccis = s.ccis := rfl
@[simp] theorem State.modPath_chans : (s.modPath f).chans = s.chans := rfl
@[simp] theorem State.modPath_cap : (s.modPath f).cap = s.cap := rfl
@[simp] theorem State.modPath_mdata : (s.modPath f).mdata = s.mdata := rfl
@[simp] theorem State.modPath_allocs : (s.modPath f).allocs = s.allocs := rfl
@[simp] theorem State.modPath_waiters : (s.modPath f).waiters = s.waiters := rfl
@[simp] theorem State.modPath_dram : (s.modPath f).dram = s.dram := rfl
@[simp] theorem State.modPath_quads : (s.modPath f).quads = s.quads := rfl
@[simp] theorem State.modPath_clusters : (s.modPath f).clusters = s.clusters := rfl
@[simp] theorem State.modPath_sketch : (s.modPath f).sketch = s.sketch := rfl
@[simp] theorem State.modPath_keys : (s.modPath f).keys = s.keys := rfl
@[simp] theorem State.modPath_gather : (s.modPath f).gather = s.gather := rfl
@[simp] theorem State.modPath_qos : (s.modPath f).qos = s.qos := rfl
@[simp] theorem State.modPath_integ : (s.modPath f).integ = s.integ := rfl
@[simp] theorem State.modPath_ulis : (s.modPath f).ulis = s.ulis := rfl
@[simp] theorem State.modPath_const : (s.modPath f).const = s.const := rfl
@[simp] theorem State.modPath_img : (s.modPath f).img = s.img := rfl
@[simp] theorem State.modPath_ril : (s.modPath f).ril = s.ril := rfl
@[simp] theorem State.modPath_threads : (s.modPath f).threads = s.threads := rfl
@[simp] theorem State.modPath_queues : (s.modPath f).queues = s.queues := rfl
@[simp] theorem State.modPath_out : (s.modPath f).out = s.out := rfl
@[simp] theorem State.modPath_free : (s.modPath f).free = s.free := rfl
@[simp] theorem State.modPath_draws : (s.modPath f).draws = s.draws := rfl
@[simp] theorem State.modPath_pending : (s.modPath f).pending = s.pending := rfl
@[simp] theorem State.modPath_at_slot (m : Nat) : (s.modPath f).slot m = s.slot m := rfl
@[simp] theorem State.modPath_at_sensor (m : Nat) : (s.modPath f).sensor m = s.sensor m := rfl
@[simp] theorem State.modPath_at_port (m : Nat) : (s.modPath f).port m = s.port m := rfl
@[simp] theorem State.modPath_at_ld (m : Nat) : (s.modPath f).ld m = s.ld m := rfl
@[simp] theorem State.modPath_at_cci (m : Nat) : (s.modPath f).cci m = s.cci m := rfl
@[simp] theorem State.modPath_at_chan (m : Nat) : (s.modPath f).chan m = s.chan m := rfl
@[simp] theorem State.modPath_at_thread (m : Nat) : (s.modPath f).thread m = s.thread m := rfl
@[simp] theorem State.modPath_at_queue (m : Nat) : (s.modPath f).queue m = s.queue m := rfl
@[simp] theorem State.modPath_at_ctr (m : Nat) : (s.modPath f).ctr m = s.ctr m := rfl
@[simp] theorem State.modPath_at_cometQuad (m : Nat) : (s.modPath f).cometQuad m = s.cometQuad m := rfl
@[simp] theorem State.modPath_at_dom (m : Nat) : (s.modPath f).dom m = s.dom m := rfl
@[simp] theorem State.modPath_at_uli (m : Nat) : (s.modPath f).uli m = s.uli m := rfl
@[simp] theorem State.modPath_at_member (m : Nat) : (s.modPath f).member m = s.member m := rfl
@[simp] theorem State.modPath_at_alloc (m : Nat) : (s.modPath f).alloc m = s.alloc m := rfl
@[simp] theorem State.modPath_at_quad (m : Nat) : (s.modPath f).quad m = s.quad m := rfl
@[simp] theorem State.modPath_at_cluster (m : Nat) : (s.modPath f).cluster m = s.cluster m := rfl
@[simp] theorem State.modPath_at_extent (m : Nat) : (s.modPath f).extent m = s.extent m := rfl
@[simp] theorem State.modPath_at_keySlot (m : Nat) : (s.modPath f).keySlot m = s.keySlot m := rfl
@[simp] theorem State.modPath_at_remote (m : Nat) : (s.modPath f).remote m = s.remote m := rfl

@[simp] theorem State.modPath_path : (s.modPath f).path = f s.path := rfl

end

/-! ### modGather -/

section
variable (s : State) (f : Gather → Gather)

@[simp] theorem State.modGather_ident : (s.modGather f).ident = s.ident := rfl
@[simp] theorem State.modGather_time : (s.modGather f).time = s.time := rfl
@[simp] theorem State.modGather_power : (s.modGather f).power = s.power := rfl
@[simp] theorem State.modGather_start : (s.modGather f).start = s.start := rfl
@[simp] theorem State.modGather_slots : (s.modGather f).slots = s.slots := rfl
@[simp] theorem State.modGather_slotMgr : (s.modGather f).slotMgr = s.slotMgr := rfl
@[simp] theorem State.modGather_sensors : (s.modGather f).sensors = s.sensors := rfl
@[simp] theorem State.modGather_faults : (s.modGather f).faults = s.faults := rfl
@[simp] theorem State.modGather_rec_ : (s.modGather f).rec_ = s.rec_ := rfl
@[simp] theorem State.modGather_ctrs : (s.modGather f).ctrs = s.ctrs := rfl
@[simp] theorem State.modGather_comets : (s.modGather f).comets = s.comets := rfl
@[simp] theorem State.modGather_alm : (s.modGather f).alm = s.alm := rfl
@[simp] theorem State.modGather_regwin : (s.modGather f).regwin = s.regwin := rfl
@[simp] theorem State.modGather_ports : (s.modGather f).ports = s.ports := rfl
@[simp] theorem State.modGather_lds : (s.modGather f).lds = s.lds := rfl
@[simp] theorem State.modGather_ccis : (s.modGather f).ccis = s.ccis := rfl
@[simp] theorem State.modGather_chans : (s.modGather f).chans = s.chans := rfl
@[simp] theorem State.modGather_cap : (s.modGather f).cap = s.cap := rfl
@[simp] theorem State.modGather_mdata : (s.modGather f).mdata = s.mdata := rfl
@[simp] theorem State.modGather_allocs : (s.modGather f).allocs = s.allocs := rfl
@[simp] theorem State.modGather_waiters : (s.modGather f).waiters = s.waiters := rfl
@[simp] theorem State.modGather_dram : (s.modGather f).dram = s.dram := rfl
@[simp] theorem State.modGather_quads : (s.modGather f).quads = s.quads := rfl
@[simp] theorem State.modGather_clusters : (s.modGather f).clusters = s.clusters := rfl
@[simp] theorem State.modGather_sketch : (s.modGather f).sketch = s.sketch := rfl
@[simp] theorem State.modGather_keys : (s.modGather f).keys = s.keys := rfl
@[simp] theorem State.modGather_path : (s.modGather f).path = s.path := rfl
@[simp] theorem State.modGather_qos : (s.modGather f).qos = s.qos := rfl
@[simp] theorem State.modGather_integ : (s.modGather f).integ = s.integ := rfl
@[simp] theorem State.modGather_ulis : (s.modGather f).ulis = s.ulis := rfl
@[simp] theorem State.modGather_const : (s.modGather f).const = s.const := rfl
@[simp] theorem State.modGather_img : (s.modGather f).img = s.img := rfl
@[simp] theorem State.modGather_ril : (s.modGather f).ril = s.ril := rfl
@[simp] theorem State.modGather_threads : (s.modGather f).threads = s.threads := rfl
@[simp] theorem State.modGather_queues : (s.modGather f).queues = s.queues := rfl
@[simp] theorem State.modGather_out : (s.modGather f).out = s.out := rfl
@[simp] theorem State.modGather_free : (s.modGather f).free = s.free := rfl
@[simp] theorem State.modGather_draws : (s.modGather f).draws = s.draws := rfl
@[simp] theorem State.modGather_pending : (s.modGather f).pending = s.pending := rfl
@[simp] theorem State.modGather_at_slot (m : Nat) : (s.modGather f).slot m = s.slot m := rfl
@[simp] theorem State.modGather_at_sensor (m : Nat) : (s.modGather f).sensor m = s.sensor m := rfl
@[simp] theorem State.modGather_at_port (m : Nat) : (s.modGather f).port m = s.port m := rfl
@[simp] theorem State.modGather_at_ld (m : Nat) : (s.modGather f).ld m = s.ld m := rfl
@[simp] theorem State.modGather_at_cci (m : Nat) : (s.modGather f).cci m = s.cci m := rfl
@[simp] theorem State.modGather_at_chan (m : Nat) : (s.modGather f).chan m = s.chan m := rfl
@[simp] theorem State.modGather_at_thread (m : Nat) : (s.modGather f).thread m = s.thread m := rfl
@[simp] theorem State.modGather_at_queue (m : Nat) : (s.modGather f).queue m = s.queue m := rfl
@[simp] theorem State.modGather_at_ctr (m : Nat) : (s.modGather f).ctr m = s.ctr m := rfl
@[simp] theorem State.modGather_at_cometQuad (m : Nat) : (s.modGather f).cometQuad m = s.cometQuad m := rfl
@[simp] theorem State.modGather_at_dom (m : Nat) : (s.modGather f).dom m = s.dom m := rfl
@[simp] theorem State.modGather_at_uli (m : Nat) : (s.modGather f).uli m = s.uli m := rfl
@[simp] theorem State.modGather_at_member (m : Nat) : (s.modGather f).member m = s.member m := rfl
@[simp] theorem State.modGather_at_alloc (m : Nat) : (s.modGather f).alloc m = s.alloc m := rfl
@[simp] theorem State.modGather_at_quad (m : Nat) : (s.modGather f).quad m = s.quad m := rfl
@[simp] theorem State.modGather_at_cluster (m : Nat) : (s.modGather f).cluster m = s.cluster m := rfl
@[simp] theorem State.modGather_at_extent (m : Nat) : (s.modGather f).extent m = s.extent m := rfl
@[simp] theorem State.modGather_at_keySlot (m : Nat) : (s.modGather f).keySlot m = s.keySlot m := rfl
@[simp] theorem State.modGather_at_remote (m : Nat) : (s.modGather f).remote m = s.remote m := rfl

@[simp] theorem State.modGather_gather : (s.modGather f).gather = f s.gather := rfl

end

/-! ### modQos -/

section
variable (s : State) (f : Qos → Qos)

@[simp] theorem State.modQos_ident : (s.modQos f).ident = s.ident := rfl
@[simp] theorem State.modQos_time : (s.modQos f).time = s.time := rfl
@[simp] theorem State.modQos_power : (s.modQos f).power = s.power := rfl
@[simp] theorem State.modQos_start : (s.modQos f).start = s.start := rfl
@[simp] theorem State.modQos_slots : (s.modQos f).slots = s.slots := rfl
@[simp] theorem State.modQos_slotMgr : (s.modQos f).slotMgr = s.slotMgr := rfl
@[simp] theorem State.modQos_sensors : (s.modQos f).sensors = s.sensors := rfl
@[simp] theorem State.modQos_faults : (s.modQos f).faults = s.faults := rfl
@[simp] theorem State.modQos_rec_ : (s.modQos f).rec_ = s.rec_ := rfl
@[simp] theorem State.modQos_ctrs : (s.modQos f).ctrs = s.ctrs := rfl
@[simp] theorem State.modQos_comets : (s.modQos f).comets = s.comets := rfl
@[simp] theorem State.modQos_alm : (s.modQos f).alm = s.alm := rfl
@[simp] theorem State.modQos_regwin : (s.modQos f).regwin = s.regwin := rfl
@[simp] theorem State.modQos_ports : (s.modQos f).ports = s.ports := rfl
@[simp] theorem State.modQos_lds : (s.modQos f).lds = s.lds := rfl
@[simp] theorem State.modQos_ccis : (s.modQos f).ccis = s.ccis := rfl
@[simp] theorem State.modQos_chans : (s.modQos f).chans = s.chans := rfl
@[simp] theorem State.modQos_cap : (s.modQos f).cap = s.cap := rfl
@[simp] theorem State.modQos_mdata : (s.modQos f).mdata = s.mdata := rfl
@[simp] theorem State.modQos_allocs : (s.modQos f).allocs = s.allocs := rfl
@[simp] theorem State.modQos_waiters : (s.modQos f).waiters = s.waiters := rfl
@[simp] theorem State.modQos_dram : (s.modQos f).dram = s.dram := rfl
@[simp] theorem State.modQos_quads : (s.modQos f).quads = s.quads := rfl
@[simp] theorem State.modQos_clusters : (s.modQos f).clusters = s.clusters := rfl
@[simp] theorem State.modQos_sketch : (s.modQos f).sketch = s.sketch := rfl
@[simp] theorem State.modQos_keys : (s.modQos f).keys = s.keys := rfl
@[simp] theorem State.modQos_path : (s.modQos f).path = s.path := rfl
@[simp] theorem State.modQos_gather : (s.modQos f).gather = s.gather := rfl
@[simp] theorem State.modQos_integ : (s.modQos f).integ = s.integ := rfl
@[simp] theorem State.modQos_ulis : (s.modQos f).ulis = s.ulis := rfl
@[simp] theorem State.modQos_const : (s.modQos f).const = s.const := rfl
@[simp] theorem State.modQos_img : (s.modQos f).img = s.img := rfl
@[simp] theorem State.modQos_ril : (s.modQos f).ril = s.ril := rfl
@[simp] theorem State.modQos_threads : (s.modQos f).threads = s.threads := rfl
@[simp] theorem State.modQos_queues : (s.modQos f).queues = s.queues := rfl
@[simp] theorem State.modQos_out : (s.modQos f).out = s.out := rfl
@[simp] theorem State.modQos_free : (s.modQos f).free = s.free := rfl
@[simp] theorem State.modQos_draws : (s.modQos f).draws = s.draws := rfl
@[simp] theorem State.modQos_pending : (s.modQos f).pending = s.pending := rfl
@[simp] theorem State.modQos_at_slot (m : Nat) : (s.modQos f).slot m = s.slot m := rfl
@[simp] theorem State.modQos_at_sensor (m : Nat) : (s.modQos f).sensor m = s.sensor m := rfl
@[simp] theorem State.modQos_at_port (m : Nat) : (s.modQos f).port m = s.port m := rfl
@[simp] theorem State.modQos_at_ld (m : Nat) : (s.modQos f).ld m = s.ld m := rfl
@[simp] theorem State.modQos_at_cci (m : Nat) : (s.modQos f).cci m = s.cci m := rfl
@[simp] theorem State.modQos_at_chan (m : Nat) : (s.modQos f).chan m = s.chan m := rfl
@[simp] theorem State.modQos_at_thread (m : Nat) : (s.modQos f).thread m = s.thread m := rfl
@[simp] theorem State.modQos_at_queue (m : Nat) : (s.modQos f).queue m = s.queue m := rfl
@[simp] theorem State.modQos_at_ctr (m : Nat) : (s.modQos f).ctr m = s.ctr m := rfl
@[simp] theorem State.modQos_at_cometQuad (m : Nat) : (s.modQos f).cometQuad m = s.cometQuad m := rfl
@[simp] theorem State.modQos_at_dom (m : Nat) : (s.modQos f).dom m = s.dom m := rfl
@[simp] theorem State.modQos_at_uli (m : Nat) : (s.modQos f).uli m = s.uli m := rfl
@[simp] theorem State.modQos_at_member (m : Nat) : (s.modQos f).member m = s.member m := rfl
@[simp] theorem State.modQos_at_alloc (m : Nat) : (s.modQos f).alloc m = s.alloc m := rfl
@[simp] theorem State.modQos_at_quad (m : Nat) : (s.modQos f).quad m = s.quad m := rfl
@[simp] theorem State.modQos_at_cluster (m : Nat) : (s.modQos f).cluster m = s.cluster m := rfl
@[simp] theorem State.modQos_at_extent (m : Nat) : (s.modQos f).extent m = s.extent m := rfl
@[simp] theorem State.modQos_at_keySlot (m : Nat) : (s.modQos f).keySlot m = s.keySlot m := rfl
@[simp] theorem State.modQos_at_remote (m : Nat) : (s.modQos f).remote m = s.remote m := rfl

@[simp] theorem State.modQos_qos : (s.modQos f).qos = f s.qos := rfl

end

/-! ### modInteg -/

section
variable (s : State) (f : Integ → Integ)

@[simp] theorem State.modInteg_ident : (s.modInteg f).ident = s.ident := rfl
@[simp] theorem State.modInteg_time : (s.modInteg f).time = s.time := rfl
@[simp] theorem State.modInteg_power : (s.modInteg f).power = s.power := rfl
@[simp] theorem State.modInteg_start : (s.modInteg f).start = s.start := rfl
@[simp] theorem State.modInteg_slots : (s.modInteg f).slots = s.slots := rfl
@[simp] theorem State.modInteg_slotMgr : (s.modInteg f).slotMgr = s.slotMgr := rfl
@[simp] theorem State.modInteg_sensors : (s.modInteg f).sensors = s.sensors := rfl
@[simp] theorem State.modInteg_faults : (s.modInteg f).faults = s.faults := rfl
@[simp] theorem State.modInteg_rec_ : (s.modInteg f).rec_ = s.rec_ := rfl
@[simp] theorem State.modInteg_ctrs : (s.modInteg f).ctrs = s.ctrs := rfl
@[simp] theorem State.modInteg_comets : (s.modInteg f).comets = s.comets := rfl
@[simp] theorem State.modInteg_alm : (s.modInteg f).alm = s.alm := rfl
@[simp] theorem State.modInteg_regwin : (s.modInteg f).regwin = s.regwin := rfl
@[simp] theorem State.modInteg_ports : (s.modInteg f).ports = s.ports := rfl
@[simp] theorem State.modInteg_lds : (s.modInteg f).lds = s.lds := rfl
@[simp] theorem State.modInteg_ccis : (s.modInteg f).ccis = s.ccis := rfl
@[simp] theorem State.modInteg_chans : (s.modInteg f).chans = s.chans := rfl
@[simp] theorem State.modInteg_cap : (s.modInteg f).cap = s.cap := rfl
@[simp] theorem State.modInteg_mdata : (s.modInteg f).mdata = s.mdata := rfl
@[simp] theorem State.modInteg_allocs : (s.modInteg f).allocs = s.allocs := rfl
@[simp] theorem State.modInteg_waiters : (s.modInteg f).waiters = s.waiters := rfl
@[simp] theorem State.modInteg_dram : (s.modInteg f).dram = s.dram := rfl
@[simp] theorem State.modInteg_quads : (s.modInteg f).quads = s.quads := rfl
@[simp] theorem State.modInteg_clusters : (s.modInteg f).clusters = s.clusters := rfl
@[simp] theorem State.modInteg_sketch : (s.modInteg f).sketch = s.sketch := rfl
@[simp] theorem State.modInteg_keys : (s.modInteg f).keys = s.keys := rfl
@[simp] theorem State.modInteg_path : (s.modInteg f).path = s.path := rfl
@[simp] theorem State.modInteg_gather : (s.modInteg f).gather = s.gather := rfl
@[simp] theorem State.modInteg_qos : (s.modInteg f).qos = s.qos := rfl
@[simp] theorem State.modInteg_ulis : (s.modInteg f).ulis = s.ulis := rfl
@[simp] theorem State.modInteg_const : (s.modInteg f).const = s.const := rfl
@[simp] theorem State.modInteg_img : (s.modInteg f).img = s.img := rfl
@[simp] theorem State.modInteg_ril : (s.modInteg f).ril = s.ril := rfl
@[simp] theorem State.modInteg_threads : (s.modInteg f).threads = s.threads := rfl
@[simp] theorem State.modInteg_queues : (s.modInteg f).queues = s.queues := rfl
@[simp] theorem State.modInteg_out : (s.modInteg f).out = s.out := rfl
@[simp] theorem State.modInteg_free : (s.modInteg f).free = s.free := rfl
@[simp] theorem State.modInteg_draws : (s.modInteg f).draws = s.draws := rfl
@[simp] theorem State.modInteg_pending : (s.modInteg f).pending = s.pending := rfl
@[simp] theorem State.modInteg_at_slot (m : Nat) : (s.modInteg f).slot m = s.slot m := rfl
@[simp] theorem State.modInteg_at_sensor (m : Nat) : (s.modInteg f).sensor m = s.sensor m := rfl
@[simp] theorem State.modInteg_at_port (m : Nat) : (s.modInteg f).port m = s.port m := rfl
@[simp] theorem State.modInteg_at_ld (m : Nat) : (s.modInteg f).ld m = s.ld m := rfl
@[simp] theorem State.modInteg_at_cci (m : Nat) : (s.modInteg f).cci m = s.cci m := rfl
@[simp] theorem State.modInteg_at_chan (m : Nat) : (s.modInteg f).chan m = s.chan m := rfl
@[simp] theorem State.modInteg_at_thread (m : Nat) : (s.modInteg f).thread m = s.thread m := rfl
@[simp] theorem State.modInteg_at_queue (m : Nat) : (s.modInteg f).queue m = s.queue m := rfl
@[simp] theorem State.modInteg_at_ctr (m : Nat) : (s.modInteg f).ctr m = s.ctr m := rfl
@[simp] theorem State.modInteg_at_cometQuad (m : Nat) : (s.modInteg f).cometQuad m = s.cometQuad m := rfl
@[simp] theorem State.modInteg_at_dom (m : Nat) : (s.modInteg f).dom m = s.dom m := rfl
@[simp] theorem State.modInteg_at_uli (m : Nat) : (s.modInteg f).uli m = s.uli m := rfl
@[simp] theorem State.modInteg_at_member (m : Nat) : (s.modInteg f).member m = s.member m := rfl
@[simp] theorem State.modInteg_at_alloc (m : Nat) : (s.modInteg f).alloc m = s.alloc m := rfl
@[simp] theorem State.modInteg_at_quad (m : Nat) : (s.modInteg f).quad m = s.quad m := rfl
@[simp] theorem State.modInteg_at_cluster (m : Nat) : (s.modInteg f).cluster m = s.cluster m := rfl
@[simp] theorem State.modInteg_at_extent (m : Nat) : (s.modInteg f).extent m = s.extent m := rfl
@[simp] theorem State.modInteg_at_keySlot (m : Nat) : (s.modInteg f).keySlot m = s.keySlot m := rfl
@[simp] theorem State.modInteg_at_remote (m : Nat) : (s.modInteg f).remote m = s.remote m := rfl

@[simp] theorem State.modInteg_integ : (s.modInteg f).integ = f s.integ := rfl

end

/-! ### modSketch -/

section
variable (s : State) (f : Sketch → Sketch)

@[simp] theorem State.modSketch_ident : (s.modSketch f).ident = s.ident := rfl
@[simp] theorem State.modSketch_time : (s.modSketch f).time = s.time := rfl
@[simp] theorem State.modSketch_power : (s.modSketch f).power = s.power := rfl
@[simp] theorem State.modSketch_start : (s.modSketch f).start = s.start := rfl
@[simp] theorem State.modSketch_slots : (s.modSketch f).slots = s.slots := rfl
@[simp] theorem State.modSketch_slotMgr : (s.modSketch f).slotMgr = s.slotMgr := rfl
@[simp] theorem State.modSketch_sensors : (s.modSketch f).sensors = s.sensors := rfl
@[simp] theorem State.modSketch_faults : (s.modSketch f).faults = s.faults := rfl
@[simp] theorem State.modSketch_rec_ : (s.modSketch f).rec_ = s.rec_ := rfl
@[simp] theorem State.modSketch_ctrs : (s.modSketch f).ctrs = s.ctrs := rfl
@[simp] theorem State.modSketch_comets : (s.modSketch f).comets = s.comets := rfl
@[simp] theorem State.modSketch_alm : (s.modSketch f).alm = s.alm := rfl
@[simp] theorem State.modSketch_regwin : (s.modSketch f).regwin = s.regwin := rfl
@[simp] theorem State.modSketch_ports : (s.modSketch f).ports = s.ports := rfl
@[simp] theorem State.modSketch_lds : (s.modSketch f).lds = s.lds := rfl
@[simp] theorem State.modSketch_ccis : (s.modSketch f).ccis = s.ccis := rfl
@[simp] theorem State.modSketch_chans : (s.modSketch f).chans = s.chans := rfl
@[simp] theorem State.modSketch_cap : (s.modSketch f).cap = s.cap := rfl
@[simp] theorem State.modSketch_mdata : (s.modSketch f).mdata = s.mdata := rfl
@[simp] theorem State.modSketch_allocs : (s.modSketch f).allocs = s.allocs := rfl
@[simp] theorem State.modSketch_waiters : (s.modSketch f).waiters = s.waiters := rfl
@[simp] theorem State.modSketch_dram : (s.modSketch f).dram = s.dram := rfl
@[simp] theorem State.modSketch_quads : (s.modSketch f).quads = s.quads := rfl
@[simp] theorem State.modSketch_clusters : (s.modSketch f).clusters = s.clusters := rfl
@[simp] theorem State.modSketch_keys : (s.modSketch f).keys = s.keys := rfl
@[simp] theorem State.modSketch_path : (s.modSketch f).path = s.path := rfl
@[simp] theorem State.modSketch_gather : (s.modSketch f).gather = s.gather := rfl
@[simp] theorem State.modSketch_qos : (s.modSketch f).qos = s.qos := rfl
@[simp] theorem State.modSketch_integ : (s.modSketch f).integ = s.integ := rfl
@[simp] theorem State.modSketch_ulis : (s.modSketch f).ulis = s.ulis := rfl
@[simp] theorem State.modSketch_const : (s.modSketch f).const = s.const := rfl
@[simp] theorem State.modSketch_img : (s.modSketch f).img = s.img := rfl
@[simp] theorem State.modSketch_ril : (s.modSketch f).ril = s.ril := rfl
@[simp] theorem State.modSketch_threads : (s.modSketch f).threads = s.threads := rfl
@[simp] theorem State.modSketch_queues : (s.modSketch f).queues = s.queues := rfl
@[simp] theorem State.modSketch_out : (s.modSketch f).out = s.out := rfl
@[simp] theorem State.modSketch_free : (s.modSketch f).free = s.free := rfl
@[simp] theorem State.modSketch_draws : (s.modSketch f).draws = s.draws := rfl
@[simp] theorem State.modSketch_pending : (s.modSketch f).pending = s.pending := rfl
@[simp] theorem State.modSketch_at_slot (m : Nat) : (s.modSketch f).slot m = s.slot m := rfl
@[simp] theorem State.modSketch_at_sensor (m : Nat) : (s.modSketch f).sensor m = s.sensor m := rfl
@[simp] theorem State.modSketch_at_port (m : Nat) : (s.modSketch f).port m = s.port m := rfl
@[simp] theorem State.modSketch_at_ld (m : Nat) : (s.modSketch f).ld m = s.ld m := rfl
@[simp] theorem State.modSketch_at_cci (m : Nat) : (s.modSketch f).cci m = s.cci m := rfl
@[simp] theorem State.modSketch_at_chan (m : Nat) : (s.modSketch f).chan m = s.chan m := rfl
@[simp] theorem State.modSketch_at_thread (m : Nat) : (s.modSketch f).thread m = s.thread m := rfl
@[simp] theorem State.modSketch_at_queue (m : Nat) : (s.modSketch f).queue m = s.queue m := rfl
@[simp] theorem State.modSketch_at_ctr (m : Nat) : (s.modSketch f).ctr m = s.ctr m := rfl
@[simp] theorem State.modSketch_at_cometQuad (m : Nat) : (s.modSketch f).cometQuad m = s.cometQuad m := rfl
@[simp] theorem State.modSketch_at_dom (m : Nat) : (s.modSketch f).dom m = s.dom m := rfl
@[simp] theorem State.modSketch_at_uli (m : Nat) : (s.modSketch f).uli m = s.uli m := rfl
@[simp] theorem State.modSketch_at_member (m : Nat) : (s.modSketch f).member m = s.member m := rfl
@[simp] theorem State.modSketch_at_alloc (m : Nat) : (s.modSketch f).alloc m = s.alloc m := rfl
@[simp] theorem State.modSketch_at_quad (m : Nat) : (s.modSketch f).quad m = s.quad m := rfl
@[simp] theorem State.modSketch_at_cluster (m : Nat) : (s.modSketch f).cluster m = s.cluster m := rfl
@[simp] theorem State.modSketch_at_extent (m : Nat) : (s.modSketch f).extent m = s.extent m := rfl
@[simp] theorem State.modSketch_at_keySlot (m : Nat) : (s.modSketch f).keySlot m = s.keySlot m := rfl
@[simp] theorem State.modSketch_at_remote (m : Nat) : (s.modSketch f).remote m = s.remote m := rfl

@[simp] theorem State.modSketch_sketch : (s.modSketch f).sketch = f s.sketch := rfl

end

/-! ### emit -/

section
variable (s : State) (x : Output)

@[simp] theorem State.emit_ident : (s.emit x).ident = s.ident := rfl
@[simp] theorem State.emit_time : (s.emit x).time = s.time := rfl
@[simp] theorem State.emit_power : (s.emit x).power = s.power := rfl
@[simp] theorem State.emit_start : (s.emit x).start = s.start := rfl
@[simp] theorem State.emit_slots : (s.emit x).slots = s.slots := rfl
@[simp] theorem State.emit_slotMgr : (s.emit x).slotMgr = s.slotMgr := rfl
@[simp] theorem State.emit_sensors : (s.emit x).sensors = s.sensors := rfl
@[simp] theorem State.emit_faults : (s.emit x).faults = s.faults := rfl
@[simp] theorem State.emit_rec_ : (s.emit x).rec_ = s.rec_ := rfl
@[simp] theorem State.emit_ctrs : (s.emit x).ctrs = s.ctrs := rfl
@[simp] theorem State.emit_comets : (s.emit x).comets = s.comets := rfl
@[simp] theorem State.emit_alm : (s.emit x).alm = s.alm := rfl
@[simp] theorem State.emit_regwin : (s.emit x).regwin = s.regwin := rfl
@[simp] theorem State.emit_ports : (s.emit x).ports = s.ports := rfl
@[simp] theorem State.emit_lds : (s.emit x).lds = s.lds := rfl
@[simp] theorem State.emit_ccis : (s.emit x).ccis = s.ccis := rfl
@[simp] theorem State.emit_chans : (s.emit x).chans = s.chans := rfl
@[simp] theorem State.emit_cap : (s.emit x).cap = s.cap := rfl
@[simp] theorem State.emit_mdata : (s.emit x).mdata = s.mdata := rfl
@[simp] theorem State.emit_allocs : (s.emit x).allocs = s.allocs := rfl
@[simp] theorem State.emit_waiters : (s.emit x).waiters = s.waiters := rfl
@[simp] theorem State.emit_dram : (s.emit x).dram = s.dram := rfl
@[simp] theorem State.emit_quads : (s.emit x).quads = s.quads := rfl
@[simp] theorem State.emit_clusters : (s.emit x).clusters = s.clusters := rfl
@[simp] theorem State.emit_sketch : (s.emit x).sketch = s.sketch := rfl
@[simp] theorem State.emit_keys : (s.emit x).keys = s.keys := rfl
@[simp] theorem State.emit_path : (s.emit x).path = s.path := rfl
@[simp] theorem State.emit_gather : (s.emit x).gather = s.gather := rfl
@[simp] theorem State.emit_qos : (s.emit x).qos = s.qos := rfl
@[simp] theorem State.emit_integ : (s.emit x).integ = s.integ := rfl
@[simp] theorem State.emit_ulis : (s.emit x).ulis = s.ulis := rfl
@[simp] theorem State.emit_const : (s.emit x).const = s.const := rfl
@[simp] theorem State.emit_img : (s.emit x).img = s.img := rfl
@[simp] theorem State.emit_ril : (s.emit x).ril = s.ril := rfl
@[simp] theorem State.emit_threads : (s.emit x).threads = s.threads := rfl
@[simp] theorem State.emit_queues : (s.emit x).queues = s.queues := rfl
@[simp] theorem State.emit_free : (s.emit x).free = s.free := rfl
@[simp] theorem State.emit_draws : (s.emit x).draws = s.draws := rfl
@[simp] theorem State.emit_pending : (s.emit x).pending = s.pending := rfl
@[simp] theorem State.emit_at_slot (m : Nat) : (s.emit x).slot m = s.slot m := rfl
@[simp] theorem State.emit_at_sensor (m : Nat) : (s.emit x).sensor m = s.sensor m := rfl
@[simp] theorem State.emit_at_port (m : Nat) : (s.emit x).port m = s.port m := rfl
@[simp] theorem State.emit_at_ld (m : Nat) : (s.emit x).ld m = s.ld m := rfl
@[simp] theorem State.emit_at_cci (m : Nat) : (s.emit x).cci m = s.cci m := rfl
@[simp] theorem State.emit_at_chan (m : Nat) : (s.emit x).chan m = s.chan m := rfl
@[simp] theorem State.emit_at_thread (m : Nat) : (s.emit x).thread m = s.thread m := rfl
@[simp] theorem State.emit_at_queue (m : Nat) : (s.emit x).queue m = s.queue m := rfl
@[simp] theorem State.emit_at_ctr (m : Nat) : (s.emit x).ctr m = s.ctr m := rfl
@[simp] theorem State.emit_at_cometQuad (m : Nat) : (s.emit x).cometQuad m = s.cometQuad m := rfl
@[simp] theorem State.emit_at_dom (m : Nat) : (s.emit x).dom m = s.dom m := rfl
@[simp] theorem State.emit_at_uli (m : Nat) : (s.emit x).uli m = s.uli m := rfl
@[simp] theorem State.emit_at_member (m : Nat) : (s.emit x).member m = s.member m := rfl
@[simp] theorem State.emit_at_alloc (m : Nat) : (s.emit x).alloc m = s.alloc m := rfl
@[simp] theorem State.emit_at_quad (m : Nat) : (s.emit x).quad m = s.quad m := rfl
@[simp] theorem State.emit_at_cluster (m : Nat) : (s.emit x).cluster m = s.cluster m := rfl
@[simp] theorem State.emit_at_extent (m : Nat) : (s.emit x).extent m = s.extent m := rfl
@[simp] theorem State.emit_at_keySlot (m : Nat) : (s.emit x).keySlot m = s.keySlot m := rfl
@[simp] theorem State.emit_at_remote (m : Nat) : (s.emit x).remote m = s.remote m := rfl

@[simp] theorem State.emit_out : (s.emit x).out = x :: s.out := rfl

end

/-! ### takeFree -/

section
variable (s : State)

@[simp] theorem State.takeFree_ident : (s.takeFree).ident = s.ident := rfl
@[simp] theorem State.takeFree_time : (s.takeFree).time = s.time := rfl
@[simp] theorem State.takeFree_power : (s.takeFree).power = s.power := rfl
@[simp] theorem State.takeFree_start : (s.takeFree).start = s.start := rfl
@[simp] theorem State.takeFree_slots : (s.takeFree).slots = s.slots := rfl
@[simp] theorem State.takeFree_slotMgr : (s.takeFree).slotMgr = s.slotMgr := rfl
@[simp] theorem State.takeFree_sensors : (s.takeFree).sensors = s.sensors := rfl
@[simp] theorem State.takeFree_faults : (s.takeFree).faults = s.faults := rfl
@[simp] theorem State.takeFree_rec_ : (s.takeFree).rec_ = s.rec_ := rfl
@[simp] theorem State.takeFree_ctrs : (s.takeFree).ctrs = s.ctrs := rfl
@[simp] theorem State.takeFree_comets : (s.takeFree).comets = s.comets := rfl
@[simp] theorem State.takeFree_alm : (s.takeFree).alm = s.alm := rfl
@[simp] theorem State.takeFree_regwin : (s.takeFree).regwin = s.regwin := rfl
@[simp] theorem State.takeFree_ports : (s.takeFree).ports = s.ports := rfl
@[simp] theorem State.takeFree_lds : (s.takeFree).lds = s.lds := rfl
@[simp] theorem State.takeFree_ccis : (s.takeFree).ccis = s.ccis := rfl
@[simp] theorem State.takeFree_chans : (s.takeFree).chans = s.chans := rfl
@[simp] theorem State.takeFree_cap : (s.takeFree).cap = s.cap := rfl
@[simp] theorem State.takeFree_mdata : (s.takeFree).mdata = s.mdata := rfl
@[simp] theorem State.takeFree_allocs : (s.takeFree).allocs = s.allocs := rfl
@[simp] theorem State.takeFree_waiters : (s.takeFree).waiters = s.waiters := rfl
@[simp] theorem State.takeFree_dram : (s.takeFree).dram = s.dram := rfl
@[simp] theorem State.takeFree_quads : (s.takeFree).quads = s.quads := rfl
@[simp] theorem State.takeFree_clusters : (s.takeFree).clusters = s.clusters := rfl
@[simp] theorem State.takeFree_sketch : (s.takeFree).sketch = s.sketch := rfl
@[simp] theorem State.takeFree_keys : (s.takeFree).keys = s.keys := rfl
@[simp] theorem State.takeFree_path : (s.takeFree).path = s.path := rfl
@[simp] theorem State.takeFree_gather : (s.takeFree).gather = s.gather := rfl
@[simp] theorem State.takeFree_qos : (s.takeFree).qos = s.qos := rfl
@[simp] theorem State.takeFree_integ : (s.takeFree).integ = s.integ := rfl
@[simp] theorem State.takeFree_ulis : (s.takeFree).ulis = s.ulis := rfl
@[simp] theorem State.takeFree_const : (s.takeFree).const = s.const := rfl
@[simp] theorem State.takeFree_img : (s.takeFree).img = s.img := rfl
@[simp] theorem State.takeFree_ril : (s.takeFree).ril = s.ril := rfl
@[simp] theorem State.takeFree_threads : (s.takeFree).threads = s.threads := rfl
@[simp] theorem State.takeFree_queues : (s.takeFree).queues = s.queues := rfl
@[simp] theorem State.takeFree_out : (s.takeFree).out = s.out := rfl
@[simp] theorem State.takeFree_draws : (s.takeFree).draws = s.draws := rfl
@[simp] theorem State.takeFree_pending : (s.takeFree).pending = s.pending := rfl
@[simp] theorem State.takeFree_at_slot (m : Nat) : (s.takeFree).slot m = s.slot m := rfl
@[simp] theorem State.takeFree_at_sensor (m : Nat) : (s.takeFree).sensor m = s.sensor m := rfl
@[simp] theorem State.takeFree_at_port (m : Nat) : (s.takeFree).port m = s.port m := rfl
@[simp] theorem State.takeFree_at_ld (m : Nat) : (s.takeFree).ld m = s.ld m := rfl
@[simp] theorem State.takeFree_at_cci (m : Nat) : (s.takeFree).cci m = s.cci m := rfl
@[simp] theorem State.takeFree_at_chan (m : Nat) : (s.takeFree).chan m = s.chan m := rfl
@[simp] theorem State.takeFree_at_thread (m : Nat) : (s.takeFree).thread m = s.thread m := rfl
@[simp] theorem State.takeFree_at_queue (m : Nat) : (s.takeFree).queue m = s.queue m := rfl
@[simp] theorem State.takeFree_at_ctr (m : Nat) : (s.takeFree).ctr m = s.ctr m := rfl
@[simp] theorem State.takeFree_at_cometQuad (m : Nat) : (s.takeFree).cometQuad m = s.cometQuad m := rfl
@[simp] theorem State.takeFree_at_dom (m : Nat) : (s.takeFree).dom m = s.dom m := rfl
@[simp] theorem State.takeFree_at_uli (m : Nat) : (s.takeFree).uli m = s.uli m := rfl
@[simp] theorem State.takeFree_at_member (m : Nat) : (s.takeFree).member m = s.member m := rfl
@[simp] theorem State.takeFree_at_alloc (m : Nat) : (s.takeFree).alloc m = s.alloc m := rfl
@[simp] theorem State.takeFree_at_quad (m : Nat) : (s.takeFree).quad m = s.quad m := rfl
@[simp] theorem State.takeFree_at_cluster (m : Nat) : (s.takeFree).cluster m = s.cluster m := rfl
@[simp] theorem State.takeFree_at_extent (m : Nat) : (s.takeFree).extent m = s.extent m := rfl
@[simp] theorem State.takeFree_at_keySlot (m : Nat) : (s.takeFree).keySlot m = s.keySlot m := rfl
@[simp] theorem State.takeFree_at_remote (m : Nat) : (s.takeFree).remote m = s.remote m := rfl

@[simp] theorem State.takeFree_free : s.takeFree.free = s.free + 1 := rfl

end

end Sys2Proof.Machine
end

