-- ==== Sys2Proof/Laws/Reports.lean ====
section
/-! SUPPORT. What the operations that report do: event records, tallies, sticky bits, Health Status, sources of class F0 to F2. -/
namespace Sys2Proof.Machine

theorem State.Reports.refl (s : State) : s.Reports s := ⟨rfl, fun _ => rfl, fun _ => rfl⟩

theorem State.Reports.trans {s r q : State} (h : s.Reports r) (k : r.Reports q) : s.Reports q := by
  refine ⟨?_, fun u => ?_, fun i => ?_⟩
  · rw [k.rest]; conv_lhs => rw [h.rest]
  · rw [k.links u]; conv_lhs => rw [h.links u]
  · rw [k.logs i]; conv_lhs => rw [h.logs i]

theorem forEach_reports {α : Type} (l : List α) (f : α → State → State) (s : State) (h : ∀ a s, State.Reports s (f a s)) :
    s.Reports (forEach l f s) := by
  unfold forEach
  induction l generalizing s with
  | nil => exact .refl s
  | cons a l ih => exact (h a s).trans (ih _)

theorem emit_reports (x : Output) (s : State) : s.Reports (s.emit x) := ⟨rfl, fun _ => rfl, fun _ => rfl⟩

theorem modRec_reports (f : Recorder → Recorder) (s : State) : s.Reports (s.modRec f) := ⟨rfl, fun _ => rfl, fun _ => rfl⟩

theorem placeRecord_reports (i : Nat) (k : LogKind) (b : RecBody) (s : State) : s.Reports (placeRecord i k b s) := by
  have h : s.Reports (s.modLd i fun l => l.setLog k ((l.log k).place (s.time.tb + l.timeOffset) b)) := by
    refine ⟨rfl, fun _ => rfl, fun j => ?_⟩
    rw [State.modLd_at]
    split
    · rename_i hj; subst hj; cases k <;> rfl
    · rfl
  unfold placeRecord notifyLog
  split
  · exact h.trans (emit_reports _ _)
  · exact h

theorem placeAll_reports (k : LogKind) (b : RecBody) (s : State) : s.Reports (placeAll k b s) :=
  forEach_reports _ _ _ fun i s => placeRecord_reports i k b s

theorem placeHead_reports (h : Nat) (k : LogKind) (b : RecBody) (s : State) : s.Reports (placeHead h k b s) :=
  forEach_reports _ _ _ fun i s => placeRecord_reports i k b s

theorem sendPkt_reports (d : Nat) (p : OutPkt) (s : State) : s.Reports (sendPkt d p s) := by
  unfold sendPkt
  split
  · rename_i u _
    refine ⟨rfl, fun v => ?_, fun _ => rfl⟩
    rw [State.modUli_at]
    split
    · rename_i hv; subst hv; rfl
    · rfl
  · exact .refl s

theorem openTxn_reports (d : Nat) (t : Txn) (c k r p : Nat) (w : List Nat) (s : State) : s.Reports (openTxn d t c k r p w s) := by
  unfold openTxn sendRequest
  dsimp only
  exact State.Reports.trans (r := s.modConst _) ⟨rfl, fun _ => rfl, fun _ => rfl⟩ (sendPkt_reports _ _ _)

theorem copyTally_reports (t : Tally) (s : State) : s.Reports (copyTally t s) := by
  unfold copyTally
  split
  · exact .refl s
  · split
    · exact openTxn_reports ..
    · exact modRec_reports ..

theorem closeTally_reports (src reason : Nat) (t : Tally) (s : State) : s.Reports (closeTally src reason t s) :=
  (modRec_reports _ _).trans (copyTally_reports _ _)

theorem sampleTally_reports (src : Nat) (v a b : BitVec 64) (s : State) : s.Reports (sampleTally src v a b s) := by
  unfold sampleTally
  dsimp only
  split
  · exact closeTally_reports ..
  · exact modRec_reports ..

theorem sampleFault_reports (n : Nat) (s : State) : s.Reports (sampleFault n s) :=
  (sampleTally_reports _ _ _ _ s).trans ⟨rfl, fun _ => rfl, fun _ => rfl⟩

theorem setSticky_reports (n : Nat) (s : State) : s.Reports (setSticky n s) := ⟨rfl, fun _ => rfl, fun _ => rfl⟩

theorem updateHealth_reports (s : State) : s.Reports (updateHealth s) := by
  have h : s.Reports (s.modFaults fun f => { f with lastHealth := s.health }) := ⟨rfl, fun _ => rfl, fun _ => rfl⟩
  unfold updateHealth
  dsimp only
  split
  · exact h
  · exact h.trans (placeAll_reports ..)

/-- A source below F3 reports and does nothing else. -/
theorem fireEvent_reports (n : Nat) (s : State) (h : (((sourceInfo n).map (·.cls)).getD 0) < 3) : s.Reports (fireEvent n s) := by
  unfold fireEvent
  split
  · exact .refl s
  · have hr : ∀ q : State, reactClass n q = q := by
      intro q
      unfold reactClass
      split <;> simp_all
    rw [hr]
    exact (setSticky_reports n s).trans ((sampleFault_reports n _).trans (updateHealth_reports _))

theorem condStart_reports (n : Nat) (s : State) (h : (((sourceInfo n).map (·.cls)).getD 0) < 3) : s.Reports (condStart n s) := by
  unfold condStart
  split
  · exact .refl s
  · exact State.Reports.trans (r := s.modFaults _) ⟨rfl, fun _ => rfl, fun _ => rfl⟩ (fireEvent_reports n _ h)

theorem condEnd_reports (n : Nat) (s : State) : s.Reports (condEnd n s) :=
  State.Reports.trans (r := s.modFaults fun f => { f with live := f.live.erase n }) ⟨rfl, fun _ => rfl, fun _ => rfl⟩
    (updateHealth_reports _)

theorem condSet_reports (n : Nat) (b : Bool) (s : State) (h : (((sourceInfo n).map (·.cls)).getD 0) < 3) : s.Reports (condSet n b s) := by
  unfold condSet
  split
  · exact condStart_reports n s h
  · exact condEnd_reports n s

end Sys2Proof.Machine
end

