-- ==== Sys2Proof/Laws/Rilia.lean ====
section
/-! SUPPORT. What issuing an instruction does, once for all of them, and the instructions whose effect is on their own thread alone. -/
namespace Sys2Proof.Machine

/-- Counting an event writes counters alone. -/
theorem countEvents_eq (b c : Nat) (l : Option Nat) (n : Nat) (s : State) :
    countEvents b c l n s = { s with ctrs := (countEvents b c l n s).ctrs } := rfl

theorem countEvent_eq (b c : Nat) (l : Option Nat) (s : State) : countEvent b c l s = { s with ctrs := (countEvent b c l s).ctrs } := rfl

/-- Tagging an instruction writes comets alone. -/
theorem tagInstr_eq (c : Nat) (s : State) : (tagInstr c s).2 = { s with comets := (tagInstr c s).2.comets } := by
  unfold tagInstr
  dsimp only
  split
  · split <;> rfl
  · rfl

/-- Closing a thread's comet writes comets, and the thread's comet. -/
theorem closeComet_eq (t : Nat) (l : List Nat) (s : State) :
    closeComet t l s = { s with comets := (closeComet t l s).comets, threads := (closeComet t l s).threads } := by
  unfold closeComet writeComet
  split <;> rfl

theorem closeComet_thread (t : Nat) (l : List Nat) (s : State) (v : Nat) :
    (closeComet t l s).thread v = if v = t then { s.thread v with comet := none } else s.thread v := by
  unfold closeComet
  split
  · rename_i h
    split
    · rename_i hv; subst hv; rw [← h]
    · rfl
  · rename_i c h
    simp only [writeComet, State.thread, State.modCometQuad, State.modThread, Tab.get_set]
    split
    · rename_i hv; subst hv; rfl
    · rfl

theorem mates_thread (l : List Nat) (t : Nat) (s : State) (v : Nat) :
    (forEach l (fun v s => s.modThread v fun u => { u with yieldFor := u.yieldFor.erase t }) s).thread v =
      { s.thread v with
        yieldFor := ((forEach l (fun v s => s.modThread v fun u => { u with yieldFor := u.yieldFor.erase t }) s).thread v).yieldFor } := by
  unfold forEach
  induction l generalizing s with
  | nil => rfl
  | cons a l ih =>
    rw [List.foldl_cons, ih]
    by_cases h : v = a
    · subst h; simp
    · rw [State.modThread_other _ _ _ _ h]

theorem mates_eq (l : List Nat) (t : Nat) (s : State) :
    forEach l (fun v s => s.modThread v fun u => { u with yieldFor := u.yieldFor.erase t }) s =
      { s with threads := (forEach l (fun v s => s.modThread v fun u => { u with yieldFor := u.yieldFor.erase t }) s).threads } := by
  unfold forEach
  induction l generalizing s with
  | nil => rfl
  | cons a l ih => rw [List.foldl_cons, ih]; rfl

/-- Issuing writes counters, comets, the core's rotation and what its threads note of YIELD. -/
theorem issueWord_only (t : Nat) (w : BitVec 32) (s : State) : s.onlyThread (issueWord t w s) t := by
  unfold issueWord
  have h1 := tagInstr_eq (coreOf t) s
  generalize tagInstr (coreOf t) s = p at h1
  obtain ⟨tag, s1⟩ := p
  dsimp only at h1 ⊢
  generalize hk : s1.comets = k at h1
  subst h1
  have h2 := mates_eq (coreMates t) t (countEvent (51 + coreOf t) 0x401 none { s with comets := k })
  have h3 := mates_thread (coreMates t) t (countEvent (51 + coreOf t) 0x401 none { s with comets := k })
  generalize forEach (coreMates t) _ (countEvent (51 + coreOf t) 0x401 none { s with comets := k }) = s2 at h2 h3 ⊢
  generalize s2.threads = ts at h2
  subst h2
  refine ⟨rfl, fun v hv => ?_⟩
  rw [State.modThread_other _ _ _ _ hv]
  exact h3 v

theorem issueWord_self (t : Nat) (w : BitVec 32) (s : State) :
    (issueWord t w s).thread t = { s.thread t with yieldFor := [], comet := ((issueWord t w s).thread t).comet } := by
  unfold issueWord
  have h1 := tagInstr_eq (coreOf t) s
  generalize tagInstr (coreOf t) s = p at h1
  obtain ⟨tag, s1⟩ := p
  dsimp only at h1 ⊢
  generalize hk : s1.comets = k at h1
  subst h1
  have h2 := mates_eq (coreMates t) t (countEvent (51 + coreOf t) 0x401 none { s with comets := k })
  have h3 := mates_thread (coreMates t) t (countEvent (51 + coreOf t) 0x401 none { s with comets := k }) t
  generalize forEach (coreMates t) _ (countEvent (51 + coreOf t) 0x401 none { s with comets := k }) = s2 at h2 h3 ⊢
  rw [State.modThread_self]
  simp only [State.modRil_at_thread]
  rw [h3]
  rfl

theorem State.onlyThread_trans {s r q : State} {t : Nat} (h : s.onlyThread r t) (k : r.onlyThread q t) : s.onlyThread q t := by
  obtain ⟨h1, h2⟩ := h
  obtain ⟨k1, k2⟩ := k
  refine ⟨?_, fun v hv => ?_⟩
  · rw [k1, h1]
  · rw [k2 v hv, h2 v hv]

theorem modThread_only (s : State) (t : Nat) (g : Thread → Thread) : s.onlyThread (s.modThread t g) t :=
  ⟨rfl, fun v hv => by rw [State.modThread_other _ _ _ _ hv]⟩

theorem closeComet_only (s : State) (t : Nat) (l : List Nat) : s.onlyThread (closeComet t l s) t :=
  ⟨by rw [closeComet_eq t l s], fun v hv => by rw [closeComet_thread, if_neg hv]⟩

/-- A thread that may issue is running. -/
theorem State.running_of_mayIssue {s : State} {t : Nat} (h : s.mayIssue t = true) : (s.thread t).state = .running := by
  simp [State.mayIssue, State.threadReady] at h
  exact h.2.1

/-- An instruction that does not trap runs on the state after its issue, with the program counter at the next word. -/
theorem instr_run {op sel t : Nat} {dev : Bool} {traps : Fields → Thread → State → List (Bool × Nat)}
    {run : Fields → Thread → State → State} {s : State} (h : s.fetches t op sel)
    (ht : firstTrap (traps (s.word t) (s.thread t) (issueWord t (s.word t).word s)) = none) :
    instr (insKey op sel) dev t traps run s =
      afterWord t dev (run (s.word t) (s.thread t) (stepPc t (issueWord t (s.word t).word s))) := by
  obtain ⟨h1, h2, h3⟩ := h
  have hi : (issueWord t (s.word t).word s).inText (s.thread t) (s.thread t).pc.toNat = true := by
    rw [(issueWord_only t _ s).1]; exact h3
  simp only [instr, if_pos h1]
  change (if (s.word t).key = insKey op sel then _ else _) = _
  rw [if_pos h2]
  change (match firstTrap ((!(issueWord t (s.word t).word s).inText (s.thread t) (s.thread t).pc.toNat, trapPriv) ::
    traps (s.word t) (s.thread t) (issueWord t (s.word t).word s)) with | some c => _ | none => _) = _
  rw [hi]
  simp only [Bool.not_true, firstTrap, Bool.false_eq_true, if_false, ht]
  rfl

/-- An instruction whose effect is on its own thread alone: what it leaves, and the thread after it. -/
theorem instr_local {op sel t : Nat} {traps : Fields → Thread → State → List (Bool × Nat)}
    {run : Fields → Thread → State → State} {s : State} {g : Thread → Thread} (h : s.fetches t op sel)
    (ht : firstTrap (traps (s.word t) (s.thread t) (issueWord t (s.word t).word s)) = none)
    (hr : ∀ s', run (s.word t) (s.thread t) s' = s'.modThread t g) (hg : ∀ x, (g x).state = x.state) :
    s.onlyThread (instr (insKey op sel) false t traps run s) t ∧
      ∃ c, (instr (insKey op sel) false t traps run s).thread t =
        { g { s.thread t with pc := (s.thread t).pc + 4, yieldFor := [], comet := c } with comet := none } := by
  rw [instr_run h ht, hr]
  generalize hw : issueWord t (s.word t).word s = s1
  have h1 := hw ▸ issueWord_only t (s.word t).word s
  have h2 := hw ▸ issueWord_self t (s.word t).word s
  have hs : ((stepPc t s1).modThread t g).thread t = g { s.thread t with pc := (s.thread t).pc + 4, yieldFor := [], comet := (s1.thread t).comet } := by
    rw [State.modThread_self, stepPc, State.modThread_self, h2]
  have hrun : (((stepPc t s1).modThread t g).thread t).state = .running := by
    rw [hs, hg]; exact State.running_of_mayIssue h.1
  have ha : afterWord t false ((stepPc t s1).modThread t g) = closeComet t [2] ((stepPc t s1).modThread t g) := by
    unfold afterWord; rw [hrun]; rfl
  rw [ha]
  refine ⟨State.onlyThread_trans h1 (State.onlyThread_trans (modThread_only s1 t _)
    (State.onlyThread_trans (modThread_only _ t g) (closeComet_only _ t [2]))), (s1.thread t).comet, ?_⟩
  rw [closeComet_thread, if_pos rfl, hs]

end Sys2Proof.Machine
end

