-- ==== Sys2Proof/Tests/Slice0.lean ====
section
/-! SUPPORT. The model's own tests: the well-formedness checks refuse what they should, and for each statement of the certificates a small
state and operands that meet the hypotheses of its clauses, with an effect that the spec gives there. -/
namespace Sys2Proof.Tests
open Sys2Proof Sys2Proof.Machine

-- one theorem after another: a thread for each would take more memory than the check gives
set_option Elab.async false

/-- The state after a command. -/
def after (c : Instr) (s : State) : State := match exec c s with
  | .next r => r
  | .fault _ => s
  | .refused _ => s

/-! ### Well-formed commands -/

theorem test_wf_flips : (Instr.dramReadData 0 0 (List.replicate 9 0)).wf = false ∧ (Instr.dramReadData 0 0 (List.replicate 8 0)).wf = true := by
  decide
theorem test_wf_page_flips : (Instr.gatherEviction 0 [(64, [])]).wf = false ∧ (Instr.gatherEviction 0 [(63, [])]).wf = true := by decide
theorem test_wf_handles : (Instr.opkeyEnrol (.ld 0) 0 0 (List.replicate 95 0) false).wf = false := by decide
theorem test_wf_header : (Instr.ackOnly 0 { len := 16 }).wf = false ∧ (Instr.ackOnly 0 { vc := 8 }).wf = false ∧
    (Instr.ackOnly 0 { crVc := 8 }).wf = false ∧ (Instr.ackOnly 0 { counter := 2 ^ 64 }).wf = false ∧ (Instr.ackOnly 0 {}).wf = true := by decide
theorem test_wf_txn : (Instr.reach 0 {} { op := 11 }).wf = false ∧ (Instr.reach 0 {} { op := 12, index := 2 ^ 34 }).wf = false ∧
    (Instr.reach 0 {} { op := 12, unit := 64 }).wf = false ∧ (Instr.reach 0 {} { op := 12 }).wf = true ∧
    (Instr.txnResponse 0 {} { op := 1, status := 16 }).wf = false := by decide
theorem test_wf_enclave : (Instr.enclaveMessage 0 {} (.keyStatus 4 0 0)).wf = false ∧ (Instr.enclaveMessage 0 {} .session).wf = true := by decide
theorem test_wf_size : (Instr.registerRead 0 0 3).wf = false ∧ (Instr.registerRead 0 0 8).wf = true := by decide

/-! ### Instructions of the policy cores (R314 to R328) -/

/-- A word in the register format, and one in the immediate format (R314). -/
def rword (op a b c func : Nat) : BitVec 32 := BitVec.ofNat 32 (op * 2 ^ 26 + a * 2 ^ 21 + b * 2 ^ 16 + c * 2 ^ 11 + func)
def iword (op a b imm : Nat) : BitVec 32 := BitVec.ofNat 32 (op * 2 ^ 26 + a * 2 ^ 21 + b * 2 ^ 16 + imm)

/-- Thread 0 runs firmware text with this word at address 8 and these registers. -/
def code (w : BitVec 32) (regs : Tab Word) : State :=
  { ril := { bank0 := { words := [(2, w)] } }, threads := [(0, { state := .running, pc := 8, regs })] }

/-- Thread 0 may issue the word at its program counter, and it has this key. -/
def ready (s : State) (op sel : Nat) : Bool := s.mayIssue 0 && decide ((s.word 0).key = insKey op sel) && s.inText (s.thread 0) (s.thread 0).pc.toNat

/-- An ADD, written out from R314 and R323: opcode 000001, a 00011, b 00001, c 00010, func 0. -/
theorem test_word_add : ready (code 0b000001_00011_00001_00010_00000000000#32 []) 1 0 = true ∧ rword 1 3 1 2 0 = 0b000001_00011_00001_00010_00000000000#32 := by decide +kernel

/-- What g3 holds after a register operation on g1 and g2, if it issued. -/
def alu (i : Fin 32 → Instr) (func c : Nat) (x y : Word) : Option Word :=
  let s := code (rword 1 3 1 c func) [(1, x), (2, y)]
  if ready s 1 func ∧ ((after (i 0) s).thread 0).pc = 12 then some (((after (i 0) s).thread 0).reg 3) else none

theorem witness_RegisterOperations :
    alu .add 0 2 0xFFFFFFFFFFFFFFFF 2 = some 1 ∧ alu .sub 1 2 1 2 = some 0xFFFFFFFFFFFFFFFF ∧ alu .and 2 2 0xC 0xA = some 8 ∧
    alu .or 3 2 0xC 0xA = some 0xE ∧ alu .xor 4 2 0xC 0xA = some 6 ∧ alu .shl 5 2 1 65 = some 2 ∧
    alu .shr 6 2 0x8000000000000000 63 = some 1 ∧ alu .sar 7 2 0x8000000000000000 63 = some 0xFFFFFFFFFFFFFFFF ∧
    alu .slt 8 2 0xFFFFFFFFFFFFFFFF 0 = some 1 ∧ alu .sltu 9 2 0xFFFFFFFFFFFFFFFF 0 = some 0 ∧ alu .seq 10 2 5 5 = some 1 := by decide +kernel

theorem witness_RegisterOperationsWide :
    alu .mul 0x10 2 0x8000000000000000 3 = some 0x8000000000000000 ∧ alu .mulhu 0x11 2 0x8000000000000000 4 = some 2 ∧
    alu .divu 0x12 2 7 0 = some 0xFFFFFFFFFFFFFFFF ∧ alu .divu 0x12 2 7 2 = some 3 ∧ alu .remu 0x13 2 7 0 = some 7 ∧ alu .remu 0x13 2 7 4 = some 3 ∧
    alu .min 0x18 2 0xFFFFFFFFFFFFFFFF 1 = some 0xFFFFFFFFFFFFFFFF ∧ alu .max 0x19 2 0xFFFFFFFFFFFFFFFF 1 = some 1 ∧
    alu .popc 0x20 0 0xF00F 0 = some 8 ∧ alu .clz 0x21 0 0 0 = some 64 ∧ alu .clz 0x21 0 1 0 = some 63 := by decide +kernel

/-- What g3 holds after an immediate operation on g1. -/
def alui (i : Fin 32 → Instr) (op sel imm : Nat) (x : Word) (b : Nat := 1) : Option Word :=
  let s := code (iword op 3 b imm) [(1, x)]
  if ready s op sel ∧ ((after (i 0) s).thread 0).pc = 12 then some (((after (i 0) s).thread 0).reg 3) else none

theorem witness_ImmediateOperations :
    alui .addi 2 0 0xFFFF 1 = some 0 ∧ alui .andi 3 0 0x8000 0xFFFFFFFFFFFFFFFF = some 0x8000 ∧ alui .ori 4 0 0x8000 1 = some 0x8001 ∧
    alui .xori 5 0 0xFFFF 0xFF = some 0xFF00 ∧ alui .shli 6 0 63 1 = some 0x8000000000000000 ∧ alui .shri 6 1 (64 + 1) 3 = some 1 ∧
    alui .sari 6 2 (128 + 63) 0x8000000000000000 = some 0xFFFFFFFFFFFFFFFF ∧ alui .slti 7 0 0xFFFF 0xFFFFFFFFFFFFFFFE = some 1 ∧
    alui .lui 8 0 0x8000 0 0 = some 0x80000000 := by decide +kernel

/-- A load of g3 from g1 + 8, and a store of g3 there, with scratch, a window and a mapped payload buffer whose bytes differ. -/
def memory (op : Nat) (x : Word) (p : Priv := .firmware) : State :=
  let s := code (iword op 3 1 8) [(1, x), (3, 0x1122334455667788)]
  { s with
    ril := { s.ril with window := [(0x400008, 0x91), (0x700009, 0x92)], mbox := [{ tag := 5, cci := .mctp, opcode := 0, buffer := [(8, 0x93)] }] }
    threads := [(0, { state := .running, pc := if p = .firmware then 8 else 0x40008, priv := p, regs := [(1, x), (3, 0x1122334455667788)]
                      scratch := [(8, 0x81), (15, 0x82)], tag := some 5 })] }

theorem witness_Loads :
    ((after (.ld8 0) (memory 0x10 0)).thread 0).reg 3 = 0x81 ∧ ((after (.ld64 0) (memory 0x13 0)).thread 0).reg 3 = 0x8200000000000081 ∧
    ((after (.ld16 0) (memory 0x11 0x400000)).thread 0).reg 3 = 0x91 ∧ ((after (.ld32 0) (memory 0x12 0x1000000)).thread 0).reg 3 = 0x93 := by decide +kernel

theorem witness_LoadsAlign : ready (memory 0x13 1) 0x13 0 = true ∧ effective ((memory 0x13 1).word 0) ((memory 0x13 1).thread 0) = 9 ∧
    (after (.ld64 0) (memory 0x13 1)).ril.lastTrap = 3 ∧ ((after (.ld64 0) (memory 0x13 1)).thread 0).state = .free := by decide +kernel

theorem witness_Stores :
    Memory.read ((after (.st8 0) (memory 0x14 0)).thread 0).scratch 8 = 0x88 ∧
    Memory.read (after (.st16 0) (memory 0x15 0x400000)).ril.window 0x400009 = 0x77 ∧
    ((after (.st64 0) (memory 0x17 0x1000000)).ril.mbox.map fun m => Memory.read m.buffer 15) = [0x11] ∧
    ready (memory 0x16 0x7FFFF4) 0x16 0 = true ∧ Memory.read (after (.st32 0) (memory 0x16 0x7FFFF4)).ril.window 0x7FFFFF = 0x55 := by decide +kernel

/-- CAS or FADD on the word at g1, with g3 and g2. -/
def atomic (op : Nat) (x : Word) (old : Byte) : State :=
  let s := code (rword op 3 1 2 0) [(1, x), (2, 9), (3, 7)]
  { s with ril := { s.ril with window := [(0x400000, old)] } }

theorem witness_Atomics :
    ((after (.cas 0) (atomic 0x18 0x400000 7)).thread 0).reg 3 = 7 ∧ Memory.read (after (.cas 0) (atomic 0x18 0x400000 7)).ril.window 0x400000 = 9 ∧
    Memory.read (after (.cas 0) (atomic 0x18 0x400000 8)).ril.window 0x400000 = 8 ∧
    Memory.read (after (.fadd 0) (atomic 0x19 0x400000 8)).ril.window 0x400000 = 17 ∧
    (after (.fadd 0) (atomic 0x19 0x400004 8)).ril.lastTrap = 3 ∧ (after (.fadd 0) (atomic 0x19 0x3FFFF8 8)).ril.lastTrap = 4 ∧
    (after (.cas 0) (atomic 0x18 0x800000 8)).ril.lastTrap = 4 := by decide +kernel

/-- Where a branch on g1 and g2 goes, by 2 words ahead; and where one back to before the region goes. -/
def branch (i : Fin 32 → Instr) (op : Nat) (x y : Word) (imm : Nat) : BitVec 19 × BitVec 8 :=
  let r := after (i 0) (code (iword op 1 2 imm) [(1, x), (2, y)])
  ((r.thread 0).pc, r.ril.lastTrap)

theorem witness_Branches :
    branch .beq 0x20 1 1 2 = (16, 0) ∧ branch .beq 0x20 1 2 2 = (12, 0) ∧ branch .bne 0x21 1 2 0xFFFE = (0, 0) ∧
    branch .blt 0x22 0xFFFFFFFFFFFFFFFF 0 2 = (16, 0) ∧ branch .bge 0x23 0 0xFFFFFFFFFFFFFFFF 2 = (16, 0) ∧
    branch .bltu 0x24 0 0xFFFFFFFFFFFFFFFF 2 = (16, 0) ∧ branch .bgeu 0x25 5 5 2 = (16, 0) ∧ (branch .bne 0x21 1 2 0xFFFD).2 = 2 := by decide +kernel

theorem witness_Jumps :
    ((after (.j 0) (code (BitVec.ofNat 32 (0x26 * 2 ^ 26 + 0x1FFFFE)) [])).thread 0).pc = 0 ∧
    ((after (.jal 0) (code (BitVec.ofNat 32 (0x27 * 2 ^ 26 + 3 * 2 ^ 21 + 2)) [])).thread 0).reg 3 = 12 ∧
    ((after (.jr 0) (code (rword 0x28 3 1 0 0) [(1, 0x3FFFC)])).thread 0).pc = 0x3FFFC ∧
    (after (.jr 0) (code (rword 0x28 3 1 0 0) [(1, 0x3FFFE)])).ril.lastTrap = 3 ∧
    (after (.jr 0) (code (rword 0x28 3 1 0 0) [(1, 0x40000)])).ril.lastTrap = 2 := by decide +kernel

/-- Operator code at the same place of its region. -/
def operatorCode (w : BitVec 32) : State :=
  { ril := { bank0 := { words := [(0x10002, w)] } }, threads := [(0, { state := .running, pc := 0x40008, priv := .operator })] }

theorem witness_System :
    ((after (.nop 0) (code 0 [])).thread 0).pc = 12 ∧ ((after (.fence 0) (code 2 [])).thread 0).pc = 12 ∧
    ((after (.eret 0) (code 6 [])).thread 0).state = .free ∧ ((after (.halt 0) (code 3 [])).thread 0).state = .out ∧
    (after (.halt 0) (operatorCode 3)).ril.lastTrap = 2 ∧ (after (.trap 0) (code (rword 0 0 0 10 4) [])).ril.lastTrap = 10 ∧
    (after (.trap 0) (code (rword 0 0 0 11 4) [])).ril.lastTrap = 1 ∧ (after (.time 0) (code (rword 0 3 0 2 5) [])).ril.lastTrap = 1 ∧
    ((after (.time 0) { code (rword 0 3 0 1 5) [] with time := { now := 77 } }).thread 0).reg 3 = 77 := by decide +kernel

theorem witness_Yield :
    let s := { code 1 [] with threads := [(0, { state := .running, pc := 8 }), (2, { state := .running }), (3, { state := .wait })] }
    ready s 0 1 = true ∧ ((after (.yield 0) s).thread 0).yieldFor = [2] := by decide +kernel

theorem witness_Unlisted : ∀ op ∈ [9, 0xF, 0x1A, 0x1F, 0x29, 0x2F, 0x39, 0x3F],
    (after (.illegalOpcode 0) (code (BitVec.ofNat 32 (op * 2 ^ 26)) [])).ril.lastTrap = 1 := by decide +kernel

/-! ### Descriptors and movers (R329 to R333) -/

/-- A word of the device format: L in bits 7 to 0 and the selection in bits 10 to 8 (R315). -/
def dword (op a b c sel lit : Nat) : BitVec 32 := rword op a b c (256 * sel + lit)

/-- Thread 0 of the given level runs this word; extent 0 is ACTIVE, pages 0 to 3 are UNMAPPED, PLAIN, UNMAPPED and locked. -/
def device (w : BitVec 32) (regs : Tab Word) (p : Priv := .firmware) : State :=
  let pc : Nat := if p = .firmware then 8 else if p = .operator then 0x40008 else 0x70008
  { ril := { bank0 := { words := [(pc / 4, w)], units := [(0, some 0)] } }
    threads := [(0, { state := .running, priv := p, pc := BitVec.ofNat 19 pc, regs })]
    cap := { extents := [(0, { state := .active })], dpaMap := [(0, [{ ld := 0, block := 0, home := 0, extent := 0, shared := false }])] }
    mdata := { desc := [(1, { state := .plain, location := 64, keySlot := 5 }), (3, { lock := true })] } }

/-- The register a and the trap code after a command. -/
def result (i : Instr) (n : Nat) (s : State) : Word × BitVec 8 := (((after i s).thread 0).reg n, (after i s).ril.lastTrap)

theorem witness_Dld :
    ready (device (dword 0x30 4 1 0 0 0) [(1, 1)]) 0x30 0 = true ∧ (device (dword 0x30 4 1 0 0 0) [(1, 1)]).metaHolds 0 (insKey 0x30 0) = false ∧
    result (.dld 0 0 0) 4 (device (dword 0x30 4 1 0 0 0) [(1, 1)]) = (1 + 5 * 2 ^ 8 + 64 * 2 ^ 20, 0) ∧
    result (.dld 0 0 0) 4 (device (dword 0x30 4 1 0 0 0) [(1, 1)] .tenant) = (1, 0) ∧
    result (.dld 0 0 0) 4 (device (dword 0x30 4 1 0 0 3) [(1, 1)] .operator) = (0, 0) ∧
    result (.dld 0 1 1) 4 (device (dword 0x30 4 1 0 0 0) [(1, 1)]) = (1 + 5 * 2 ^ 8 + 64 * 2 ^ 20, 0) := by decide +kernel

/-- DCAS of page g1: g4 and g5 are the words compared, g6 and g7 the new ones. -/
def dcas (page lit : Nat) (old new : BitVec 128) : State :=
  device (dword 0x30 4 1 6 1 lit) [(1, BitVec.ofNat 64 page), (4, old.extractLsb' 0 64), (5, old.extractLsb' 64 64),
    (6, new.extractLsb' 0 64), (7, new.extractLsb' 64 64)]

theorem witness_DcasRefused :
    result (.dcas 0 0 0) 4 (dcas 3 0 0 0) = (2, 0) ∧ (result (.dcas 0 0 0) 4 (dcas 3 1 0 0)).2 = 5 ∧
    result (.dcas 0 0 0) 4 (dcas 0 0 7 0) = (1, 0) ∧ (result (.dcas 0 0 0) 4 (dcas 0 0 (encodeDesc {}) (encodeDesc { keySlot := 9 }))).2 = 7 ∧
    result (.dcas 0 0 0) 4 (dcas 0 0 (encodeDesc {}) (encodeDesc { state := .plain })) = (3, 0) ∧
    result (.dcas 0 0 0) 4 { dcas 0 0 (encodeDesc {}) (encodeDesc {}) with
      gather := { entries := [{ dlpn := 0, lineNo := 0, data := 0, mask := 1, at_ := 0, source := 0, flow := 0 }] } } = (2, 0) := by decide +kernel

theorem witness_DcasSwapped :
    let r := after (.dcas 0 0 0) (dcas 0 0 (encodeDesc {}) (encodeDesc { state := .pattern, location := 3, blockLen := 1 }))
    (r.thread 0).state = .deviceOp ∧ (r.thread 0).reg 4 = 0 ∧ r.desc 0 = { state := .pattern, location := 3, blockLen := 1 } := by decide +kernel

theorem witness_DrelDfind :
    result (.drel 0) 4 (device (dword 0x30 4 1 2 2 0) [(1, 0), (2, 7)]) = (0, 0) ∧
    result (.dfind 0 []) 4 (device (dword 0x30 4 1 2 3 2) [(1, 0), (2, 3)]) = (1, 0) ∧
    result (.dfind 0 []) 4 (device (dword 0x30 4 1 2 3 4) [(1, 0), (2, 3)]) = (0xFFFFFFFFFFFFFFFF, 0) := by decide +kernel

theorem witness_Movers :
    let s := device (dword 0x31 4 1 2 0 0) [(1, 1), (2, 23)]
    let r := after (.move 0 0 0) s
    ready s 0x31 0 = true ∧ (r.thread 0).tickets = [0] ∧ (r.quad 0).jobs = [{ dlpn := 1, op := .move 23, ticket := some 0 }] ∧
    ((after (.move 0 0 0) (device (dword 0x31 4 1 2 0 32) [(1, 1), (2, 0x83)])).quad 0).jobs = [{ dlpn := 1, op := .demote 3, ticket := some 0 }] ∧
    ((after (.pack 0 0 0) (device (dword 0x31 4 1 0 1 0) [(1, 1)])).quad 0).jobs = [{ dlpn := 1, op := .pack, ticket := some 0 }] ∧
    ((after (.unpack 0 0 0) (device (dword 0x31 4 1 0 2 0) [(1, 1)])).quad 0).jobs = [{ dlpn := 1, op := .unpack, ticket := some 0 }] ∧
    ((after (.zero 0 0 0) (device (dword 0x31 4 1 0 3 0) [(1, 1)])).quad 0).jobs = [{ dlpn := 1, op := .zero, ticket := some 0 }] := by decide +kernel

theorem witness_EvacMwait :
    let s := device (dword 0x31 4 1 2 4 0) [(1, 0), (2, 0)]
    result (.evac 0) 4 s = (BitVec.ofNat 64 (s.evacCode 0 false), 0) ∧ s.evacCode 0 false ≠ 0 ∧
    (let s : State := { s with chans := [(0, { state := .active, usable := 1 }), (1, { state := .active, usable := 1 })] };
      s.evacCode 0 true = 0 ∧ ((after (.evac 0) { s with threads := [(0, { s.thread 0 with regs := [(2, 2)] })] }).chan 0).state = .evacuating) ∧
    (let s := device (dword 0x31 4 1 0 5 0) [(1, 6)]
      let t := { s with threads := [(0, { s.thread 0 with tickets := [6] })] };
      (result (.mwait 0) 4 s).2 = 4 ∧ ((after (.mwait 0) t).thread 0).state = .mwait ∧
      result (.mwait 0) 4 { t with ril := { t.ril with tickets := [(6, some { code := some 5 })] } } = (5, 0)) := by decide +kernel

/-! ### Sketch, QoS and events (R302 to R309, R334 to R338) -/

theorem witness_Magnitudes :
    let s := device (dword 0x32 4 1 0 0 0) [(1, 1)]
    let hot : State := { s with sketch := { s.sketch with counters := (List.range 4).map fun r => (sketchIndex 1 r, 192) } }
    result (.magr 0) 4 s = (15, 0) ∧ result (.magr 0) 4 hot = (0, 0) ∧
    result (.magr 0) 4 { s with sketch := { s.sketch with counters := (List.range 4).map fun r => (sketchIndex 1 r, 6 - r) } } = (12, 0) := by decide +kernel

theorem witness_Magscan :
    let s := device (dword 0x32 4 1 2 1 15) [(1, 0), (2, 2 + 2 ^ 16), (4, 0x40)]
    let r := after (.magscan 0) s
    firstTrap (s.bufferTraps (s.thread 0) 0x40 24) = none ∧ (r.thread 0).reg 4 = 2 ∧ r.load 0 0x40 8 = 2 ∧ r.load 0 0x48 8 = 0 ∧ r.load 0 0x50 8 = 1 := by decide +kernel

theorem witness_Decay :
    (after (.magdecay 0) (device (dword 0x32 0 0 0 2 0) [])).sketch.sweeping = true ∧
    (after .magnitudeDecay ({ time := { now := 100000000 } } : State)).sketch.sweeping = true ∧
    (let s : State := { sketch := { counters := [(7, 5), (9, 1)], sweeping := true } };
      Tab.wf 0 s.sketch.counters = true ∧ Tab.get 0 (after .halvingSweepDone s).sketch.counters 7 = 2 ∧
      Tab.get 0 (after .halvingSweepDone s).sketch.counters 9 = 0) := by decide +kernel

/-- LD 0 of head 0 exists. -/
def withLd (s : State) : State :=
  { s with ports := [(0, { trained := { ldCount := 1 }, cfg := { ldCount := 1 }, up := true })], lds := [(0, { mgmt := true })] }

theorem witness_Qset :
    let s := withLd (device (dword 0x33 0 1 2 0 0) [(1, 0), (2, 5)])
    let full := { s with threads := [(0, { s.thread 0 with staged := (List.range 64).map fun k => (1, k, 0) })] }
    s.ldExists 0 = true ∧ paramOk 0 5 = true ∧ ((after (.qset 0) s).thread 0).staged = [(0, 0, 5)] ∧ (after (.qset 0) full).ril.lastTrap = 6 ∧
    result (.qget 0) 4 { withLd (device (dword 0x33 4 1 0 1 0) [(1, 0)]) with qos := { pending := [(0, 0, 6)] } } = (6, 0) := by decide +kernel

theorem witness_Qcommit :
    let s := withLd (device (dword 0x33 4 0 0 2 0) [])
    let staged := { s with threads := [(0, { s.thread 0 with staged := [(0, 0, 5)] })] }
    result (.qcommit 0) 4 s = (0, 0) ∧ result (.qcommit 0) 4 staged = (BitVec.ofNat 64 (staged.judgeSet [(0, 0, 5)]), 0) ∧
    staged.judgeSet [(0, 0, 5)] = 0 ∧ (after (.qcommit 0) staged).qos.pending = [(0, 0, 5)] := by decide +kernel

theorem witness_QosSetApply :
    let s : State := { withLd {} with qos := { pending := [(0, 0, 5)], pendingAt := 7 }, time := { now := 8 } }
    (after .qosSetApply s).param 0 0 = 5 ∧ (after .qosSetApply s).qos.pending = [] := by decide +kernel

theorem witness_Wait :
    let s := device (dword 0x34 0 1 2 0 1) [(1, 0xFF20), (2, 3)]
    let r := after (.wait 0) s
    s.mayListen .firmware 0 255 = true ∧ (r.thread 0).state = .wait ∧ (r.thread 0).waitSet = [0x20, 0xFF] ∧ (r.thread 0).waitUntil = some 3000 := by
  decide +kernel

theorem witness_Post :
    let s := device (dword 0x34 0 5 0 1 0) [(1, 1), (2, 2), (3, 3), (4, 4), (5, 255)]
    let full := { s with queues := [(255, { entries := List.replicate 64 {} })] }
    s.mayPost (s.thread 0) 255 = true ∧ ((after (.post 0) s).queue 255).entries = [{ g1 := 1, g2 := 2, g3 := 3, g4 := 4 }] ∧
    (after (.post 0) full).ril.lastTrap = 9 := by decide +kernel

theorem witness_PostCompletes :
    let s := device (dword 0x34 0 5 0 1 0) [(1, 7), (2, 2), (3, 2), (5, 0)]
    let s := { s with ril := { s.ril with mbox := [{ tag := 7, cci := .mctp, opcode := 0, buffer := [(1, 9)] }] } }
    (s.mboxOf 7).isSome = true ∧ (after (.post 0) s).out = [.completion .mctp 2 [0, 9]] ∧ (after (.post 0) s).ril.mbox = [] := by decide +kernel

theorem witness_BindUnbind :
    let s := device (dword 0x34 3 1 2 2 31) [(1, 32), (2, 0x100), (3, 10)]
    let r := after (.bind 0) s
    s.inText (s.thread 0) 0x100 = true ∧
    (r.queue 32).bound = some { entry := 0x100, concurrency := 32, owner := .firmware, ld := 0, period := some 10000, nextDue := 10000 } ∧
    (after (.bind 0) { s with queues := r.queues }).ril.lastTrap = 6 ∧
    ((after (.unbind 0) { device (dword 0x34 0 1 0 3 0) [(1, 32)] with queues := r.queues }).queue 32).bound = none := by decide +kernel

/-- Queue 40 holds an event; its handler is bound. -/
def eventful : State :=
  { queues := [(40, { entries := [{ g1 := 9 }], bound := some { entry := 0x40, concurrency := 1, owner := .firmware, ld := 0 } })] }

theorem witness_Dispatch :
    let waiting := { eventful with threads := [(5, { state := .wait, waitSet := [40], pc := 12 })] }
    (List.range 256).find? eventful.canServe = some 40 ∧ eventful.waiter 40 = none ∧ eventful.threadFor .firmware = some 0 ∧
    ((after .dispatch eventful).thread 0).pc = 0x40 ∧ ((after .dispatch eventful).thread 0).reg 1 = 9 ∧ ((after .dispatch eventful).thread 0).reg 5 = 40 ∧
    waiting.waiter 40 = some 5 ∧ ((after .dispatch waiting).thread 5).reg 1 = 9 ∧ ((after .dispatch waiting).queue 40).entries = [] := by decide +kernel

theorem witness_Timeouts :
    let s : State := { threads := [(1, { state := .wait, waitSet := [40], waitUntil := some 50 })], time := { now := 50 } }
    let q : State := { queues := [(40, { bound := some { entry := 0, concurrency := 1, owner := .firmware, ld := 0, period := some 10, nextDue := 50 } })]
                       time := { now := 50, tb := 6 } }
    let t := after (.queueTimerExpiry 40) q
    ((after (.waitTimeout 1) s).thread 1).reg 5 = 0xFFFF ∧ (t.queue 40).entries = [{ g1 := 1, g2 := 6, timebase := 6, timer := true }] ∧
    ((after (.queueTimerExpiry 40) { t with time := { now := 60, tb := 8 } }).queue 40).entries = [{ g1 := 2, g2 := 8, timebase := 6, timer := true }] := by
  decide +kernel

theorem witness_Watchdog :
    let s : State := { threads := [(1, { state := .running, watchFrom := 5 }), (2, { state := .deviceOp })], time := { now := 10000005 } }
    (after (.watchdogExpiry 1) s).ril.lastTrap = 8 ∧ ((after (.watchdogExpiry 2) s).thread 2).late = true := by decide +kernel

/-! ### Registers, capacity and keys (R339 to R345) -/

theorem witness_Counters :
    let s := device (dword 0x35 4 1 2 0 8) [(1, 63), (2, 0xAB)]
    let s := { s with ctrs := [(63, { pmc := [(7, 5)], ovf := 9, sel := [(7, 0x1601)] })] }
    let rd := fun lit => result (.ctrr 0) 4 { s with ril := { s.ril with bank0 := { words := [(2, dword 0x35 4 1 0 0 lit)] } } }
    let wr := fun lit => { s with ril := { s.ril with bank0 := { words := [(2, dword 0x35 4 1 2 1 lit)] } } }
    rd 8 = (5, 0) ∧ rd 10 = (9, 0) ∧ rd 23 = (0x1601, 0) ∧ result (.ctrw 0) 4 (wr 8) = (5, 0) ∧
    Tab.get 0 ((after (.ctrw 0) (wr 8)).ctr 63).pmc 7 = 0xAB ∧ ((after (.ctrw 0) (wr 10)).ctr 63).ovf = 0 ∧ ctrDomain 0 = 4 ∧
    result (.ctrr 0) 4 { device (dword 0x35 4 1 0 0 1) [(1, 0)] with power := { doms := [(4, { state := .p3 })] } } = (0, 0) := by decide +kernel

theorem witness_Tally :
    let s := device (dword 0x35 0 1 2 2 0) [(1, 63), (2, 7)]
    let r := after (.tally 0) s
    (r.thread 0).pc = 12 ∧ ((Tab.get none r.rec_.opened 63).map fun y => (y.count, y.sum, y.smallest, y.largest)) = some (1, 7, 7, 7) := by decide +kernel

theorem witness_Window :
    let s := device (dword 0x36 4 1 0 0 0) [(1, 0)]
    let at_ := fun (x : Word) => { s with threads := [(0, { s.thread 0 with regs := [(1, x)] })] }
    result (.rdreg 0) 4 s = (s.almRead 0, 0) ∧ (result (.rdreg 0) 4 (at_ 4)).2 = 3 ∧ (result (.rdreg 0) 4 (at_ 0x4000000)).2 = 4 ∧
    (let w := device (dword 0x36 4 1 0 1 0) [(1, 0x18), (4, 5)];
      ((after (.wrreg 0) w).thread 0).pc = 12 ∧ (after (.wrreg 0) { w with threads := [(0, { w.thread 0 with regs := [(1, 1)] })] }).ril.lastTrap = 3) := by
  decide +kernel

theorem witness_Extgrant :
    let s := device (dword 0x37 4 1 2 0 0) [(1, 0), (2, 0)]
    let keyed := { s with threads := [(0, { s.thread 0 with ksel := some 3 })], keys := { slots := [(3, { state := .loaded, owner := some 0 })] } }
    let member := { keyed with ident := { role := false, devId := 1 }, const := { members := [(0, { state := .joined, polestar := true })] } }
    (after (.extgrant 0) s).ril.lastTrap = 7 ∧ keyed.keyGives 3 0 = true ∧ ((after (.extgrant 0) keyed).thread 0).state = .running ∧
    member.frozen = false ∧ ((after (.extgrant 0) member).thread 0).state = .deviceOp ∧ (after (.extgrant 0) member).const.admits.length = 1 ∧
    ((after (.extgrant 0) { member with const := {} }).thread 0).reg 4 = 1 := by decide +kernel

theorem witness_Extrecall :
    let s := fun lit => device (dword 0x37 4 1 0 1 lit) [(1, 0)]
    let loaned := fun lit => { s lit with cap := { (s lit).cap with extents := [(0, { state := .active, loaned := true })] } }
    let listed := fun lit => { loaned lit with cap := { (loaned lit).cap with releaseList := [0] } }
    result (.extrecall 0) 4 (s 0) = (2, 0) ∧ result (.extrecall 0) 4 (loaned 0) = (0, 0) ∧ (after (.extrecall 0) (loaned 0)).cap.releaseList = [0] ∧
    result (.extrecall 0) 4 (listed 0) = (4, 0) ∧ (after (.extrecall 0) (listed 2)).cap.releaseList = [] ∧
    ((after (.extrecall 0) (listed 1)).extent 0).state = .releaseReq ∧ result (.extrecall 0) 4 { s 1 with cap := {} } = (1, 0) := by decide +kernel

theorem witness_Capq :
    let s := device (dword 0x37 4 1 0 2 0) [(1, 0xFFB0)]
    firstTrap (s.bufferTraps (s.thread 0) 0xFFB0 80) = none ∧ (after (.capq 0) s).load 0 0xFFC0 8 = BitVec.ofNat 64 s.capAR := by decide +kernel

theorem witness_KeySlots :
    let s := device (dword 0x38 0 1 0 0 0) [(1, 4095), (2, 7), (3, 4095)]
    let key := fun st => { s with keys := { slots := [(4095, { state := st })], staged := [{ handle := 7, owner := some 2, key := 9, at_ := 0 }] } }
    let zero := fun st => { key st with ril := { s.ril with bank0 := { words := [(2, dword 0x38 0 1 0 2 0)] } } }
    let load := { key .empty with ril := { s.ril with bank0 := { words := [(2, dword 0x38 0 2 3 1 0)] } } }
    ((after (.ksel 0) (key .loaded)).thread 0).ksel = some 4095 ∧ ((after (.ksel 0) (key .bound)).thread 0).ksel = some 4095 ∧
    (after (.ksel 0) (key .closing)).ril.lastTrap = 7 ∧ (after (.kzero 0) (zero .loaded)).keySlot 4095 = {} ∧
    (after (.kzero 0) (zero .bound)).ril.lastTrap = 7 ∧
    (after (.kload 0) load).keySlot 4095 = { state := .loaded, owner := some 2, key := 9, load := 1 } := by decide +kernel

/-! ### Slots and power domains (R449 to R476) -/

/-- Slot 47 is as given at 100 s, with nothing queued. -/
def slotted (u : Slot) (q : List Nat := []) (ch : ChanState := .absent) : State :=
  { slots := [(47, u)], slotMgr := { queue := q }, time := { now := 100000000000 }, chans := [(23, { state := ch })] }

/-- Slot 47 after a command. -/
def slot47 (c : Instr) (s : State) : Slot := (after c s).slot 47

theorem witness_SlotRise :
    (slot47 (.slotAuxUpStart 47) (slotted { state := .off } [47])).state = .auxUp ∧
    (slot47 (.slotAuxUpDone 47) (slotted { state := .auxUp, since := 99999000000 })).state = .ramp ∧
    (slot47 (.slotRampDone 47) (slotted { state := .ramp, rampNow := 4, since := 99994000000 })).state = .qualify ∧
    (slot47 (.slotQualifyDone 47) (slotted { state := .qualify, qualFrom := 99995000000, timerMark := 99995000000 })).state = .on ∧
    (slot47 (.slotRetryRestore 47) (slotted { state := .on, since := 90000000000, retriesLeft := 0 })).retriesLeft = 3 ∧
    (slot47 (.slotBackoffDone 47) (slotted { state := .backoff, since := 99900000000, retriesLeft := 1 })).state = .auxUp := by decide +kernel

theorem witness_SlotRiseWaits :
    (slot47 (.slotRampDone 47) (slotted { state := .ramp, rampNow := 4, since := 99994000001 })).state = .ramp ∧
    (slot47 (.slotAuxUpDone 47) (slotted { state := .auxUp, since := 99999000001 })).state = .auxUp ∧
    (let s := slotted { state := .qualify, qualFrom := 99995000000, timerMark := 99995000000 };
      (after (.slotQualifyDone 47) { s with start := { phase := 7 } }).start.phase = 8) := by decide +kernel

theorem witness_SlotFaults :
    (let u := slot47 (.slot12vTrip 47 15000) (slotted { state := .ramp, rampTripNow := 15, prsnt := true, retriesLeft := 1 });
      u.state = .backoff ∧ u.lastFault = 2 ∧ u.rampTrip = 1 ∧ u.retriesLeft = 0) ∧
    (let u := slot47 (.slot12vTrip 47 30000) (slotted { state := .on, prsnt := true, retriesLeft := 0 });
      u.state = .latched ∧ u.lastFault = 1 ∧ u.trip12 = 1 ∧ u.latches = 1) ∧
    (slot47 (.slot12vTrip 47 29999) (slotted { state := .on, prsnt := true })).state = .on ∧
    (let u := slot47 (.auxTimerExpiry 47) (slotted { state := .on, limiting := true, auxTimerNow := 8, timerMark := 99998000000 });
      u.state = .backoff ∧ u.lastFault = 3 ∧ u.auxTo = 1) := by decide +kernel

theorem witness_SlotAux :
    (slot47 (.auxLimitEngage 47) (slotted { state := .on, timer := 5, timerMark := 99999999997 })).timer = 2 ∧
    (slot47 (.auxLimitRelease 47) (slotted { state := .on, limiting := true, timer := 5, timerMark := 99999999997 })).timer = 29 ∧
    (slot47 (.auxFaultTimerIdle 47) (slotted { state := .qualify, timer := 3, timerMark := 99999999997 })).qualFrom = 100000000000 := by decide +kernel

theorem witness_SlotPresence :
    (slot47 (.slotPresenceAssert 47) (slotted {})).prsnt = true ∧
    (let u := slot47 (.slotPresenceLoss 47) (slotted { state := .on, prsnt := true }); u.state = .off ∧ u.prsntLoss = 1 ∧ u.prsnt = false) ∧
    (slot47 (.slotPresenceLoss 47) (slotted { state := .latched, prsnt := true })).state = .latched ∧
    (slot47 (.slotMeasWindow 47 70) (slotted { windowEnd := 99999000000, peak := 60 })).peak = 70 := by decide +kernel

theorem witness_SlotCommands :
    (after (.slotOn 47) (slotted { prsnt := true } [3])).slotMgr.queue = [3, 47] ∧ (slot47 (.slotRearm 47) (slotted { state := .latched })).state = .off ∧
    (slot47 (.slotOff 47) (slotted { state := .on, prsnt := true })).state = .off ∧
    (slot47 (.slotOn 47) (slotted { prsnt := true } [] .active)).refused = true ∧ (slot47 (.slotOff 47) (slotted { state := .on } [] .evacuating)).refused = true ∧
    (slot47 (.slotRearm 47) (slotted { state := .latched } [] .active)).state = .latched := by decide +kernel

/-- Domain 51 of an idle cluster is as given. -/
def domain (d : Dom) : State := { power := { doms := [(51, d)] }, time := { now := 1000000 } }
/-- Domain 51 after a command: its state, its transition, what waits. -/
def dom51 (c : Instr) (d : Dom) : PState × DomTrans × Option PState := let d := (after c (domain d)).dom 51; (d.state, d.trans, d.pending)

theorem witness_PowerRequests :
    dom51 (.pwrDomReqP1 51) {} = (.p0, .entering .p1 0, none) ∧ dom51 (.pwrDomReqP2 51) { state := .p1 } = (.p1, .entering .p2 2, none) ∧
    dom51 (.pwrDomReqP1 51) { state := .p2 } = (.p2, .exiting, some .p1) ∧ dom51 (.pwrDomReqP1 51) { state := .p1 } = (.p1, .none, none) ∧
    dom51 (.pwrDomReqP2 51) { state := .p1, trans := .exiting } = (.p1, .exiting, some .p2) ∧
    dom51 (.pwrDomReqP2 51) { trans := .entering .p1 1 } = (.p0, .entering .p1 1, some .p2) ∧
    ((after (.pwrDomReqP3 51) (domain {})).dom 51).refused = true ∧ ((domain {}).domAllows 51 .p1) = true := by decide +kernel

theorem witness_PowerRequestsP3 :
    let off : State := { domain { state := .p2 } with clusters := [(4, { cmpIn := 0, dcmpIn := 0, xtsIn := 0 })] }
    off.domAllows 51 .p3 = true ∧ ((after (.pwrDomReqP3 51) off).dom 51).trans = .entering .p3 4 ∧
    dom51 (.idleP1Expiry 51) { idleP1 := 10, lastWork := 999000 } = (.p0, .entering .p1 0, none) ∧
    dom51 (.idleP2Expiry 51) { state := .p1, idleP2 := 1000 } = (.p1, .entering .p2 2, none) := by decide +kernel

theorem witness_PowerWakes :
    dom51 (.pwrDomReqP0 51) { state := .p2 } = (.p2, .exiting, none) ∧ dom51 (.domainWakeAccess 51) {} = (.p0, .none, none) ∧
    dom51 (.pwrDomReqP0 51) { state := .p1, trans := .exiting } = (.p1, .exiting, none) ∧
    ((after (.domainWakeAccess 51) (domain { trans := .entering .p2 4 })).dom 51).wake = true ∧
    ((after (.domainWakeAccess 51) (domain { trans := .entering .p3 3 })).dom 51).wake = false := by decide +kernel

theorem witness_DomainKinds :
    let s : State := { chans := [(0, { state := .active })], clusters := [] }
    s.domAllows 4 .p1 = true ∧ s.domAllows 5 .p3 = true ∧ s.domAllows 4 .p3 = false ∧
    ({ ports := [(0, { cfg := { enable := false } })] } : State).domAllows 28 .p3 = true ∧
    ({ ports := [(0, { downLatched := true })] } : State).domAllows 28 .p1 = true ∧ s.domAllows 46 .p3 = true := by decide +kernel

theorem witness_DomainEntries :
    dom51 (.domainEntryStepDone 51) { trans := .entering .p2 0 } = (.p0, .entering .p2 1, none) ∧
    dom51 (.domainEntryStepDone 51) { trans := .entering .p1 1 } = (.p1, .none, none) ∧
    (let s : State := { domain { trans := .entering .p2 0 } with clusters := [(4, { queue := [(.compress, 0, 0)] })] };
      s.drained 51 = false ∧ ((after (.domainEntryStepDone 51) s).dom 51).trans = .entering .p2 0) ∧
    dom51 (.domainEntryStepDone 51) { trans := .entering .p2 4 } = (.p2, .none, none) ∧
    dom51 (.domainEntryStepDone 51) { trans := .entering .p2 4, wake := true } = (.p2, .exiting, none) ∧
    (let d := (after (.domainEntryStepDone 51) (domain { trans := .entering .p2 2, wake := true })).dom 51; d.state = .p0 ∧ d.aborts = 1 ∧ d.wakes = 1) ∧
    dom51 (.domainExitDone 51) { state := .p2, trans := .exiting } = (.p0, .none, none) ∧
    (let s : State := { domain { trans := .entering .p2 4, pending := some .p3 } with clusters := [(4, { cmpIn := 0, dcmpIn := 0, xtsIn := 0 })] };
      ((after (.domainEntryStepDone 51) s).dom 51).trans = .entering .p3 4) ∧
    (let s : State := { power := { doms := [(4, { trans := .entering .p1 0 })] }, chans := [(0, { state := .active })] };
      ((after (.domainEntryStepDone 4) s).chan 0).selfRefresh = true ∨ ((after (.domainEntryStepDone 4) s).chan 0).srPending = true) := by decide +kernel

/-- The device sleeps. -/
def dozing : State := { power := { dozing := true, doms := [(7, { state := .p2 }), (51, { state := .p3 })] } }

theorem witness_Doze :
    ({} : State).dozeRefusal = 0 ∧ (after .doze {}).power.dozing = true ∧ ((after .doze {}).dom 54).state = .p2 ∧
    ({ ports := [(15, { up := true })] } : State).dozeRefusal = 1 ∧ ({ ulis := [(2, { lstate := .active })] } : State).dozeRefusal = 2 ∧
    ({ chans := [(23, { evac := some {} })] } : State).dozeRefusal = 3 ∧
    ({ ril := { mbox := [{ tag := 1, cci := .mctp, opcode := 0 }] } } : State).dozeRefusal = 4 ∧
    (after .doze { ports := [(15, { up := true })] }).power.refuseCause = 1 := by decide +kernel

theorem witness_DozeWake :
    let r := after (.dozeWake 3) dozing
    r.power.dozing = false ∧ r.power.wakeCause = 3 ∧ (r.dom 7).state = .p0 ∧ (r.dom 51).state = .p3 := by decide +kernel

theorem witness_Timebase :
    let s : State := { time := { tb := 5, now := 9000, uncert := 3 } }
    let c : State := { ident := { role := false, devId := 1 }, time := { now := 900000, slew := 2, slewPpm := 100, tb := 7 } }
    (after .refclkLoss s).time.fallback = true ∧ (after .refclkRestore (after .refclkLoss s)).time.fallback = false ∧
    (after (.tbSet 77) s).time.tb = 77 ∧ ((after (.tbSet 77) s).queue 11).entries.length = 1 ∧ (after .timebaseSlew c).time.tb = 8 ∧
    (after .timebaseSlew { c with time := { c.time with slew := -2 } }).time.tb = 6 ∧ (after .timebaseFreeRun c).time.freeRun = true ∧
    (after .timebaseFreeRun c).holds 693 = true := by decide +kernel

/-! ### Resets and the start (R492 to R512) -/

/-- A device in service, with something of each kind that a loss of power clears. -/
def used : State :=
  { ident := { serial := 7, role := false, devId := 1 }
    time := { now := 100, tb := 50 }, dram := [(3, { data := 9 })], threads := [(0, { state := .running })]
    slots := [(0, { prsnt := true, state := .on })], ulis := [(1, { prsnt := true, lstate := .active })]
    faults := { sticky := [(0, 8)], haltSource := 19, haltValid := true }
    keys := { deviceKey := some 4 }, img := { fwVersion := 6, tenants := [{ ld := 3, bytes := [1], active := true }] } }

theorem witness_LossOfPower :
    let off := after .pwrOkDeassert used
    let dead := after .vaonPowerLoss used
    let up := after .vaonPowerUp dead
    let on := after (.pwrOkAssert true 1 none) up
    off.dram = [] ∧ off.start.powered = false ∧ off.faults.haltSource = 19 ∧ off.faults.sticky = [] ∧ off.ident.serial = 7 ∧ off.img.fwVersion = 6 ∧
    off.img.tenants = [] ∧ (off.chan 0).state = .untrained ∧ (off.chan 1).state = .absent ∧
    dead.start.vaon = false ∧ dead.faults.haltValid = false ∧ up.start.vaon = true ∧ up.start.powered = false ∧
    on.start.powered = true ∧ on.ident.strapErr = true ∧ on.holds 692 = true ∧ on.power.latched = true ∧ on.start.phase = 2 ∧
    (on.slot 0).prsnt = true := by decide +kernel

/-- The device runs in phase 10 with one channel and formatted metadata. -/
def serving : State :=
  { time := { now := 1000 }, start := { phase := 10, earlyDone := true, memValid := true, phase9Done := true, alive := true, memActive := 1 }
    power := { latched := false, cxlLatched := false }, chans := [(0, { state := .active, frontier := 131072 }), (1, { state := .retired })]
    ports := [(0, { up := true, retrainTotal := 3 })], ulis := [(0, { lstate := .active }), (2, { retired := true, lstate := .retired })]
    threads := [(4, { state := .running })] }

theorem witness_WarmEntry :
    let r := after .resetNAssert serving
    r.start.entry = .warm 1000 ∧ r.start.cause = 1 ∧ r.start.resetLow = true ∧ r.start.alive = false ∧ (r.port 0).up = false ∧
    (r.uli 0).lstate = .down ∧ (r.uli 2).lstate = .retired ∧ (after (.rstCtlWarm (.rilia 4)) serving).start.cause = 2 ∧
    (after (.rstCtlWarm .engine) serving).regwin.lastCause = 6 ∧ (after (.rstCtlWarm .engine) serving).start.entry = .none := by decide +kernel

theorem witness_WarmRestart :
    let r := after .warmEntryDone (after (.rstCtlWarm (.rilia 4)) serving)
    let h := after .warmEntryDone (after .resetNAssert serving)
    r.start.entry = .none ∧ r.start.phase = 2 ∧ r.start.kind = 2 ∧ r.start.cause = 2 ∧ r.start.warmCount = 1 ∧ (r.chan 0).state = .untrained ∧
    (r.chan 0).selfRefresh = true ∧ (r.chan 0).frontier = 131072 ∧ (r.chan 1).state = .retired ∧ (r.port 0).retrainTotal = 3 ∧ r.threads = [] ∧
    (r.dom 5).state = .p3 ∧ (r.dom 4).state = .p0 ∧
    h.start.entry = .holding ∧ (after .resetNRelease h).start.entry = .none ∧ (after .resetNRelease h).start.phase = 2 ∧
    (after .resetNRelease serving).start = serving.start ∧
    (after .resetNAssert { serving with start := { serving.start with entry := .immediate } }).start.resetLow = true := by decide +kernel

theorem witness_ImmediateRestart :
    let s := { after .resetNAssert serving with time := { now := 1000 + 50000000 } }
    let r := after .warmEntryOverrun s
    let d := after .immediateEntryDone { r with start := { r.start with resetLow := false } }
    r.start.entry = .immediate ∧ r.start.cause = 4 ∧ r.start.immCount = 1 ∧ r.stickySet 5 = true ∧ r.start.immTimes = [50001000] ∧
    d.start.kind = 3 ∧ d.start.phase = 2 ∧ d.start.warmCount = 0 ∧ (after .immRecentExpiry d).start.immTimes = [50001000] ∧
    (after .immRecentExpiry { d with time := { now := 600050001000 } }).start.immTimes = [] := by decide +kernel

/-- Writes the bytes of a number, least significant first. -/
def le (n v : Nat) : List Byte := (List.range n).map fun i => BitVec.ofNat 8 (v / 256 ^ i)

/-- An image of 304 bytes, laid out from R347 to R353: header, section table, one word of text, no data and no bindings, the manifest,
and the signature. -/
def image (target signer svn ld entry : Nat) : List Byte :=
  le 4 0x4D494C52 ++ le 1 1 ++ le 1 target ++ le 1 signer ++ le 1 0 ++ le 8 9 ++ le 2 svn ++ le 2 0 ++ le 1 1 ++ le 1 0 ++ le 2 ld ++ le 4 304 ++
  le 36 0 ++ le 4 1 ++ le 4 128 ++ le 4 4 ++ le 4 0 ++ le 4 2 ++ le 4 136 ++ le 8 0 ++ le 4 3 ++ le 4 136 ++ le 8 0 ++ le 4 4 ++ le 4 136 ++
  le 4 64 ++ le 4 0 ++ le 8 0xFC000000 ++ le 4 entry ++ le 60 0 ++ le 104 0

theorem witness_ImageVerdict :
    (image 0 0 0 0xFFFF 0).length = 304 ∧ ({} : State).verdict 0 0xFFFF (image 0 0 0 0xFFFF 0) true = (1, false) ∧
    ({} : State).verdict 0 0xFFFF (image 0 1 0 0xFFFF 0) true = (4, false) ∧ ({} : State).verdict 0 0xFFFF (image 0 0 0 0xFFFF 0) false = (2, false) ∧
    ({} : State).verdict 0 0xFFFF (image 0 0 0 0xFFFF 4) true = (3, false) ∧
    ({ img := { fwFloor := 1 } } : State).verdict 0 0xFFFF (image 0 0 0 0xFFFF 0) true = (3, true) := by decide +kernel

theorem witness_VigilPasses :
    let s : State := { img := { fw0 := image 0 0 0 0xFFFF 0 } }
    let r := after (.earlyVigilDone [] [] true false false false) s
    let b := after .bootStart r
    r.start.reportPassed = true ∧ r.start.phase = 5 ∧ r.start.lantern = false ∧ r.img.fwCopy = false ∧ r.img.fwVersion = 9 ∧
    b.start.phase = 6 ∧ (b.thread 0).state = .running ∧ (b.thread 0).pc = 0 ∧ b.ril.bank0.fetch 0 = 0xFC000000 ∧
    (after (.earlyVigilDone [] [] true false false false) { s with img := { s.img with fwCopy := true } }).img.fwCopy = false := by decide +kernel

theorem witness_Vigil :
    (after .cxlPadRelease {}).power.cxlLatched = false ∧ (after .cxlPadRelease {}).start.phase = 4 ∧
    (let s : State := ({} : State).modPort 0 (fun p => { p with perst := false });
      (s.port 0).perst = false ∧ (s.port 0).training = false ∧ s.isHead 0 = true ∧ ((after .cxlPadRelease s).port 0).training = true ∧
      ((after .cxlPadRelease s).port 1).training = false) ∧
    (let r := after (.earlyVigilDone [] [] true true false false) {};
      r.start.earlyDone = true ∧ r.start.lantern = true ∧ r.start.reportPassed = false ∧ r.start.reportCode = 0x50 ∧ r.power.cxlLatched = false ∧
      (r.start.report.head?.map fun v => (v.code, v.inst, v.outcome)) = some (1, 0xFFFF, 0)) ∧
    (let r := after (.earlyVigilDone [(0x01, 0, 5, 0)] [] true true false false) {};
      r.start.lantern = true ∧ r.start.phase = 4 ∧ r.start.reportCode = 1 ∧ r.start.alive = false) ∧
    (after (.earlyVigilDone [] [] true true false false)
      { time := { now := 5 }, start := { kind := 3, immTimes := [1, 2, 3] } }).start.reportCode = 0x50 := by decide +kernel

theorem witness_PadsAndCutoff :
    let six : State := { serving with start := { serving.start with phase := 6, kind := 2 }, power := { cxlLatched := false } }
    let cold : State := { six with start := { six.start with kind := 1 }, slots := [(0, { prsnt := true })] }
    (after (.padRelease .engine) six).power.latched = false ∧ (after (.padRelease .engine) six).start.phase = 8 ∧
    (after (.padRelease .engine) six).start.phase8At = 1000 ∧ (after (.padRelease .engine) cold).start.phase = 7 ∧
    (after (.padRelease .engine) serving).start = serving.start ∧
    (after .phase8Cutoff { serving with time := { now := 2500000000 }, start := { serving.start with phase := 8 } }).start.phase8Done = true ∧
    (after .phase8Cutoff { serving with time := { now := 2499999999 }, start := { serving.start with phase := 8 } }).start.phase8Done = false ∧
    (after .bootStart { serving with start := { serving.start with phase := 5 } }).start.phase = 6 ∧
    ((after .bootStart { serving with start := { serving.start with phase := 5 } }).thread 0).state = .running := by decide +kernel
/-! ### Metadata, sensors, the recorder and the sticky bits (R505 to R535) -/

/-- Phase 8 of a cold start: channels 2 and 8 are ACTIVE. -/
def phase8 : State :=
  { start := { phase := 8, earlyDone := true, phase8Done := true }
    chans := [(2, { state := .active, usable := 1, frontier := 131072 }), (8, { state := .active, usable := 1, frontier := 131072 })] }

theorem witness_MetadataFormat :
    let r := after .metadataFormat phase8
    r.start.memValid = true ∧ r.start.phase = 9 ∧ r.cap.rootA.map (fun m => m.toNat / 2 ^ 19) = some 2 ∧
    r.cap.rootB.map (fun m => m.toNat / 2 ^ 19) = some 8 ∧
    (after .metadataFormat { phase8 with start := { phase8.start with phase8Done := false }, chans := (9, { state := .untrained }) :: phase8.chans })
      = { phase8 with start := { phase8.start with phase8Done := false }, chans := (9, { state := .untrained }) :: phase8.chans } := by decide +kernel

theorem witness_MetadataRecovery :
    let w : State := { phase8 with start := { phase8.start with kind := 2, memValid := true }, cap := { extents := [(4, { state := .active })] } }
    let i : State := { w with start := { w.start with kind := 3 } }
    (after (.metadataRecovery false []) w).start.rebuilding = true ∧ (after (.metadataRecovery false []) w).start.phase = 9 ∧
    (after (.metadataRecovery false []) w).cap.extents = w.cap.extents ∧
    (after (.metadataRecovery false [7]) w).start.entry = .immediate ∧ (after (.metadataRecovery false [7]) w).start.cause = 3 ∧
    (after (.metadataRecovery false [7]) w).stickySet 2 = true ∧
    (after (.metadataRecovery true []) i).cap.extents = [] ∧ (after (.metadataRecovery true []) i).start.phase = 9 ∧
    (after (.metadataRecovery false [0]) { i with mdata := { desc := [(0, { state := .plain })] } }).desc 0 = { state := .poisoned } := by decide +kernel

theorem witness_MemoryActive :
    let s : State := { phase8 with
      start := { phase8.start with phase := 9, phase9Done := true, kind := 2, immTimes := [3], rebuilding := true }
      queues := [(0, { bound := some { entry := 0, concurrency := 1, owner := .firmware, ld := 0 } })]
      allocs := [(2, { frames := [(1, some (.page 9)), (2, some .lost)] })] }
    (after .memoryActiveSet s).start.phase = 10 ∧ (after .memoryActiveSet s).start.alive = true ∧ (after .memoryActiveSet s).alm.owed = true ∧
    (after .memoryActiveSet s).start.memActive = 0xFFFF ∧ (after .memoryActiveSet s).start.immTimes = [] ∧
    (after .freeMapRebuildDone s).start.rebuilding = false ∧ ((after .freeMapRebuildDone s).alloc 2).frames = [(2, some .lost)] := by decide +kernel

theorem witness_Sensors :
    let s : State := { time := { now := 1000000 }, faults := { tempWarn := 100 } }
    let hot := after (.sensorReading 1 101) s
    hot.holds 964 = true ∧ (hot.sensor 1).temp = 101 ∧ (hot.sensor 1).valid = true ∧ (after (.sensorReading 1 96) hot).holds 964 = true ∧
    (after (.sensorReading 1 95) hot).holds 964 = false ∧ (after (.sensorReading 1 95) hot).dram = [] ∧
    (let r := after (.sensorReading 1 120) s; r.faults.halted = true ∧ r.faults.haltSource = 20 ∧ r.faults.thermtrip = true ∧ (r.dom 8).state = .p3) ∧
    (after (.sensorReading 1 119) s).faults.halted = false := by decide +kernel

theorem witness_Supplies :
    let s : State := { time := { now := 1000000 } }
    (after (.sensorTimeout 2) s).holds 969 = true ∧ ((after (.sensorTimeout 2) s).sensor 2).temp = 0xFF ∧
    (after (.sensorTimeout 2) { s with sensors := [(0, { failed := true }), (1, { failed := true }), (3, { failed := true })] }).faults.haltSource = 20 ∧
    (after (.supplyDetectorTrip 3 0) s).holds 974 = true ∧ (after (.supplyDetectorTrip 3 1) (after (.supplyDetectorTrip 3 0) s)).holds 974 = false ∧
    (after (.supplyDetectorTrip 3 2) s).faults.haltSource = 19 ∧
    (after (.supplyDetectorTrip 3 0) { s with power := { dozing := true } }).power.wakeCause = 6 := by decide +kernel

theorem witness_Checks :
    let s : State := { start := { earlyDone := true }, keys := { deviceKey := some 3 } }
    after (.fuseMapCheck true) s = s ∧ (after (.fuseMapCheck false) s).faults.haltSource = 18 ∧
    (after (.enclaveIntegrityLoss true) s).faults.haltSource = 16 ∧ (after (.enclaveIntegrityLoss true) s).keys.deviceKey = none ∧
    (after (.enclaveIntegrityLoss false) s).faults.haltSource = 17 := by decide +kernel

theorem witness_EpochBoundary :
    let t : Tally := { source := 5, count := 2 }
    let s : State := { time := { now := 1500000000, tb := 44 }, rec_ := { opened := [(5, some t)] } }
    let r := after .epochBoundary s
    r.rec_.lastEpoch = 1500000000 ∧ Tab.get none r.rec_.opened 5 = none ∧ r.rec_.seq = 2 ∧
    r.rec_.store = [{ t with seq := 1, tbClose := 44, upClose := 1500000000 }] ∧ after .epochBoundary r = r := by decide +kernel

theorem witness_Publication :
    let s : State := { alm := { built := true, owed := true } }
    let r := after .almanacPublicationComplete (after .almanacPublication s)
    (after .almanacPublication s).alm.upd = true ∧ r.alm.generation = 2 ∧ r.alm.upd = false ∧ r.alm.nextFrom = 1000000 ∧
    ((r.queue 1).entries.map (·.g1)) = [2] ∧ r.alm.words.length = (after .almanacPublication s).alm.next.length := by decide +kernel

theorem witness_Sticky :
    let s : State := { start := { earlyDone := true }, faults := { sticky := [(15, 0x1F0)], live := [964] } }
    (after (.fstickyClear .engine 15 0x130) s).fsticky 15 = 0xD0 ∧ Tab.get 0 (after (.faultMaskWrite .engine 0 0xFFFFFFFFFFFFFFFF) s).faults.mask 0 ≠ 0 ∧
    (Tab.get 0 (after (.faultMaskWrite .engine 0 0xFFFFFFFFFFFFFFFF) s).faults.mask 0).getLsbD 5 = false ∧
    (after (.malformedCxlMemRequest 3) { ports := [(3, { up := true })] }).stickySet (8 * 64 + 24 + 6) = true := by decide +kernel
/-! ### Ports and the register window (R65 to R112, R554 to R566) -/

/-- Port 0 heads an x16 link of two LDs; port 4 is a head of its own. -/
def ported (p : Port) : State :=
  { time := { now := 20000000000 }, start := { phase := 10, earlyDone := true, memActive := 1 }, power := { latched := false, cxlLatched := false }
    ports := [(0, { cfg := { merge := 2, ldCount := 2 }, trained := { merge := 2, ldCount := 2 }, perst := p.perst, up := p.up, training := p.training
                    windowFrom := p.windowFrom, retrains := p.retrains, downLatched := p.downLatched, ideState := p.ideState, ideReset := p.ideReset
                    width := p.width, rate := p.rate }), (4, { up := true })]
    lds := [(1, { decoders := [(0, { committed := true })] })] }

theorem witness_Perst :
    let r := after (.portPerstRelease 0) (ported { perst := true })
    (r.port 0).perst = false ∧ (r.port 0).training = true ∧ (r.port 0).clkreq = true ∧
    (let d := after (.portPerstAssert 0) (ported { perst := false, up := true, ideState := 1 });
      (d.port 0).up = false ∧ (d.port 0).ideState = 0 ∧ (d.port 0).perst = true ∧ (d.ld 1).decoders = [] ∧ (d.port 4).up = true) := by decide +kernel

theorem witness_LinkTraining :
    let s := ported { perst := false, training := true }
    ((after (.linkTrained 0 5 4 true) s).port 0).up = true ∧ (after (.linkTrained 0 5 4 true) s).holds (8 * 64 + 1) = false ∧
    (after (.linkTrained 0 4 4 true) s).holds (8 * 64 + 1) = true ∧ after (.linkTrained 0 5 4 false) s = s ∧
    (let d := after (.linkDown 0) (ported { perst := false, up := true, width := 5, rate := 4 });
      (d.port 0).up = false ∧ (d.port 0).width = 0 ∧ (d.port 0).training = true ∧ (d.ld 1).decoders = []) := by decide +kernel

theorem witness_Retrains :
    let one := after (.linkRetrain 0) (ported { perst := false, up := true })
    let two := after (.linkRetrain 0) (ported { perst := false, up := true, windowFrom := some 19000000000, retrains := 1 })
    let three := after (.linkRetrain 0) (ported { perst := false, up := true, windowFrom := some 19000000000, retrains := 2 })
    (one.port 0).retrains = 1 ∧ (one.port 0).windowFrom = some 20000000000 ∧ one.stickySet (8 * 64) = true ∧ (two.port 0).retrains = 2 ∧
    (two.port 0).training = true ∧ (three.port 0).downLatched = true ∧ (three.port 0).training = false ∧ three.holds (8 * 64 + 2) = true ∧
    (let c := after (.downLatchedClear 0) three; (c.port 0).downLatched = false ∧ (c.port 0).training = true ∧ c.holds (8 * 64 + 2) = false) ∧
    ((after (.portRetrainWindowEnd 0) (ported { windowFrom := some 10000000000, retrains := 2 })).port 0).retrains = 0 := by decide +kernel

theorem witness_Ide :
    let s := ported { perst := false, up := true }
    let gathered : State := { ported { perst := false, up := true, ideState := 2 } with
      gather := { entries := [{ dlpn := 0, lineNo := 0, data := 0, mask := 1, at_ := 0, source := 0, flow := 0, verified := false }] } }
    ((after (.ideKeyExchange 0 true) s).port 0).ideState = 2 ∧ ((after (.ideKeyExchange 0 false) s).port 0).ideState = 1 ∧
    after (.ideKeyExchange 0 true) (ported { perst := false, up := true, ideState := 3 }) = ported { perst := false, up := true, ideState := 3 } ∧
    ((after (.ideKeyExchange 0 true) (ported { perst := false, up := true, ideState := 3, ideReset := true })).port 0).ideState = 2 ∧
    ((after (.ideMacPass 0) gathered).gather.entries.map (·.verified)) = [true] ∧
    (after (.ideMacFailure 0) gathered).gather.entries = [] ∧ ((after (.ideMacFailure 0) gathered).port 0).ideState = 3 ∧
    (after (.ideMacFailure 0) gathered).holds (8 * 64 + 3) = true := by decide +kernel

theorem witness_Services :
    let s := ported { perst := false, up := true }
    (after (.doeCdatTableAccess 1) s).out = [.cdat 1 [] 98 40 0 0] ∧
    (let r := after (.hdmDecoderCommit 1 3 0x1000 0x2000 2 512) s;
      Tab.get {} (r.ld 1).decoders 3 = { base := 0x1000, size := 0x2000, ways := 2, granularity := 512, committed := true }) ∧
    after (.hdmDecoderCommit 1 0 0x1000 0x2000 2 512) s = s ∧ after (.hdmDecoderCommit 1 3 0x1000 0x2000 5 512) s = s ∧
    ((after (.spdmSecureSession (.ld 1) true true) s).cci 1).spdm = { established := true, version13 := true, mutualAuth := false } ∧
    (let d : State := { s with path := { snoops := [{ head := 0, line := lineKey 0 5 6, inv := true }], directory := [(lineKey 0 5 6, 3)] } };
      (after (.birsp 0 0 5 6) d).path.snoops = [] ∧ (after (.birsp 0 0 5 6) d).dirEntry (lineKey 0 5 6) = 2) := by decide +kernel

/-- Registers may be written. -/
def writable : State := { start := { phase := 10, earlyDone := true }, power := { latched := false, cxlLatched := false } }

/-- The worked example of chapter 21: CH_CTL of channel 5 is written and locked, then written again by operator policy. -/
theorem witness_ChCtl :
    let s : State := { writable with chans := [(5, { state := .active })] }
    let r := after (.chCtlWrite .engine 5 0x8000008281C08103) s
    let t := after (.chCtlWrite (.rilia 0) 5 0x0000008282008107) { r with threads := [(0, { state := .running, priv := .operator, pc := 0x40000 })] }
    (r.chan 5).pageDefault = 3 ∧ (r.chan 5).pdTimer = 0x20 ∧ (r.chan 5).rowIdle = 0x10 ∧ (r.chan 5).speedMax = 0x38 ∧ (r.chan 5).wrHigh = 0x28 ∧
    (r.chan 5).wrLow = 0x10 ∧ (r.chan 5).commit = true ∧ r.regwin = {} ∧
    (t.chan 5).express = true ∧ (t.chan 5).speedMax = 0x38 ∧ (t.chan 5).commit = true ∧
    readFields (registerAt 0x10 5 0) t = 0x8000008281C08107 ∧ t.regwin.ignored = 1 ∧ t.regwin.lastCause = 2 ∧ t.regwin.lastRilia = true := by decide +kernel

theorem witness_PortCtl :
    let s : State := { writable with ports := [(0, { up := true, trained := { ldCount := 2 } }), (3, { commit := true })]
                                     lds := [(1, { mgmt := true })] }
    let r := after (.portCtlWrite .engine 2 (BitVec.ofNat 64 (2 ^ 63 + 2 ^ 13 + 256 * 7 + 64 * 1 + 32 + 4 * 3 + 1))) s
    (r.port 2).cfg = { merge := 1, maxRate := 3, sris := true, ideCap := 1, ldCount := 7 } ∧ (r.port 2).commit = true ∧ r.regwin = {} ∧
    (after (.portCtlWrite .engine 3 0x2150) s).regwin.lastCause = 2 ∧ (after (.portCtlWrite (.host 1) 2 0x2150) s).regwin.lastCause = 1 ∧
    (after (.portCtlWrite (.host 1) 2 0x2150) s).regwin.lastSrc = 1 ∧ (after (.portCtlWrite (.host 1) 2 0x2150) s).port 2 = {} := by decide +kernel

theorem witness_UltCtl :
    let r := after (.ultCtlWrite .engine 1 (BitVec.ofNat 64 (2 ^ 20 * 9 + 2 ^ 16 * 2 + 2 ^ 12 * 5 + 2 ^ 5 * 6 + 16 + 8))) writable
    (r.uli 1).vcs = 8 ∧ (r.uli 1).replayTo = 6 ∧ (r.uli 1).replayN = 5 ∧ (r.uli 1).retrainN = 2 ∧ (r.uli 1).retrainWin = 9 ∧ r.regwin = {} ∧
    (let d := after (.ultRetireRetire .engine 1) writable;
      (d.uli 1).lstate = .retired ∧ (d.uli 1).cause = 3 ∧ d.holds (640 + 16 + 5) = true ∧
      ((after (.ultRetireClear .engine 1) d).uli 1).lstate = .down ∧ ((after (.ultRetireClear .engine 1) d).uli 1).cause = 3 ∧
      (after (.ultRetireClear .engine 1) d).holds (640 + 16 + 5) = false) := by decide +kernel

theorem witness_Xmap :
    let r := after (.constXmapWrite .engine (BitVec.ofNat 64 (3 + 256 * 77 + 2 ^ 32 * 2 + 2 ^ 34 * 9))) writable
    r.const.xmap.ld = 3 ∧ r.const.xmap.block = 77 ∧ r.const.xmap.home = 2 ∧ r.const.xmap.extent = 9 ∧ r.const.xmap.busy = false ∧
    r.const.xmap.result ≠ 0 ∧ r.regwin = {} := by decide +kernel

theorem witness_RegisterWindow :
    let s : State := { writable with ports := [(0, { up := true, trained := { ldCount := 2 } })], alm := { built := true, words := [0x1122334455667788] }
                                     faults := { sticky := [(3, 0xFF)] } }
    (after (.registerRead 1 0 8) s).out = [.register 1 0x1122334455667788] ∧ (after (.registerRead 1 4 4) s).out = [.register 1 0x11223344] ∧
    (after (.registerRead 1 0 4) s).out = [.register 1 0x55667788] ∧ (after (.registerRead 1 2 1) s).out = [.register 1 0] ∧
    (after (.registerRead 1 0x10000 8) s).out = [.register 1 0] ∧ after (.registerWrite (.host 1) 8 8 5) s = s := by decide +kernel
/-! ### Commands of the command interfaces (R93 to R115) -/

/-- The mailbox handler is bound; head 0 has two LDs on an x16 link. -/
def boxed : State :=
  { start := { phase := 10, earlyDone := true, phase9Done := true, memActive := 1 }, power := { latched := false, cxlLatched := false }
    ident := { serial := 0x0102030405060708 }, time := { tb := 500, now := 100 }
    ports := [(0, { up := true, cfg := { merge := 2, ldCount := 2 }, trained := { merge := 2, ldCount := 2 }, width := 5, rate := 4 })]
    queues := [(0, { bound := some { entry := 0, concurrency := 1, owner := .firmware, ld := 0 } })] }

/-- The code and the payload that a command answers with. -/
def reply (c : Instr) (s : State) : Option (Code × List Byte) := (after c s).out.head?.bind fun o => match o with
  | .command _ code payload => some (code, payload)
  | _ => none

/-- A little-endian number of bytes of a payload. -/
def field (r : Option (Code × List Byte)) (off n : Nat) : Option (Code × Nat) :=
  r.map fun x => (x.1, ((x.2.drop off).take n).foldr (fun b t => b.toNat + 256 * t) 0)

theorem witness_EngineCommands :
    field (reply (.identify .mctp 0) boxed) 8 8 = some (.success, 0x0102030405060708) ∧
    field (reply (.backgroundOperationStatus .mctp 0) { boxed with ccis := [(256, { background := { opcode := 0xC002, running := true, percent := 5 } })] })
      0 8 = some (.success, 11) ∧
    reply (.setResponseMessageLimit .mctp 1 9) boxed = some (.success, [9]) ∧
    reply (.getTimestamp (.ld 1) 0 1) { boxed with lds := [(1, { timeOffset := 7 })] } = some (.success, leBytes 8 507) ∧
    ((after (.setTimestamp (.ld 1) 8 1 600) boxed).ld 1).timeOffset = 100 ∧
    reply (.getTimestamp (.ld 1) 0 0) boxed = some (.unsupportedMailbox, []) ∧
    (reply (.getRiliaStatus .mctp 0) boxed).map (fun r => (r.2.length, r.2.head?)) = some (64, some 0xFF) ∧
    reply (.unsupportedCommand .mctp 0 0x7777) boxed = some (.unsupported, []) := by decide +kernel

theorem witness_EventLogs :
    let e : EventRec := { handle := 5, timestamp := 9, body := .vendor 4 3 }
    let s : State := { boxed with lds := [(1, { info := { records := [e], overflow := 2, firstOverflow := 8 } })] }
    (field (reply (.getEventRecords (.ld 1) 1 1 0) s) 0 8) = some (.success, 1 + 65536 * 2) ∧
    ((reply (.getEventRecords (.ld 1) 1 1 0) s).map fun r => r.2.length) = some 160 ∧
    ((after (.clearEventRecords (.ld 1) 8 1 0 false [5]) s).ld 1).info.records = [] ∧
    ((after (.clearEventRecords (.ld 1) 6 1 0 true []) s).ld 1).info.overflow = 0 ∧
    reply (.clearEventRecords (.ld 1) 8 1 0 false [6]) s = some (.invalidHandle, []) := by decide +kernel

theorem witness_Regions :
    let s : State := { boxed with alm := { built := true, generation := 3, words := [1, 2, 3] }, start := { boxed.start with reportEnded := 77 } }
    reply (.getAlmanac .mctp 8 8 16) s = some (.success, leBytes 8 3 ++ leBytes 8 2 ++ leBytes 8 3) ∧
    (after (.getAlmanac .mctp 8 0 8) { s with alm := { s.alm with upd := true } }).alm.waiting = [(.mctp, 8, 0, 8)] ∧
    field (reply (.getVigilReport .mctp 8 0 8) s) 0 8 = some (.success, 77) ∧
    field (reply (.getTallies .mctp 16 0 2 0xFFFF) { s with rec_ := { store := [{ seq := 4, source := 5 }] } }) 0 8 = some (.success, 5) ∧
    ((reply (.getTallies .mctp 16 0 2 0xFFFF) { s with rec_ := { store := [{ seq := 4, source := 5 }] } }).map fun r => r.2.length) = some 272 ∧
    field (reply (.getCometSamples .mctp 4 2 3) { s with comets := { quads := [(2, { buffer := [{ kind := 0, quadrant := 2, timebase := 1, uptime := 2 }] })] } })
      0 4 = some (.success, 1) := by decide +kernel

theorem witness_FirmwareCommands :
    let s : State := { boxed with img := { fwVersion := 6 }, chans := [(0, { state := .active })], slots := [(2, { state := .on, i12 := 5 })] }
    reply (.getFwInfo .mctp 0) s = some (.success, leBytes 8 1 ++ leBytes 8 1 ++ leBytes 8 6) ∧
    ((after (.setAlertConfiguration (.ld 1) 12 1 3 70 10 4) s).ld 1).alerts = { valid := 3, warnTemp := 70, lowTemp := 10, ceThreshold := 4 } ∧
    ((reply (.constellationStatus .mctp 0) s).map fun r => r.2.length) = some 136 ∧
    reply (.slotPowerControl .mctp 4 1 2) s = some (.invalidInput, []) ∧ field (reply (.slotPowerControl .mctp 4 2 0) s) 4 4 = some (.success, 5) ∧
    (after (.setTimebase .mctp 16 400 false) s).time.tb = 500 ∧ (after (.setTimebase .mctp 16 400 true) s).time.tb = 400 ∧
    reply (.setTimebase .mctp 16 600 false) s = some (.success, leBytes 8 500 ++ leBytes 8 600) ∧
    (after (.configureRecorder .mctp 16 1 2000 32) s).rec_.pendRing = 32 ∧ reply (.configureRecorder .mctp 16 1 2000 33) s = some (.invalidInput, []) ∧
    reply (.counterAccessGrant .mctp 16 0 1 1 6) { s with lds := [(1, { ctrGrant := 9 })] } = some (.success, leBytes 8 15) ∧
    reply (.counterAccessGrant .mctp 16 0 1 2 1) { s with lds := [(1, { ctrGrant := 9 })] } = some (.success, leBytes 8 8) := by decide +kernel

theorem witness_CommandChecks :
    reply (.getDcdInfo .mctp 1) boxed = some (.invalidPayloadLength, []) ∧ reply (.getDcdInfo (.ld 1) 0) boxed = some (.unsupportedMailbox, []) ∧
    reply (.getDcdInfo .mctp 0) { boxed with start := { boxed.start with lantern := true } } = some (.mediaDisabled, []) ∧
    reply (.getDcdInfo .mctp 0) { boxed with queues := [] } = some (.busy, []) ∧
    after (.getDcdInfo .mctp 0) { boxed with start := { boxed.start with earlyDone := false } } =
      { boxed with start := { boxed.start with earlyDone := false } } := by decide +kernel

/-- The device in service holds one extent, mapped at block 16 of LD 1. -/
def granted (x : Extent) : State :=
  { boxed with
    lds := [(1, { regions := [(0, { base := 16, len := 32 })] })]
    cap := { extents := [(7, { x with ld := 1, block := 16, grantFirst := 7, grantCount := 1 })]
             dpaMap := [(dpaSet 1 16, [{ ld := 1, block := 16, home := 0, extent := 7, shared := x.shared }])] } }

/-- The extent list that names it. -/
def itsList : List (BitVec 64 × BitVec 64) := [(BitVec.ofNat 64 (16 * 2 ^ 28), BitVec.ofNat 64 (2 ^ 28))]

theorem witness_FabricQueries :
    let s := granted { state := .active }
    field (reply (.getLdInfo .mctp 0) s) 8 8 = some (.success, s.allLds.length) ∧ s.allLds.take 3 = [0, 1, 64] ∧
    reply (.getLdAllocations .mctp 2 1 1) s = some (.success, wordsLe [s.allLds.length, 2 ^ 28, 1, 1, 1, 1]) ∧
    reply (.getHeadInfo .mctp 2 0 1) s = some (.success, wordsLe [1, 0, s.headPorts 0, 5, 4, 1]) ∧
    field (reply (.getHostDcRegionConfiguration .mctp 4 1 0 1) s) 8 8 = some (.success, 16 * 2 ^ 28) ∧
    reply (.getHostDcRegionConfiguration .mctp 4 2 0 1) s = some (.invalidInput, []) ∧
    field (reply (.getDcRegionExtentLists .mctp 12 1 0 4) s) 0 4 = some (.success, 1) ∧
    field (reply (.getDynamicCapacityExtentList (.ld 1) 8 1 0 4) (granted { state := .offered })) 0 4 = some (.success, 0) ∧
    reply (.getQosStatus .mctp 0 0) s = some (.success, [0]) ∧ reply (.getQosAllocatedBw .mctp 2 0 1) s = some (.success, [1, 0, 0]) := by decide +kernel

theorem witness_RegionsSet :
    let r := after (.setDcRegionConfiguration .mctp 8 1 3 (BitVec.ofNat 64 (2 ^ 28 * 5)) (BitVec.ofNat 64 (2 ^ 28 * 2))) boxed
    Tab.get {} (r.ld 1).regions 3 = { base := 5, len := 2 } ∧
    reply (.setDcRegionConfiguration .mctp 8 1 3 1 (BitVec.ofNat 64 (2 ^ 28 * 2))) boxed = some (.invalidInput, []) := by decide +kernel

theorem witness_Offers :
    let s := granted { state := .offered, announced := true }
    let accept := Instr.addDynamicCapacityResponse (.ld 1) 32 1 itsList
    reply accept s = some (.success, []) ∧ ((after accept s).extent 7).state = .active ∧
    ((after (.addDynamicCapacityResponse (.ld 1) 8 1 []) s).extent 7).state = .free ∧
    reply (.addDynamicCapacityResponse (.ld 1) 8 1 []) boxed = some (.success, []) ∧
    reply (.addDynamicCapacityResponse (.ld 1) 32 1 [(1, BitVec.ofNat 64 (2 ^ 28))]) s = some (.invalidExtentList, []) := by decide +kernel

theorem witness_Releases :
    let s := granted { state := .active, shared := true, mappings := 2 }
    ((after (.releaseDynamicCapacity (.ld 1) 32 1 itsList) s).extent 7).mappings = 1 ∧
    ((after (.releaseDynamicCapacity (.ld 1) 32 1 itsList) s).extent 7).state = .active ∧
    ((after (.initiateDynamicCapacityRelease .mctp 8 1 true itsList) s).extent 7).mappings = 1 ∧
    reply (.releaseDynamicCapacity (.ld 1) 32 1 [(1, 2)]) s = some (.invalidExtentList, []) ∧
    ((after (.releaseDynamicCapacity (.ld 1) 32 1 itsList) (granted { state := .active, mappings := 1 })).extent 7).state ≠ .active := by decide +kernel

theorem witness_Admission :
    let s : State := { boxed with lds := [(1, { regions := [(0, { base := 16, len := 32 })] })], keys := { slots := [(9, { state := .loaded })] } }
    s.keyGives 9 1 = true ∧
    reply (.initiateDynamicCapacityAdd .mctp 8 1 16 1 false false false none none 9 4) s = some (.resourcesExhausted, []) ∧
    reply (.initiateDynamicCapacityAdd .mctp 8 1 16 1 false false false none none 8 4) s = some (.invalidInput, []) := by decide +kernel

/-! ### Images and keys (R99, R355 to R371, R210 to R216) -/

/-- A chunk of an operator image for target 1. -/
def chunk (off total : Nat) (b : List Byte) (ok : Bool) : Instr :=
  .loadRiliaImage .mctp (BitVec.ofNat 32 (16 + b.length)) (BitVec.ofNat 32 off) (BitVec.ofNat 32 total) 1 0 0 b ok

theorem witness_Loads_images :
    let s : State := { boxed with img := { opKey := some [] } }
    let i := image 1 1 0 0xFFFF 0xFFFFFFFF
    let one := after (chunk 0 304 (i.take 104) false) s
    let two := after (chunk 104 304 (i.drop 104) true) one
    reply (chunk 0 304 (i.take 104) false) s = some (.success, leBytes 4 104 ++ leBytes 1 0 ++ leBytes 3 0) ∧
    reply (chunk 104 304 (i.drop 104) true) one = some (.success, leBytes 4 304 ++ leBytes 1 1 ++ leBytes 3 0) ∧
    reply (chunk 104 304 (i.drop 104) false) one = some (.success, leBytes 4 304 ++ leBytes 1 2 ++ leBytes 3 0) ∧
    two.img.op1 = i ∧ (two.loadOf 1 0).map (·.state) = some 1 ∧
    reply (.activateRiliaImage .mctp 4 1 0 0 0) two = some (.backgroundStarted, []) ∧
    ((after (.activateRiliaImage .mctp 4 1 0 0 0) two).cci 256).background = { opcode := 0xC002, running := true } ∧
    ((after (.activateRiliaImage .mctp 4 1 0 0 0) two).img.act.map fun a => (a.target, a.bytes.length)) = some (1, 304) := by decide +kernel

theorem witness_Swap :
    let s : State := { boxed with img := { act := some { target := 0, bytes := image 0 0 0 0xFFFF 0, cci := .mctp, at_ := 0 } } }
    let busy : State := { s with threads := [(3, { state := .running })] }
    let r := after .activationSwap s
    let b := after .activationSwap busy
    r.ril.active = true ∧ r.img.act = none ∧ r.ril.bank1.fetch 0 = 0xFC000000 ∧ r.img.fwCopy = true ∧ r.img.lastSwap = 500 ∧
    (b.img.act.map (·.swapped)) = some (some 100) ∧ (b.thread 3).state = .running ∧ b.img.fwPrevious = true ∧
    (let g := after .gracePeriodExpiry { b with time := { b.time with now := 100000100 } };
      g.img.act = none ∧ (g.thread 3).state = .free ∧ g.ril.bank0 = {}) := by decide +kernel

theorem witness_OperatorKey :
    let s : State := { boxed with ccis := [(256, { spdm := { established := true, version13 := true } })] }
    let key := List.replicate 96 5
    (after (.opkeyEnrol .mctp 208 1 key true) s).img.opKey = some key ∧ (after (.opkeyEnrol .mctp 208 1 key true) s).img.keyCounter = 1 ∧
    (after (.opkeyEnrol .mctp 208 1 key true) s).img.writes = 1 := by decide +kernel

/-- LD 1 has a session with mutual authentication. -/
def secured : State :=
  { boxed with
    ccis := [(1, { spdm := { established := true, version13 := true, mutualAuth := true } })]
    keys := { slots := [(5, { state := .loaded, owner := some 1 }), (6, { state := .bound, owner := some 1, count := 3 })] } }

/-- A key of handle h for a device. -/
def put (d : BitVec 8) (h : BitVec 32) : Instr := .keyPut (.ld 1) 80 1 d h 1 2

theorem witness_Keys :
    (after (put 0 7) secured).keys.staged = [{ handle := 7, owner := some 1, key := (2 : BitVec 256) ++ (1 : BitVec 256), at_ := 100 }] ∧
    ((after (put 0 7) secured).queue 5).entries.map (·.g1) = [7] ∧ (after (put 0 7) secured).out = [.spdm (.ld 1) (keyBody 1 0 0 0)] ∧
    (after (put 0 7) (after (put 0 7) secured)).out.head? = some (.spdm (.ld 1) (keyBody 1 5 0 0)) ∧
    (after (.keyPut (.ld 1) 80 1 0 7 1 1) secured).out = [.spdm (.ld 1) (keyBody 1 2 0 0)] ∧
    (after (put 2 7) secured).out = [.spdm (.ld 1) (keyBody 1 4 0 0)] ∧
    (let s : State := { secured with const := { members := [(2, { state := .joined })] } };
      (after (put 2 7) s).out = [] ∧ (after (put 2 7) s).keys.puts = [(1, .ld 1, 2)]) ∧
    (after (put 0 7) boxed).out = [.spdmUnexpected (.ld 1)] ∧
    (after (.keyQuery (.ld 1) 16 0 6) secured).out = [.spdm (.ld 1) (keyBody 2 0 2 3)] ∧
    (after (.keyQuery (.ld 1) 16 0 8) secured).out = [.spdm (.ld 1) (keyBody 2 1 0 0)] ∧
    ((after (.keyClose (.ld 1) 16 0 6) secured).keySlot 6).state = .closing ∧ ((after (.keyClose (.ld 1) 16 0 5) secured).keySlot 5).state = .empty ∧
    (after (.keyStagingTimeout 7) (after (put 0 7) secured)).keys.staged.length = 1 ∧
    (after (.keyStagingTimeout 7) { after (put 0 7) secured with time := { now := 10000000100 } }).keys.staged = [] := by decide +kernel

/-! ### Integrity, repair, evacuation and the mover (R86, R127, R176 to R201, R259 to R284) -/

/-- A channel with one RDIMM of 32 GiB, initialised. -/
def dimm : Chan := { state := .active, usable := 1, spd0 := some {}, spd1 := none, speed := 64, frontier := 2 ^ 29 }

/-- The pages of extent 7. -/
def page7 (n : Nat) : Nat := 7 * 65536 + n

/-- Extent 7 of LD 1 at block 16, channels 0 and 1, and page 0 of the extent PLAIN in frame 5 of channel 0. -/
def stored : State :=
  { granted { state := .active } with
    chans := [(0, dimm), (1, dimm)]
    mdata := { desc := [(page7 0, { state := .plain, location := 320 })], copyA := [(page7 0, { state := .plain, location := 320 })] }
    allocs := [(0, { frames := [(5, some (.page (page7 0)))] })]
    dram := [(320, { data := 77 })] }

/-- The DPA of a page of extent 7. -/
def dpaOf (n : Nat) : BitVec 64 := BitVec.ofNat 64 (16 * 2 ^ 28 + 4096 * n)

theorem witness_InjectPoison :
    let r := after (.injectPoison .mctp 8 1 (dpaOf 0 + 64)) stored
    let z := after (.injectPoison .mctp 8 1 (dpaOf 1 + 1024)) stored
    stored.ownLine 1 (dpaOf 0 + 64) = some (page7 0, 1) ∧ (r.lineNow 321).poisoned = true ∧ r.poisonListed (page7 0) 0 1 = true ∧
    (z.desc (page7 1)).bpoison = 2 ∧ z.poisonListed (page7 1) 1 1 = true ∧ r.ldPoison 1 0 (2 ^ 40) = [((dpaOf 0).toNat + 64, 64, 2)] ∧
    reply (.injectPoison (.ld 1) 8 1 (dpaOf 0)) stored = some (.unsupportedMailbox, []) ∧
    reply (.injectPoison .mctp 8 1 7) stored = some (.invalidInput, []) ∧
    field (reply (.getPoisonList (.ld 1) 16 1 0 (BitVec.ofNat 64 (2 ^ 36))) r) 16 8 = some (.success, 1) := by decide +kernel

theorem witness_ClearPoison :
    let r := after (.clearPoison (.ld 1) 72 1 (dpaOf 0 + 64) 99) (after (.injectPoison .mctp 8 1 (dpaOf 0 + 64)) stored)
    let b := after (.clearPoison (.ld 1) 72 1 (dpaOf 0 + 64) 99) (modDesc (page7 0) (fun x => { x with bpoison := 1 }) stored)
    let w := after (.clearPoison (.ld 1) 72 1 (dpaOf 2 + 64) 99) (setDesc (page7 2) { state := .poisoned } stored)
    r.overlay (page7 0) 1 = (99, BitVec.allOnes 64, false) ∧ r.poisonListed (page7 0) 0 1 = false ∧
    b.overlay (page7 0) 2 = (0, BitVec.allOnes 64, false) ∧ (b.desc (page7 0)).bpoison = 0 ∧
    (w.desc (page7 2)).state = .plain ∧ w.overlay (page7 2) 1 = (99, BitVec.allOnes 64, false) := by decide +kernel

theorem witness_ScanMedia :
    let go := Instr.scanMedia (.ld 1) 17 1 (dpaOf 0) 128
    let r := after (.scanMediaComplete 1 []) (after go (after (.injectPoison .mctp 8 1 (dpaOf 0 + 64)) stored))
    reply go stored = some (.backgroundStarted, []) ∧ reply go (after go stored) = some (.busy, []) ∧
    reply (.getScanMediaResults (.ld 1) 0 1) (after go stored) = some (.busy, []) ∧
    (r.ld 1).scan.results = [((dpaOf 0).toNat + 64, 64)] ∧ (r.cci 1).background.percent = 100 ∧
    field (reply (.getScanMediaResults (.ld 1) 0 1) r) 16 8 = some (.success, 1) := by decide +kernel

/-- Flips of one word of a line, and of two bits of one word in each of two devices. -/
def oneBit : List (BitVec 80) := [1]
def lost : List (BitVec 80) := [0xFF, 0xF0F]

theorem witness_PatrolScrub :
    let free := after (.patrolScrubRead 640 oneBit [] 0) stored
    stored.lineUse 640 = .free ∧ (after (.patrolScrubRead 640 [] [] 0) stored).integ.scrubbed = 1 ∧
    (stored.scrubOutcome 640 oneBit []).1.out = .clean ∧ (stored.scrubOutcome 640 oneBit []).1.corrected = true ∧
    free.integ.ceFound = 1 ∧ (free.chan 0).ce = 1 ∧ free.stickySet (srcChannel 0 0) = true := by decide +kernel

theorem witness_PatrolScrubUe :
    let s := stored
    let o := s.scrubOutcome 320 lost lost
    let r := after (.patrolScrubRead 320 lost lost 0) s
    o.1.out = .ue ∧ r.integ.ueFound = 1 ∧ (r.lineNow 320).poisoned = true ∧ r.poisonListed (page7 0) 0 0 = true ∧
    r.stickySet (srcChannel 0 1) = true ∧ (after (.patrolScrubRead 640 lost lost 0) s).stickySet (srcChannel 0 3) = true := by decide +kernel

theorem witness_ScrubPeriod :
    let s : State := { stored with time := { now := 24 * 3600 * 1000000000 }, integ := { period := 30, overflow := true, scrubbed := 9 }
                                   faults := { live := [24] } }
    (after .scrubPeriodEnd s).integ.passes = 1 ∧ (after .scrubPeriodEnd s).integ.periodNow = 30 ∧ (after .scrubPeriodEnd s).integ.scrubbed = 0 ∧
    (after .scrubPeriodEnd s).faults.live = [] := by decide +kernel

theorem witness_ErrorRecords :
    let s : State := { stored with time := { now := 3600000000000 }, chans := [(0, { dimm with ranks := [(8, { device := some 3, rows := [4], since := 0 })] }), (1, dimm)] }
    ((after (.rankRecordExpiry 0 8) s).rank 0 8).device = none ∧
    ((after (.writeCrcError 320) stored).chan 0).wcrcRetry = 1 ∧ (after (.writeCrcError 320) stored).stickySet (srcChannel 0 4) = true ∧
    (let s : State := { stored with chans := [(0, { dimm with wcrc := [(320, 4)] }), (1, dimm)] };
      ((after (.writeCrcError 320) s).desc (page7 0)).bpoison = 1 ∧ ((after (.writeCrcError 320) s).chan 0).wcrcExhaust = 1) ∧
    (let s : State := { stored with chans := [(0, { dimm with retirePending := some 1 }), (1, dimm)] };
      s.evacCode 0 true = 0 ∧ ((after (.retirementRetry 0) s).chan 0).state = .evacuating) ∧
    (let s : State := { stored with chans := [(0, { dimm with retirePending := some 1 })] };
      s.evacCode 0 true = 2 ∧ ((after (.retirementRetry 0) s).chan 0).retryAt = 1000000100) := by decide +kernel

theorem witness_GuestReports :
    let s := setDesc (page7 3) { state := .far, location := 2 } stored
    let r := after (.guestPoisonReport 2 (BitVec.ofNat 34 (page7 3)) 1) s
    let p := after (.guestPoisonReport 2 (BitVec.ofNat 34 (page7 3)) 4) s
    (r.desc (page7 3)).bpoison = 2 ∧ r.poisonListed (page7 3) 1 1 = true ∧ (p.desc (page7 3)).state = .poisoned ∧
    p.poisonListed (page7 3) 2 0 = true := by decide +kernel

theorem witness_Repair :
    let t := repairTarget 0 0 1 2 3
    let fenced := after (.repairFence 0 0 0 1 2 3) stored
    let busy := after (.repairHard 0 0 0 1 2 3 true) fenced
    (fenced.chan 0).fence = some t ∧ (fenced.chan 0).repairResult = 1 ∧ ((after (.repairLiftFence 0) fenced).chan 0).fence = none ∧
    ((after (.repairFence 0 1 0 1 2 3) stored).chan 0).repairResult = 6 ∧ ((after (.repairSoft 0 0 0 1 2 3 true) stored).chan 0).repairResult = 6 ∧
    ((after (.repairSoft 0 0 0 1 2 3 false) fenced).chan 0).repairResult = 3 ∧ (busy.chan 0).repairBusy = true ∧
    ((after (.repairDone 0 false) { busy with time := { busy.time with now := 100100 } }).chan 0).repairResult = 5 := by decide +kernel

theorem witness_Evacuate :
    let s : State := { stored with lds := stored.lds, cap := { stored.cap with floorPm := 0 } }
    let e := after (.channelEvacuate .mctp 4 0 0 1) s
    reply (.channelEvacuate .mctp 4 24 0 0) s = some (.invalidInput, []) ∧ reply (.channelRestore .mctp 4 24) s = some (.invalidInput, []) ∧
    s.evacCode 0 false = 0 ∧ (e.chan 0).state = .evacuating ∧ (e.chan 0).evac.map (·.slotsOff) = some true ∧
    reply (.channelEvacuate .mctp 4 0 0 1) s = some (.success, evacReply 0 0 (e.evacLeft 0)) ∧
    reply (.channelEvacuate .mctp 4 2 0 0) s = some (.success, evacReply 2 3 (s.evacLeft 2)) ∧
    reply (.channelEvacuate .mctp 4 0 1 0) e = some (.success, evacReply 0 0 (e.evacLeft 0)) ∧
    reply (.channelEvacuate .mctp 4 0 2 0) s = some (.success, evacReply 0 3 (s.evacLeft 0)) ∧
    ((after (.channelEvacuate .mctp 4 0 2 0) e).chan 0).state = .active := by decide +kernel

theorem witness_EvacuationEnds :
    let v : Evac := { slotsOff := true }
    let s : State := { stored with chans := [(0, dimm), (1, { dimm with state := .evacuating, evac := some v })], slots := [(2, { state := .on, prsnt := true })]
                                   allocs := [] }
    let r := after (.evacuationEnd 1) s
    s.evacEmpty 1 = true ∧ (r.chan 1).state = .evacuated ∧ (r.chan 1).usable = 0 ∧ (r.slot 2).state = .off ∧
    (let m : State := { s with allocs := [(1, { megas := [(0, some (.ring 2))] })], rec_ := { segments := [5, 6, 1] } };
      after (.evacuationEnd 1) m = m ∧ (after (.evacuationStructureMoved 1) m).rec_.segments = [5, 6, 0] ∧
      ((after (.evacuationStructureMoved 1) m).alloc 1).megas = [] ∧
      (after (.evacuationStructureMoved 1) { m with chans := [(1, { dimm with state := .evacuating, evac := some v })] }).waiters = [.evac 1]) := by
  decide +kernel

theorem witness_EvacuationCancelled :
    let s : State := { stored with chans := [(1, { dimm with state := .evacuating, evac := some { cancelled := true } })] }
    let r : State := { stored with chans := [(1, { state := .evacuated })], slots := [(2, { prsnt := true })] }
    ((after (.evacuationEnd 1) s).chan 1).state = .active ∧ r.restoreCode 1 = 0 ∧
    ((after (.channelRestore .mctp 4 1) r).chan 1).state = .untrained ∧ (after (.channelRestore .mctp 4 1) r).slotMgr.queue = [2] ∧
    reply (.channelRestore .mctp 4 0) stored = some (.success, [0, BitVec.ofNat 8 (stored.restoreCode 0), 0, 0, 0, 0, 0, 0]) ∧
    stored.restoreCode 0 ≠ 0 := by decide +kernel

/-- Quadrant 0 has this operation on page 0 of extent 7 waiting. -/
def queued (op : MoverOp) : State := { stored with quads := [(0, { jobs := [{ dlpn := page7 0, op }] })], cap := { stored.cap with floorPm := 0 } }

theorem witness_MoverClaim :
    let r := after (.moverClaim 0 []) (queued (.move 1))
    ((queued (.move 1)).lowestRun 1 1 1 1) = some 0 ∧ (queued (.move 1)).moverOk ((queued (.move 1)).inM 7 64) = true ∧
    (r.desc (page7 0)).state = .moving ∧ (r.quad 0).jobs = [] ∧ (r.alloc 1).frames = [(0, some (.dest (page7 0)))] ∧
    ((r.quad 0).records.map fun m => (m.phase, m.dstLoc, m.charge)) = [(.copy, BitVec.ofNat 44 (2 ^ 33), 64)] ∧
    (let z := queued (.unpack);
      z.opCode .unpack (z.desc (page7 0)) ≠ none ∧ ((after (.moverClaim 0 []) z).quad 0).jobs = [] ∧ ((after (.moverClaim 0 []) z).quad 0).records = []) := by
  decide +kernel

theorem witness_MoverCopy :
    let s := after (.moverClaim 0 []) (queued (.move 1))
    let r := after (.moverCopyDone 0 (BitVec.ofNat 34 (page7 0)) 0) s
    let late : State := { s with quads := [(0, { s.quad 0 with records := (s.quad 0).records.map fun m => { m with rgen := 1 } })] }
    let again := after (.moverCopyDone 0 (BitVec.ofNat 34 (page7 0)) 0) late
    (r.lineNow (2 ^ 33)).data = 77 ∧ (r.desc (page7 0)).state = .plain ∧ (r.desc (page7 0)).location = BitVec.ofNat 44 (2 ^ 33) ∧
    ((r.quad 0).records.map (·.phase)) = [.free] ∧ (r.alloc 1).frames = [(0, some (.page (page7 0)))] ∧
    (again.desc (page7 0)).state = .moving ∧ ((again.quad 0).records.map fun m => (m.phase, m.restarts)) = [(.check, 1)] := by decide +kernel

theorem witness_MoverFree :
    let m : MoverRec := { dlpn := page7 1, op := .move 1, srcState := 1, phase := .free, srcLoc := 320, inM := 64 }
    let s : State := { stored with quads := [(0, { records := [m] })], cap := { stored.cap with m := 64 } }
    let r := after (.moverFree 0 (BitVec.ofNat 34 (page7 1))) s
    (r.quad 0).records = [] ∧ (r.alloc 0).frames = [] ∧ r.cap.m = 0 := by decide +kernel

theorem witness_FixedFill :
    let s := { granted { state := .offered, fixed := true, fillChannel := 0 } with chans := [(0, dimm)] }
    let r := after (.fixedExtentFillWrite 7) s
    (r.desc (page7 0)).state = .plain ∧ (r.extent 7).filled = 1 ∧ (r.alloc 0).frames = [(0, some (.page (page7 0)))] ∧ r.footprint 7 = 64 ∧
    (after (.fixedExtentFillWrite 7) { s with chans := [] }).waiters = [.fill 7] ∧
    (let f := after (.fixedExtentFillDone 7) (granted { state := .offered, fixed := true, filled := 65536 });
      (f.extent 7).announced = true ∧ ((f.ld 1).dynCap.records.map (·.body)) = [.dynamicCapacity 0 (dpaOf 0) 0]) := by decide +kernel

theorem witness_Zeroing :
    let s : State := { stored with cap := { (granted { state := .erasing }).cap with footprint := [(7, 64)], z := 64 } }
    let r := after (.zeroingWrite 7) s
    s.nextToZero 7 = some (page7 0, 320) ∧ (r.desc (page7 0)).state = .unmapped ∧ r.cap.z = 0 ∧ r.lineNow 320 = {} ∧
    (let e : State := granted { state := .erasing }; e.nextToZero 7 = none ∧ ((after (.zeroingWrite 7) e).extent 7).state = .free) := by decide +kernel

theorem witness_Distress :
    let s : State := { stored with time := { now := 200000000 }, cap := { stored.cap with distress := true, lastU := 2 ^ 60 } }
    (after .distressRepeat s).cap.lastRepeat = 200000000 ∧ s.capU ≤ s.cap.lastU ∧
    (after .distressRepeat { s with cap := { s.cap with lastU := -(2 ^ 60) } }).cap.lastU = s.capU ∧
    after .distressRepeat { s with time := { now := 99999999 } } = { s with time := { now := 99999999 } } := by decide +kernel

theorem witness_ScaleReport :
    let s : State := { stored with qos := { owed := [2, 16], scale := [(16, 32768)] } }
    (after (.guaranteeScaleReport 16) s).qos.owed = [2] ∧ ((after (.guaranteeScaleReport 16) s).queue 9).entries.map (fun e => (e.g1, e.g4)) = [(32768, 255)] ∧
    after (.guaranteeScaleReport 1) s = s := by decide +kernel

/-! ### Channels (R226 to R253) -/

/-- The SPD of the worked example of R233: a 128 GiB x4 RDIMM of 32 Gb devices. -/
def bigSpd : Spd :=
  { density := 32, ranks := 2, speed := 64, ps := [16250, 16250, 16250, 32000, 7500, 30000, 2500, 5000, 10000, 5000, 2500, 10000, 7500, 410000] }

/-- Channel 3 with one DIMM in an ON slot. -/
def oneDimm (h : Chan) : State := { stored with slots := [(6, { prsnt := true, state := .on })], chans := [(3, h)] }

/-- The worked example of R233 at 6400 MT/s, before the JEDEC minima. -/
theorem test_worked_timing :
    (bigSpd.ps.map fun ps => (ps * 64 + 19999) / 20000) = [52, 52, 52, 103, 24, 96, 8, 16, 32, 16, 8, 32, 24, 1312] ∧
    (oneDimm { speed := 64 }).refi 3 = 12480 := by decide +kernel

/-- The worked example of R236: line 0 of the frame at DPHA 0x2D51E3B5000. -/
theorem test_worked_place :
    ({ spd1 := some bigSpd } : Chan).place (0x2D51E3B5000 / 64) = { sub := 0, slot := 1, rank := 1, bg := 5, bank := 2, row := 0xA3C7 } ∧
    lineChan (0x2D51E3B5000 / 64) = 5 ∧ (0x2D51E3B5000 / 64) = 0xB5478ED40 ∧
    ({ spd1 := some bigSpd } : Chan).place (0x2D51E3B6000 / 64 + 63) = { sub := 1, slot := 1, rank := 1, bg := 6, bank := 2, row := 0xA3C7 } := by
  decide +kernel

theorem witness_Training :
    let s := oneDimm { state := .untrained }
    let one := after (.channelTrainingStepDone 3 1 (some bigSpd) none (some 300) none true) s
    let two := after (.channelTrainingStepDone 3 1 none none none none true) one
    let bad := after (.channelTrainingStepDone 3 0 none none none none true) one
    let last := after (.channelTrainingStepDone 3 1 none none none none true)
      (oneDimm { state := .untrained, spd0 := some bigSpd, train := { running := true, step := 9, speed := 64 } })
    s.mayTrain 3 = true ∧ (one.chan 3).train = { running := true, step := 2, speed := 64 } ∧ (two.chan 3).train.step = 3 ∧
    (bad.chan 3).train.speed < 64 ∧ (bad.chan 3).train.step = 2 ∧ (last.chan 3).state = .active ∧ (last.chan 3).speed = 64 ∧
    (last.chan 3).usable = 1 ∧ (last.chan 3).timing.length = 14 := by decide +kernel

theorem witness_TrainingFails :
    let s := oneDimm { state := .untrained }
    let five := after (.channelTrainingStepDone 3 1 none none none none true) s
    let low := oneDimm { state := .untrained, spd0 := some bigSpd, train := { running := true, step := 4, speed := 48 } }
    let second := after (.channelTrainingStepDone 3 0 none none none none true) low
    let failed := after (.channelTrainingStepDone 3 0 none none none none true)
      (oneDimm { state := .untrained, spd0 := some bigSpd, train := { running := true, step := 4, speed := 48, second := true } })
    (five.chan 3).state = .trainFailed ∧ (five.chan 3).cause = 5 ∧ five.holds (srcChannel 3 9) = true ∧
    (second.chan 3).train.second = true ∧ (second.chan 3).train.speed = 64 ∧ (failed.chan 3).state = .trainFailed ∧ (failed.chan 3).cause = 1 ∧
    (let r := oneDimm { state := .untrained, train := { resume := some .active }, selfRefresh := true, usable := 1, spd0 := some bigSpd, frontier := 64 };
      ((after (.channelTrainingStepDone 3 3 none none none none true) r).chan 3).state = .active ∧
      ((after (.channelTrainingStepDone 3 3 none none none none true) r).chan 3).frontier = 64 ∧
      ((after (.channelTrainingStepDone 3 2 none none none none true) r).chan 3).state = .retired) := by decide +kernel

theorem witness_Init :
    let s : State := { oneDimm { dimm with frontier := 320 } with dram := [(3 * 2 ^ 33 + 320, { data := 9 }), (3 * 2 ^ 33 + 322, { data := 9 })] }
    let r := after (.memoryInitWrite 3 2) s
    let done := oneDimm { dimm with state := .untrained, train := { restore := true } }
    (r.chan 3).frontier = 322 ∧ r.dram = [(3 * 2 ^ 33 + 322, { data := 9 })] ∧ ((after (.channelInitDone 3) done).chan 3).state = .active ∧
    ((after (.channelInitDone 3) (oneDimm { dimm with state := .untrained, frontier := 0, train := { restore := true } })).chan 3).state = .untrained := by
  decide +kernel

/-- Channel 4's pulses: 650 ns into the interval of 3.9 µs; and when hot also at 2,681.25 ns. -/
theorem witness_Refresh :
    let at_ := fun (t : Nat) (h : Chan) => { stored with time := { tb := BitVec.ofNat 64 t, now := 100 }, chans := [(4, h)] }
    ((after (.refreshPulse 4 7) (at_ 4550 dimm)).chan 4).refreshing = true ∧ ((after (.refreshPulse 4 7) (at_ 4550 dimm)).chan 4).refCount = 1 ∧
    ((after (.refreshPulse 4 7) (at_ 4550 dimm)).chan 4).lateMax = 7 ∧ ((after (.refreshPulse 4 7) (at_ 4551 dimm)).chan 4).refreshing = false ∧
    ((after (.refreshPulse 4 7) (at_ 2681 { dimm with hot := true, warm := true })).chan 4).refreshing = true ∧
    ((after (.refreshPulse 4 7) (at_ 2681 dimm)).chan 4).refreshing = false ∧
    ((after (.refreshDone 4) (at_ 0 { dimm with refreshing := true, refreshAt := 0, timing := List.replicate 14 8 })).chan 4).refreshing = false := by
  decide +kernel

theorem witness_ThermalPoll :
    let s : State := { oneDimm dimm with time := { now := 16000000 } }
    let r := after (.dimmThermalPoll 3 (some 861) none) s
    (r.chan 3).temp0 = 86 ∧ (r.chan 3).warm = true ∧ ((after (.dimmThermalPoll 3 none none) s).chan 3).missed0 = 1 ∧
    ((after (.dimmThermalPoll 3 (some 960) none) s).holds (srcChannel 3 11)) = true ∧
    (let w : State := { s with chans := [(3, { dimm with warm := true })] };
      ((after (.dimmThermalPoll 3 (some 830) none) w).chan 3).warm = false ∧ ((after (.dimmThermalPoll 3 (some 840) none) w).chan 3).warm = true) ∧
    (let m : State := { s with chans := [(3, { dimm with missed0 := 2 })] };
      ((after (.dimmThermalPoll 3 none none) m).chan 3).sensorFail = true ∧ (after (.dimmThermalPoll 3 none none) m).holds (srcChannel 3 12) = true) := by
  decide +kernel

theorem witness_PowerStates :
    let s := fun (h : Chan) => ({ oneDimm h with time := { now := 200000000 } } : State)
    ((after (.rankPowerDown 3 0) (s dimm)).chan 3).powerDown = [0] ∧ ((after (.selfRefreshEntry 3) (s { dimm with srPending := true })).chan 3).selfRefresh = true ∧
    ((after (.selfRefreshExit 3) (s { dimm with selfRefresh := true })).chan 3).refreshing = true ∧
    ((after (.zqCalibration 3) (s { dimm with refreshing := true })).chan 3).zqAt = 200000000 ∧
    ((after (.dqsOscillatorTracking 3) (s { dimm with refreshing := true })).chan 3).dqsAt = 200000000 ∧
    ((after (.retrainingWindowStart 3 1 1) (s dimm)).chan 3).retrainBusy = true ∧ ((after (.retrainingWindowStart 3 1 1) (s dimm)).chan 3).retrainEnd = 200004000 ∧
    ((after (.retrainingWindowStart 3 0 1) (s dimm)).chan 3).retrainBusy = false ∧
    ((after (.retrainingWindowEnd 3 true) (s { dimm with retrainBusy := true })).chan 3).retrainResult = 1 ∧
    (let r := after (.retrainingWindowEnd 3 false) (s { dimm with retrainBusy := true });
      (r.chan 3).retrainResult = 2 ∧ (r.chan 3).retrainFails = 1 ∧ r.stickySet (srcChannel 3 8) = true) := by decide +kernel

theorem witness_GatePick :
    let x : LineCmd := { line := 3 * 2 ^ 33, req := 1 }
    let s := oneDimm { dimm with gate := { cmds := [x] } }
    let w : LineCmd := { line := 3 * 2 ^ 33, write := some { data := 5 } }
    ((after (.channelGatePick 3) s).chan 3).queue = [x] ∧ ((after (.channelGatePick 3) s).chan 3).gate.cmds = [] ∧
    ((after (.channelGatePick 3) (oneDimm { dimm with gate := { cmds := [x] }, queue := [w] })).chan 3).queue = [w] ∧
    after (.channelGatePick 3) (oneDimm dimm) = oneDimm dimm := by decide +kernel

theorem witness_CommandPick :
    let x : LineCmd := { line := 3 * 2 ^ 33, req := 1 }
    let w : LineCmd := { line := 3 * 2 ^ 33, write := some { data := 5 } }
    let q := fun (x : LineCmd) (row : Option Nat) =>
      ({ oneDimm { dimm with queue := [x], banks := [(0, { row })], subs := [(0, { draining := x.write.isSome })] } with dram := [(3 * 2 ^ 33, { data := 4 })] } : State)
    (((after (.dramCommandPick 3 0) (q x none)).chan 3).bankState 0).row = some 0 ∧ ((after (.dramCommandPick 3 0) (q x none)).chan 3).queue = [x] ∧
    (((after (.dramCommandPick 3 0) (q x (some 9))).chan 3).bankState 0).row = none ∧
    ((after (.dramCommandPick 3 0) (q x (some 0))).chan 3).flight = [(1, 3 * 2 ^ 33, { data := 4 })] ∧
    ((after (.dramCommandPick 3 0) (q x (some 0))).chan 3).queue = [] ∧
    (after (.dramCommandPick 3 0) (q w (some 0))).dram = [(3 * 2 ^ 33, { data := 5 })] ∧
    (after (.dramCommandPick 3 1) (q x none)) = q x none ∧
    (let e : State := oneDimm { dimm with express := true, queue := [x], banks := [(0, { row := some 0 })] };
      ((after (.dramCommandPick 3 0) e).chan 3).queue = []) := by decide +kernel

theorem witness_DrainAndClose :
    let w : LineCmd := { line := 3 * 2 ^ 33, write := some { data := 5 } }
    let s : State := { oneDimm { dimm with queue := [w], banks := [(0, { row := some 4 })] } with time := { now := 2000 } }
    (Tab.get {} ((after (.writeDrainTimeout 3 0) s).chan 3).subs 0).draining = true ∧
    after (.writeDrainTimeout 3 0) { s with time := { now := 1999 } } = { s with time := { now := 1999 } } ∧
    (((after (.rowIdleClose 3 0) s).chan 3).bankState 0).row = none ∧
    (((after (.rowIdleClose 3 0) { s with time := { now := 127 } }).chan 3).bankState 0).row = some 4 := by decide +kernel

/-! ### The data path (R29 to R40, R86, R118 to R126, R144, R160 to R170, R192, R195, R257 to R263) -/

/-- The metadata cache holds the first descriptor line of extent 7. -/
def cached (s : State) : State :=
  { s with mdata := { s.mdata with sets := [(16384, { ways := some (page7 0 / 4) :: List.replicate 15 none })] } }

/-- What a read of a page of extent 7 by LD 1 answers. -/
def readOf (n line : Nat) (s : State) : Option (Line × Bool) :=
  match (after (.hostRead 0 1 (BitVec.ofNat 52 ((dpaOf n).toNat + 64 * line)) 9 false 0 0) s).out.head? with
  | some (.readData 0 1 9 x p _) => some (x, p)
  | _ => none

/-- A write there of these bytes of a line. -/
def writeOf (n line : Nat) (x : Line) (mask : BitVec 64) : Instr :=
  .hostWrite 0 1 (BitVec.ofNat 52 ((dpaOf n).toNat + 64 * line)) 9 x mask false 0 0 0

theorem witness_Reads :
    let s := cached stored
    s.accepts 0 = true ∧ 0 < s.param 1 1 ∧ 0 ≤ s.credit 1 ∧ s.mayClaim 0 0 = true ∧
    readOf 1 0 s = some (0, false) ∧ readOf 2 0 (setDesc (page7 2) { state := .poisoned } s) = some (0, true) ∧
    readOf 1 0 (modDesc (page7 1) (fun d => { d with bpoison := 1 }) s) = some (0, true) ∧
    readOf 1 16 (modDesc (page7 1) (fun d => { d with bpoison := 1 }) s) = some (0, false) ∧
    readOf 3 0 (setDesc (page7 3) { state := .pattern, location := 1, blockLen := 0 } s) =
      some (patternLine { state := .pattern, location := 1, blockLen := 0 }, false) ∧
    (let r := after (.hostRead 0 1 (BitVec.ofNat 52 0) 9 false 0 0) s; r.cap.noMapping = 1 ∧ r.out.length = 1) := by decide +kernel

theorem witness_ReadsOfStorage :
    let s := cached stored
    let r := after (.hostRead 0 1 (BitVec.ofNat 52 (dpaOf 0).toNat) 9 false 0 0) s
    r.out = [] ∧ (r.path.reqs.map fun q => (q.stage, q.dlpn, q.lines)) = [(.lines, page7 0, [{ line := 320 }])] ∧
    ((r.chan 0).gate.cmds.map fun x => (x.line, x.write)) = [(320, none)] ∧
    (let m : State := { s with ports := [(0, { s.port 0 with ideState := 1 })] };
      ((after (.hostRead 0 1 (BitVec.ofNat 52 (dpaOf 0).toNat) 9 false 0 0) m).path.reqs.map (·.stage)) = [.mac]) ∧
    (let d : State := { s with start := { s.start with memActive := 0 } }; after (.hostRead 0 1 0 9 false 0 0) d = d) := by decide +kernel

theorem witness_Writes :
    let s := cached stored
    let r := after (writeOf 0 2 5 1) s
    let full := after (writeOf 0 2 6 (BitVec.allOnes 64)) r
    r.out.length = 1 ∧ r.overlay (page7 0) 2 = (5, 1, false) ∧ readOf 0 2 full = some (6, false) ∧ s.chargeDue (page7 0) 0 = none ∧
    s.chargeDue (page7 1) 0 ≠ none ∧
    (let l : State := { s with cap := { s.cap with extents := [(7, { s.extent 7 with loaned := true })], shortfall := true } };
      l.chargeOk 7 64 = false ∧ ((after (writeOf 1 2 5 1) l).desc (page7 1)).bpoison = 1 ∧ (after (writeOf 1 2 5 1) l).cap.unstored = 1 ∧
      (after (writeOf 1 2 5 1) l).cap.poolExhausted = true ∧ (after (writeOf 1 2 5 1) l).gather.entries = []) := by decide +kernel

/-- A read of page 0 waits for its line, and the line is on its way back from the DIMM. -/
def flying (retried : Bool) (d : DLine) : State :=
  let q : Req := { id := 1, source := 0, ld := 1, tag := 9, write := false, stage := .lines, dlpn := page7 0, tracked := true, cipherLd := 1
                   lines := [{ line := 320, retried }] }
  { cached stored with chans := [(0, { dimm with flight := [(1, 320, d)] })], path := { reqs := [q], nextReq := 2 } }

theorem witness_DramReadData :
    let s := flying false { data := 77, cipher := (cached stored).cipherOf (page7 0) 0 0 0 }
    let r := after (.dramReadData 0 0 []) s
    (r.chan 0).flight = [] ∧ r.out = [] ∧ (r.path.reqs.map (·.stage)) = [.xts] ∧ ((after (.dramReadData 0 0 oneBit) s).chan 0).ce = 1 ∧
    (let u := after (.dramReadData 0 0 lost) s; u.out = [] ∧ (u.path.reqs.map fun q => q.lines) = [[{ line := 320, retried := true }]] ∧ u.chans = s.chans) ∧
    (let p := after (.dramReadData 0 0 []) (flying false { data := 77, poisoned := true });
      p.out.map (fun o => match o with | .readData _ _ t _ x _ => (t, x) | _ => (0, false)) = [(9, true)] ∧ p.path.reqs = []) := by decide +kernel

theorem witness_UeRetryRead :
    let s := flying true { data := 77 }
    let r := after (.ueRetryRead 0 0 [] 0) s
    let u := after (.ueRetryRead 0 0 lost 0) s
    (r.chan 0).ce = 1 ∧ (r.path.reqs.map (·.stage)) = [.xts] ∧ (u.chan 0).ue = 1 ∧
    u.out.head?.map (fun o => match o with | .readData _ _ t _ x _ => (t, x) | _ => (0, false)) = some (9, true) := by decide +kernel

theorem witness_EnginesFinish :
    let q : Req := { id := 1, source := 0, ld := 1, tag := 9, write := false, stage := .xts, dlpn := page7 0, tracked := true
                     lines := [{ line := 320, data := some (77, .clean) }] }
    let s : State := { cached stored with path := { reqs := [q], nextReq := 2 }, clusters := [(0, { queue := [(.xts, 1, 1)] })] }
    let r := after (.engineWorkDone 0 2) s
    r.path.reqs = [] ∧ r.out.map (fun o => match o with | .readData _ _ t d x _ => (t, d, x) | _ => (0, 0, false)) = [(9, 77, false)] ∧
    (let p : State := { s with path := { reqs := [{ q with slots := 3 }], nextReq := 2 } };
      ((after (.engineWorkDone 0 2) p).path.reqs.map (·.stage)) = [.decompress]) ∧
    (let bad : State := { s with path := { reqs := [{ q with slots := 1, stage := .decompress }], nextReq := 2 }
                                 clusters := [(0, { queue := [(.decompress, 1, 1)] })] };
      ((after (.engineWorkDone 0 1) bad).cluster 0).malformed = 1 ∧ (after (.engineWorkDone 0 1) bad).path.reqs = []) ∧
    ((after (.engineWorkDone 0 0) { s with clusters := [(0, { queue := [(.compress, 1, 1)] })], path := { reqs := [{ q with stage := .lines }], nextReq := 2 } }).cluster 0).queue = [] := by
  decide +kernel

/-- Write gather holds this line of page 0 whole. -/
def gathered (line : Nat) : State :=
  { cached stored with
    gather := { entries := [{ dlpn := page7 0, lineNo := line, data := 5, mask := BitVec.allOnes 64, at_ := 0, source := 0, flow := 1 }] } }

theorem witness_GatherEviction :
    let r := after (.gatherEviction (BitVec.ofNat 34 (page7 0)) []) (gathered 2)
    r.gather.entries = [] ∧ ((r.chan 0).gate.cmds.map fun x => (x.line, x.write.map (·.data))) = [(322, some 5)] := by decide +kernel

/-- Page 0 is PACKED in one slot. -/
def packed : State :=
  { gathered 0 with
    mdata := { (cached stored).mdata with desc := [(page7 0, { state := .packed, location := 320, blockLen := 1 })]
                                          copyA := [(page7 0, { state := .packed, location := 320, blockLen := 1 })] }
    allocs := [(0, { slabs := [{ cls := 1, base := 5, runs := [(0, some (.page (page7 0)))] }] })] }

theorem witness_Hold :
    let p := packed
    let old : State := { p with time := { now := 4000 } }
    let r := after (.holdExpiry (BitVec.ofNat 34 (page7 0))) old
    p.packedNow (page7 0) = true ∧ (r.desc (page7 0)).lock = true ∧ (r.gather.entries.map (·.frozen)) = [true] ∧
    after (.holdExpiry (BitVec.ofNat 34 (page7 0))) { p with time := { now := 3999 } } = { p with time := { now := 3999 } } := by decide +kernel

theorem witness_DescriptorCopies :
    let k := page7 0 / 4
    let s : State := { stored with mdata := { desc := [(page7 0, { state := .plain, location := 320 })], dirty := [(k, some {})] } }
    let a := after (.descriptorCopyWritten (BitVec.ofNat 32 k)) s
    let b := after (.descriptorCopyWritten (BitVec.ofNat 32 k)) a
    (a.descA (page7 0)).state = .plain ∧ (a.descB (page7 0)).state = .unmapped ∧ (a.dirty k).map (·.aOut) = some true ∧
    (b.descB (page7 0)).state = .plain ∧ b.dirty k = none := by decide +kernel

theorem witness_PoolsAndWaiters :
    let s : State := { stored with path := { held := [(33, 2)], freed := [(33, 1)] } }
    (after (.poolEntryRelease 1 1) s).path.held = [(33, 1)] ∧ (after (.poolEntryRelease 1 1) s).path.freed = [] ∧
    after (.poolEntryRelease 1 2) s = s ∧
    (let q : Req := { id := 1, source := 0, ld := 1, tag := 9, write := false, stage := .shaper, dlpn := page7 1, dpa := (dpaOf 1).toNat };
      let h : State := { cached stored with path := { reqs := [q], nextReq := 2 } };
      (after (.shaperRelease 1) h).credit 1 = h.credit 1 - 8000 ∧ (after (.shaperRelease 1) h).out.length = 1 ∧ after (.shaperRelease 0) h = h) ∧
    (let w : State := { stored with waiters := [.evac 1, .first (page7 1)], chans := [(0, dimm), (1, { dimm with state := .evacuating, evac := some { waiting := true } })] };
      (after (.allocationResume 0) w).waiters = [.first (page7 1)] ∧ ((after (.allocationResume 0) w).chan 1).evac = some {} ∧
      after (.allocationResume 7) w = w) := by decide +kernel

theorem witness_PackedEviction :
    let g := fun (i : Nat) => ({ dlpn := page7 0, lineNo := i, data := 5, mask := BitVec.allOnes 64, at_ := 0, source := 0, flow := 1, frozen := true } : GEntry)
    let p : State := { packed with gather := { entries := (List.range 16).map g }, quads := [(0, { m0 := false, m1 := false, m2 := false })] }
    let p := modDesc (page7 0) (fun d => { d with lock := true }) p
    let r := after (.packedEviction (BitVec.ofNat 34 (page7 0)) 0) p
    fullBlock (p.entriesOf (page7 0) true) 0 = true ∧ (r.desc (page7 0)).state = .packed ∧ (r.desc (page7 0)).lock = false ∧
    (r.desc (page7 0)).wgen = 1 ∧ r.entriesOf (page7 0) true = [] := by decide +kernel

/-! ### Ulilet links and the constellation (R400 to R447) -/

/-- Link 1 of device 0, the polestar, in this state. -/
def linked (p : Uli) (now : Nat := 20000) (tb : Nat := 500) : State :=
  { boxed with time := { now, tb := BitVec.ofNat 64 tb }, ulis := [(1, p)] }

/-- Link 1 after a command. -/
def link (c : Instr) (p : Uli) (now : Nat := 20000) (tb : Nat := 500) : Uli := (after c (linked p now tb)).uli 1

/-- An ACTIVE link of full width to device 2. -/
def open_ : Uli := { lstate := .active, lanes := 16, vcsActive := 4, peerId := 2, secure := true, lastGood := 20000, lastStart := 20000 }

theorem witness_LinkRises :
    (link (.uliletPresence 1) { lstate := .down }).lstate = .detect ∧ (link (.uliletPresence 1) { lstate := .down }).prsntSince = 20000 ∧
    (link (.uliletReceiverDetect 1) { lstate := .detect }).lstate = .train ∧
    (link (.uliletTrainingDone 1 0xFFFF true) { lstate := .train, trainFails := 1 }).lanes = 16 ∧
    (link (.uliletTrainingDone 1 0x00FF false) { lstate := .train }).lanes = 8 ∧ (link (.uliletTrainingDone 1 0xFFFF true) { lstate := .train }).lstate = .param ∧
    (link (.uliletTrainingDone 1 0 true) { lstate := .train }).lstate = .detect ∧
    (link (.uliletTrainingDone 1 0 true) { lstate := .train, trainFails := 1 }).lstate = .retired ∧
    (link (.uliletTrainingDone 1 0 true) { lstate := .train, trainFails := 1 }).cause = 2 ∧
    (let s : State := { linked { lstate := .down, totalRetrains := 5, vcs := 7 } with power := { latched := false, doms := [(45, { state := .p3 })] } };
      ((after (.uliletPresence 1) s).uli 1).lstate = .detect ∧ ((after (.uliletPresence 1) s).uli 1).vcs = 4 ∧
        ((after (.uliletPresence 1) s).uli 1).totalRetrains = 5) := by decide +kernel

/-- A PARAM packet of device 2, a companion, with 6 VCs. -/
def paramOf (id : BitVec 2) (role : Bool) : Instr := .param 1 { len := 1 } id role 6 88

theorem witness_Param :
    (link (paramOf 2 false) { lstate := .param, vcs := 4, paramSent := some 1 }).lstate = .session ∧
    (link (paramOf 2 false) { lstate := .param, vcs := 4, paramSent := some 1 }).vcsActive = 4 ∧
    (link (paramOf 2 false) { lstate := .param, vcs := 8, paramSent := some 1 }).vcsActive = 6 ∧
    (link (paramOf 2 true) { lstate := .param, paramSent := some 1 }).lstate = .discord ∧
    (link (paramOf 0 false) { lstate := .param, paramSent := some 1 }).lstate = .discord ∧
    (after (paramOf 2 true) (linked { lstate := .param })).holds (srcUlilet 1 6) = true ∧ (link (paramOf 2 false) open_).lstate = .param ∧
    (link (.paramSend 1) { lstate := .param, lanes := 16 }).paramSent = some 20000 ∧
    link (.paramSend 1) { lstate := .param, lanes := 16, paramSent := some 10001 } = { lstate := .param, lanes := 16, paramSent := some 10001 } ∧
    (link (.sessionEstablished 1 true) { lstate := .session }).lstate = .active ∧ (link (.sessionEstablished 1 true) { lstate := .session }).secure = true ∧
    (link (.sessionEstablished 1 false) { lstate := .session }).refusedAt = some 20000 ∧
    (link (.sessionRetry 1) { lstate := .param, refusedAt := some 5, paramSeen := true } 1000000005).lstate = .session ∧
    (link (.sessionRetry 1) { lstate := .param, refusedAt := some 5, paramSeen := true } 1000000004).refusedAt = some 5 := by decide +kernel

theorem witness_LinkErrors :
    (link (.uliletCrcFailure 1) open_).crcErr = 1 ∧ (link (.uliletCrcFailure 1) open_).resync = true ∧
    (link (.resyncTimeout 1) { open_ with resync := true, resyncAt := 15904 }).lstate = .train ∧
    (link (.resyncTimeout 1) { open_ with resync := true, resyncAt := 15905 }).lstate = .active ∧
    (link (.receiverLockLoss 1) open_).totalRetrains = 1 ∧ (link (.receiverLockLoss 1) { open_ with retrainTimes := [5, 6] }).lstate = .retired ∧
    (link (.receiverLockLoss 1) { open_ with retrainTimes := [5, 6] }).cause = 1 ∧
    (link (.replayTimerExpiry 1) { open_ with timer := some 20000 }).replayAt = some 0 ∧
    (link (.replayTimerExpiry 1) { open_ with timer := some 20000 }).timer = some 22000 ∧
    (link (.replayTimerExpiry 1) { open_ with timer := some 20001 }).replayAt = none ∧
    (link (.replayTimerExpiry 1) { open_ with timer := some 20000, expiries := 3 }).lstate = .train ∧
    (link (.uliletMalformedPacket 1) open_).lstate = .param ∧ (link (.uliletMalformedPacket 1) open_).protoErr = 1 ∧
    (link (.uliletSilence 1 true) open_).lstate = .down ∧ (link (.uliletSilence 1 false) { open_ with lastGood := 10000 }).lstate = .down ∧
    (link (.uliletSilence 1 false) { open_ with lastGood := 10001 }).lstate = .active ∧
    (link (.retireNotice 1 { len := 1, crCum := 0, ack := 4095 }) open_).cause = 4 := by decide +kernel

/-- A packet of one unit that was sent with SEQ 0. -/
def sent0 : Sent := { seq := 0, ack := 4095, crVc := 0, crCum := 0, counter := 0, pkt := { type := 1, vc := 1, len := 1 } }

theorem witness_AckOnly :
    let p := { open_ with txSeq := 1, replay := [sent0], timer := some 22000, charged := [(1, 2)] }
    let h : Header := { ack := 0, crVc := 1, crCum := 2 }
    p.check 0 h = .accept ∧ (link (.ackOnly 1 h) p).replay = [] ∧ (link (.ackOnly 1 h) p).acked = 0 ∧ (link (.ackOnly 1 h) p).timer = none ∧
    Tab.get 0 (link (.ackOnly 1 h) p).credited 1 = 2 ∧ (link (.ackOnly 1 { h with tagOk := false }) p).tagErr = 1 ∧
    (link (.ackOnly 1 { h with ack := 1 }) p).protoErr = 1 ∧ link (.ackOnly 1 h) { p with resync := true } = { p with resync := true } := by decide +kernel

theorem witness_Beacon :
    let h : Header := { len := 1, ack := 4095 }
    let s : State := { linked open_ with ident := { role := false, devId := 1 } }
    let r := after (.beacon 1 h 490 0 0 2 true) s
    (link (.beacon 1 h 490 0 0 2 true) open_).peerSync = some (490, 500) ∧ (after (.beacon 1 h 490 0 0 2 true) (linked open_)).time = (linked open_).time ∧
    r.parentLink = some 1 ∧ r.time.parent = 2 ∧ r.time.hops = 3 ∧ (r.uli 1).peerSynced = true ∧
    (link (.beaconSlotStart 1) open_ 20000 1030).lastSlot = some 1 ∧ (link (.beaconSlotStart 1) open_ 20000 1088).lastSlot = none ∧
    (link (.beaconSlotStart 1) { open_ with lastSlot := some 1 } 20000 1030) = { open_ with lastSlot := some 1 } := by decide +kernel

theorem witness_KeyUpdate :
    let s : State := { linked { open_ with txCounter := 9 } with ident := { role := true, devId := 0 } }
    let k := ((after (.enclaveMessage 1 { len := 1, ack := 4095 } .keyUpdate) s).uli 1)
    k.txCounter = 0 ∧ k.rxExpect = 1 ∧ k.oldKeyTo = some 0 ∧ k.keyAt = 20000 ∧
    ((link (.linkKeyUpdate 1) open_).tx.map fun x => (x.type, x.msg)) = [(5, some .keyUpdate)] ∧
    (link (.linkKeyUpdate 1) { open_ with peerId := 0 }).tx = [] := by decide +kernel

theorem witness_PacketSend :
    let x : OutPkt := { type := 1, vc := 1, len := 1, dst := 2 }
    let p := { open_ with tx := [x] }
    let r := after (.uliletPacketSend 1) (linked p)
    (r.uli 1).txSeq = 1 ∧ (r.uli 1).tx = [] ∧ ((r.uli 1).replay.map (·.pkt)) = [x] ∧ Tab.get 0 (r.uli 1).charged 1 = 2 ∧
    (r.uli 1).timer = some 22000 ∧ r.out.length = 1 ∧ link (.uliletPacketSend 1) open_ = open_ ∧
    (link (.uliletPacketSend 1) p 20000 1030).txSeq = 0 ∧
    (let y := { open_ with replay := [sent0, { sent0 with seq := 1 }], replayAt := some 0 };
      (after (.uliletPacketSend 1) (linked y)).out = [.packet 1 sent0] ∧ (link (.uliletPacketSend 1) y).replayAt = some 1) ∧
    (link (.ackOnlySend 1) { open_ with lastStart := 19936 }).lastStart = 20000 ∧ (link (.ackOnlySend 1) { open_ with lastStart := 19937 }).lastStart = 19937 := by
  decide +kernel

/-- Device 0 with link 1 to device 2, which asks; extent 7 is homed here. -/
def asked : State := { cached stored with ulis := [(1, open_)], const := { members := [(2, { state := .joined, port := 1 })] } }

/-- A request's header, with its units; and the last packet that waits on link 1: op, status, payload. -/
def hdr (n : Nat) : Header := { len := n, vc := 1, src := 2, dst := 0, ack := 4095 }
def answerOf (r : State) : Option (Nat × Nat × List Line × List Nat) := (r.uli 1).tx.getLast?.map fun p => (p.txn.op, p.txn.status, p.txn.lines, p.txn.words)

/-- That packet is this response. -/
def answersWith (r : State) (op status : Nat) (lines : List Line) (words : List Nat) : Bool := decide (answerOf r = some (op, status, lines, words))

theorem witness_ForwardedReads :
    let x : Txn := { op := 1, tag := 5, index := page7 1, unit := 3 }
    asked.route 2 = some 1 ∧ answersWith (after (.fwdRd 1 (hdr 0) x) asked) 1 0 [0] [] = true ∧
    answersWith (after (.fwdRd 1 (hdr 0) { x with index := 5 }) asked) 1 1 [0] [] = true ∧
    (after (.fwdRd 1 (hdr 0) { x with index := 5 }) asked).cap.noMapping = 1 := by decide +kernel

theorem witness_ForwardedWrites :
    let x : Txn := { op := 2, tag := 5, index := page7 0, unit := 3, lines := [44] }
    let r := after (.fwdWr 1 (hdr 1) x) asked
    answersWith r 2 0 [] [] = true ∧ r.overlay (page7 0) 3 = (44, BitVec.allOnes 64, false) ∧ 5 ∈ r.appliedOf 2 ∧
    (let again : State := { asked with const := { asked.const with applied := [(2, [5])] } };
      answersWith (after (.fwdWr 1 (hdr 1) x) again) 2 0 [] [] = true ∧ (after (.fwdWr 1 (hdr 1) x) again).gather.entries = []) := by decide +kernel

/-- The same device stores far pages: channel 6 is ACTIVE, and the first block of remote descriptors is placed. -/
def farHost : State := { asked with chans := [(0, dimm), (6, dimm)], allocs := [(0, { megas := [(9, some (.remoteDesc 0))] })] }

/-- The next packet after it. -/
def h1 : Header := { hdr 1 with seq := 1 }

/-- Device 2 has allocated a PLAIN far page here. -/
noncomputable def farPage : State := after (.farAlloc 1 (hdr 1) { op := 3, tag := 7, index := 66, words := [1, 0, 64] }) farHost

theorem witness_FarTier :
    let a := farPage
    let w := after (.farWr 1 h1 { op := 5, tag := 8, index := 0, unit := 2, lines := [99] }) a
    let r := after (.farRd 1 { hdr 0 with seq := 2 } { op := 4, tag := 9, index := 0, unit := 2 } false) w
    answersWith a 3 0 [] [0] = true ∧ (a.remote 0).home = 2 ∧ a.cap.g = 64 ∧ answersWith w 5 0 [] [] = true ∧
    answersWith r 4 0 [99] [] = true := by decide +kernel

theorem witness_FarCommit :
    let a := farPage
    answersWith (after (.farCommit 1 h1 { op := 7, tag := 8, index := 0, words := [1, 0] }) a) 7 0 [] [] = true ∧
    ((after (.farCommit 1 h1 { op := 7, tag := 8, index := 0, words := [1, 0] }) a).remote 0).committed = true ∧
    answersWith (after (.farPut 1 h1 { op := 6, tag := 8, index := 0, unit := 4, lines := [3] }) a) 6 0 [] [] = true ∧
    answersWith (after (.farPut 1 h1 { op := 6, tag := 8, index := 1, unit := 4, lines := [3] }) a) 6 2 [] [] = true ∧
    answersWith (after (.farRd 1 h1 { op := 4, tag := 9, index := 1 } false) a) 4 1 [0] [] = true := by decide +kernel

theorem witness_FarFree :
    let s : State := { asked with const := { asked.const with remotes := [(0, { state := 1, home := 2, location := 640, units := 1, committed := true })] }, cap := { asked.cap with g := 5 } }
    let r := after (.farFree 1 (hdr 0) { op := 8, tag := 7, index := 0 }) s
    answersWith r 8 0 [] [] = true ∧ (r.remote 0).state = 0 ∧ r.cap.g = 4 := by decide +kernel

theorem witness_MembersAsk :
    let shared : State := { asked with cap := { asked.cap with extents := [(7, { (asked.extent 7) with shared := true, mappings := 1 })] } }
    let xm := after (.xmap 1 (hdr 1) { op := 10, tag := 3, words := [7, 0] }) shared
    answersWith xm 10 0 [] [] = true ∧ (xm.extent 7).mappings = 2 ∧ xm.const.remoteMaps = [(7, 2)] ∧
    answersWith (after (.xmap 1 (hdr 1) { op := 10, tag := 3, words := [7, 0] }) asked) 10 2 [] [] = true := by decide +kernel

theorem witness_MembersAskFurther :
    answersWith (after (.snoop 1 (hdr 1) { op := 9, tag := 3, index := 6, unit := 1, words := [1] }) asked) 9 0 [] [] = true ∧
    (let d : State := { asked with path := { directory := [(lineKey 2 6 1, 1)] } };
      (after (.snoop 1 (hdr 1) { op := 9, tag := 3, index := 6, unit := 1, words := [1] }) d).out = [.snoop 0 (lineKey 2 6 1) true]) ∧
    answersWith (after (.admitReq 1 (hdr 1) { op := 11, tag := 3, words := [1, 2, 1, 77] }) asked) 11 0 [] [] = true ∧
    (after (.uliletTally 1 (hdr 1) { op := 15, tag := 3, words := [9, 0, 0, 0, 5, 1, 0, 2, 0, 4] }) asked).rec_.store.map (·.copySeq) = [9] := by decide +kernel

/-- Device 2 is cabled to link 1 and has not joined. -/
def stranger : State := { cached stored with ulis := [(1, open_)] }

theorem witness_Join :
    let x : Txn := { op := 13, tag := 4, words := [0, 0, 55, 0, 0, 9] }
    let r := after (.join 1 (hdr 2) x) stranger
    (r.member 2).state = .joined ∧ (r.member 2).epoch = some 55 ∧ answersWith r 13 0 [] r.joinWords = true ∧ r.const.register = [(2 * 2 ^ 18 + 9, [])] ∧
    ((after (.join 1 (hdr 2) { x with words := [0, 1, 55, 0, 0] }) stranger).uli 1).foreign = true := by decide +kernel

theorem witness_Recon :
    let r := after (.recon 1 (hdr 1) { op := 14, tag := 4, words := [page7 0, 2 ^ 3] }) asked
    answersWith r 14 0 [] [] = true ∧ (r.lineNow 323).poisoned = true ∧
    (r.integ.poison.map fun p => (p.dlpn, p.unit, p.place, p.source)) = [(page7 0, 0, 3, 4)] := by decide +kernel

theorem witness_Reach :
    ((after (.reach 1 (hdr 1) { op := 12, words := [5] }) asked).uli 1).reach = 5 ∧
    ((after (.reach 1 (hdr 1) { op := 12, words := [5] }) asked).uli 1).reachAt = some 100 := by decide +kernel

theorem witness_ReachSend :
    let p := (after .reachSend { asked with time := { now := 8000 } }).uli 1
    p.reachSent = 8000 ∧ (p.tx.map fun y => (y.type, y.dst, y.txn.op)) = [(1, 2, 12)] ∧ ((after .reachSend asked).uli 1) = open_ := by decide +kernel

/-- Request 1 waits for device 2's response to the transaction of tag 6. -/
def forwarded (op : Nat) (write : Bool) : State :=
  let q : Req := { id := 1, source := 0, ld := 1, tag := 9, write, stage := .forwarded, home := 2, dlpn := 77, tracked := true }
  { asked with
    path := { reqs := [q], nextReq := 2 }
    const := { asked.const with opened := [{ tag := 6, op, target := 2, req := 1, dlpn := 77, unit := 3, at_ := 100 }]
                                journal := [{ seq := 6, home := 2, req := 1, dlpn := 77, lineNo := 3, data := 0, mask := 1 }] } }

/-- The response's header. -/
def resp (n : Nat) : Header := { len := n, src := 2, dst := 0, ack := 4095 }

theorem witness_Responses :
    let r := after (.txnResponse 1 (resp 1) { op := 1, tag := 6, lines := [42] }) (forwarded 1 false)
    let w := after (.txnResponse 1 (resp 0) { op := 2, tag := 6 }) (forwarded 2 true)
    r.const.opened = [] ∧ r.path.reqs = [] ∧ r.out.map (fun o => match o with | .readData _ _ t d p _ => (t, d, p) | _ => (0, 0, true)) = [(9, 42, false)] ∧
    w.const.journal = [] ∧ w.path.reqs = [] ∧ w.out.map (fun o => match o with | .writeDone _ _ t _ => t | _ => 0) = [9] ∧
    ((after (.txnResponse 1 (resp 0) { op := 2, tag := 6, status := 4 }) (forwarded 2 true)).uli 1).lstate = .param ∧
    (after (.txnResponse 1 (resp 0) { op := 2, tag := 7 }) (forwarded 2 true)).const.journal.length = 1 := by decide +kernel

theorem witness_MapResponses :
    let s : State := { asked with const := { asked.const with xmap := { busy := true }, opened := [{ tag := 6, op := 10, target := 2, words := [9, 0] }] } }
    let a : State := { s with const := { s.const with opened := [{ tag := 6, op := 11, target := 2 }] } }
    (after (.txnResponse 1 (resp 0) { op := 10, tag := 6, status := 2 }) s).const.xmap.result = 10 ∧
    (after (.txnResponse 1 (resp 0) { op := 10, tag := 6, status := 3 }) s).const.xmap.result = 9 ∧
    (after (.txnResponse 1 (resp 0) { op := 11, tag := 6, status := 2 }) a).const.xmap.result = 1 ∧
    (after (.txnResponse 1 (resp 0) { op := 11, tag := 6, status := 2 }) a).const.xmap.busy = false := by decide +kernel

theorem witness_JoinResponses :
    let s : State := { stranger with const := { opened := [{ tag := 6, op := 13, target := 2 }] } }
    let r := after (.txnResponse 1 (resp 1) { op := 13, tag := 6, words := [0, 0, 55, 0, 0] }) s
    (r.member 2).state = .joined ∧ (r.member 2).epoch = some 55 ∧
    (let k : State := { asked with const := { members := [(2, { state := .joined, port := 1, reconciling := true })]
                                              indet := [{ dlpn := 7, device := 2, far := false, mask := 1 }]
                                              opened := [{ tag := 6, op := 14, target := 2 }] } };
      ((after (.txnResponse 1 (resp 0) { op := 14, tag := 6 }) k).member 2).reconciling = false ∧
      (after (.txnResponse 1 (resp 0) { op := 14, tag := 6 }) k).const.indet = []) := by decide +kernel

theorem witness_OrphanTimeout :
    let late := fun (op : Nat) (w : Bool) => ({ forwarded op w with time := { now := 50100 } } : State)
    let r := after (.orphanTimeout false 6) (late 1 false)
    let w := after (.orphanTimeout true 6) (late 2 true)
    (r.member 2).orphans = 1 ∧ r.out.map (fun o => match o with | .readData _ _ t d p _ => (t, d, p) | _ => (0, 0, false)) = [(9, 0, true)] ∧
    w.const.indet = [{ dlpn := 77, device := 2, far := false, mask := 8 }] ∧ w.path.reqs = [] ∧
    after (.orphanTimeout false 6) { forwarded 1 false with time := { now := 50099 } } = { forwarded 1 false with time := { now := 50099 } } := by decide +kernel

/-! ### The device as a whole -/

theorem witness_Step :
    step { ({} : State) with pending := [.resetNAssert, .doze] } = exec .resetNAssert { ({} : State) with pending := [.doze] } := rfl

/-- What a step leaves. -/
def stepped (s : State) : State := match step s with
  | .next r => r
  | .fault _ => s
  | .refused _ => s

theorem witness_Idle : (stepped {}).time.now = 1 ∧ (stepped {}).time.tb = 1 ∧
    stepped { ({} : State) with start := { powered := false } } = { ({} : State) with start := { powered := false } } := by decide +kernel

theorem witness_Reset : (readRegister 0x10 5 0 State.reset).1 = 0x8282C08103 ∧ (readRegister 0x90 47 0 State.reset).1 = 0x3C08040F1E ∧
    State.reset.strapsAgree = true ∧ State.reset.pending = [] := by decide +kernel

theorem witness_Straps : (after (.pwrOkAssert true 2 none) { start := { powered := false } }).strapsAgree = true ∧
    (after (.pwrOkAssert true 2 none) { start := { powered := false } }).ident.strapErr = true := by decide +kernel

theorem witness_Crc : crc16 [0x31, 0x32, 0x33, 0x34, 0x35, 0x36, 0x37, 0x38, 0x39] = 0x29B1 := by decide +kernel

theorem witness_Descriptor : decodeDesc (encodeDesc { state := .packed, lock := true, location := 320, blockLen := 77, wgen := 3, bpoison := 5 }) =
    { state := .packed, lock := true, location := 320, blockLen := 77, wgen := 3, bpoison := 5 } := by decide +kernel
end Sys2Proof.Tests
end

section
namespace Sys2Proof.Machine

/-! ### Reads from the DIMM: an error counted on another channel (O51) -/

/-- A read of an LD of head 0 that reads a line of channel 1 for the second time. -/
def strayRead : Req :=
  { id := 1, source := 0, ld := 0, tag := 9, write := false, stage := .lines, lines := [{ line := 2 ^ 33, retried := true }] }

/-- Channel 0 has under way the second read of a line that lies on channel 1. -/
def strayFlight : State :=
  { chans := [(0, { state := .active, flight := [(1, 2 ^ 33, {})] })], path := { reqs := [strayRead], nextReq := 2 } }

/-- A word with three check bits flipped, which the code cannot correct (R257). -/
def lostWord : List (BitVec 80) := [7]

/-- The stray read meets every hypothesis of the clause on second reads, and its outcome is UE. -/
theorem strayFlight_meets : strayFlight.running = true ∧ strayFlight.nextFlight 0 0 true = some (1, 2 ^ 33, {}) ∧
    strayFlight.req 1 = some strayRead ∧ strayFlight.readable 0 = true ∧
    (readOutcome (strayFlight.pairRule (2 ^ 33)) 0 false lostWord).out = .ue := by decide +kernel

/-- The error is counted on channel 1, where the line lies (R263); channel 0 counts none. -/
theorem strayFlight_counts : ∃ r, exec (.ueRetryRead 0 0 lostWord 0) strayFlight = .next r ∧ (r.chan 0).ue = 0 ∧ (r.chan 1).ue = 1 :=
  ⟨_, rfl, by decide +kernel⟩

/-- Refutes O51: the statement bounds nowhere the line that a channel has under way. The second read of a line of channel 1 that stands in
the flight list of channel 0 ends in UE, and R263 counts it on the line's own channel, so the count of channel 0 stays as it was. -/
theorem not_dramDataReturnsThroughTheEngines : ¬ Obligations.DramDataReturnsThroughTheEngines := by
  unfold Obligations.DramDataReturnsThroughTheEngines
  intro h
  obtain ⟨hrun, hflight, hreq, hread, hue⟩ := strayFlight_meets
  obtain ⟨_, hactive⟩ := (h strayFlight hrun).1 0 0 true strayRead (2 ^ 33) {} lostWord 0 hflight hreq (by decide) rfl rfl
  obtain ⟨_, _, _, hlost⟩ := hactive hread
  obtain ⟨r, _, hr, _, hcount⟩ := hlost hue rfl
  obtain ⟨t, ht, hnone, _⟩ := strayFlight_counts
  obtain rfl : t = r := Host.Outcome.next.inj (ht.symm.trans hr)
  have hone : (t.chan 0).ue = 1 := hcount
  rw [hnone] at hone
  exact absurd hone (by decide)
end Sys2Proof.Machine
end

section
namespace Sys2Proof.Machine

/-! ### Operations that leave a part of the state alone, over lists -/

/-- A relation between states that is reflexive and transitive holds across an operation applied for each element, when each application
keeps it. -/
theorem forEach_keeps {α : Type} {R : State → State → Prop} (hr : ∀ s, R s s) (ht : ∀ {s r q}, R s r → R r q → R s q)
    (l : List α) (f : α → State → State) (h : ∀ a s, R s (f a s)) (s : State) : R s (forEach l f s) := by
  unfold forEach
  induction l generalizing s with
  | nil => exact hr s
  | cons a l ih => exact ht (h a s) (ih _)

/-! ### Accounting of capacity (R137, R141) -/

/-- What keeping the account of capacity may change: reports and what they change, the capacity registers, extents that are asked back,
posted events and their counts. -/
structure State.Accounts (s r : State) : Prop where
  rest : r = { s with
    faults := r.faults, rec_ := r.rec_, const := r.const, ulis := r.ulis, lds := r.lds, out := r.out
    cap := r.cap, queues := r.queues, ctrs := r.ctrs }
  extents : ∀ e, r.extent e = { s.extent e with state := (r.extent e).state }

theorem State.Accounts.refl (s : State) : s.Accounts s := ⟨rfl, fun _ => rfl⟩

theorem State.Accounts.trans {s r q : State} (h : s.Accounts r) (k : r.Accounts q) : s.Accounts q := by
  refine ⟨?_, fun e => ?_⟩
  · rw [k.rest]; conv_lhs => rw [h.rest]
  · rw [k.extents e]; conv_lhs => rw [h.extents e]

theorem State.Accounts.ite {p : Prop} [Decidable p] {s r : State} (h : s.Accounts r) : s.Accounts (if p then r else s) := by
  split
  · exact h
  · exact .refl s

/-- A change of the capacity registers that leaves the extents alone. -/
theorem modCap_accounts (f : Cap → Cap) (s : State) (h : (f s.cap).extents = s.cap.extents) : s.Accounts (s.modCap f) :=
  ⟨rfl, fun e => by simp [State.extent, h]⟩

/-- A report leaves the capacity registers alone. -/
theorem State.Reports.cap_eq {s r : State} (h : s.Reports r) : r.cap = s.cap := by rw [h.rest]

theorem State.Reports.accounts {s r : State} (h : s.Reports r) : s.Accounts r := by
  refine ⟨?_, fun e => by simp [State.extent, h.cap_eq]⟩
  rw [h.rest]

theorem countEvent_accounts (b code : Nat) (ld : Option Nat) (s : State) : s.Accounts (countEvent b code ld s) := ⟨rfl, fun _ => rfl⟩

theorem modQueue_accounts (q : Nat) (f : Queue → Queue) (s : State) : s.Accounts (s.modQueue q f) := ⟨rfl, fun _ => rfl⟩

theorem postDevice_accounts (q : Nat) (a b c d : Word) (s : State) : s.Accounts (postDevice q a b c d s) := by
  unfold postDevice
  split
  · exact (modQueue_accounts ..).trans (countEvent_accounts ..)
  · exact modQueue_accounts ..

theorem requestRelease_accounts (e : Nat) (s : State) : s.Accounts (requestRelease e s) := by
  unfold requestRelease
  split
  · have hstate : s.Accounts (s.modExtent e fun x => { x with state := .releaseReq }) := by
      refine ⟨rfl, fun i => ?_⟩
      rw [State.modExtent_at]
      split
      · rename_i hi; rw [hi]
      · rfl
    exact (hstate.trans (modCap_accounts _ _ rfl)).trans
      (forEach_reports _ _ _ fun m s => placeRecord_reports ..).accounts
  · exact .refl s

theorem requestUntil_accounts (want : Int) (l : List Nat) (s : State) : s.Accounts (requestUntil want l s) := by
  induction l generalizing s with
  | nil => exact .refl s
  | cons e l ih =>
    unfold requestUntil
    split
    · exact .refl s
    · exact (requestRelease_accounts e s).trans (ih _)

theorem reportDistress_accounts (entered : Bool) (s : State) : s.Accounts (reportDistress entered s) :=
  (placeAll_reports ..).accounts.trans (postDevice_accounts ..)

theorem enterDistress_accounts (s : State) : s.Accounts (enterDistress s) :=
  ((modCap_accounts _ s rfl).trans ((modCap_accounts _ _ rfl).trans (requestUntil_accounts ..))).trans
    ((reportDistress_accounts ..).trans (condStart_reports 64 _ (by decide)).accounts)

/-- The three parts of what follows a change of U (R141, R144, R145): POOL_EXHAUSTED, SHORTFALL and distress. -/
def endExhaustion (s : State) : State := if 0 < s.capU then s.modCap fun c => { c with poolExhausted := false } else s
def endShortfall (u : Int) (s : State) : State :=
  if s.cap.shortfall && decide (0 ≤ u) then condEnd 66 (s.modCap fun c => { c with shortfall := false }) else s
def judgeDistress (u : Int) (s : State) : State :=
  if !s.cap.distress && decide (u ≤ s.capF) then enterDistress s
  else if s.cap.distress && decide ((s.capF : Int) + s.capHyst ≤ u) then
    condEnd 64 (reportDistress false (s.modCap fun c => { c with distress := false }))
  else s

theorem updateCapacity_eq (s : State) : updateCapacity s =
    if !s.capacityLive then s else judgeDistress s.capU (endShortfall s.capU (endExhaustion s)) := rfl

theorem endExhaustion_accounts (s : State) : s.Accounts (endExhaustion s) := .ite (modCap_accounts _ s rfl)

theorem endShortfall_accounts (u : Int) (s : State) : s.Accounts (endShortfall u s) :=
  .ite ((modCap_accounts _ s rfl).trans (condEnd_reports ..).accounts)

theorem judgeDistress_accounts (u : Int) (s : State) : s.Accounts (judgeDistress u s) := by
  unfold judgeDistress
  split
  · exact enterDistress_accounts s
  · exact .ite (((modCap_accounts _ s rfl).trans (reportDistress_accounts ..)).trans (condEnd_reports ..).accounts)

/-- Whatever a change of capacity sets off is accounting. -/
theorem updateCapacity_accounts (s : State) : s.Accounts (updateCapacity s) := by
  rw [updateCapacity_eq]
  split
  · exact .refl s
  · exact ((endExhaustion_accounts s).trans (endShortfall_accounts ..)).trans (judgeDistress_accounts ..)

theorem addFootprint_accounts (e : Nat) (n : Int) (s : State) : s.Accounts (addFootprint e n s) := modCap_accounts _ _ rfl

theorem takeCharge_accounts (e n : Nat) (s : State) : s.Accounts (takeCharge e n s) :=
  ((addFootprint_accounts e n s).trans (countEvent_accounts ..)).trans (updateCapacity_accounts _)

end Sys2Proof.Machine
end

section
namespace Sys2Proof.Machine

/-! ### What leaves the shapers alone (R381)

A request that has left its shaper goes on through translation, lookup and service. None of that gives or takes credit. -/

/-- The credits, the profiles and the time, from which every shaper's credit follows, stand. -/
structure State.SameShaper (s r : State) : Prop where
  credit : r.qos.credit = s.qos.credit
  params : r.qos.params = s.qos.params
  time : r.time = s.time

theorem State.SameShaper.refl (s : State) : s.SameShaper s := ⟨rfl, rfl, rfl⟩

theorem State.SameShaper.trans {s r q : State} (h : s.SameShaper r) (k : r.SameShaper q) : s.SameShaper q :=
  ⟨k.credit.trans h.credit, k.params.trans h.params, k.time.trans h.time⟩

theorem State.SameShaper.ite {p : Prop} [Decidable p] {s r q : State} (h : s.SameShaper r) (k : s.SameShaper q) :
    s.SameShaper (if p then r else q) := by
  split
  · exact h
  · exact k

theorem State.SameShaper.ite_snd {p : Prop} [Decidable p] {s : State} {x y : Bool × State} (h : s.SameShaper x.2) (k : s.SameShaper y.2) :
    s.SameShaper (if p then x else y).2 := by
  split
  · exact h
  · exact k

theorem forEach_sameShaper {α : Type} (l : List α) (f : α → State → State) (h : ∀ a s, State.SameShaper s (f a s)) (s : State) :
    s.SameShaper (forEach l f s) := forEach_keeps .refl .trans l f h s

/-- The parameters 2 and 3 of a profile, SHAPE_RATE and SHAPE_BURST, have defaults of their own. -/
theorem State.SameShaper.credit_eq {s r : State} (h : s.SameShaper r) (ld : Nat) : r.credit ld = s.credit ld := by
  have hparam : ∀ i, i = 2 ∨ i = 3 → r.param ld i = s.param ld i := by
    rintro i (rfl | rfl) <;> simp [State.param, State.paramDefault, h.params]
  simp only [State.credit, State.now, h.credit, h.time, hparam 2 (.inl rfl), hparam 3 (.inr rfl)]

theorem State.Accounts.sameShaper {s r : State} (h : s.Accounts r) : s.SameShaper r := by
  constructor <;> rw [h.rest]

theorem State.Reports.sameShaper {s r : State} (h : s.Reports r) : s.SameShaper r := h.accounts.sameShaper

/-- An update of one part of the state, other than the QoS registers and the time. -/
theorem modPath_sameShaper (f : Path → Path) (s : State) : s.SameShaper (s.modPath f) := ⟨rfl, rfl, rfl⟩
theorem modCap_sameShaper (f : Cap → Cap) (s : State) : s.SameShaper (s.modCap f) := ⟨rfl, rfl, rfl⟩
theorem modMeta_sameShaper (f : Meta → Meta) (s : State) : s.SameShaper (s.modMeta f) := ⟨rfl, rfl, rfl⟩
theorem modGather_sameShaper (f : Gather → Gather) (s : State) : s.SameShaper (s.modGather f) := ⟨rfl, rfl, rfl⟩
theorem modConst_sameShaper (f : Const → Const) (s : State) : s.SameShaper (s.modConst f) := ⟨rfl, rfl, rfl⟩
theorem modInteg_sameShaper (f : Integ → Integ) (s : State) : s.SameShaper (s.modInteg f) := ⟨rfl, rfl, rfl⟩
theorem modSketch_sameShaper (f : Sketch → Sketch) (s : State) : s.SameShaper (s.modSketch f) := ⟨rfl, rfl, rfl⟩
theorem modQuad_sameShaper (q : Nat) (f : Quad → Quad) (s : State) : s.SameShaper (s.modQuad q f) := ⟨rfl, rfl, rfl⟩
theorem modChan_sameShaper (c : Nat) (f : Chan → Chan) (s : State) : s.SameShaper (s.modChan c f) := ⟨rfl, rfl, rfl⟩
theorem modDom_sameShaper (i : Nat) (f : Dom → Dom) (s : State) : s.SameShaper (s.modDom i f) := ⟨rfl, rfl, rfl⟩
theorem takeFree_sameShaper (s : State) : s.SameShaper s.takeFree := ⟨rfl, rfl, rfl⟩
theorem countEvent_sameShaper (b code : Nat) (ld : Option Nat) (s : State) : s.SameShaper (countEvent b code ld s) := ⟨rfl, rfl, rfl⟩

theorem modPort_sameShaper (p : Nat) (f : Port → Port) (s : State) : s.SameShaper (s.modPort p f) := ⟨rfl, rfl, rfl⟩
theorem modUli_sameShaper (u : Nat) (f : Uli → Uli) (s : State) : s.SameShaper (s.modUli u f) := ⟨rfl, rfl, rfl⟩
theorem modThread_sameShaper (t : Nat) (f : Thread → Thread) (s : State) : s.SameShaper (s.modThread t f) := ⟨rfl, rfl, rfl⟩
theorem modSlot_sameShaper (n : Nat) (f : Slot → Slot) (s : State) : s.SameShaper (s.modSlot n f) := ⟨rfl, rfl, rfl⟩

/-! #### Fault sources of every class -/

theorem dropHostLinks_sameShaper (s : State) : s.SameShaper (dropHostLinks s) :=
  forEach_sameShaper _ _ (fun _ _ => modPort_sameShaper ..) s

theorem dropUliletLinks_sameShaper (s : State) : s.SameShaper (dropUliletLinks s) :=
  forEach_sameShaper _ _ (fun _ _ => modUli_sameShaper ..) s

theorem selfRefreshAll_sameShaper (s : State) : s.SameShaper (selfRefreshAll s) :=
  forEach_sameShaper _ _ (fun _ _ => modChan_sameShaper ..) s

theorem discardGather_sameShaper (s : State) : s.SameShaper (discardGather s) := by
  have h := forEach_sameShaper s.gather.charges (fun e s => addFootprint (extentOf (e.1 / 8)) (-(e.2 : Int)) s)
    (fun _ _ => modCap_sameShaper ..) s
  exact ⟨h.credit, h.params, h.time⟩

theorem immediateEntry_sameShaper (cause : BitVec 3) (s : State) : s.SameShaper (immediateEntry cause s) := by
  unfold immediateEntry
  split
  · exact .refl s
  · exact .trans (r := ((s.modStart _).modPower _).modAlm _) ⟨rfl, rfl, rfl⟩ ((((dropHostLinks_sameShaper _).trans
      (dropUliletLinks_sameShaper _)).trans (selfRefreshAll_sameShaper _)).trans (discardGather_sameShaper _))

theorem loseDram_sameShaper (s : State) : s.SameShaper (loseDram s) :=
  .trans (r := { s with dram := [] }) ⟨rfl, rfl, rfl⟩ (forEach_sameShaper _ _ (fun _ _ => modChan_sameShaper ..) _)

theorem withSlotMgr_sameShaper (m : SlotMgr) (s : State) : s.SameShaper { s with slotMgr := m } := ⟨rfl, rfl, rfl⟩

theorem zeroizeSecrets_sameShaper (s : State) : s.SameShaper (zeroizeSecrets s) := ⟨rfl, rfl, rfl⟩

theorem haltDevice_sameShaper (n : Nat) (s : State) : s.SameShaper (haltDevice n s) := by
  unfold haltDevice
  split
  · exact .refl s
  · refine .trans ?_ (loseDram_sameShaper _)
    refine .trans ?_ (withSlotMgr_sameShaper _ _)
    refine .trans ?_ (forEach_sameShaper _ _ (fun _ _ => modSlot_sameShaper ..) _)
    refine .trans ?_ (forEach_sameShaper _ _ (fun _ _ => modDom_sameShaper ..) _)
    refine .trans ?_ (zeroizeSecrets_sameShaper _)
    refine .trans ?_ (forEach_sameShaper _ _ (fun _ _ => modThread_sameShaper ..) _)
    refine .trans (.trans ?_ (dropHostLinks_sameShaper _)) (dropUliletLinks_sameShaper _)
    exact ⟨rfl, rfl, rfl⟩

/-- A source of any class fires: even a reset entry and the halt keep the QoS registers and the time. -/
theorem fireEvent_sameShaper (n : Nat) (s : State) : s.SameShaper (fireEvent n s) := by
  unfold fireEvent
  split
  · exact .refl s
  · refine ((setSticky_reports n s).trans (sampleFault_reports n _)).sameShaper.trans (.trans ?_ (updateHealth_reports _).sameShaper)
    unfold reactClass
    split
    · exact immediateEntry_sameShaper ..
    · exact haltDevice_sameShaper ..
    · exact .refl _

/-! #### Answers -/

theorem putReq_sameShaper (r : Req) (s : State) : s.SameShaper (putReq r s) := ⟨rfl, rfl, rfl⟩
theorem waitAt_sameShaper (r : Req) (st : Stage) (s : State) : s.SameShaper (waitAt r st s) := ⟨rfl, rfl, rfl⟩
theorem claimEntry_sameShaper (pool x : Nat) (s : State) : s.SameShaper (claimEntry pool x s) := ⟨rfl, rfl, rfl⟩
theorem freeEntries_sameShaper (pool x n : Nat) (s : State) : s.SameShaper (freeEntries pool x n s) := ⟨rfl, rfl, rfl⟩

theorem endComet_sameShaper (r : Req) (poison : Bool) (s : State) : s.SameShaper (endComet r poison s) := by
  unfold endComet
  split
  · exact .refl s
  · exact ⟨rfl, rfl, rfl⟩

/-- The bytes of a response are counted in the QoS registers, apart from the shapers. -/
theorem finishReq_sameShaper (r : Req) (data : Line) (poison : Bool) (s : State) : s.SameShaper (finishReq r data poison s) := by
  unfold finishReq
  refine .trans (.trans ?_ (endComet_sameShaper r poison _)) ⟨rfl, rfl, rfl⟩
  split
  · cases r.dead <;> cases r.write <;> exact ⟨rfl, rfl, rfl⟩
  · refine .ite (.ite ?_ ?_) (.refl s) <;> exact (sendPkt_reports ..).sameShaper

theorem respond_sameShaper (r : Req) (data : Line) (poison : Bool) (s : State) : s.SameShaper (respond r data poison s) :=
  .ite (finishReq_sameShaper ..) (putReq_sameShaper ..)

theorem answerRead_sameShaper (r : Req) (data : Line) (poison : Bool) (s : State) : s.SameShaper (answerRead r data poison s) := by
  unfold answerRead
  refine .trans ?_ (respond_sameShaper ..)
  split
  · exact freeEntries_sameShaper ..
  · exact .refl s

/-! #### Reads -/

theorem modRecord_sameShaper (q dlpn : Nat) (f : MoverRec → MoverRec) (s : State) : s.SameShaper (modRecord q dlpn f s) := ⟨rfl, rfl, rfl⟩

theorem enqueueGate_sameShaper (x : LineCmd) (s : State) : s.SameShaper (enqueueGate x s) := ⟨rfl, rfl, rfl⟩

theorem issueLines_sameShaper (r : Req) (lines : List Nat) (slots : Nat) (s : State) : s.SameShaper (issueLines r lines slots s) := by
  unfold issueLines
  refine .ite (answerRead_sameShaper ..) ?_
  refine .trans ?_ (forEach_sameShaper _ _ (fun _ _ => enqueueGate_sameShaper ..) _)
  refine .trans ?_ (putReq_sameShaper ..)
  split
  · exact modRecord_sameShaper ..
  · exact .refl s

theorem readPacked_sameShaper (r : Req) (loc : BitVec 44) (len : BitVec 20) (s : State) : s.SameShaper (readPacked r loc len s) := by
  unfold readPacked
  refine .ite (answerRead_sameShaper ..) ?_
  split
  · exact answerRead_sameShaper ..
  · exact .ite (waitAt_sameShaper ..) ((claimEntry_sameShaper ..).trans (issueLines_sameShaper ..))

theorem readFar_sameShaper (r : Req) (loc : BitVec 44) (s : State) : s.SameShaper (readFar r loc s) := by
  unfold readFar
  refine .ite (answerRead_sameShaper ..) (.ite (answerRead_sameShaper ..) (.ite (waitAt_sameShaper ..) ?_))
  refine .trans ?_ (forEach_sameShaper _ _ (fun _ _ => (openTxn_reports ..).sameShaper) _)
  refine .trans ?_ (putReq_sameShaper ..)
  split
  · exact .trans (.ite (claimEntry_sameShaper ..) (.refl s)) (modRecord_sameShaper ..)
  · exact .ite (claimEntry_sameShaper ..) (.refl s)

theorem serveRead_sameShaper (r : Req) (s : State) : s.SameShaper (serveRead r s) := by
  unfold serveRead
  refine .ite (answerRead_sameShaper ..) (.ite (waitAt_sameShaper ..) (.ite (answerRead_sameShaper ..) (.ite (answerRead_sameShaper ..) ?_)))
  dsimp only
  split
  case h_5 => exact issueLines_sameShaper ..
  case h_6 => exact readPacked_sameShaper ..
  case h_7 => exact readFar_sameShaper ..
  all_goals exact answerRead_sameShaper ..

/-! #### Writes -/

theorem setDesc_sameShaper (dlpn : Nat) (d : Desc) (s : State) : s.SameShaper (setDesc dlpn d s) := ⟨rfl, rfl, rfl⟩

theorem startEviction_sameShaper (dlpn : Nat) (s : State) : s.SameShaper (startEviction dlpn s) :=
  .ite (.refl s) ⟨rfl, rfl, rfl⟩

theorem relievePressure_sameShaper (q fuel : Nat) (s : State) : s.SameShaper (relievePressure q fuel s) := by
  induction fuel generalizing s with
  | zero => exact .refl s
  | succ fuel ih =>
    unfold relievePressure
    refine .ite (.refl s) ?_
    split
    · exact .refl s
    · exact (startEviction_sameShaper ..).trans (ih _)

theorem packedTriggers_sameShaper (dlpn : Nat) (s : State) : s.SameShaper (packedTriggers dlpn s) :=
  .ite (.refl s) (.ite (startEviction_sameShaper ..) (relievePressure_sameShaper ..))

theorem hintEvent_sameShaper (r : Req) (s : State) : s.SameShaper (hintEvent r s) :=
  forEach_sameShaper _ _ (fun _ _ => (postDevice_accounts ..).sameShaper) s

theorem storeEntry_sameShaper (r : Req) (s : State) : s.SameShaper (storeEntry r s) := by
  unfold storeEntry
  dsimp only
  split
  · exact .ite (modGather_sameShaper ..) ⟨rfl, rfl, rfl⟩
  · exact ⟨rfl, rfl, rfl⟩

theorem listPoison_sameShaper (dlpn unit place source : Nat) (s : State) : s.SameShaper (listPoison dlpn unit place source s) :=
  .ite (.refl s) (.ite (modInteg_sameShaper ..) ((modInteg_sameShaper ..).trans (condStart_reports 24 _ (by decide)).sameShaper))

theorem recordPoison_reports (dlpn unit place tx : Nat) (s : State) : s.Reports (recordPoison dlpn unit place tx s) :=
  forEach_reports _ _ s fun _ _ => placeRecord_reports ..

/-- The block of a refused write is poisoned and loses its gathered lines, and the refusal is counted (R144). -/
def dropRefused (dlpn b : Nat) (s : State) : State :=
  let s := modDesc dlpn (fun d => { d with bpoison := d.bpoison ||| BitVec.ofNat 4 (2 ^ b) }) (countEvent 63 0x602 none s)
  let gone := s.gather.entries.filter fun x => x.dlpn = dlpn ∧ x.lineNo / 16 = b
  let s := s.modGather fun g => { g with entries := g.entries.filter fun x => x.dlpn != dlpn || x.lineNo / 16 != b }
  let s := s.modPath fun p =>
    { p with freed := gone.foldl (fun t g => Tab.set 0 t (32 + g.source) (Tab.get 0 t (32 + g.source) + 1)) p.freed }
  s.modCap fun c => { c with poolExhausted := true, unstored := satAdd c.unstored 1, unstoredSeen := true }

/-- The Failure records of a refused write. -/
def recordRefused (dlpn b : Nat) (ld : Option (Nat × Nat)) (s : State) : State :=
  match ld with
  | some (i, block) => placeRecord i .failure
      (.generalMedia 1 txHostWrite (BitVec.ofNat 64 (block * 2 ^ 28 + dlpn % 65536 * 4096 + 1024 * b))) s
  | none => recordPoison dlpn 1 b txHostWrite s

theorem refuseWrite_eq (dlpn b : Nat) (ld : Option (Nat × Nat)) (s : State) : refuseWrite dlpn b ld s =
    let t := recordRefused dlpn b ld (listPoison dlpn 1 b 3 (dropRefused dlpn b s))
    fireEvent (if (t.extent (extentOf dlpn)).loaned then 65 else 67) t := by
  cases ld <;> rfl

theorem recordRefused_reports (dlpn b : Nat) (ld : Option (Nat × Nat)) (s : State) : s.Reports (recordRefused dlpn b ld s) := by
  cases ld with
  | some p => exact placeRecord_reports ..
  | none => exact recordPoison_reports ..

theorem dropRefused_sameShaper (dlpn b : Nat) (s : State) : s.SameShaper (dropRefused dlpn b s) := by
  unfold dropRefused
  refine .trans (.trans (.trans ?_ (modGather_sameShaper ..)) (modPath_sameShaper ..)) (modCap_sameShaper ..)
  exact (countEvent_sameShaper ..).trans (setDesc_sameShaper ..)

theorem refuseWrite_sameShaper (dlpn b : Nat) (ld : Option (Nat × Nat)) (s : State) : s.SameShaper (refuseWrite dlpn b ld s) := by
  rw [refuseWrite_eq]
  exact (((dropRefused_sameShaper ..).trans (listPoison_sameShaper ..)).trans (recordRefused_reports ..).sameShaper).trans (fireEvent_sameShaper ..)

theorem serveWrite_done_sameShaper (r : Req) (s : State) : s.SameShaper (serveWrite.done r s) := by
  unfold serveWrite.done
  refine .trans ?_ (respond_sameShaper ..)
  refine .trans ?_ (packedTriggers_sameShaper ..)
  refine .trans ?_ (hintEvent_sameShaper ..)
  refine .trans ?_ (storeEntry_sameShaper ..)
  exact .ite (fireEvent_sameShaper ..) (.refl s)

theorem serveWrite_sameShaper (r : Req) (s : State) : s.SameShaper (serveWrite r s) := by
  unfold serveWrite
  refine .ite (waitAt_sameShaper ..) (.ite (waitAt_sameShaper ..) ?_)
  dsimp only
  split
  · refine .ite ?_ ((refuseWrite_sameShaper ..).trans (respond_sameShaper ..))
    exact ((modGather_sameShaper ..).trans (takeCharge_accounts ..).sameShaper).trans (serveWrite_done_sameShaper ..)
  · exact serveWrite_done_sameShaper ..

/-! #### Lookup, coherence and translation -/

theorem setWay_sameShaper (k w : Nat) (s : State) : s.SameShaper (setWay k w s) := ⟨rfl, rfl, rfl⟩

theorem metaError_sameShaper (c : Nat) (bad : BitVec 2) (s : State) : s.SameShaper (metaError c bad s) :=
  .ite ((modChan_sameShaper ..).trans (fireEvent_sameShaper ..)) (.ite (fireEvent_sameShaper ..) (.refl s))

theorem readMeta_sameShaper (k : Nat) (a b : BitVec 2) (s : State) : s.SameShaper (readMeta k a b s).2 := by
  have hcompared (s : State) (p : Prop) [Decidable p] : s.SameShaper
      (if p then s.modMeta fun m => { m with compared := insertNat k m.compared } else s) := .ite (modMeta_sameShaper ..) (.refl s)
  have hread (c : Nat) (bad : BitVec 2) (p : Prop) [Decidable p] (s : State) : s.SameShaper (if p then metaError c bad s else s) :=
    .ite (metaError_sameShaper ..) (.refl s)
  unfold readMeta
  dsimp only
  split <;> dsimp only
  · refine .trans ?_ (fireEvent_sameShaper ..)
    exact ((hcompared s _).trans (hread ..)).trans (hread ..)
  · refine .trans ?_ (.ite (fireEvent_sameShaper ..) (.refl _))
    exact ((hcompared s _).trans (hread ..)).trans (hread ..)

theorem lookupMeta_sameShaper (dlpn : Nat) (a b : BitVec 2) (s : State) : s.SameShaper (lookupMeta dlpn a b s).2 := by
  unfold lookupMeta
  dsimp only
  split
  · exact setWay_sameShaper ..
  · split
    · exact .refl s
    · have hread (t : State) := (countEvent_sameShaper (59 + chanQuad ((s.extent (dlpn / 4 / 16384)).mirrorA.toNat / 2 ^ 19)) 0x502 none s).trans
        ((takeFree_sameShaper _).trans (readMeta_sameShaper (dlpn / 4) a b _))
      split
      · exact (hread s).trans (setWay_sameShaper ..)
      · exact hread s

theorem countAccess_sameShaper (dlpn : Nat) (s : State) : s.SameShaper (countAccess dlpn s) := by
  have hfix (i : Nat) (s : State) : s.SameShaper (fixParity i s) :=
    .ite ((modSketch_sameShaper ..).trans (fireEvent_sameShaper ..)) (.refl s)
  unfold countAccess
  refine .ite (.refl s) (.ite (modSketch_sameShaper ..) ?_)
  exact ((modSketch_sameShaper ..).trans (forEach_sameShaper _ _ hfix _)).trans
    (forEach_sameShaper _ _ (fun _ _ => modSketch_sameShaper ..) _)

theorem writeHeat_sameShaper (dlpn : Nat) (s : State) : s.SameShaper (writeHeat dlpn s) := by
  unfold writeHeat
  refine .ite (.refl s) (.ite ?_ (modQuad_sameShaper ..))
  exact .ite ((modQuad_sameShaper ..).trans (modQuad_sameShaper ..)) ((modQuad_sameShaper ..).trans (modQuad_sameShaper ..))

theorem unmappedRequest_sameShaper (r : Req) (s : State) : s.SameShaper (unmappedRequest r s) := by
  unfold unmappedRequest
  refine .trans (.ite ?_ ?_) (respond_sameShaper ..)
  · exact (modCap_sameShaper ..).trans (fireEvent_sameShaper ..)
  · exact modCap_sameShaper ..

theorem serve_sameShaper (r : Req) (s : State) : s.SameShaper (serve r s) := .ite (serveWrite_sameShaper ..) (serveRead_sameShaper ..)

theorem lookup_sameShaper (r : Req) (a b : BitVec 2) (s : State) : s.SameShaper (lookup r a b s) := by
  have hmeta := lookupMeta_sameShaper r.dlpn a b s
  unfold lookup
  refine .ite (unmappedRequest_sameShaper ..) ?_
  split
  case h_1 t heq =>
    rw [heq] at hmeta
    exact hmeta.trans (.ite (.refl _) (.ite ((claimEntry_sameShaper ..).trans (waitAt_sameShaper ..)) (waitAt_sameShaper ..)))
  case h_2 t heq =>
    rw [heq] at hmeta
    exact hmeta
  case h_3 found t hwait hlost heq =>
    rw [heq] at hmeta
    refine hmeta.trans (.trans (.ite ?_ ?_) (serve_sameShaper ..))
    · exact .trans (.trans (.ite (freeEntries_sameShaper ..) (.refl t)) ((putReq_sameShaper ..).trans (countAccess_sameShaper ..)))
        (writeHeat_sameShaper ..)
    · exact .trans (.ite (freeEntries_sameShaper ..) (.refl t)) ((putReq_sameShaper ..).trans (countAccess_sameShaper ..))

theorem sendSnoops_sameShaper (l : List Snoop) (s : State) : s.SameShaper (sendSnoops l s) := by
  unfold sendSnoops
  refine .trans ?_ (modPath_sameShaper ..)
  exact (forEach_reports _ _ s fun _ _ => emit_reports ..).sameShaper

theorem setDir_sameShaper (key : Nat) (m : BitVec 16) (s : State) : s.SameShaper (setDir key m s) := ⟨rfl, rfl, rfl⟩

theorem snoopHeads_sameShaper (key : Nat) (m : BitVec 16) (inv : Bool) (s : State) : s.SameShaper (snoopHeads key m inv s) :=
  sendSnoops_sameShaper ..

/-- The directory snoops, waits or lets a request go on; the shapers stand. -/
theorem coherence_sameShaper (r : Req) (s : State) : s.SameShaper (coherence r s).2 := by
  unfold coherence
  dsimp only
  refine .ite_snd (.ite (setDir_sameShaper ..) (.refl s)) (.ite_snd (.refl s) (.ite_snd (.ite_snd (setDir_sameShaper ..) ?_) ?_))
  · exact (putReq_sameShaper ..).trans (snoopHeads_sameShaper ..)
  · refine .ite_snd (.refl s) (.ite_snd (setDir_sameShaper ..) ?_)
    split
    · exact waitAt_sameShaper ..
    · exact ((takeFree_sameShaper s).trans (waitAt_sameShaper ..)).trans (snoopHeads_sameShaper ..)

/-- SNOOPs go out to the devices that map the line (R438). -/
def askPeers (r : Req) (s : State) : State :=
  forEach (s.peersOf r) (fun d s =>
    openTxn d { op := 9, index := r.dlpn, unit := r.lineNo, words := [if r.own || r.write then 1 else 0] } 0 0 r.id r.dlpn [] s) s

theorem askPeers_reports (r : Req) (s : State) : s.Reports (askPeers r s) := forEach_reports _ _ s fun _ _ => openTxn_reports ..

theorem admitLine_eq (r : Req) (a b : BitVec 2) (s : State) : admitLine r a b s =
    if !(s.extent (extentOf r.dlpn)).shared then lookup r a b s
    else
      let q := { r with peersSent := true }
      let t := (coherence q (putReq q (if r.peersSent || r.writeBack then s else askPeers r s))).2
      if !(coherence q (putReq q (if r.peersSent || r.writeBack then s else askPeers r s))).1 then t
      else if t.peersOpen q then waitAt q .peers t else lookup q a b t := rfl

theorem admitLine_sameShaper (r : Req) (a b : BitVec 2) (s : State) : s.SameShaper (admitLine r a b s) := by
  rw [admitLine_eq]
  refine .ite (lookup_sameShaper ..) ?_
  have hask : s.SameShaper (if r.peersSent || r.writeBack then s else askPeers r s) := .ite (.refl s) (askPeers_reports ..).sameShaper
  have hgo := (hask.trans (putReq_sameShaper { r with peersSent := true } _)).trans (coherence_sameShaper { r with peersSent := true } _)
  exact .ite hgo (.ite (hgo.trans (waitAt_sameShaper ..)) (hgo.trans (lookup_sameShaper ..)))

theorem forward_sameShaper (r : Req) (s : State) : s.SameShaper (forward r s) := by
  unfold forward
  refine .ite (waitAt_sameShaper ..) (.ite ?_ ?_)
  · exact ((putReq_sameShaper ..).trans (modConst_sameShaper ..)).trans (sendPkt_reports ..).sameShaper
  · exact (putReq_sameShaper ..).trans (modConst_sameShaper ..)

theorem forwardShared_sameShaper (r : Req) (s : State) : s.SameShaper (forwardShared r s) :=
  (coherence_sameShaper r s).trans (.ite (forward_sameShaper ..) (.refl _))

theorem cacheEntry_sameShaper (h ld block : Nat) (s : State) : s.SameShaper (cacheEntry h ld block s) := ⟨rfl, rfl, rfl⟩

/-- A request after translation: its line at its home (R8, R114). -/
def Req.located (r : Req) (m : DpaEntry) (now : Nat) : Req :=
  { (r.stamp 2 now).stamp 3 now with
    home := m.home.toNat, dlpn := m.extent.toNat * 65536 + r.dpa / 4096 % 65536, lineNo := r.dpa / 64 % 64 }

theorem translate_unmapped (r : Req) (a b : BitVec 2) (s : State) (h : s.dpaFind r.ld (r.dpa / 2 ^ 28) = none) :
    translate r a b s = unmappedRequest (r.stamp 2 s.now) s := by
  simp only [translate, Req.stamp, h]

theorem translate_mapped (r : Req) (a b : BitVec 2) (s : State) (m : DpaEntry) (h : s.dpaFind r.ld (r.dpa / 2 ^ 28) = some m) :
    translate r a b s =
      let q := r.located m s.now
      let t := putReq q (cacheEntry r.source r.ld (r.dpa / 2 ^ 28) s)
      if m.home ≠ t.ident.devId then forwardShared q t
      else if t.pageLive q.dlpn then admitLine q a b t else unmappedRequest q t := by
  simp only [translate, Req.stamp, h]
  rfl

/-- Everything that a released request meets keeps the shapers. -/
theorem translate_sameShaper (r : Req) (a b : BitVec 2) (s : State) : s.SameShaper (translate r a b s) := by
  cases h : s.dpaFind r.ld (r.dpa / 2 ^ 28) with
  | none => rw [translate_unmapped r a b s h]; exact unmappedRequest_sameShaper ..
  | some m =>
    rw [translate_mapped r a b s m h]
    refine ((cacheEntry_sameShaper r.source r.ld (r.dpa / 2 ^ 28) s).trans (putReq_sameShaper (r.located m s.now) _)).trans ?_
    exact .ite (forwardShared_sameShaper ..) (.ite (admitLine_sameShaper ..) (unmappedRequest_sameShaper ..))

/-- A release takes 8000/125 bytes from what the LD had, which lies at or below its burst. -/
theorem credit_spendCredit (ld : Nat) (s : State) : (spendCredit ld s).credit ld = s.credit ld - 8000 := by
  have hle : s.credit ld ≤ 125 * s.param ld 3 := by
    unfold State.credit
    dsimp only
    split <;> omega
  have hparam (i : Nat) : (spendCredit ld s).param ld i = s.param ld i := rfl
  have hset : Tab.get none (spendCredit ld s).qos.credit ld = some (s.credit ld - 8000, s.now / 8) := by
    simp [spendCredit, setCredit, State.modQos]
  have hnow : (spendCredit ld s).now = s.now := rfl
  rw [State.credit, hset]
  simp only [hparam, hnow, Nat.sub_self, Nat.mul_zero]
  omega

end Sys2Proof.Machine
end

section
namespace Sys2Proof.Machine

/-! ### Releases and resumptions (R38, R162, R381) -/

/-- A pool entry that no work is done with is not released. -/
theorem exec_poolEntryRelease_none (pool : Fin 10) (x : Fin 21) (s : State) (h : Tab.get 0 s.path.freed (pool.val * 32 + x.val) = 0) :
    exec (.poolEntryRelease pool x) s = .next s := by
  change Host.Outcome.next _ = Host.Outcome.next s
  simp [h]

/-- With no request in flight no requester waits for a pool. -/
theorem poolWaiter_idle (s : State) (pool x : Nat) (h : s.path.reqs = []) : s.poolWaiter pool x = none := by
  simp [State.poolWaiter, h]

theorem exec_poolEntryRelease_idle (pool : Fin 10) (x : Fin 21) (s : State) (hrun : s.running = true)
    (h : Tab.get 0 s.path.freed (pool.val * 32 + x.val) ≠ 0) (hidle : s.path.reqs = []) :
    exec (.poolEntryRelease pool x) s = .next (releaseEntry pool x s) := by
  have hnone (pool y : Nat) : (releaseEntry pool x s).poolWaiter pool y = none := poolWaiter_idle _ _ _ hidle
  change Host.Outcome.next (if _ then _ else _) = _
  have hsome : ∀ l : List Nat, (l.findSome? fun _ => (none : Option (Nat × Req))) = none := fun l => by simp
  simp [hrun, Nat.pos_of_ne_zero h, hnone, hsome]

theorem exec_shaperRelease_none (ld : Fin 256) (s : State)
    (h : s.credit ld < 0 ∨ (s.path.reqs.find? fun r => decide (r.source < 16 ∧ r.ld = ld.val ∧ r.stage = .shaper)) = none) :
    exec (.shaperRelease ld) s = .next s := by
  change Host.Outcome.next (if _ then _ else _) = _
  rcases h with h | h
  · rw [if_neg (by simp [h])]
  · rw [h]; simp

/-- A request that leaves its shaper goes on to translation. -/
theorem exec_shaperRelease_some (ld : Fin 256) (s : State) (q : Req) (hrun : s.running = true) (hc : 0 ≤ s.credit ld)
    (h : (s.path.reqs.find? fun r => decide (r.source < 16 ∧ r.ld = ld.val ∧ r.stage = .shaper)) = some q) :
    exec (.shaperRelease ld) s = .next (translate q 0 0 (spendCredit ld s)) := by
  change Host.Outcome.next (if _ then _ else _) = _
  rw [h]; simp [hrun, hc]

/-- What the resumption of a waiter does (R162). -/
def resumeWaiter : Option Waiter → State → State
  | none, s => s
  | some (.packed d _), s => if s.pageLive d then evictPacked d 0 s else s
  | some (.first d), s => if s.pageLive d then firstPlain d s else s
  | some (.fill e), s => fillNext e s
  | some (.evac c), s =>
    { s.modChan c fun h => { h with evac := h.evac.map fun v => { v with waiting := false, placed := false } } with
      waiters := s.waiters.filter (· != .evac c) }

theorem exec_allocationResume (n : BitVec 32) (s : State) (hrun : s.running = true) (hmaps : s.start.rebuilding = false) :
    exec (.allocationResume n) s = .next (resumeWaiter s.waiters[n.toNat]? s) := by
  change Host.Outcome.next (if _ then _ else _) = _
  rw [if_pos (by simp [hrun, hmaps])]
  congr 1
  cases s.waiters[n.toNat]? with
  | none => rfl
  | some w => cases w <;> rfl

end Sys2Proof.Machine
end

section
namespace Sys2Proof.Machine

/-! ### Pages and their gathered lines -/

theorem source_eq_desc (s : State) (d : Nat) (h : (s.desc d).state ≠ .moving) :
    s.source d = ((s.desc d).state, (s.desc d).location, (s.desc d).blockLen) := by
  unfold State.source
  rw [if_neg h]

theorem packedNow_iff (s : State) (d : Nat) : s.packedNow d = true ↔ (s.desc d).state = .packed := by simp [State.packedNow]

/-- A page that holds storage takes none for the first time. -/
theorem firstPacked_of_not_bare (s : State) (d : Nat) (h : (s.desc d).state.bare = false) : s.firstPacked d = false := by
  cases hst : (s.desc d).state <;> simp_all [State.firstPacked, PageState.bare]

theorem exec_packedEviction (dlpn : BitVec 34) (ue : BitVec 4) (s : State) (hrun : s.running = true) (hlive : s.pageLive dlpn.toNat = true)
    (hst : (s.desc dlpn.toNat).state = .packed) (he : s.entriesOf dlpn.toNat true ≠ []) :
    exec (.packedEviction dlpn ue) s = .next (evictPacked dlpn.toNat ue s) := by
  have hfirst := firstPacked_of_not_bare s dlpn.toNat (by simp [hst, PageState.bare])
  change Host.Outcome.next (if _ then (if _ then _ else _) else _) = _
  simp [hrun, hlive, (packedNow_iff s dlpn.toNat).mpr hst, hfirst, he]

/-- The commands of an eviction act on a page that is neither PACKED nor to become so. -/
theorem exec_gatherEviction (dlpn : BitVec 34) (flips : List (Nat × List (BitVec 80))) (s : State) (hrun : s.running = true)
    (hlive : s.pageLive dlpn.toNat = true) (hst : (s.desc dlpn.toNat).state ≠ .packed) (hfirst : s.firstPacked dlpn.toNat = false) :
    exec (.gatherEviction dlpn flips) s = .next (evictPage dlpn.toNat flips s) := by
  change Host.Outcome.next (if _ then _ else _) = _
  simp [hrun, hlive, State.packedNow, hst, hfirst]

theorem evictPage_plain (d : Nat) (flips : List (Nat × List (BitVec 80))) (s : State) (hst : (s.desc d).state = .plain) :
    evictPage d flips s = evictPlain d false flips s := by
  simp [evictPage, source_eq_desc s d (by simp [hst]), hst]

/-- A page without storage that takes none as PACKED takes a frame. -/
theorem evictPage_bare (d : Nat) (flips : List (Nat × List (BitVec 80))) (s : State) (hst : (s.desc d).state.bare = true)
    (hfirst : s.firstPacked d = false) : evictPage d flips s = firstPlain d s := by
  cases h : (s.desc d).state <;> simp_all [evictPage, source_eq_desc, PageState.bare]

/-- A waiting allocation does what its own command does (R162). -/
theorem exec_allocationResume_fill (n : BitVec 32) (e : BitVec 18) (s : State) (hrun : s.running = true) (hmaps : s.start.rebuilding = false)
    (hw : s.waiters[n.toNat]? = some (.fill e.toNat)) (hphase : s.start.phase9Done = true) :
    exec (.allocationResume n) s = exec (.fixedExtentFillWrite e) s := by
  rw [exec_allocationResume n s hrun hmaps, hw]
  change Host.Outcome.next (fillNext e.toNat s) = Host.Outcome.next (if _ then _ else _)
  simp [hrun, hphase]

theorem exec_allocationResume_packed (n : BitVec 32) (dlpn : BitVec 34) (k : Nat) (s : State) (hrun : s.running = true)
    (hmaps : s.start.rebuilding = false) (hw : s.waiters[n.toNat]? = some (.packed dlpn.toNat k)) (hlive : s.pageLive dlpn.toNat = true)
    (hst : s.packedNow dlpn.toNat = true) (he : s.entriesOf dlpn.toNat true ≠ []) :
    exec (.allocationResume n) s = exec (.packedEviction dlpn 0) s := by
  rw [exec_allocationResume n s hrun hmaps, hw, exec_packedEviction dlpn 0 s hrun hlive ((packedNow_iff ..).mp hst) he]
  simp [resumeWaiter, hlive]

theorem exec_allocationResume_first (n : BitVec 32) (dlpn : BitVec 34) (s : State) (hrun : s.running = true)
    (hmaps : s.start.rebuilding = false) (hw : s.waiters[n.toNat]? = some (.first dlpn.toNat)) (hlive : s.pageLive dlpn.toNat = true)
    (hfirst : s.firstPacked dlpn.toNat = false) (hst : (s.desc dlpn.toNat).state.bare = true) :
    exec (.allocationResume n) s = exec (.gatherEviction dlpn []) s := by
  have hp : (s.desc dlpn.toNat).state ≠ .packed := by rintro h; simp [h, PageState.bare] at hst
  rw [exec_allocationResume n s hrun hmaps, hw, exec_gatherEviction dlpn [] s hrun hlive hp hfirst, evictPage_bare _ _ _ hst hfirst]
  simp [resumeWaiter, hlive]

/-! ### HOLD (R165) -/

/-- The page has a gathered line that is older than HOLD. -/
def State.overdue (s : State) (d : Nat) : Bool :=
  (s.entriesOf d false).any fun g => decide (g.at_ + (s.quad (s.pageQuad d)).hold.toNat * 250 ≤ s.now)

theorem exec_holdExpiry (dlpn : BitVec 34) (s : State) (hrun : s.running = true) :
    exec (.holdExpiry dlpn) s = .next (if s.packedNow dlpn.toNat && s.overdue dlpn.toNat then startEviction dlpn.toNat s else s) := by
  change Host.Outcome.next (if _ then _ else _) = _
  simp [hrun, State.overdue]

/-- An eviction starts: the page's verified lines are frozen and its LOCK is set (R192). -/
theorem startEviction_freezes (d : Nat) (s : State) (hlock : (s.desc d).lock = false) (he : s.entriesOf d false ≠ []) :
    ((startEviction d s).desc d).lock = true ∧ (startEviction d s).gather.entries =
      s.gather.entries.map fun x => if x.dlpn = d ∧ x.verified = true then { x with frozen := true } else x := by
  unfold startEviction
  rw [if_neg (by simp [hlock, he])]
  exact ⟨by simp [State.desc, State.descReset, State.extent, setLock, State.modMeta, State.modGather], rfl⟩

end Sys2Proof.Machine
end

section
namespace Sys2Proof.Machine

/-! ### Copies of a descriptor line (R195) -/

theorem forEach_cons {α : Type} (a : α) (l : List α) (f : α → State → State) (s : State) : forEach (a :: l) f s = forEach l f (f a s) := rfl

theorem forEach_nil {α : Type} (f : α → State → State) (s : State) : forEach [] f s = s := rfl

/-- With no request in flight nothing resumes. -/
theorem resume_idle (stages : List Stage) (s : State) (h : s.path.reqs = []) : resume stages s = s := by
  simp [resume, h, forEach_nil]

/-- An extent that is not being erased does not end its erasure. -/
theorem finishErase_standing (e : Nat) (s : State) (h : (s.extent e).state ≠ .erasing) : finishErase e s = s := by
  simp [finishErase, h]

/-- The copies of some descriptors are written, each in copy A or in copy B, from values that the copies do not enter. -/
def copyDescs (a : Bool) (v : Nat → Desc) (l : List Nat) (s : State) : State :=
  forEach l (fun d s => s.modMeta fun t =>
    if a then { t with copyA := Tab.set (s.descReset d) t.copyA d (v d) } else { t with copyB := Tab.set (s.descReset d) t.copyB d (v d) }) s

theorem copyDescs_rest (a : Bool) (v : Nat → Desc) (l : List Nat) (s : State) :
    copyDescs a v l s = { s with mdata := { s.mdata with
      copyA := (copyDescs a v l s).mdata.copyA, copyB := (copyDescs a v l s).mdata.copyB } } := by
  unfold copyDescs
  induction l generalizing s with
  | nil => rfl
  | cons d l ih =>
    rw [forEach_cons, ih]
    cases a <;> rfl

theorem descA_copyDescs (a : Bool) (v : Nat → Desc) (l : List Nat) (s : State) (x : Nat) :
    (copyDescs a v l s).descA x = if a = true ∧ x ∈ l then v x else s.descA x := by
  unfold copyDescs
  induction l generalizing s with
  | nil => simp [forEach_nil]
  | cons d l ih =>
    rw [forEach_cons, ih]
    cases a
    · rfl
    · by_cases hx : x = d
      · subst hx; simp [State.descA, State.descReset, State.extent, State.modMeta]
      · simp [State.descA, State.descReset, State.extent, State.modMeta, Tab.get_set_ne _ _ _ _ hx, hx]

theorem descB_copyDescs (a : Bool) (v : Nat → Desc) (l : List Nat) (s : State) (x : Nat) :
    (copyDescs a v l s).descB x = if a = false ∧ x ∈ l then v x else s.descB x := by
  unfold copyDescs
  induction l generalizing s with
  | nil => simp [forEach_nil]
  | cons d l ih =>
    rw [forEach_cons, ih]
    cases a
    · by_cases hx : x = d
      · subst hx; simp [State.descB, State.descReset, State.extent, State.modMeta]
      · simp [State.descB, State.descReset, State.extent, State.modMeta, Tab.get_set_ne _ _ _ _ hx, hx]
    · rfl

/-- What goes into copy A does not depend on the copies. -/
theorem forEach_writeCopyA (v : Nat → Desc) (l : List Nat) (s : State) (hv : s.descWritten = v) :
    forEach l (fun d s => s.modMeta fun t => { t with copyA := Tab.set (s.descReset d) t.copyA d (s.descWritten d) }) s =
      copyDescs true v l s := by
  unfold copyDescs
  induction l generalizing s with
  | nil => rfl
  | cons d l ih =>
    rw [forEach_cons, forEach_cons, hv]
    exact ih _ hv

/-- What goes into copy B is copy A. -/
theorem forEach_writeCopyB (v : Nat → Desc) (l : List Nat) (s : State) (hv : s.descA = v) :
    forEach l (fun d s => s.modMeta fun t => { t with copyB := Tab.set (s.descReset d) t.copyB d (s.descA d) }) s =
      copyDescs false v l s := by
  unfold copyDescs
  induction l generalizing s with
  | nil => rfl
  | cons d l ih =>
    rw [forEach_cons, forEach_cons, hv]
    exact ih _ hv

/-- The dirty mark of a descriptor line is set or taken away. -/
def markDirty (k : Nat) (m : Option MetaDirty) (s : State) : State := s.modMeta fun t => { t with dirty := Tab.set none t.dirty k m }

theorem writeCopyA_eq (k : Nat) (m : MetaDirty) (s : State) : writeCopyA k m s =
    markDirty k (some { m with aOut := true, acks := [], acksB := m.acks, frees := [], freesB := m.frees })
      (copyDescs true s.descWritten (lineDlpns k) s) := by
  unfold writeCopyA
  rw [forEach_writeCopyA s.descWritten _ _ rfl]
  rfl

theorem exec_descriptorCopyWritten (k : BitVec 32) (m : MetaDirty) (s : State) (hrun : s.running = true) (hm : s.dirty k.toNat = some m) :
    exec (.descriptorCopyWritten k) s =
      .next (resume [.metaWay] (finishErase (k.toNat / 16384) (if m.aOut then writeCopyB k.toNat m s else writeCopyA k.toNat m s))) := by
  change Host.Outcome.next (if _ then _ else _) = _
  simp [hrun, stepDescriptor, hm]

/-- Copy A takes the line as it stands, and copy B follows later. -/
theorem descriptorCopyWritten_first (k : BitVec 32) (m : MetaDirty) (s : State) (hrun : s.running = true) (hm : s.dirty k.toNat = some m)
    (hreqs : s.path.reqs = []) (hext : (s.extent (k.toNat / 16384)).state ≠ .erasing) (ha : m.aOut = false) :
    ∃ r, exec (.descriptorCopyWritten k) s = .next r ∧
      (∀ x ∈ lineDlpns k.toNat, r.descA x = s.descWritten x ∧ r.descB x = s.descB x) ∧ (r.dirty k.toNat).map (·.aOut) = some true := by
  have hrest := copyDescs_rest true s.descWritten (lineDlpns k.toNat) s
  refine ⟨_, exec_descriptorCopyWritten k m s hrun hm, ?_⟩
  rw [ha, if_neg Bool.false_ne_true, writeCopyA_eq]
  generalize hcopied : copyDescs true s.descWritten (lineDlpns k.toNat) s = t
  rw [finishErase_standing _ _ (by rw [← hcopied, hrest]; exact hext), resume_idle _ _ (by rw [← hcopied, hrest]; exact hreqs)]
  refine ⟨fun x hx => ?_, by simp [State.dirty, State.modMeta, markDirty]⟩
  change t.descA x = _ ∧ t.descB x = _
  rw [← hcopied, descA_copyDescs, descB_copyDescs]
  simp [hx]

/-- Copy B follows copy A; a line that has not changed since, and for which nothing waits, is clean. -/
theorem descriptorCopyWritten_second (k : BitVec 32) (m : MetaDirty) (s : State) (hrun : s.running = true) (hm : s.dirty k.toNat = some m)
    (hreqs : s.path.reqs = []) (hext : (s.extent (k.toNat / 16384)).state ≠ .erasing) (ha : m.aOut = true)
    (hacks : m.acks = []) (hfrees : m.frees = []) (hacksB : m.acksB = []) (hfreesB : m.freesB = [])
    (hsame : ∀ x ∈ lineDlpns k.toNat, s.descWritten x = s.descA x) :
    ∃ r, exec (.descriptorCopyWritten k) s = .next r ∧ (∀ x ∈ lineDlpns k.toNat, r.descB x = s.descA x ∧ r.descA x = s.descA x) ∧
      r.dirty k.toNat = none := by
  have hrest := copyDescs_rest false s.descA (lineDlpns k.toNat) s
  have hA (x : Nat) : (copyDescs false s.descA (lineDlpns k.toNat) s).descA x = s.descA x := by simp [descA_copyDescs]
  have hB (x : Nat) (hx : x ∈ lineDlpns k.toNat) : (copyDescs false s.descA (lineDlpns k.toNat) s).descB x = s.descA x := by
    simp [descB_copyDescs, hx]
  have hwritten (x : Nat) : (copyDescs false s.descA (lineDlpns k.toNat) s).descWritten x = s.descWritten x := by rw [hrest]; rfl
  have hstands : (copyDescs false s.descA (lineDlpns k.toNat) s).lineChanged k.toNat = false := by
    simp only [State.lineChanged, List.any_eq_false, decide_eq_true_eq, hwritten, hA]
    exact fun x hx h => h (hsame x hx)
  have hwrite : writeCopyB k.toNat m s = markDirty k.toNat none (copyDescs false s.descA (lineDlpns k.toNat) s) := by
    unfold writeCopyB
    rw [forEach_writeCopyB s.descA _ _ rfl]
    dsimp only
    rw [hstands, hacks, hfrees, hacksB, hfreesB]
    rfl
  refine ⟨_, exec_descriptorCopyWritten k m s hrun hm, ?_⟩
  rw [ha, if_pos rfl, hwrite, finishErase_standing _ _ (by rw [hrest]; exact hext), resume_idle _ _ (by rw [hrest]; exact hreqs)]
  exact ⟨fun x hx => ⟨hB x hx, hA x⟩, by simp [State.dirty, State.modMeta, markDirty]⟩

end Sys2Proof.Machine
end

section
namespace Sys2Proof.Machine

/-! ### Bytes of a line under a mask (R31) -/

theorem leValue_testBit (l : List Byte) (k : Nat) : (leValue l).testBit k = (l.getD (k / 8) 0).getLsbD (k % 8) := by
  induction l generalizing k with
  | nil => simp [leValue]
  | cons b t ih =>
    rw [leValue, Nat.add_comm, show 256 = 2 ^ 8 by rfl, Nat.testBit_two_pow_mul_add _ b.isLt]
    split
    · rename_i h
      simp [Nat.div_eq_of_lt h, Nat.mod_eq_of_lt h, BitVec.getLsbD]
    · rename_i h
      have hk : k / 8 = (k - 8) / 8 + 1 := by omega
      have hm : (k - 8) % 8 = k % 8 := by omega
      rw [ih, hk, hm, List.getD_cons_succ]

/-- A merged line takes each byte from the new line where its mask bit is set, and from the old one elsewhere. -/
theorem getLsbD_mergeLine (old new : Line) (mask : BitVec 64) (k : Nat) :
    (mergeLine old new mask).getLsbD k = if mask.getLsbD (k / 8) then new.getLsbD k else old.getLsbD k := by
  by_cases hk : k < 512
  · have hget : ((List.range 64).map fun i => if mask.getLsbD i then 0xFF#8 else 0#8).getD (k / 8) 0 =
        if mask.getLsbD (k / 8) then 0xFF#8 else 0#8 := by
      have : k / 8 < 64 := by omega
      simp [List.getD, this]
    have hff : (0xFF#8).getLsbD (k % 8) = true := by
      have : k % 8 < 8 := Nat.mod_lt _ (by decide)
      interval_cases k % 8 <;> rfl
    simp only [mergeLine, BitVec.getLsbD_or, BitVec.getLsbD_and, BitVec.getLsbD_not, BitVec.getLsbD_ofNat, leValue_testBit, hget, hk]
    by_cases hm : mask.getLsbD (k / 8)
    · simp [hm, hff]
    · simp [hm]
  · have h512 : 512 ≤ k := by omega
    simp [BitVec.getLsbD_of_ge _ _ h512]

theorem mergeLine_full (old new : Line) : mergeLine old new (BitVec.allOnes 64) = new := by
  refine BitVec.eq_of_getLsbD_eq fun k hk => ?_
  have hbyte : (BitVec.allOnes 64).getLsbD (k / 8) = true := by
    rw [BitVec.getLsbD_allOnes, decide_eq_true_eq]; omega
  rw [getLsbD_mergeLine, if_pos hbyte]

/-- What one entry holds of its own line, and of another. -/
theorem lineOf_single (g : GEntry) : lineOf [g] g.lineNo = (mergeLine 0 g.data g.mask, g.mask, g.poisoned) := by
  simp [lineOf]

/-! ### Evictions of PLAIN lines (R32, R126) -/

/-- What an eviction leaves of write gather, the channels and the poison list once its lines are sent: nothing is added there. -/
structure State.Tidies (s r : State) : Prop where
  gather : r.gather = s.gather
  chans : r.chans = s.chans
  poison : ∀ p ∈ r.integ.poison, p ∈ s.integ.poison

theorem State.Tidies.refl (s : State) : s.Tidies s := ⟨rfl, rfl, fun _ h => h⟩

theorem State.Tidies.trans {s r q : State} (h : s.Tidies r) (k : r.Tidies q) : s.Tidies q :=
  ⟨k.gather.trans h.gather, k.chans.trans h.chans, fun p hp => h.poison p (k.poison p hp)⟩

theorem State.Accounts.tidies {s r : State} (h : s.Accounts r) : s.Tidies r := by
  constructor <;> rw [h.rest]
  exact fun _ h => h

theorem unlistPoison_tidies (d unit place : Nat) (s : State) : s.Tidies (unlistPoison d unit place s) :=
  ⟨rfl, rfl, fun _ h => List.mem_of_mem_filter h⟩

theorem modDesc_tidies (d : Nat) (f : Desc → Desc) (s : State) : s.Tidies (modDesc d f s) := ⟨rfl, rfl, fun _ h => h⟩

theorem clearWhole_tidies (d : Nat) (e : List GEntry) (s : State) : s.Tidies (clearWhole d e s) :=
  forEach_keeps .refl .trans _ _ (fun _ _ => (modDesc_tidies ..).trans (unlistPoison_tidies ..)) s

theorem raceBlocks_tidies (d : Nat) (e : List GEntry) (s : State) : s.Tidies (raceBlocks d e s) := by
  unfold raceBlocks
  split
  · exact .refl s
  · exact ⟨rfl, rfl, fun _ h => h⟩

theorem countEviction_accounts (d l h : Nat) (s : State) : s.Accounts (countEviction d l h s) := by
  unfold countEviction
  refine .trans ?_ (forEach_reports _ _ _ fun _ _ => sampleTally_reports ..).accounts
  exact countEvent_accounts ..

/-- A unit that no entry of the poison list names stays unlisted while the list only shrinks. -/
theorem State.Tidies.unlisted {s r : State} (h : s.Tidies r) (d unit place : Nat) (hs : s.poisonListed d unit place = false) :
    r.poisonListed d unit place = false := by
  simp only [State.poisonListed, List.any_eq_false] at hs ⊢
  exact fun p hp => hs p (h.poison p hp)

theorem poisonListed_unlistPoison (d unit place : Nat) (s : State) : (unlistPoison d unit place s).poisonListed d unit place = false := by
  simp [State.poisonListed, unlistPoison, State.modInteg]
  intros
  simp_all

/-- A command arrives behind those at the gate of its channel. -/
theorem gate_enqueueGate (x : LineCmd) (s : State) :
    ((enqueueGate x s).chan (lineChan x.line)).gate.cmds = (s.chan (lineChan x.line)).gate.cmds ++ [x] := by
  unfold enqueueGate
  dsimp only
  rw [State.modChan_self]
  split <;> rfl

/-- Entries that leave write gather change nothing but write gather and what is freed of its pool. -/
theorem dropEntries_rest (p : GEntry → Bool) (s : State) : dropEntries p s =
    { s with gather := { s.gather with entries := s.gather.entries.filter fun g => !p g }, path := (dropEntries p s).path } := by
  have hfree (l : List GEntry) (s : State) : forEach l (fun g s => freeEntries 1 g.source 1 s) s =
      { s with path := (forEach l (fun g s => freeEntries 1 g.source 1 s) s).path } := by
    induction l generalizing s with
    | nil => rfl
    | cons g l ih => rw [forEach_cons, ih]; rfl
  unfold dropEntries
  dsimp only
  rw [hfree]
  rfl

/-- A line gathered whole is sent as it was written. -/
theorem plainLine_whole (d l : Nat) (g : GEntry) (flips : List (BitVec 80)) (s : State) (hmask : g.mask = BitVec.allOnes 64)
    (hp : g.poisoned = false) :
    plainLine d g.lineNo l [g] flips s = ({ data := g.data, cipher := s.cipherOf d 0 g.lineNo 0 }, 0, s) := by
  simp only [plainLine, lineOf_single, hmask, hp, mergeLine_full, if_true]

theorem range_filter_eq (n m : Nat) (h : n < m) : ((List.range m).filter fun i => decide (n = i)) = [n] := by
  have hcount : List.count n (List.range m) = 1 := List.count_eq_one_of_mem List.nodup_range (List.mem_range.mpr h)
  have heq : (fun i => decide (n = i)) = fun i => i == n := funext fun i => Bool.eq_iff_iff.mpr (by rw [beq_iff_eq, decide_eq_true_iff, eq_comm])
  rw [heq, List.filter_beq, hcount]
  rfl

/-- The only gathered line of a page leaves for DRAM. -/
theorem evictPlain_single (d : Nat) (flips : List (Nat × List (BitVec 80))) (s : State) (g : GEntry)
    (he : s.entriesOf d false = [g]) (hn : g.lineNo < 64) (hmask : g.mask = BitVec.allOnes 64) (hp : g.poisoned = false) :
    evictPlain d false flips s = dropEntries (fun g => decide (g.dlpn = d) && decide (g.frozen = false) && g.verified)
      (raceBlocks d [g] (clearWhole d [g] (countEviction d 1 1
        (writePlain d g.lineNo (locLine (s.source d).2.1 + g.lineNo) { data := g.data, cipher := s.cipherOf d 0 g.lineNo 0 } 0 g s)))) := by
  have hlines : ((List.range 64).filter fun n => [g].any fun g => decide (g.lineNo = n)) = [g.lineNo] := by
    simpa using range_filter_eq g.lineNo 64 hn
  simp only [evictPlain, he, hlines, List.foldl_cons, List.foldl_nil, plainLine_whole d _ g _ s hmask hp]
  simp [lineOf_single, hp]

/-- The command that takes a gathered line to its channel. -/
def sealedWrite (d l : Nat) (g : GEntry) (s : State) : LineCmd :=
  { line := l, write := some { data := g.data, cipher := s.cipherOf d 0 g.lineNo 0 }, group := if g.cls = 7 then 2 else 1
    source := g.source, flow := g.flow, cls := g.cls, at_ := s.now }

theorem gatherEviction_plain (dlpn : BitVec 34) (s : State) (hrun : s.running = true) (g : GEntry) (flips : List (Nat × List (BitVec 80)))
    (hlive : s.pageLive dlpn.toNat = true) (hst : (s.desc dlpn.toNat).state = .plain) (he : s.gather.entries = [g])
    (hd : g.dlpn = dlpn.toNat) (hn : g.lineNo < 64) (hmask : g.mask = BitVec.allOnes 64) (hv : g.verified = true)
    (hf : g.frozen = false) (hp : g.poisoned = false) :
    ∃ r x, exec (.gatherEviction dlpn flips) s = .next r ∧ r.gather.entries = [] ∧
      (r.chan (lineChan (locLine (s.source dlpn.toNat).2.1 + g.lineNo))).gate.cmds =
        (s.chan (lineChan (locLine (s.source dlpn.toNat).2.1 + g.lineNo))).gate.cmds ++ [x] ∧
      x.line = locLine (s.source dlpn.toNat).2.1 + g.lineNo ∧
      x.write = some { data := g.data, cipher := s.cipherOf dlpn.toNat 0 g.lineNo 0 } ∧
      r.poisonListed dlpn.toNat 0 g.lineNo = false := by
  have hmine : s.entriesOf dlpn.toNat false = [g] := by simp [State.entriesOf, he, hd, hv, hf]
  let x := sealedWrite dlpn.toNat (locLine (s.source dlpn.toNat).2.1 + g.lineNo) g s
  let w := unlistPoison dlpn.toNat 0 g.lineNo (enqueueGate x s)
  let t := raceBlocks dlpn.toNat [g] (clearWhole dlpn.toNat [g] (countEviction dlpn.toNat 1 1 w))
  have htidy : w.Tidies t := ((countEviction_accounts ..).tidies.trans (clearWhole_tidies ..)).trans (raceBlocks_tidies ..)
  have hexec : exec (.gatherEviction dlpn flips) s =
      .next (dropEntries (fun g => decide (g.dlpn = dlpn.toNat) && decide (g.frozen = false) && g.verified) t) := by
    rw [exec_gatherEviction dlpn flips s hrun hlive (by simp [hst]) (firstPacked_of_not_bare _ _ (by simp [hst, PageState.bare])),
      evictPage_plain _ _ _ hst, evictPlain_single _ _ _ g hmine hn hmask hp]
    rfl
  refine ⟨_, x, hexec, ?_, ?_, rfl, rfl, ?_⟩
  · have hentries : t.gather.entries = [g] := by rw [htidy.gather]; exact he
    rw [dropEntries_rest]
    simp [hentries, hd, hf, hv]
  · have hchan (c : Nat) : (dropEntries (fun g => decide (g.dlpn = dlpn.toNat) && decide (g.frozen = false) && g.verified) t).chan c =
        (enqueueGate x s).chan c := by
      rw [dropEntries_rest]
      change Tab.get _ t.chans c = _
      rw [htidy.chans]
      rfl
    rw [hchan]
    exact gate_enqueueGate x s
  · rw [dropEntries_rest]
    exact htidy.unlisted _ _ _ (poisonListed_unlistPoison ..)

end Sys2Proof.Machine
end

section
namespace Sys2Proof.Machine

/-! ### Lines written at once (R239) -/

theorem chans_storeLine (l : Nat) (d : DLine) (s : State) (c : Nat) : ((storeLine l d s).chan c).queue = (s.chan c).queue ∧
    ((storeLine l d s).chan c).gate = (s.chan c).gate := by
  simp only [storeLine, State.modChan_at]
  split
  · rename_i h; rw [h]; exact ⟨rfl, rfl⟩
  · exact ⟨rfl, rfl⟩

/-- The queued writes of a line's channel, in the order they were sent. -/
def State.sent (s : State) (l : Nat) : List LineCmd := (s.chan (lineChan l)).queue ++ (s.chan (lineChan l)).gate.cmds

/-- What a line holds when commands follow on it. -/
def overwritten (l : Nat) (cmds : List LineCmd) (d : DLine) : DLine :=
  cmds.foldl (fun d x => if x.line = l then (match x.write with | some w => w | none => d) else d) d

theorem lineNow_eq (s : State) (l : Nat) : s.lineNow l = overwritten l (s.sent l) (Tab.get {} s.dram l) := rfl

/-- Writes to other lines do not matter to a line. -/
theorem overwritten_filter_other (l a : Nat) (h : a ≠ l) (cmds : List LineCmd) (d : DLine) :
    overwritten a (cmds.filter fun x => x.line != l || x.write.isNone) d = overwritten a cmds d := by
  unfold overwritten
  induction cmds generalizing d with
  | nil => rfl
  | cons x t ih =>
    rw [List.filter_cons]
    split
    · exact ih _
    · rename_i hx
      have hline : x.line = l := by simp_all
      rw [List.foldl_cons, if_neg (by omega)]
      exact ih d

/-- With its writes taken away, a line holds what the DIMM holds. -/
theorem overwritten_filter_self (l : Nat) (cmds : List LineCmd) (d : DLine) :
    overwritten l (cmds.filter fun x => x.line != l || x.write.isNone) d = d := by
  unfold overwritten
  induction cmds generalizing d with
  | nil => rfl
  | cons x t ih =>
    rw [List.filter_cons]
    split
    · rename_i hx
      rw [List.foldl_cons]
      have : (if x.line = l then (match x.write with | some w => w | none => d) else d) = d := by
        cases hw : x.write <;> simp_all
      rw [this]
      exact ih d
    · exact ih d

/-- A line reads as it was last put; the other lines stand. -/
theorem lineNow_putLine (l : Nat) (d : DLine) (s : State) (a : Nat) : (putLine l d s).lineNow a = if a = l then d else s.lineNow a := by
  have hdram : Tab.get {} (putLine l d s).dram a = if a = l then d else Tab.get {} s.dram a := by
    change Tab.get {} (Tab.set {} s.dram l d) a = _
    rw [Tab.get_set]
  have hsent : (putLine l d s).sent a =
      if lineChan a = lineChan l then (s.sent a).filter fun x => x.line != l || x.write.isNone else s.sent a := by
    unfold State.sent putLine
    rw [(chans_storeLine ..).1, (chans_storeLine ..).2, State.modChan_at]
    split
    · rename_i h; rw [h, List.filter_append]
    · rfl
  rw [lineNow_eq, hdram, hsent]
  by_cases h : a = l
  · subst h
    rw [if_pos rfl, if_pos rfl, if_pos rfl, overwritten_filter_self]
  · rw [if_neg h, if_neg h, lineNow_eq]
    split
    · exact overwritten_filter_other l a h _ _
    · rfl

theorem lineNow_putLines_below (l : Nat) (ds : List DLine) (s : State) (a : Nat) (h : a < l) : (putLines l ds s).lineNow a = s.lineNow a := by
  induction ds generalizing l s with
  | nil => rfl
  | cons d t ih => rw [putLines, ih _ _ (by omega), lineNow_putLine, if_neg (by omega)]

/-- Lines put from an address on read as the list gives them. -/
theorem lineNow_putLines (l : Nat) (ds : List DLine) (s : State) (i : Nat) (d : DLine) (h : ds[i]? = some d) :
    (putLines l ds s).lineNow (l + i) = d := by
  induction ds generalizing l s i with
  | nil => simp at h
  | cons x t ih =>
    rw [putLines]
    cases i with
    | zero => rw [lineNow_putLines_below _ _ _ _ (by omega), lineNow_putLine]; simp_all
    | succ i => rw [show l + (i + 1) = l + 1 + i by omega]; exact ih _ _ _ (by simpa using h)

/-- Putting lines changes DRAM and its channels alone. -/
theorem putLines_rest (l : Nat) (ds : List DLine) (s : State) : ∃ m c, putLines l ds s = { s with dram := m, chans := c } := by
  induction ds generalizing l s with
  | nil => exact ⟨s.dram, s.chans, rfl⟩
  | cons d t ih =>
    obtain ⟨m, c, h⟩ := ih (l + 1) (putLine l d s)
    exact ⟨m, c, by rw [putLines, h]; simp only [putLine, storeLine, State.modChan]⟩

/-! ### Runs (R162) -/

/-- The state under other counters and clusters, which compression counts in (R173). -/
def State.withCounts (s : State) (c : Tab CtrBlock) (k : Tab Cluster) : State := { s with ctrs := c, clusters := k }

/-- Counters and clusters do not enter the choice of a run. -/
theorem takeRunOn_withCounts (n : Nat) (o : Owner) (s : State) (c : Tab CtrBlock) (k : Tab Cluster) (l : List Nat) :
    takeRunOn n o (s.withCounts c k) l = (takeRunOn n o s l).map fun p => (p.1, p.2.withCounts c k) := by
  induction l with
  | nil => rfl
  | cons x t ih =>
    rw [takeRunOn, takeRunOn, ih]
    have hrun : (if (s.withCounts c k).start.rebuilding then none else ((s.withCounts c k).alloc x).freeRun n) =
        if s.start.rebuilding then none else (s.alloc x).freeRun n := rfl
    have hlow : (s.withCounts c k).lowestRun x n 1 64 = s.lowestRun x n 1 64 := rfl
    rw [hrun, hlow]
    cases (if s.start.rebuilding then none else (s.alloc x).freeRun n) with
    | some p => rfl
    | none => cases s.lowestRun x n 1 64 <;> rfl

/-- A run is taken in the allocation tables alone. -/
theorem takeRunOn_rest (n : Nat) (o : Owner) (s : State) (l : List Nat) (a : Nat) (t : State) (h : takeRunOn n o s l = some (a, t)) :
    ∃ x, t = { s with allocs := x } := by
  induction l with
  | nil => simp [takeRunOn] at h
  | cons x l ih =>
    rw [takeRunOn] at h
    split at h
    · cases h; exact ⟨_, rfl⟩
    · split at h
      · cases h; exact ⟨_, rfl⟩
      · exact ih h

end Sys2Proof.Machine
end

section
namespace Sys2Proof.Machine

/-! ### The blocks of a PACKED eviction (R166) -/

/-- A block without gathered lines stays as it is stored. -/
def keptBlock (s : State) (d j : Nat) : BlockOut :=
  { len := blockLen (s.source d).2.2 j, reads := blockLen (s.source d).2.2 j
    lines := (List.range (blockLen (s.source d).2.2 j)).map fun i => s.lineNow (locLine (s.source d).2.1 + lenSum (s.source d).2.2 j + i) }

/-- The encoding of a block that is gathered whole, under PACK_CTL of the page's quadrant (R158). -/
def State.encoded (s : State) (d b : Nat) (l : List GEntry) : Nat × List Byte :=
  let k := s.quad (s.pageQuad d)
  encodeBlock k.m0 k.m1 k.m2 (mergeBlock l b [])

/-- A block that is gathered whole is encoded and sealed anew. -/
def codedBlock (s : State) (d b : Nat) (l : List GEntry) : BlockOut :=
  { len := (s.encoded d b l).1, lines := s.seal d b (s.encoded d b l).2 (s.encoded d b l).1, wrote := true
    stored := (l.filter fun g => g.lineNo / 16 = b).length }

/-- What the eviction of a page with one block gathered whole makes of its blocks. -/
def packedOuts (s : State) (d b : Nat) (l : List GEntry) : List BlockOut :=
  (List.range 4).map fun j => if j = b then codedBlock s d b l else keptBlock s d j

theorem evictBlock_kept (s : State) (c : Tab CtrBlock) (k : Tab Cluster) (d j : Nat) (l : List GEntry) (ue : Bool)
    (hst : (s.desc d).state = .packed) (hbp : (s.desc d).bpoison = 0) (hl : touches l j = false) :
    evictBlock d j l ue (s.withCounts c k) = (keptBlock s d j, s.withCounts c k) := by
  have hsrc : (s.withCounts c k).source d = (.packed, (s.source d).2.1, (s.source d).2.2) := by
    change s.source d = _
    rw [source_eq_desc s d (by simp [hst]), hst]
  have hdesc : (s.withCounts c k).desc d = s.desc d := rfl
  have hnow (a : Nat) : (s.withCounts c k).lineNow a = s.lineNow a := rfl
  unfold evictBlock
  rw [hsrc, hdesc]
  simp [hl, hbp, keptBlock, hnow]

/-- An entry that is gathered unpoisoned leaves its line unpoisoned. -/
theorem lineOf_unpoisoned (l : List GEntry) (n : Nat) (h : ∀ g ∈ l, g.poisoned = false) : (lineOf l n).2.2 = false := by
  have hfold (l : List GEntry) (t : Line × BitVec 64 × Bool) (h : ∀ g ∈ l, g.poisoned = false) (ht : t.2.2 = false) :
      (l.foldl (fun (t : Line × BitVec 64 × Bool) g =>
        (mergeLine t.1 g.data g.mask, t.2.1 ||| g.mask, g.poisoned || (t.2.2 && g.mask != BitVec.allOnes 64))) t).2.2 = false := by
    induction l generalizing t with
    | nil => exact ht
    | cons g l ih => exact ih _ (fun x hx => h x (List.mem_cons_of_mem _ hx)) (by simp [h g List.mem_cons_self, ht])
  exact hfold _ _ (fun g hg => h g (List.mem_of_mem_filter hg)) rfl

/-- A block that is gathered whole is touched. -/
theorem touches_of_fullBlock (l : List GEntry) (b : Nat) (h : fullBlock l b = true) : touches l b = true := by
  have hline : fullLine l (16 * b + 0) = true := List.all_eq_true.mp h 0 (by simp)
  simp only [touches, List.any_eq_true]
  by_contra hno
  have hnone : (l.filter fun g => decide (g.lineNo = 16 * b + 0)) = [] := by
    rw [List.filter_eq_nil_iff]
    intro g hg hn
    refine hno ⟨g, hg, ?_⟩
    have : g.lineNo = 16 * b + 0 := of_decide_eq_true hn
    rw [decide_eq_true_eq]
    omega
  rw [fullLine, lineOf, hnone] at hline
  exact absurd hline (by decide)

theorem compressBlock_withCounts (q : Nat) (bytes : List Byte) (s : State) (c : Tab CtrBlock) (k : Tab Cluster) : ∃ c' k',
    compressBlock q bytes (s.withCounts c k) = (encodeBlock (s.quad q).m0 (s.quad q).m1 (s.quad q).m2 bytes, s.withCounts c' k') :=
  ⟨_, _, rfl⟩

theorem evictBlock_coded (s : State) (c : Tab CtrBlock) (k : Tab Cluster) (d b : Nat) (l : List GEntry) (ue : Bool)
    (hst : (s.desc d).state = .packed) (hl : ∀ g ∈ l, g.poisoned = false) (hfull : fullBlock l b = true) :
    ∃ c' k', evictBlock d b l ue (s.withCounts c k) = (codedBlock s d b l, s.withCounts c' k') := by
  have hsrc : (s.withCounts c k).source d = (.packed, (s.source d).2.1, (s.source d).2.2) := by
    change s.source d = _
    rw [source_eq_desc s d (by simp [hst]), hst]
  obtain ⟨c', k', henc⟩ := compressBlock_withCounts (s.pageQuad d) (mergeBlock l b []) s c k
  have hquad : (s.withCounts c k).pageQuad d = s.pageQuad d := rfl
  have hseal (out : List Byte) (n : Nat) : (s.withCounts c' k').seal d b out n = s.seal d b out n := rfl
  refine ⟨c', k', ?_⟩
  unfold evictBlock
  rw [hsrc]
  simp [touches_of_fullBlock l b hfull, lineOf_unpoisoned l _ hl, hfull, hquad, henc, hseal, codedBlock, State.encoded]

/-- Blocks evicted in turn, when each comes out the same whatever the counters say. -/
theorem foldl_blocks (s : State) (f : Nat → State → BlockOut × State) (g : Nat → BlockOut)
    (h : ∀ j c k, ∃ c' k', f j (s.withCounts c k) = (g j, s.withCounts c' k')) (l : List Nat) (acc : List BlockOut)
    (c : Tab CtrBlock) (k : Tab Cluster) : ∃ c' k',
      l.foldl (fun (x : List BlockOut × State) j => let r := f j x.2; (x.1 ++ [r.1], r.2)) (acc, s.withCounts c k) =
        (acc ++ l.map g, s.withCounts c' k') := by
  induction l generalizing acc c k with
  | nil => exact ⟨c, k, by simp⟩
  | cons j l ih =>
    obtain ⟨c₁, k₁, hj⟩ := h j c k
    obtain ⟨c₂, k₂, hl⟩ := ih (acc ++ [g j]) c₁ k₁
    refine ⟨c₂, k₂, ?_⟩
    rw [List.foldl_cons]
    dsimp only
    rw [hj, hl]
    simp

section
variable (s : State) (d b : Nat) (hst : (s.desc d).state = .packed) (hbp : (s.desc d).bpoison = 0)
  (hmine : ∀ g ∈ s.entriesOf d true, g.lineNo / 16 = b ∧ g.poisoned = false) (hfull : fullBlock (s.entriesOf d true) b = true)
include hst hbp hmine hfull

theorem blocks_of_packed_eviction : ∃ c k, (List.range 4).foldl (fun (x : List BlockOut × State) j =>
    let r := evictBlock d j (s.entriesOf d true) ((0 : BitVec 4).getLsbD j) x.2
    (x.1 ++ [r.1], r.2)) ([], s) = (packedOuts s d b (s.entriesOf d true), s.withCounts c k) := by
  refine foldl_blocks s (fun j x => evictBlock d j (s.entriesOf d true) ((0 : BitVec 4).getLsbD j) x)
    (fun j => if j = b then codedBlock s d b (s.entriesOf d true) else keptBlock s d j) ?_ (List.range 4) [] s.ctrs s.clusters
  intro j c k
  by_cases hj : j = b
  · subst hj
    obtain ⟨c', k', h⟩ := evictBlock_coded s c k d j _ ((0 : BitVec 4).getLsbD j) hst (fun g hg => (hmine g hg).2) hfull
    exact ⟨c', k', by rw [if_pos rfl, h]⟩
  · have huntouched : touches (s.entriesOf d true) j = false := by
      simp only [touches, List.any_eq_false, decide_eq_true_eq]
      intro g hg h
      exact hj (h.symm.trans (hmine g hg).1)
    exact ⟨c, k, by rw [if_neg hj, evictBlock_kept s c k d j _ _ hst hbp huntouched]⟩

end

/-- The lengths of the blocks that the eviction makes. -/
theorem packedOuts_lens (s : State) (d b : Nat) (l : List GEntry) : (packedOuts s d b l).map (·.len) =
    (List.range 4).map fun j => if j = b then (s.encoded d b l).1 else blockLen (s.source d).2.2 j := by
  simp only [packedOuts, List.map_map]
  refine List.map_congr_left fun j _ => ?_
  simp only [Function.comp]
  split
  · simp only [codedBlock]
  · simp only [keptBlock]

theorem packedOuts_unpoisoned (s : State) (d b : Nat) (l : List GEntry) : ∀ o ∈ packedOuts s d b l, o.poison = false := by
  simp only [packedOuts, List.mem_map, forall_exists_index, and_imp, forall_apply_eq_imp_iff₂]
  intro j _
  split
  · simp only [codedBlock]
  · simp only [keptBlock]

/-- One block is written anew. -/
theorem packedOuts_written (s : State) (d b : Nat) (l : List GEntry) (hb : b < 4) :
    ((packedOuts s d b l).filter (·.wrote)).length = 1 := by
  have hw (j : Nat) : (if j = b then codedBlock s d b l else keptBlock s d j).wrote = decide (b = j) := by
    by_cases h : j = b
    · simp [h, codedBlock]
    · simp [h, Ne.symm h, keptBlock]
  rw [packedOuts, List.filter_map, List.length_map]
  simp only [Function.comp_def, hw]
  rw [range_filter_eq b 4 hb]
  rfl

/-- Each block has as many lines as its length says. -/
theorem packedOuts_lines (s : State) (d b : Nat) (l : List GEntry) : ∀ o ∈ packedOuts s d b l, o.lines.length = o.len := by
  simp only [packedOuts, List.mem_map, forall_exists_index, and_imp, forall_apply_eq_imp_iff₂]
  intro j _
  split
  · simp [codedBlock, State.seal]
  · simp [keptBlock]

/-- Line i of block j lies behind the lines of the blocks before it. -/
theorem flatMap_lines_getElem (outs : List BlockOut) (h : ∀ o ∈ outs, o.lines.length = o.len) (j i : Nat) (o : BlockOut) (x : DLine)
    (hj : outs[j]? = some o) (hi : o.lines[i]? = some x) :
    (outs.flatMap (·.lines))[((outs.map (·.len)).take j).sum + i]? = some x := by
  have hlens : outs.map (·.len) = (outs.map (·.lines)).map List.length := by
    rw [List.map_map]
    exact List.map_congr_left fun o ho => (h o ho).symm
  rw [List.flatMap_def, hlens, ← List.getElem?_drop, List.drop_sum_flatten, ← List.map_drop]
  obtain ⟨hlt, rfl⟩ := List.getElem?_eq_some_iff.mp hj
  rw [List.drop_eq_getElem_cons hlt, List.map_cons, List.flatten_cons, List.getElem?_append_left]
  · exact hi
  · exact (List.getElem?_eq_some_iff.mp hi).1

end Sys2Proof.Machine
end

section
namespace Sys2Proof.Machine

/-! ### The swap of a PACKED eviction (R166, R167) -/

/-- Descriptors, stored lines and gathered lines stand. -/
structure State.KeepsPages (s r : State) : Prop where
  desc : ∀ d, r.desc d = s.desc d
  chans : r.chans = s.chans
  dram : r.dram = s.dram
  entries : r.gather.entries = s.gather.entries

theorem State.KeepsPages.refl (s : State) : s.KeepsPages s := ⟨fun _ => rfl, rfl, rfl, rfl⟩

theorem State.KeepsPages.trans {s r q : State} (h : s.KeepsPages r) (k : r.KeepsPages q) : s.KeepsPages q :=
  ⟨fun d => (k.desc d).trans (h.desc d), k.chans.trans h.chans, k.dram.trans h.dram, k.entries.trans h.entries⟩

theorem State.KeepsPages.ite {p : Prop} [Decidable p] {s r q : State} (h : s.KeepsPages r) (k : s.KeepsPages q) :
    s.KeepsPages (if p then r else q) := by
  split
  · exact h
  · exact k

/-- An extent that is asked back keeps what its descriptors' reset value holds. -/
theorem State.Accounts.desc {s r : State} (h : s.Accounts r) (d : Nat) : r.desc d = s.desc d := by
  have hm : r.mdata = s.mdata := by rw [h.rest]
  have hfixed : (r.extent (extentOf d)).fixed = (s.extent (extentOf d)).fixed := by rw [h.extents]
  have hkey : (r.extent (extentOf d)).keySlot = (s.extent (extentOf d)).keySlot := by rw [h.extents]
  simp only [State.desc, State.descReset, hm, hfixed, hkey]

theorem State.Accounts.keepsPages {s r : State} (h : s.Accounts r) : s.KeepsPages r := by
  refine ⟨h.desc, ?_, ?_, ?_⟩ <;> rw [h.rest]

theorem freeAfter_keepsPages (d l n : Nat) (s : State) : s.KeepsPages (freeAfter d l n s) := ⟨fun _ => rfl, rfl, rfl, rfl⟩

theorem settlePage_keepsPages (d old new : Nat) (s : State) : s.KeepsPages (settlePage d old new s) := by
  unfold settlePage
  refine .trans ?_ ((addFootprint_accounts ..).trans (updateCapacity_accounts _)).keepsPages
  exact ⟨fun _ => rfl, rfl, rfl, rfl⟩

/-- The poison list and the contexts follow the blocks of an eviction. -/
def relistBlocks (d : Nat) (outs : List BlockOut) (s : State) : State :=
  forEach (List.range 4) (fun b s =>
    let o := outs.getD b {}
    let s := if o.wrote then dropContext d b s else s
    if !o.poison then unlistPoison d 1 b s
    else match o.mark with
      | some src => recordPoison d 1 b txHostWrite (listPoison d 1 b src s)
      | none => s) s

/-- No allocation for the page waits any more. -/
def dropWaits (d : Nat) (s : State) : State :=
  { s with waiters := s.waiters.filter fun w => match w with
    | .packed e _ => e != d
    | .first e => e != d
    | _ => true }

/-- The descriptor that names the new run. -/
def swappedDesc (loc : Nat) (outs : List BlockOut) (d : Desc) : Desc :=
  { d with
    state := if (outs.map (·.len)).sum = 0 then .zero else .packed
    location := if (outs.map (·.len)).sum = 0 then 0 else BitVec.ofNat 44 loc, lock := false
    blockLen := if (outs.map (·.len)).sum = 0 then 0 else packLens (outs.map (·.len))
    bpoison := BitVec.ofNat 4 ((List.range 4).foldl (fun n b => if (outs.getD b {}).poison then n + 2 ^ b else n) 0)
    wgen := d.wgen + BitVec.ofNat 12 (outs.filter (·.wrote)).length }

/-- The swap in its parts: the descriptor, the freed run, the gathered lines, the account and the lists. -/
theorem swapEviction_eq (d loc : Nat) (outs : List BlockOut) (s : State) : swapEviction d loc outs s =
    let old := pageLines (s.source d).1 (s.source d).2.2
    let new := (outs.map (·.len)).sum
    let t := setDesc d (swappedDesc loc outs (s.desc d))
      (countEviction d ((outs.map (·.reads)).sum + new) (outs.map (·.stored)).sum s)
    let t := if (s.source d).1 = .packed ∧ 0 < old then freeAfter d (locLine (s.source d).2.1) old t else t
    poisonIfWhole d 0 (dropWaits d (relistBlocks d outs
      (settlePage d old new (dropEntries (fun g => decide (g.dlpn = d) && g.frozen) t)))) := rfl

theorem dropContext_keepsPages (d b : Nat) (s : State) : s.KeepsPages (dropContext d b s) := ⟨fun _ => rfl, rfl, rfl, rfl⟩

theorem unlistPoison_keepsPages (d unit place : Nat) (s : State) : s.KeepsPages (unlistPoison d unit place s) :=
  ⟨fun _ => rfl, rfl, rfl, rfl⟩

theorem getD_unpoisoned (outs : List BlockOut) (h : ∀ o ∈ outs, o.poison = false) (b : Nat) : (outs.getD b {}).poison = false := by
  rw [List.getD_eq_getElem?_getD]
  cases hb : outs[b]? with
  | none => rfl
  | some o => exact h o (List.mem_of_getElem? hb)

theorem relistBlocks_keepsPages (d : Nat) (outs : List BlockOut) (s : State) (h : ∀ o ∈ outs, o.poison = false) :
    s.KeepsPages (relistBlocks d outs s) := by
  refine forEach_keeps .refl .trans _ _ (fun b s => ?_) s
  rw [if_pos (by rw [getD_unpoisoned outs h]; rfl)]
  exact .trans (.ite (dropContext_keepsPages ..) (.refl s)) (unlistPoison_keepsPages ..)

theorem dropWaits_keepsPages (d : Nat) (s : State) : s.KeepsPages (dropWaits d s) := ⟨fun _ => rfl, rfl, rfl, rfl⟩

theorem poisonIfWhole_unpoisoned (d source : Nat) (s : State) (h : (s.desc d).bpoison = 0) : poisonIfWhole d source s = s := by
  simp [poisonIfWhole, h]

theorem desc_setDesc (d : Nat) (x : Desc) (s : State) : (setDesc d x s).desc d = x := by
  simp [State.desc, State.descReset, State.extent, setDesc, State.modMeta]

/-- The state of a page after its eviction, with what storage then holds. -/
theorem swapEviction_result (d loc : Nat) (outs : List BlockOut) (s : State) (hclean : ∀ o ∈ outs, o.poison = false) :
    (swapEviction d loc outs s).desc d = swappedDesc loc outs (s.desc d) ∧ (swapEviction d loc outs s).chans = s.chans ∧
      (swapEviction d loc outs s).dram = s.dram ∧ (swapEviction d loc outs s).entriesOf d true = [] := by
  have hbp : (swappedDesc loc outs (s.desc d)).bpoison = 0 := by
    simp only [swappedDesc, getD_unpoisoned outs hclean, Bool.false_eq_true, if_false]
    rfl
  rw [swapEviction_eq]
  dsimp only
  generalize hold : pageLines (s.source d).1 (s.source d).2.2 = old
  generalize hcount : countEviction d ((outs.map (·.reads)).sum + (outs.map (·.len)).sum) (outs.map (·.stored)).sum s = c
  have hc : s.KeepsPages c := hcount ▸ (countEviction_accounts ..).keepsPages
  generalize hfreed : (if (s.source d).1 = .packed ∧ 0 < old then freeAfter d (locLine (s.source d).2.1) old
    (setDesc d (swappedDesc loc outs (s.desc d)) c) else setDesc d (swappedDesc loc outs (s.desc d)) c) = t
  have ht : (setDesc d (swappedDesc loc outs (s.desc d)) c).KeepsPages t := hfreed ▸ .ite (freeAfter_keepsPages ..) (.refl _)
  generalize hdropped : dropEntries (fun g => decide (g.dlpn = d) && g.frozen) t = u
  have hu : u = { t with gather := _, path := _ } := hdropped ▸ dropEntries_rest _ t
  have hr : u.KeepsPages (dropWaits d (relistBlocks d outs (settlePage d old (outs.map (·.len)).sum u))) :=
    ((settlePage_keepsPages ..).trans (relistBlocks_keepsPages _ _ _ hclean)).trans (dropWaits_keepsPages ..)
  have hdesc : u.desc d = swappedDesc loc outs (s.desc d) := by
    rw [hu]
    exact (ht.desc d).trans (desc_setDesc ..)
  rw [poisonIfWhole_unpoisoned _ _ _ (by rw [hr.desc, hdesc, hbp])]
  refine ⟨by rw [hr.desc, hdesc], ?_, ?_, ?_⟩
  · rw [hr.chans, hu]
    exact ht.chans.trans hc.chans
  · rw [hr.dram, hu]
    exact ht.dram.trans hc.dram
  · rw [State.entriesOf, hr.entries, hu, List.filter_filter, List.filter_eq_nil_iff]
    intro g _
    simp
    tauto

end Sys2Proof.Machine
end

section
namespace Sys2Proof.Machine

/-! ### PACKED_EVICTION of a page with one block gathered whole (R162, R166) -/

section
variable (d : Nat) (ue : BitVec 4) (s t : State) (outs : List BlockOut)
  (hblocks : (List.range 4).foldl (fun (x : List BlockOut × State) j =>
    let r := evictBlock d j (s.entriesOf d true) (ue.getLsbD j) x.2
    (x.1 ++ [r.1], r.2)) ([], s) = (outs, t))
  (hn : (outs.map (·.len)).sum ≠ 0)
include hblocks hn

/-- With its blocks made, an eviction takes a run for them. -/
theorem evictPacked_placed (loc : Nat) (u : State)
    (h : takeStorage (s.pageChan d) (outs.map (·.len)).sum false (.page d) t = some (loc, u)) :
    evictPacked d ue s = swapEviction d loc outs (putLines loc (outs.flatMap (·.lines)) u) := by
  unfold evictPacked
  dsimp only
  rw [hblocks]
  dsimp only
  rw [if_neg hn, h]

/-- With no run free, it waits for one. -/
theorem evictPacked_waits (h : takeStorage (s.pageChan d) (outs.map (·.len)).sum false (.page d) t = none) :
    evictPacked d ue s = waitFor (.packed d (outs.map (·.len)).sum) (s.pageQuad d) (outs.map (·.len)).sum s := by
  unfold evictPacked
  dsimp only
  rw [hblocks]
  dsimp only
  rw [if_neg hn, h]

end

theorem takeStorage_withCounts (target n : Nat) (o : Owner) (s : State) (c : Tab CtrBlock) (k : Tab Cluster) (hn : n ≠ 0) :
    takeStorage target n false o (s.withCounts c k) =
      (takeStorage target n false o s).map fun p => (p.1, p.2.withCounts c k) := by
  have horder : (s.withCounts c k).placeOrder target false = s.placeOrder target false := rfl
  unfold takeStorage
  rw [if_neg hn, if_neg hn, horder]
  exact takeRunOn_withCounts ..

/-- What waits for a place is among the waiters, and the metadata and write gather stand. -/
theorem waitFor_waits (w : Waiter) (q slots : Nat) (s : State) :
    w ∈ (waitFor w q slots s).waiters ∧ (waitFor w q slots s).mdata = s.mdata ∧ (waitFor w q slots s).gather = s.gather := by
  have hshort (s : State) : (slabShortage q slots s).waiters = s.waiters ∧ (slabShortage q slots s).mdata = s.mdata ∧
      (slabShortage q slots s).gather = s.gather := by
    unfold slabShortage
    split
    · have h := (postDevice_accounts 4 (BitVec.ofNat 64 q) (BitVec.ofNat 64 slots) 0 0
        (s.modQuad q fun d => { d with lastShortage := some s.now })).trans (fireEvent_reports 69 _ (by decide)).accounts
      refine ⟨?_, ?_, ?_⟩ <;> rw [h.rest] <;> rfl
    · exact ⟨rfl, rfl, rfl⟩
  obtain ⟨hw, hm, hg⟩ := hshort (if s.waiters.contains w then s else { s with waiters := s.waiters ++ [w] })
  unfold waitFor
  rw [hw, hm, hg]
  split
  · rename_i h
    exact ⟨List.contains_iff_mem.mp h, rfl, rfl⟩
  · exact ⟨by simp, rfl, rfl⟩

theorem takeStorage_rest (target n : Nat) (o : Owner) (s : State) (a : Nat) (t : State)
    (h : takeStorage target n false o s = some (a, t)) (hn : n ≠ 0) : ∃ x, t = { s with allocs := x } := by
  rw [takeStorage, if_neg hn] at h
  exact takeRunOn_rest _ _ _ _ _ _ h

/-- The lengths of a page's blocks once block b is encoded anew. -/
def State.newLens (s : State) (d b : Nat) : List Nat :=
  (List.range 4).map fun j => if j = b then (s.encoded d b (s.entriesOf d true)).1 else blockLen (s.source d).2.2 j

/-- A block gathered whole is enough for the eviction to run. -/
theorem exec_packedEviction_full (dlpn : BitVec 34) (s : State) (b : Nat) (hrun : s.running = true) (hlive : s.pageLive dlpn.toNat = true)
    (hst : (s.desc dlpn.toNat).state = .packed) (hfull : fullBlock (s.entriesOf dlpn.toNat true) b = true) :
    exec (.packedEviction dlpn 0) s = .next (evictPacked dlpn.toNat 0 s) := by
  refine exec_packedEviction dlpn 0 s hrun hlive hst fun h => ?_
  have htouched := touches_of_fullBlock _ _ hfull
  simp [h, touches] at htouched

section
variable (dlpn : BitVec 34) (s : State) (b : Fin 4) (hrun : s.running = true) (hlive : s.pageLive dlpn.toNat = true)
  (hst : (s.desc dlpn.toNat).state = .packed) (hbp : (s.desc dlpn.toNat).bpoison = 0)
  (hmine : ∀ g ∈ s.entriesOf dlpn.toNat true, g.lineNo / 16 = b ∧ g.poisoned = false)
  (hfull : fullBlock (s.entriesOf dlpn.toNat true) b = true) (hsum : (s.newLens dlpn.toNat b).sum ≠ 0)
include hrun hlive hst hbp hmine hfull hsum

theorem packedEviction_waits
    (htake : takeStorage (s.pageChan dlpn.toNat) (s.newLens dlpn.toNat b).sum false (.page dlpn.toNat) s = none) :
    ∃ r, exec (.packedEviction dlpn 0) s = .next r ∧
      Waiter.packed dlpn.toNat (s.newLens dlpn.toNat b).sum ∈ r.waiters ∧ r.mdata = s.mdata ∧ r.gather = s.gather := by
  obtain ⟨c, k, hblocks⟩ := blocks_of_packed_eviction s dlpn.toNat b hst hbp hmine hfull
  have hlens : (packedOuts s dlpn.toNat b (s.entriesOf dlpn.toNat true)).map (·.len) = s.newLens dlpn.toNat b := packedOuts_lens ..
  refine ⟨_, exec_packedEviction_full dlpn s b hrun hlive hst hfull, ?_⟩
  rw [evictPacked_waits _ _ _ _ _ hblocks (by rwa [hlens]), hlens]
  · exact waitFor_waits ..
  · rw [hlens]
    rw [takeStorage_withCounts _ _ _ _ _ _ hsum, htake]
    rfl

theorem packedEviction_placed (l : Nat) (t : State)
    (htake : takeStorage (s.pageChan dlpn.toNat) (s.newLens dlpn.toNat b).sum false (.page dlpn.toNat) s = some (l, t)) :
    ∃ r, exec (.packedEviction dlpn 0) s = .next r ∧ (r.desc dlpn.toNat).state = .packed ∧
      (r.desc dlpn.toNat).location = BitVec.ofNat 44 l ∧ (r.desc dlpn.toNat).blockLen = packLens (s.newLens dlpn.toNat b) ∧
      (r.desc dlpn.toNat).lock = false ∧ (r.desc dlpn.toNat).wgen = (s.desc dlpn.toNat).wgen + 1 ∧ r.entriesOf dlpn.toNat true = [] ∧
      (∀ i < (s.encoded dlpn.toNat b (s.entriesOf dlpn.toNat true)).1, r.lineNow (l + ((s.newLens dlpn.toNat b).take b).sum + i) =
        { data := lineOfBytes ((s.encoded dlpn.toNat b (s.entriesOf dlpn.toNat true)).2.drop (64 * i)), cipher := s.cipherOf dlpn.toNat 1 b i }) ∧
      ∀ j i, j < 4 → j ≠ b.val → i < blockLen (s.source dlpn.toNat).2.2 j →
        r.lineNow (l + ((s.newLens dlpn.toNat b).take j).sum + i) =
          s.lineNow (locLine (s.source dlpn.toNat).2.1 + lenSum (s.source dlpn.toNat).2.2 j + i) := by
  obtain ⟨c, k, hblocks⟩ := blocks_of_packed_eviction s dlpn.toNat b hst hbp hmine hfull
  let outs := packedOuts s dlpn.toNat b (s.entriesOf dlpn.toNat true)
  have hlens : outs.map (·.len) = s.newLens dlpn.toNat b := packedOuts_lens ..
  let u := putLines l (outs.flatMap (·.lines)) (t.withCounts c k)
  have hevict : evictPacked dlpn.toNat 0 s = swapEviction dlpn.toNat l outs u := by
    refine evictPacked_placed _ _ _ _ _ hblocks (by rwa [hlens]) l _ ?_
    rw [hlens, takeStorage_withCounts _ _ _ _ _ _ hsum, htake]
    rfl
  have hdesc : u.desc dlpn.toNat = s.desc dlpn.toNat := by
    obtain ⟨a, rfl⟩ := takeStorage_rest _ _ _ _ _ _ htake hsum
    obtain ⟨m, ch, hu⟩ := putLines_rest l (outs.flatMap (·.lines)) (State.withCounts { s with allocs := a } c k)
    change (putLines ..).desc _ = _
    rw [hu]
    rfl
  obtain ⟨hd, hchans, hdram, hentries⟩ := swapEviction_result dlpn.toNat l outs u (packedOuts_unpoisoned _ _ _ _)
  have hlines (j i : Nat) (o : BlockOut) (x : DLine) (hj : outs[j]? = some o) (hi : o.lines[i]? = some x) :
      (swapEviction dlpn.toNat l outs u).lineNow (l + ((s.newLens dlpn.toNat b).take j).sum + i) = x := by
    have hnow (a : Nat) : (swapEviction dlpn.toNat l outs u).lineNow a = u.lineNow a := by
      simp only [State.lineNow, State.chan, hchans, hdram]
    rw [hnow, Nat.add_assoc, ← hlens]
    exact lineNow_putLines _ _ _ _ _ (flatMap_lines_getElem outs (packedOuts_lines _ _ _ _) j i o x hj hi)
  refine ⟨_, exec_packedEviction_full dlpn s b hrun hlive hst hfull, ?_⟩
  rw [hevict, hd, hdesc]
  have hwritten : (outs.filter (·.wrote)).length = 1 := packedOuts_written _ _ _ _ b.isLt
  simp only [swappedDesc, hlens, if_neg hsum, hwritten]
  refine ⟨trivial, trivial, trivial, trivial, rfl, hentries, fun i hi => ?_, fun j i hj hjb hi => ?_⟩
  · refine hlines b i (codedBlock s dlpn.toNat b (s.entriesOf dlpn.toNat true)) _ ?_ ?_
    · simp [outs, packedOuts]
    · simp [codedBlock, State.seal, hi]
  · refine hlines j i (keptBlock s dlpn.toNat j) _ ?_ ?_
    · simp [outs, packedOuts, hj, hjb]
    · simp [keptBlock, hi]

end

end Sys2Proof.Machine
end

section
namespace Sys2Proof.Machine

/-- Settles O52: each clause is a lemma about its command, the packed eviction by way of the blocks it makes, the run it takes and the swap,
the shaper's by way of `translate_sameShaper`. -/
theorem gatheredLinesAreEvictedAndWaitersResume : Obligations.GatheredLinesAreEvictedAndWaitersResume := by
  unfold Obligations.GatheredLinesAreEvictedAndWaitersResume
  intro dlpn s hrun
  refine ⟨?_, ⟨?_, ?_⟩, ?_, ?_, ?_, ?_, ?_⟩
  · intro g flips hlive hst he hd hn hmask hv hf hp
    exact gatherEviction_plain dlpn s hrun g flips hlive hst he hd hn hmask hv hf hp
  · intro hst hold hlock
    have hne : s.entriesOf dlpn.toNat false ≠ [] := by
      intro h
      simp [h] at hold
    obtain ⟨hl, he⟩ := startEviction_freezes dlpn.toNat s hlock hne
    refine ⟨_, ?_, hl, he⟩
    rw [exec_holdExpiry dlpn s hrun, hst, show s.overdue dlpn.toNat = true from hold]
    rfl
  · intro h
    rw [exec_holdExpiry dlpn s hrun]
    rcases h with h | h
    · rw [h]; rfl
    · rw [show s.overdue dlpn.toNat = false from h, Bool.and_false]; rfl
  · intro b hlive hst hbp hmine hfull k enc lens first hsum
    exact ⟨fun l t htake => packedEviction_placed dlpn s b hrun hlive hst hbp hmine hfull hsum l t htake,
      fun htake => packedEviction_waits dlpn s b hrun hlive hst hbp hmine hfull hsum htake⟩
  · intro k m hm hreqs hext
    exact ⟨descriptorCopyWritten_first k m s hrun hm hreqs hext, descriptorCopyWritten_second k m s hrun hm hreqs hext⟩
  · intro pool x
    exact ⟨exec_poolEntryRelease_none pool x s, fun h hreqs => exec_poolEntryRelease_idle pool x s hrun h hreqs⟩
  · intro ld
    refine ⟨exec_shaperRelease_none ld s, fun q hc hq => ⟨_, exec_shaperRelease_some ld s q hrun hc hq, ?_⟩⟩
    rw [(translate_sameShaper q 0 0 (spendCredit ld s)).credit_eq, credit_spendCredit]
  · intro n hmaps
    refine ⟨fun hw => ?_, fun e hw hphase => exec_allocationResume_fill n e s hrun hmaps hw hphase,
      fun k hw hlive hst he => exec_allocationResume_packed n dlpn k s hrun hmaps hw hlive hst he,
      fun hw hlive hfirst hst => exec_allocationResume_first n dlpn s hrun hmaps hw hlive hfirst hst, fun c hw => ?_⟩
    · rw [exec_allocationResume n s hrun hmaps, hw]; rfl
    · rw [exec_allocationResume n s hrun hmaps, hw]; rfl

end Sys2Proof.Machine
end

section
namespace Sys2Proof.Machine

/-! ### A request on its way to its page (R31, R36, R40, R380, R381) -/

/-- What the steps before the lookup may change: the requests and pools, the QoS registers, comets and counters. Write gather's pool stands. -/
structure State.Enters (s r : State) : Prop where
  rest : r = { s with path := r.path, qos := r.qos, comets := r.comets, ctrs := r.ctrs }
  held : ∀ x, r.heldOf 1 x = s.heldOf 1 x

theorem State.Enters.refl (s : State) : s.Enters s := ⟨rfl, fun _ => rfl⟩

theorem State.Enters.trans {s r q : State} (h : s.Enters r) (k : r.Enters q) : s.Enters q := by
  refine ⟨?_, fun x => (k.held x).trans (h.held x)⟩
  rw [k.rest]; conv_lhs => rw [h.rest]

/-- A request as it was, but for what the steps up to its page note in it. -/
structure Req.Follows (q r : Req) : Prop where
  rest : r = { q with
    stage := r.stage, cls := r.cls, colour := r.colour, home := r.home, dlpn := r.dlpn, lineNo := r.lineNo, hint := r.hint
    tracked := r.tracked, looked := r.looked, salt := r.salt, keyLoad := r.keyLoad, cipherLd := r.cipherLd
    cipherAddr := r.cipherAddr, comet := r.comet }

theorem Req.Follows.refl (q : Req) : q.Follows q := ⟨rfl⟩

theorem Req.Follows.trans {q r u : Req} (h : q.Follows r) (k : r.Follows u) : q.Follows u := by
  refine ⟨?_⟩
  rw [k.rest]; conv_lhs => rw [h.rest]

theorem putReq_enters (q : Req) (s : State) : s.Enters (putReq q s) := ⟨rfl, fun _ => rfl⟩
theorem countEvent_enters (b code : Nat) (ld : Option Nat) (s : State) : s.Enters (countEvent b code ld s) := ⟨rfl, fun _ => rfl⟩
theorem spendCredit_enters (ld : Nat) (s : State) : s.Enters (spendCredit ld s) := ⟨rfl, fun _ => rfl⟩
theorem cacheEntry_enters (h ld block : Nat) (s : State) : s.Enters (cacheEntry h ld block s) := ⟨rfl, fun _ => rfl⟩

/-- A tracker is no entry of write gather. -/
theorem claimTracker_enters (p : Nat) (s : State) (hp : p < 16) : s.Enters (claimEntry 0 p s) := by
  refine ⟨rfl, fun x => ?_⟩
  have hkey : 1 * 32 + x ≠ 0 * 32 + p := by omega
  simp only [State.heldOf, claimEntry, State.modPath]
  exact Tab.get_set_other _ _ _ hkey

/-! #### The tracker -/

theorem tagComet_enters (q : Req) (s : State) : s.Enters (tagComet q s).2 ∧ (tagComet q s).2.path = s.path ∧
    s.SameShaper (tagComet q s).2 ∧ q.Follows (tagComet q s).1 := by
  unfold tagComet
  dsimp only
  split
  · split
    · exact ⟨⟨rfl, fun _ => rfl⟩, rfl, ⟨rfl, rfl, rfl⟩, .refl q⟩
    · exact ⟨⟨rfl, fun _ => rfl⟩, rfl, ⟨rfl, rfl, rfl⟩, ⟨rfl⟩⟩
  · exact ⟨⟨rfl, fun _ => rfl⟩, rfl, ⟨rfl, rfl, rfl⟩, .refl q⟩

theorem meterFlow_enters (flow colour : Nat) (s : State) : s.Enters (meterFlow flow colour s).2 ∧
    (meterFlow flow colour s).2.path = s.path ∧ s.SameShaper (meterFlow flow colour s).2 :=
  ⟨⟨rfl, fun _ => rfl⟩, rfl, ⟨rfl, rfl, rfl⟩⟩

/-! The steps of R36, R380 and R547 one after another, each with the state it leaves. -/

/-- A tracker is claimed and the request is counted. -/
def trackerClaimed (q : Req) (s : State) : State :=
  let t := countEvent (24 + q.source) (if q.write then 0x102 else 0x101) (some q.ld) (claimEntry 0 q.source s)
  if decide (s.poolReserve 0 q.source ≤ s.heldOf 0 q.source) then countEvent (24 + q.source) 0x105 none t else t

/-- A red request is counted. -/
def redCounted (q : Req) (port colour : Nat) (s : State) : State :=
  if colour = 2 then countEvent (24 + port) 0x103 (some q.ld) (s.modQos fun m => { m with red := satAdd m.red 1 }) else s

/-- The request after its tracker, coloured and classed. -/
def Req.coloured (q : Req) (colour : Nat) (s : State) : Req :=
  { q with tracked := true, stage := .gather, colour, cls := if colour = 2 then 7 else s.param q.ld 0, hint := s.param q.ld 6 }

theorem takeTracker_eq (q : Req) (a b : BitVec 2) (s : State) : takeTracker q a b s =
    let x := tagComet q (trackerClaimed q s)
    let m := meterFlow x.1.ld 0 x.2
    let u := x.1.coloured m.1 m.2
    shape u a b (putReq u (redCounted u q.source m.1 m.2)) := rfl

theorem trackerClaimed_enters (q : Req) (s : State) (hq : q.source < 16) : s.Enters (trackerClaimed q s) ∧
    (trackerClaimed q s).path.reqs = s.path.reqs ∧ s.SameShaper (trackerClaimed q s) := by
  have hclaim := (claimTracker_enters q.source s hq).trans
    (countEvent_enters (24 + q.source) (if q.write then 0x102 else 0x101) (some q.ld) _)
  unfold trackerClaimed
  dsimp only
  split
  · exact ⟨hclaim.trans (countEvent_enters ..), rfl, ⟨rfl, rfl, rfl⟩⟩
  · exact ⟨hclaim, rfl, ⟨rfl, rfl, rfl⟩⟩

theorem redCounted_enters (q : Req) (port colour : Nat) (s : State) : s.Enters (redCounted q port colour s) ∧
    (redCounted q port colour s).path = s.path ∧ s.SameShaper (redCounted q port colour s) := by
  unfold redCounted
  split
  · exact ⟨⟨rfl, fun _ => rfl⟩, rfl, ⟨rfl, rfl, rfl⟩⟩
  · exact ⟨.refl s, rfl, .refl s⟩

/-- A request that takes its tracker goes on to the shaper. -/
theorem takeTracker_shapes (q : Req) (a b : BitVec 2) (s : State) (hq : q.source < 16) : ∃ u t, takeTracker q a b s = shape u a b (putReq u t) ∧
    q.Follows u ∧ u.stage = .gather ∧ s.Enters t ∧ t.path.reqs = s.path.reqs ∧ s.SameShaper t := by
  obtain ⟨eclaim, rclaim, cclaim⟩ := trackerClaimed_enters q s hq
  obtain ⟨etag, rtag, ctag, hfollows⟩ := tagComet_enters q (trackerClaimed q s)
  have hm := meterFlow_enters (tagComet q (trackerClaimed q s)).1.ld 0 (tagComet q (trackerClaimed q s)).2
  obtain ⟨emeter, rmeter, cmeter⟩ := hm
  obtain ⟨ered, rred, cred⟩ := redCounted_enters _ q.source _ _
  refine ⟨_, _, takeTracker_eq q a b s, hfollows.trans ⟨rfl⟩, rfl, ((eclaim.trans etag).trans emeter).trans ered, ?_,
    ((cclaim.trans ctag).trans cmeter).trans cred⟩
  rw [rred, rmeter, rtag, rclaim]

/-! #### Arrival and the shaper -/

/-- The request as a head that takes it notes it (R31). -/
def Req.arrived (q : Req) (s : State) : Req := { q with id := s.path.nextReq, at_ := s.now, verified := true, stage := .limit }

/-- The request stands among those under way. -/
def taken (q : Req) (s : State) : State := s.modPath fun p => { p with reqs := p.reqs ++ [q], nextReq := p.nextReq + 1 }

theorem taken_enters (q : Req) (s : State) : s.Enters (taken q s) := ⟨rfl, fun _ => rfl⟩

/-- In containment mode a request waits for its MAC (R90). -/
theorem arrive_contained (q : Req) (a b : BitVec 2) (s : State) (h : (s.port q.source).ideState = 1) :
    arrive q a b s = taken { q.arrived s with stage := .mac } s := by
  simp [arrive, h, taken, Req.arrived]

theorem arrive_open (q : Req) (a b : BitVec 2) (s : State) (h : (s.port q.source).ideState = 0) :
    arrive q a b s = tryTracker (q.arrived s) a b (taken (q.arrived s) s) := by
  simp [arrive, h, taken, Req.arrived]

/-- Alone at its head and under its LD's limit, a request takes a tracker. -/
theorem tryTracker_alone (q : Req) (a b : BitVec 2) (s : State) (hreqs : s.path.reqs = [q]) (hnew : q.tracked = false)
    (hlimit : 0 < s.param q.ld 1) (hclaim : s.mayClaim 0 q.source = true) : tryTracker q a b s = takeTracker q a b s := by
  have hnone : s.outstanding q.ld = 0 := by simp [State.outstanding, hreqs, hnew]
  simp [tryTracker, hreqs, hnone, hlimit.ne', hclaim]

/-- Alone and with credit, a request goes on to translation. -/
theorem shape_alone (q : Req) (a b : BitVec 2) (s : State) (hreqs : s.path.reqs = [q]) (hcredit : 0 ≤ s.credit q.ld) :
    shape q a b s = translate q a b (spendCredit q.ld s) := by
  have hnot : ¬ s.credit q.ld < 0 := by omega
  simp [shape, hreqs, hnot]

/-- What a head's request needs to come to its page: containment is off, it is alone, and it meets neither limit nor pool nor credit. -/
structure State.Clear (s : State) (p ld : Nat) : Prop where
  skid : (s.port p).ideState = 0
  alone : s.path.reqs = []
  tracker : s.mayClaim 0 p = true
  limit : 0 < s.param ld 1
  credit : 0 ≤ s.credit ld

/-- A host's request comes to translation. -/
theorem arrive_translates (q : Req) (a b : BitVec 2) (s : State) (hq : q.source < 16) (hnew : q.tracked = false)
    (hclear : s.Clear q.source q.ld) : ∃ u t, arrive q a b s = translate u a b t ∧ (q.arrived s).Follows u ∧ u.stage = .gather ∧
      s.Enters t ∧ t.path.reqs = [u] := by
  obtain ⟨hskid, halone, htracker, hlimit, hcredit⟩ := hclear
  obtain ⟨u, t, hshape, hfollows, hstage, henters, hreqs, hshaper⟩ := takeTracker_shapes (q.arrived s) a b (taken (q.arrived s) s) hq
  have hone : (taken (q.arrived s) s).path.reqs = [q.arrived s] := by simp [taken, State.modPath, halone]
  have hid : u.id = (q.arrived s).id := by rw [hfollows.rest]
  have hld : u.ld = q.ld := by rw [hfollows.rest]; rfl
  have hput : (putReq u t).path.reqs = [u] := by simp [putReq, State.modPath, hreqs, hone, hid]
  have hstill : 0 ≤ (putReq u t).credit u.ld := by
    rw [hld, ((putReq_sameShaper u t).credit_eq _), hshaper.credit_eq]
    exact hcredit
  refine ⟨u, spendCredit u.ld (putReq u t), ?_, hfollows, hstage, ?_, ?_⟩
  · rw [arrive_open q a b s hskid, tryTracker_alone _ a b _ hone hnew hlimit htracker, hshape, shape_alone u a b _ hput hstill]
  · exact (((taken_enters _ s).trans henters).trans (putReq_enters u t)).trans (spendCredit_enters ..)
  · exact hput

end Sys2Proof.Machine
end

section
namespace Sys2Proof.Machine

/-! ### What the recorder's structures take of the capacity (R137)

A sample of a fault source leaves the tally ring as it is. -/

structure State.SameRing (s r : State) : Prop where
  large : r.rec_.large = s.rec_.large
  ring : r.rec_.ring = s.rec_.ring

theorem State.SameRing.refl (s : State) : s.SameRing s := ⟨rfl, rfl⟩

theorem State.SameRing.trans {s r q : State} (h : s.SameRing r) (k : r.SameRing q) : s.SameRing q :=
  ⟨k.large.trans h.large, k.ring.trans h.ring⟩

theorem State.SameRing.of_rec {s r : State} (h : r.rec_ = s.rec_) : s.SameRing r := ⟨by rw [h], by rw [h]⟩

theorem placeRecord_rec (i : Nat) (k : LogKind) (b : RecBody) (s : State) : (placeRecord i k b s).rec_ = s.rec_ := by
  unfold placeRecord notifyLog
  split <;> rfl

theorem updateHealth_sameRing (s : State) : s.SameRing (updateHealth s) := by
  unfold updateHealth
  dsimp only
  split
  · exact .of_rec rfl
  · exact .trans (r := noteHealth s) (.of_rec rfl)
      (forEach_keeps .refl .trans _ _ (fun i s => .of_rec (placeRecord_rec i ..)) _)

theorem sendPkt_rec (d : Nat) (p : OutPkt) (s : State) : (sendPkt d p s).rec_ = s.rec_ := by
  unfold sendPkt
  split <;> rfl

theorem openTxn_rec (d : Nat) (t : Txn) (c k r p : Nat) (w : List Nat) (s : State) : (openTxn d t c k r p w s).rec_ = s.rec_ :=
  sendPkt_rec ..

theorem copyTally_sameRing (t : Tally) (s : State) : s.SameRing (copyTally t s) := by
  unfold copyTally
  split
  · exact .refl s
  · split
    · exact .of_rec (openTxn_rec ..)
    · exact ⟨rfl, rfl⟩

theorem Recorder.put_ring (r : Recorder) (t : Tally) : (r.put t).large = r.large ∧ (r.put t).ring = r.ring := by
  unfold Recorder.put
  split
  · exact ⟨rfl, rfl⟩
  · split
    · exact ⟨rfl, rfl⟩
    · split <;> exact ⟨rfl, rfl⟩

theorem closeTally_sameRing (src reason : Nat) (t : Tally) (s : State) : s.SameRing (closeTally src reason t s) := by
  unfold closeTally
  refine .trans ?_ (copyTally_sameRing ..)
  exact ⟨(Recorder.put_ring ..).1, (Recorder.put_ring ..).2⟩

theorem sampleFault_sameRing (n : Nat) (s : State) : s.SameRing (sampleFault n s) := by
  have hsample (v : BitVec 64) : s.SameRing (sampleTally (0x1000 + n) v 0 0 s) := by
    unfold sampleTally
    dsimp only
    split
    · exact closeTally_sameRing ..
    · exact ⟨rfl, rfl⟩
  exact (hsample _).trans ⟨rfl, rfl⟩

theorem fireEvent_sameRing (n : Nat) (s : State) (h : (((sourceInfo n).map (·.cls)).getD 0) < 3) : s.SameRing (fireEvent n s) := by
  unfold fireEvent
  split
  · exact .refl s
  · have hr : ∀ q : State, reactClass n q = q := by
      intro q
      unfold reactClass
      split <;> simp_all
    rw [hr]
    have hset : s.SameRing (setSticky n s) := ⟨rfl, rfl⟩
    exact (hset.trans (sampleFault_sameRing ..)).trans (updateHealth_sameRing _)

/-! ### A request at its page (R130, R181, R185)

The lookup of a line in the metadata cache touches its set; the access is counted in the sketch and a write in the heat table. -/

/-- What a request may change up to its service: what it enters by, the sets of the metadata cache, the sketch, the heat tables,
and what a parity error of the sketch reports. -/
structure State.Reaches (s r : State) : Prop where
  rest : r = { s with
    path := r.path, qos := r.qos, comets := r.comets, ctrs := r.ctrs, sketch := r.sketch, quads := r.quads
    mdata := { s.mdata with sets := r.mdata.sets }, faults := r.faults, rec_ := r.rec_, const := r.const, ulis := r.ulis
    lds := r.lds, out := r.out }
  records : ∀ q, (r.quad q).records = (s.quad q).records
  ring : s.SameRing r
  held : ∀ x, r.heldOf 1 x = s.heldOf 1 x
  quiet : s.sketch.parity = [] → r.sketch.parity = [] ∧ r.out = s.out

theorem State.Reaches.refl (s : State) : s.Reaches s := ⟨rfl, fun _ => rfl, .refl s, fun _ => rfl, fun h => ⟨h, rfl⟩⟩

theorem State.Reaches.trans {s r q : State} (h : s.Reaches r) (k : r.Reaches q) : s.Reaches q := by
  refine ⟨?_, fun x => (k.records x).trans (h.records x), h.ring.trans k.ring, fun x => (k.held x).trans (h.held x), fun hp => ?_⟩
  · rw [k.rest]; conv_lhs => rw [h.rest]
  · obtain ⟨hr, hro⟩ := h.quiet hp
    obtain ⟨hq, hqo⟩ := k.quiet hr
    exact ⟨hq, hqo.trans hro⟩

theorem State.Enters.reaches {s r : State} (h : s.Enters r) : s.Reaches r := by
  have hrest := h.rest
  refine ⟨?_, fun q => ?_, .of_rec (by rw [hrest]), h.held, fun hp => ?_⟩
  · rw [hrest]
  · rw [hrest]; rfl
  · rw [hrest]; exact ⟨hp, rfl⟩

theorem setWay_reaches (k w : Nat) (s : State) : s.Reaches (setWay k w s) := ⟨rfl, fun _ => rfl, ⟨rfl, rfl⟩, fun _ => rfl, fun h => ⟨h, rfl⟩⟩

theorem modSketch_reaches (f : Sketch → Sketch) (s : State) (hf : s.sketch.parity = [] → (f s.sketch).parity = []) :
    s.Reaches (s.modSketch f) := ⟨rfl, fun _ => rfl, ⟨rfl, rfl⟩, fun _ => rfl, fun h => ⟨hf h, rfl⟩⟩

theorem modQuad_reaches (q : Nat) (f : Quad → Quad) (s : State) (hf : ∀ x, (f x).records = x.records) : s.Reaches (s.modQuad q f) := by
  refine ⟨rfl, fun i => ?_, ⟨rfl, rfl⟩, fun _ => rfl, fun h => ⟨h, rfl⟩⟩
  rw [State.modQuad_at]
  split
  · rename_i hi; rw [hf, hi]
  · rfl

/-- A counter whose parity is wrong, rewritten as 0. -/
def clearCounter (i : Nat) (s : State) : State :=
  s.modSketch fun k => { k with parity := k.parity.filter (· != i), counters := Tab.set 0 k.counters i 0 }

/-- A counter with wrong parity is reported; with none wrong nothing is done (R181). -/
theorem fixParity_reaches (i : Nat) (s : State) : s.Reaches (fixParity i s) := by
  have hfix : fixParity i s = if s.sketch.parity.contains i then fireEvent 13 (clearCounter i s) else s := rfl
  rw [hfix]
  split
  · rename_i hbad
    have hrep := fireEvent_reports 13 (clearCounter i s) (by decide)
    have hring := fireEvent_sameRing 13 (clearCounter i s) (by decide)
    refine ⟨?_, fun q => ?_, ⟨hring.large, hring.ring⟩, fun x => ?_, fun hp => by simp [hp] at hbad⟩
    · rw [hrep.rest]; rfl
    · rw [hrep.rest]; rfl
    · rw [hrep.rest]; rfl
  · exact .refl s

theorem forEach_reaches {α : Type} (l : List α) (f : α → State → State) (h : ∀ a s, State.Reaches s (f a s)) (s : State) :
    s.Reaches (forEach l f s) := forEach_keeps .refl .trans l f h s

theorem countAccess_reaches (dlpn : Nat) (s : State) : s.Reaches (countAccess dlpn s) := by
  unfold countAccess
  split
  · exact .refl s
  · dsimp only
    have hcount : s.Reaches (s.modSketch fun k => { k with requests := s.sketch.requests + 1 }) := modSketch_reaches _ s fun h => h
    split
    · exact hcount
    · refine .trans ?_ (forEach_reaches _ _ (fun i s => modSketch_reaches _ s fun h => h) _)
      exact hcount.trans (forEach_reaches _ _ fixParity_reaches _)

theorem writeHeat_reaches (dlpn : Nat) (s : State) : s.Reaches (writeHeat dlpn s) := by
  unfold writeHeat
  dsimp only
  split
  · exact .refl s
  · split
    · split
      · refine .trans ?_ (modQuad_reaches _ _ _ fun _ => rfl)
        exact modQuad_reaches _ _ _ fun _ => rfl
      · refine .trans ?_ (modQuad_reaches _ _ _ fun _ => rfl)
        exact modQuad_reaches _ _ _ fun _ => rfl
    · exact modQuad_reaches _ _ _ fun _ => rfl

theorem countAccess_path (dlpn : Nat) (s : State) : (countAccess dlpn s).path = s.path := by
  have hfix (i : Nat) (s : State) : (fixParity i s).path = s.path := by
    have hfix : fixParity i s = if s.sketch.parity.contains i then fireEvent 13 (clearCounter i s) else s := rfl
    rw [hfix]
    split
    · rw [(fireEvent_reports 13 (clearCounter i s) (by decide)).rest]; rfl
    · rfl
  have heach (l : List Nat) (f : Nat → State → State) (hf : ∀ i s, (f i s).path = s.path) (s : State) : (forEach l f s).path = s.path :=
    forEach_keeps (R := fun s r => r.path = s.path) (fun _ => rfl) (fun h k => k.trans h) l f hf s
  unfold countAccess
  split
  · rfl
  · dsimp only
    split
    · rfl
    · rw [heach, heach _ _ hfix]
      · rfl
      · exact fun _ _ => rfl

theorem writeHeat_path (dlpn : Nat) (s : State) : (writeHeat dlpn s).path = s.path := by
  unfold writeHeat
  dsimp only
  split
  · rfl
  · split
    · split <;> rfl
    · rfl

/-- Write heat is judged for a write (R185). -/
def heated (q : Req) (s : State) : State := if q.write then writeHeat q.dlpn s else s

/-- The request as it goes on from a hit: stamped, and with its page's salt and key (R130, R208). -/
def Req.found (q : Req) (s : State) : Req :=
  let st := (s.desc q.dlpn).state
  { (q.stamp 4 s.now).cometPage st.code (if st.bare ∨ st = .far then 255 else s.pageChan q.dlpn) with
    stage := .gather, looked := true, salt := (s.extent (extentOf q.dlpn)).salt, keyLoad := s.keyLoad (s.desc q.dlpn).keySlot.toNat
    cipherLd := (s.extent (extentOf q.dlpn)).ld.toNat, cipherAddr := s.canonical q.dlpn }

theorem Req.follows_found (q : Req) (s : State) : q.Follows (q.found s) := ⟨rfl⟩

/-- The lookup of a page whose descriptor line is cached is a hit. -/
theorem lookupMeta_cached (d : Nat) (a b : BitVec 2) (s : State)
    (h : ∃ w, w < 16 ∧ (s.metaSet (d / 4 % s.metaSets)).ways.getD w none = some (d / 4)) :
    ∃ w, lookupMeta d a b s = (.hit, setWay (d / 4) w s) := by
  obtain ⟨w, hw, hway⟩ := h
  unfold lookupMeta
  dsimp only
  split
  · exact ⟨_, rfl⟩
  · rename_i hnone
    rw [List.find?_eq_none] at hnone
    exact absurd hway (by simpa using hnone w (List.mem_range.2 hw))

/-- A request whose page is live and whose descriptor line is cached goes on to its service. -/
theorem lookup_cached (q : Req) (a b : BitVec 2) (s : State) (hlive : s.pageLive q.dlpn = true) (hstage : q.stage = .gather)
    (h : ∃ w, w < 16 ∧ (s.metaSet (q.dlpn / 4 % s.metaSets)).ways.getD w none = some (q.dlpn / 4)) :
    ∃ u t, lookup q a b s = serve u t ∧ q.Follows u ∧ u.stage = .gather ∧ u.dlpn = q.dlpn ∧ u.lineNo = q.lineNo ∧
      s.Reaches t ∧ t.path.reqs = (putReq u s).path.reqs := by
  obtain ⟨w, hhit⟩ := lookupMeta_cached q.dlpn a b s h
  have hway : s.Reaches (setWay (q.dlpn / 4) w s) := setWay_reaches ..
  have hserve : lookup q a b s = serve (q.found (setWay (q.dlpn / 4) w s))
      (heated q (countAccess q.dlpn (putReq (q.found (setWay (q.dlpn / 4) w s)) (setWay (q.dlpn / 4) w s)))) := by
    simp [lookup, hlive, hhit, hstage]
    rfl
  refine ⟨_, _, hserve, q.follows_found _, rfl, rfl, rfl, ?_, ?_⟩
  · have hput := hway.trans (putReq_enters (q.found (setWay (q.dlpn / 4) w s)) _).reaches
    unfold heated
    split
    · exact (hput.trans (countAccess_reaches ..)).trans (writeHeat_reaches ..)
    · exact hput.trans (countAccess_reaches ..)
  · unfold heated
    split
    · rw [writeHeat_path, countAccess_path]; rfl
    · rw [countAccess_path]; rfl

/-! #### What stands at the page -/

variable {s r : State}

theorem State.Reaches.extent_eq (h : s.Reaches r) (e : Nat) : r.extent e = s.extent e := by rw [h.rest]; rfl

theorem State.Reaches.desc_eq (h : s.Reaches r) (d : Nat) : r.desc d = s.desc d := by
  unfold State.desc State.descReset
  rw [h.extent_eq, h.rest]

theorem State.Reaches.record_eq (h : s.Reaches r) (d : Nat) : r.record d = s.record d := by
  simp only [State.record, h.records]

theorem State.Reaches.source_eq (h : s.Reaches r) (d : Nat) : r.source d = s.source d := by
  simp only [State.source, h.desc_eq, h.record_eq]

theorem State.Reaches.gather_eq (h : s.Reaches r) : r.gather = s.gather := by rw [h.rest]

theorem State.Reaches.overlay_eq (h : s.Reaches r) (d n : Nat) : r.overlay d n = s.overlay d n := by
  simp only [State.overlay, h.gather_eq]

theorem State.Reaches.chan_eq (h : s.Reaches r) (c : Nat) : r.chan c = s.chan c := by rw [h.rest]; rfl

theorem State.Reaches.readable_eq (h : s.Reaches r) (c : Nat) : r.readable c = s.readable c := by
  simp only [State.readable, h.chan_eq]

theorem State.Reaches.capU_eq (h : s.Reaches r) : r.capU = s.capU := by
  have hcap : r.cap = s.cap := by rw [h.rest]
  have hchan : r.chan = s.chan := funext h.chan_eq
  have hactive : r.activeLines = s.activeLines := by
    unfold State.activeLines State.activeChan
    rw [hchan]
  have hring : r.structureLines = s.structureLines := by
    unfold State.structureLines
    rw [hcap, h.ring.large, h.ring.ring]
  unfold State.capU State.capAR State.capLU State.footprint
  rw [hactive, hring, hcap]

theorem State.Reaches.chargeDue_eq (h : s.Reaches r) (d b : Nat) : r.chargeDue d b = s.chargeDue d b := by
  simp only [State.chargeDue, h.source_eq, h.gather_eq]

theorem State.Reaches.chargeOk_eq (h : s.Reaches r) (e n : Nat) : r.chargeOk e n = s.chargeOk e n := by
  have hcap : r.cap = s.cap := by rw [h.rest]
  have hstart : r.start = s.start := by rw [h.rest]
  have halloc (c : Nat) : r.alloc c = s.alloc c := by rw [h.rest]; rfl
  simp only [State.chargeOk, h.extent_eq, h.capU_eq, hcap, State.anyFrame, State.activeChan, State.lowestRun, State.blocked,
    hstart, halloc, h.chan_eq]

/-- A head's entries of write gather, reserved and shared, are its own. -/
theorem State.Reaches.mayClaim_eq (h : s.Reaches r) (p : Nat) : r.mayClaim 1 p = s.mayClaim 1 p := by
  have hports (x : Nat) : r.headPorts x = s.headPorts x := by rw [h.rest]; rfl
  have hreserve (x : Nat) : r.poolReserve 1 x = s.poolReserve 1 x := by simp [State.poolReserve, hports]
  have hcap (x : Nat) : r.poolCap 1 x = s.poolCap 1 x := by simp [State.poolCap, hports]
  have hshared : r.sharedOf 1 = s.sharedOf 1 := by
    funext x
    simp only [State.sharedOf, h.held, hreserve]
  unfold State.mayClaim
  rw [hshared, hcap, hreserve, h.held]

end Sys2Proof.Machine
end

section
namespace Sys2Proof.Machine

/-! ### A host request comes to its page (R31, R118, R130) -/

variable {s t : State} {q u : Req}

theorem State.Enters.dpaFind_eq (h : s.Enters t) (ld block : Nat) : t.dpaFind ld block = s.dpaFind ld block := by rw [h.rest]; rfl

/-- A line homed here whose extent is live, is not shared, and whose descriptor line is cached. -/
structure State.Holds (s : State) (m : DpaEntry) (d : Nat) : Prop where
  home : m.home = s.ident.devId
  live : s.pageLive d = true
  alone : (s.extent (extentOf d)).shared = false
  cached : ∃ w, w < 16 ∧ (s.metaSet (d / 4 % s.metaSets)).ways.getD w none = some (d / 4)

theorem State.Enters.holds (h : s.Enters t) {m : DpaEntry} {d : Nat} (k : s.Holds m d) : t.Holds m d := by
  obtain ⟨hhome, hlive, halone, hcached⟩ := k
  rw [h.rest]
  exact ⟨hhome, hlive, halone, hcached⟩

/-- The page of a DPA, and its line there. -/
def DpaEntry.page (m : DpaEntry) (dpa : Nat) : Nat := m.extent.toNat * 65536 + dpa / 4096 % 65536

/-- A request as the head noted it, come to line n of page d. -/
structure Req.AtLine (q : Req) (d n : Nat) (u : Req) : Prop where
  follows : q.Follows u
  dlpn : u.dlpn = d
  lineNo : u.lineNo = n

theorem translate_serves (q : Req) (a b : BitVec 2) (s : State) (m : DpaEntry) (hreqs : s.path.reqs = [q]) (hstage : q.stage = .gather)
    (hmap : s.dpaFind q.ld (q.dpa / 2 ^ 28) = some m) (hpage : s.Holds m (m.page q.dpa)) :
    ∃ u t, translate q a b s = serve u t ∧ q.AtLine (m.page q.dpa) (q.dpa / 64 % 64) u ∧ s.Reaches t ∧ t.path.reqs = [u] := by
  let v := q.located m s.now
  let w := putReq v (cacheEntry q.source q.ld (q.dpa / 2 ^ 28) s)
  have henters : s.Enters w := (cacheEntry_enters ..).trans (putReq_enters ..)
  have hv : q.Follows v := ⟨rfl⟩
  obtain ⟨hhome, hlive, halone, hcached⟩ := henters.holds hpage
  obtain ⟨u, t, hlookup, hu, hgather, hdlpn, hline, hreach, hout⟩ := lookup_cached v a b w hlive hstage hcached
  refine ⟨u, t, ?_, ⟨hv.trans hu, hdlpn, hline⟩, henters.reaches.trans hreach, ?_⟩
  · rw [translate_mapped q a b s m hmap]
    have hadmit : admitLine v a b w = lookup v a b w := by
      rw [admitLine_eq]
      have hshared : (w.extent (extentOf v.dlpn)).shared = false := halone
      simp only [hshared, Bool.not_false, if_true]
    have hlive' : w.pageLive v.dlpn = true := hlive
    change (if m.home ≠ w.ident.devId then forwardShared v w else if w.pageLive v.dlpn then admitLine v a b w else unmappedRequest v w) = _
    rw [if_neg (not_not.2 hhome), if_pos hlive', hadmit, hlookup]
  · have hid : u.id = v.id := by rw [hu.rest]
    have hid' : v.id = q.id := rfl
    have hw : w.path.reqs = [v] := by simp [w, putReq, cacheEntry, State.modPath, hreqs, hid']
    rw [hout]
    simp [putReq, State.modPath, hw, hid]

/-- A host's request that meets nothing in its way is served at its line. -/
theorem arrive_serves (q : Req) (a b : BitVec 2) (s : State) (m : DpaEntry) (hq : q.source < 16) (hnew : q.tracked = false)
    (hclear : s.Clear q.source q.ld) (hmap : s.dpaFind q.ld (q.dpa / 2 ^ 28) = some m) (hpage : s.Holds m (m.page q.dpa)) :
    ∃ u t, arrive q a b s = serve u t ∧ (q.arrived s).AtLine (m.page q.dpa) (q.dpa / 64 % 64) u ∧ s.Reaches t ∧ t.path.reqs = [u] := by
  obtain ⟨v, w, harrive, hv, hstage, henters, hreqs⟩ := arrive_translates q a b s hq hnew hclear
  have hdpa : v.dpa = q.dpa := by rw [hv.rest]; rfl
  have hld : v.ld = q.ld := by rw [hv.rest]; rfl
  obtain ⟨u, t, hserve, hu, hreach, hout⟩ := translate_serves v a b w m hreqs hstage (by rw [henters.dpaFind_eq, hld, hdpa, hmap])
    (by rw [hdpa]; exact henters.holds hpage)
  rw [hdpa] at hu
  exact ⟨u, t, harrive.trans hserve, ⟨hv.trans hu.follows, hu.dlpn, hu.lineNo⟩, henters.reaches.trans hreach, hout⟩

/-! ### The answer of a host's request -/

/-- A host's request that is verified and still wanted. -/
structure Req.FromHost (u : Req) : Prop where
  head : u.source < 16
  verified : u.verified = true
  wanted : u.dead = false

/-- What goes out for it. -/
def Req.answers (u : Req) (x : Line) (poison : Bool) (load : Nat) : Output :=
  if u.write then .writeDone u.source u.ld u.tag load else .readData u.source u.ld u.tag x poison load

theorem endComet_rest (u : Req) (poison : Bool) (s : State) : endComet u poison s = { s with comets := (endComet u poison s).comets } := by
  unfold endComet
  split
  · rfl
  · unfold writeComet
    rfl

/-- What a request's answer changes: the outputs, the counters of its traffic, comets and pools. -/
structure State.Departs (s r : State) : Prop where
  rest : r = { s with out := r.out, qos := r.qos, comets := r.comets, path := r.path }

theorem State.Departs.trans {s r q : State} (h : s.Departs r) (k : r.Departs q) : s.Departs q := by
  refine ⟨?_⟩
  rw [k.rest]; conv_lhs => rw [h.rest]

/-- A request has its answer and is gone. -/
structure State.Answers (t : State) (u : Req) (x : Line) (poison : Bool) (r : State) : Prop where
  departs : t.Departs r
  out : ∃ n, r.out.head? = some (u.answers x poison n)
  reqs : r.path.reqs = t.path.reqs.filter fun v => v.id != u.id

/-- The answer goes out and its bytes are counted. -/
def answerSent (u : Req) (x : Line) (poison : Bool) (s : State) : State :=
  (s.emit (u.answers x poison (s.devLoad u.ld))).modQos fun q => { q with bytes := Tab.set 0 q.bytes u.cls (Tab.get 0 q.bytes u.cls + 64) }

theorem respond_host (u : Req) (x : Line) (poison : Bool) (t : State) (h : u.FromHost) :
    respond u x poison t = freeEntries 0 u.requester 1 (dropReq u.id (endComet u poison (answerSent u x poison t))) := by
  obtain ⟨hhead, hverified, hwanted⟩ := h
  cases hw : u.write <;> simp [respond, finishReq, hverified, hhead, hwanted, hw, answerSent, Req.answers]

theorem answerSent_departs (u : Req) (x : Line) (poison : Bool) (s : State) : s.Departs (answerSent u x poison s) := ⟨rfl⟩
theorem endComet_departs (u : Req) (poison : Bool) (s : State) : s.Departs (endComet u poison s) := by
  rw [endComet_rest]
  exact ⟨rfl⟩
theorem dropReq_departs (i : Nat) (s : State) : s.Departs (dropReq i s) := ⟨rfl⟩
theorem freeEntries_departs (pool x n : Nat) (s : State) : s.Departs (freeEntries pool x n s) := ⟨rfl⟩

theorem respond_answers (u : Req) (x : Line) (poison : Bool) (t : State) (h : u.FromHost) : t.Answers u x poison (respond u x poison t) := by
  have hout : (endComet u poison (answerSent u x poison t)).out = u.answers x poison (t.devLoad u.ld) :: t.out := by
    rw [endComet_rest]; rfl
  have hpath : (endComet u poison (answerSent u x poison t)).path = t.path := by
    rw [endComet_rest]; rfl
  rw [respond_host u x poison t h]
  refine ⟨.trans ?_ (freeEntries_departs ..), ⟨t.devLoad u.ld, ?_⟩, ?_⟩
  · exact ((answerSent_departs ..).trans (endComet_departs ..)).trans (dropReq_departs ..)
  · rw [freeEntries, dropReq, State.modPath_out, State.modPath_out, hout, List.head?_cons]
  · have hreqs : (freeEntries 0 u.requester 1 (dropReq u.id (endComet u poison (answerSent u x poison t)))).path.reqs =
        (endComet u poison (answerSent u x poison t)).path.reqs.filter fun v => v.id != u.id := rfl
    rw [hreqs, hpath]

end Sys2Proof.Machine
end

section
namespace Sys2Proof.Machine

/-! ### Host reads at their page (R29, R86, R124, R125, R164, R239) -/

variable {s t : State} {u : Req}

/-- A host's read as it comes to its service: nothing of its line is known yet. -/
structure Req.IsRead (u : Req) : Prop where
  host : u.FromHost
  read : u.write = false
  unmerged : u.overlay = none
  unclaimed : u.scratch = none

/-- The data of a read that lies under no gathered bytes is its answer. -/
theorem answerRead_answers (x : Line) (poison : Bool) (t : State) (h : u.IsRead) : t.Answers u x poison (answerRead u x poison t) := by
  obtain ⟨⟨hhead, hverified, hwanted⟩, hread, hover, hscratch⟩ := h
  have hnone (v : Req) (hv : v = u ∨ v = u.cometFlag 4) : v.FromHost ∧ v.answers x poison = u.answers x poison ∧ v.id = u.id := by
    obtain rfl | rfl := hv
    · exact ⟨⟨hhead, hverified, hwanted⟩, rfl, rfl⟩
    · exact ⟨⟨hhead, hverified, hwanted⟩, rfl, rfl⟩
  obtain ⟨hhost, hsame, hid⟩ := hnone (if poison then u.cometFlag 4 else u) (by cases poison <;> simp)
  have hr := respond_answers (if poison then u.cometFlag 4 else u) x poison t hhost
  have hanswer : answerRead u x poison t = respond (if poison then u.cometFlag 4 else u) x poison t := by
    simp only [answerRead, hover, hscratch]
  rw [hanswer]
  obtain ⟨n, hn⟩ := hr.out
  exact ⟨hr.departs, ⟨n, by rw [hn, hsame]⟩, by rw [hr.reqs, hid]⟩

/-- Whatever the comets of it note. -/
theorem State.Answers.of_cometFlag {k : Nat} {x : Line} {poison : Bool} (h : t.Answers (u.cometFlag k) x poison s) : t.Answers u x poison s :=
  ⟨h.departs, h.out, h.reqs⟩

theorem Req.IsRead.cometFlag (h : u.IsRead) (k : Nat) : (u.cometFlag k).IsRead :=
  ⟨⟨h.host.head, h.host.verified, h.host.wanted⟩, h.read, h.unmerged, h.unclaimed⟩

/-- A poisoned block answers poison (R86). -/
theorem serveRead_poisonedBlock (hstate : (t.desc u.dlpn).state ≠ .poisoned)
    (hbit : (t.desc u.dlpn).bpoison.getLsbD (u.lineNo / 16) = true) : serveRead u t = answerRead u 0 true t := by
  simp [serveRead, hstate, hbit]

/-- Entries of write gather under no MAC hold nothing back (R90). -/
theorem unverifiedFor_none (h : ∀ g ∈ t.gather.entries, g.verified = true) : t.unverifiedFor u = false := by
  simp only [State.unverifiedFor, List.any_eq_false]
  intro g hg
  simp [h g hg]

/-- The read's block may be read, and no MAC is awaited for its line. -/
structure State.Readable (t : State) (u : Req) : Prop where
  block : (t.desc u.dlpn).state = .poisoned ∨ (t.desc u.dlpn).bpoison.getLsbD (u.lineNo / 16) = false
  verified : t.unverifiedFor u = false

/-- A line that write gather holds whole is its answer (R29). -/
theorem serveRead_gathered (h : t.Readable u) {x : Line} (ho : t.overlay u.dlpn u.lineNo = (x, BitVec.allOnes 64, false)) :
    serveRead u t = answerRead (u.cometFlag 1) x false t := by
  obtain ⟨hblock, hverified⟩ := h
  have hgo : ¬ ((t.desc u.dlpn).state ≠ .poisoned ∧ (t.desc u.dlpn).bpoison.getLsbD (u.lineNo / 16) = true) := by
    rintro ⟨hstate, hbit⟩
    obtain hp | hb := hblock
    · exact hstate hp
    · simp [hb] at hbit
  simp only [serveRead, hgo, if_false, hverified, ho, if_true, Bool.false_eq_true]

/-- A line that write gather does not hold is read by the state of its page (R29, R124, R125). -/
theorem serveRead_stored (h : t.Readable u) (hu : u.overlay = none) (ho : t.overlay u.dlpn u.lineNo = (0, 0, false)) :
    (((t.source u.dlpn).1 = .unmapped ∨ (t.source u.dlpn).1 = .zero) → serveRead u t = answerRead u 0 false t) ∧
    ((t.source u.dlpn).1 = .pattern → serveRead u t = answerRead u (patternLine (t.desc u.dlpn)) false t) ∧
    ((t.source u.dlpn).1 = .poisoned → serveRead u t = answerRead u 0 true t) ∧
    ((t.source u.dlpn).1 = .plain → serveRead u t = issueLines u [locLine (t.source u.dlpn).2.1 + u.lineNo] 0 t) := by
  obtain ⟨hblock, hverified⟩ := h
  have hgo : ¬ ((t.desc u.dlpn).state ≠ .poisoned ∧ (t.desc u.dlpn).bpoison.getLsbD (u.lineNo / 16) = true) := by
    rintro ⟨hstate, hbit⟩
    obtain hp | hb := hblock
    · exact hstate hp
    · simp [hb] at hbit
  have hsame : ({ u with overlay := none } : Req) = u := by rw [← hu]
  have hpart : (0 : BitVec 64) ≠ BitVec.allOnes 64 := by decide
  simp only [serveRead, hgo, if_false, hverified, ho, Bool.false_eq_true, hpart, if_true, hsame]
  refine ⟨?_, ?_, ?_, ?_⟩
  · rintro (h | h) <;> rw [h]
  all_goals intro h; rw [h]

/-! #### A line goes to its channel (R164, R191, R239) -/

/-- A read of the source of a MOVING page is counted. -/
def countReader (d : Nat) (s : State) : State :=
  match s.record d with
  | some (q, _) => modRecord q d (fun x => { x with readers := x.readers + 1 }) s
  | none => s

/-- The read while its line is under way, and the command for it. -/
def Req.issued (u : Req) (l : Nat) (moving : Bool) (s : State) : Req :=
  { (if (s.chan (lineChan l)).refreshing then u.cometFlag 2 else u).stamp 5 s.now with
    stage := .lines, slots := 0, reader := moving, lines := [{ line := l }] }
def Req.command (u : Req) (l : Nat) (s : State) : LineCmd :=
  { line := l, req := u.id, group := if u.cls = 7 then 2 else 1, hint := u.hint, source := u.source, flow := u.flow, cls := u.cls, at_ := s.now }

theorem countReader_rest (d : Nat) (s : State) : countReader d s = { s with quads := (countReader d s).quads } := by
  unfold countReader
  split <;> rfl

theorem countReader_chan (d c : Nat) (s : State) : (countReader d s).chan c = s.chan c := by rw [countReader_rest]; rfl
theorem countReader_path (d : Nat) (s : State) : (countReader d s).path = s.path := by rw [countReader_rest]
theorem countReader_out (d : Nat) (s : State) : (countReader d s).out = s.out := by rw [countReader_rest]

theorem issueLines_one (u : Req) (l : Nat) (s : State) (h : s.readable (lineChan l) = true) : issueLines u [l] 0 s =
    let r := countReader u.dlpn s
    let w := u.issued l (s.record u.dlpn).isSome r
    enqueueGate (w.command l (putReq w r)) (putReq w r) := by
  unfold issueLines
  simp only [List.headD_cons, h, Bool.not_true, Bool.false_eq_true, if_false]
  rfl

theorem Req.issued_id (u : Req) (l : Nat) (moving : Bool) (s : State) : (u.issued l moving s).id = u.id := by
  unfold Req.issued
  split <;> rfl

/-- Where a read waits for its line, and the command that is at the gate for it. -/
structure State.Awaits (t : State) (l : Nat) (x : LineCmd) (q : Req) (r : State) : Prop where
  out : r.out = t.out
  reqs : r.path.reqs = [q]
  stage : q.stage = .lines
  lines : q.lines = [{ line := l }]
  line : x.line = l
  req : x.req = q.id
  read : x.write = none
  gate : (r.chan (lineChan l)).gate.cmds = (t.chan (lineChan l)).gate.cmds ++ [x]

theorem issueLines_awaits (u : Req) (l : Nat) (t : State) (h : t.readable (lineChan l) = true) (hreqs : t.path.reqs = [u]) :
    ∃ x q, t.Awaits l x q (issueLines u [l] 0 t) := by
  let r := countReader u.dlpn t
  let w := u.issued l (t.record u.dlpn).isSome r
  have hpath : r.path = t.path := countReader_path ..
  have hout : r.out = t.out := countReader_out ..
  have hput : (putReq w r).path.reqs = [w] := by
    have hid : w.id = u.id := Req.issued_id ..
    simp [putReq, State.modPath, hpath, hreqs, hid]
  have hgate := gate_enqueueGate (w.command l (putReq w r)) (putReq w r)
  have hchan : (putReq w r).chan (lineChan l) = t.chan (lineChan l) := countReader_chan ..
  rw [issueLines_one u l t h]
  refine ⟨w.command l (putReq w r), w, hout, hput, rfl, rfl, rfl, rfl, rfl, ?_⟩
  rw [← hchan]
  exact hgate

end Sys2Proof.Machine
end

section
namespace Sys2Proof.Machine

/-! ### What a line reads as once a write is gathered (R29, R31, R192) -/

/-- The newest bytes lie over the older ones. -/
def GEntry.over (t : Line × BitVec 64 × Bool) (g : GEntry) : Line × BitVec 64 × Bool :=
  (mergeLine t.1 g.data g.mask, t.2.1 ||| g.mask, g.poisoned || (t.2.2 && g.mask != BitVec.allOnes 64))

/-- The entries of a line, oldest first. -/
def State.lineEntries (s : State) (d n : Nat) : List GEntry := s.gather.entries.filter fun g => g.dlpn = d ∧ g.lineNo = n

theorem overlay_eq (s : State) (d n : Nat) : s.overlay d n = (s.lineEntries d n).foldl GEntry.over (0, 0, false) := rfl

/-- The entry with a write's bytes over its own. -/
def GEntry.joined (g : GEntry) (q : Req) : GEntry :=
  { g with data := mergeLine g.data q.data q.mask, mask := g.mask ||| q.mask
           poisoned := q.poisonIn || (g.poisoned && q.mask != BitVec.allOnes 64) }

/-- Two gathered lines agree outside a write's bytes. -/
def agreeOutside (mask : BitVec 64) (a b : Line × BitVec 64 × Bool) : Prop :=
  (∀ k, mask.getLsbD (k / 8) = false → a.1.getLsbD k = b.1.getLsbD k) ∧ ∀ i, mask.getLsbD i = false → a.2.1.getLsbD i = b.2.1.getLsbD i

theorem agreeOutside_over {mask : BitVec 64} {a b : Line × BitVec 64 × Bool} {x y : GEntry} (h : agreeOutside mask a b)
    (hx : agreeOutside mask (x.data, x.mask, false) (y.data, y.mask, false)) : agreeOutside mask (GEntry.over a x) (GEntry.over b y) := by
  obtain ⟨hline, hmask⟩ := h
  obtain ⟨hdata, hbytes⟩ := hx
  refine ⟨fun k hk => ?_, fun i hi => ?_⟩
  · simp only [GEntry.over, getLsbD_mergeLine]
    rw [hbytes _ hk, hdata k hk, hline k hk]
  · simp only [GEntry.over, BitVec.getLsbD_or]
    rw [hbytes i hi, hmask i hi]

theorem agreeOutside_joined (g : GEntry) (q : Req) :
    agreeOutside q.mask ((g.joined q).data, (g.joined q).mask, false) (g.data, g.mask, false) := by
  refine ⟨fun k hk => ?_, fun i hi => ?_⟩
  · simp only [GEntry.joined, getLsbD_mergeLine, hk, Bool.false_eq_true, if_false]
  · simp [GEntry.joined, hi]

/-- Whichever older entries a write joins too, only its own bytes change. -/
theorem agreeOutside_foldl (q : Req) (f : GEntry → GEntry) (hf : ∀ g, f g = g ∨ f g = g.joined q) (l : List GEntry)
    {a b : Line × BitVec 64 × Bool} (h : agreeOutside q.mask a b) :
    agreeOutside q.mask ((l.map f).foldl GEntry.over a) (l.foldl GEntry.over b) := by
  induction l generalizing a b with
  | nil => exact h
  | cons g l ih =>
    refine ih (agreeOutside_over h ?_)
    obtain hg | hg := hf g <;> rw [hg]
    · exact ⟨fun _ _ => rfl, fun _ _ => rfl⟩
    · exact agreeOutside_joined g q

/-- A line whose newest entry takes a write's bytes reads as the line with these bytes over it. -/
theorem foldl_joined (q : Req) (f : GEntry → GEntry) (hf : ∀ g, f g = g ∨ f g = g.joined q) (l : List GEntry) (g : GEntry)
    (hlast : f g = g.joined q) (a : Line × BitVec 64 × Bool) :
    let old := (l ++ [g]).foldl GEntry.over a
    let new := ((l ++ [g]).map f).foldl GEntry.over a
    new.1 = mergeLine old.1 q.data q.mask ∧ new.2.1 = old.2.1 ||| q.mask := by
  intro old new
  have hagree : agreeOutside q.mask new old := agreeOutside_foldl q f hf (l ++ [g]) ⟨fun _ _ => rfl, fun _ _ => rfl⟩
  have hnew : new = GEntry.over ((l.map f).foldl GEntry.over a) (g.joined q) := by simp [new, hlast]
  obtain ⟨hline, hbytes⟩ := hagree
  refine ⟨BitVec.eq_of_getLsbD_eq fun k _ => ?_, BitVec.eq_of_getLsbD_eq fun i _ => ?_⟩
  · rw [getLsbD_mergeLine]
    by_cases hk : q.mask.getLsbD (k / 8) = true
    · simp [hnew, GEntry.over, GEntry.joined, getLsbD_mergeLine, hk]
    · rw [if_neg hk, hline k (by simpa using hk)]
  · rw [BitVec.getLsbD_or]
    by_cases hi : q.mask.getLsbD i = true
    · simp [hnew, GEntry.over, GEntry.joined, hi]
    · rw [hbytes i (by simpa using hi)]
      simp [hi]

/-! #### The write's entry -/

/-- The write's bytes lie over what the line read as. -/
def State.Gathers (s : State) (q : Req) (r : State) : Prop :=
  (r.overlay q.dlpn q.lineNo).1 = mergeLine (s.overlay q.dlpn q.lineNo).1 q.data q.mask ∧
    (r.overlay q.dlpn q.lineNo).2.1 = (s.overlay q.dlpn q.lineNo).2.1 ||| q.mask

/-- The entry that a write joins takes its bytes. -/
def joinEntry (q : Req) (g x : GEntry) : GEntry := if x = g then g.joined q else x

theorem joinEntry_or (q : Req) (g x : GEntry) : joinEntry q g x = x ∨ joinEntry q g x = x.joined q := by
  unfold joinEntry
  split
  · rename_i h; exact .inr (by rw [h])
  · exact .inl rfl

theorem joinEntry_line (q : Req) (g x : GEntry) : (joinEntry q g x).dlpn = x.dlpn ∧ (joinEntry q g x).lineNo = x.lineNo := by
  obtain h | h := joinEntry_or q g x <;> rw [h]
  · exact ⟨rfl, rfl⟩
  · exact ⟨rfl, rfl⟩

/-- A write joins the newest entry of its line, or opens one of its own. -/
theorem storeEntry_cases (q : Req) (s : State) :
    (∃ g, (s.lineEntries q.dlpn q.lineNo).getLast? = some g ∧
      storeEntry q s = s.modGather fun t => { t with entries := t.entries.map (joinEntry q g) }) ∨
    storeEntry q s = storeEntry.addEntry q s := by
  have hmine : (s.gather.entries.filter fun g => decide (g.dlpn = q.dlpn) && decide (g.lineNo = q.lineNo)) = s.lineEntries q.dlpn q.lineNo := by
    simp [State.lineEntries]
  unfold storeEntry
  dsimp only
  rw [hmine]
  split
  · rename_i g hlast
    split
    · exact .inl ⟨g, hlast, rfl⟩
    · exact .inr rfl
  · exact .inr rfl

/-- A change of entries that keeps their lines changes each line's own entries. -/
theorem lineEntries_map (s r : State) (f : GEntry → GEntry) (hf : ∀ x, (f x).dlpn = x.dlpn ∧ (f x).lineNo = x.lineNo)
    (h : r.gather.entries = s.gather.entries.map f) (d n : Nat) : r.lineEntries d n = (s.lineEntries d n).map f := by
  have hline : (fun g : GEntry => decide (g.dlpn = d ∧ g.lineNo = n)) ∘ f = fun g => decide (g.dlpn = d ∧ g.lineNo = n) := by
    funext x
    simp [hf x]
  rw [State.lineEntries, h, List.filter_map, hline, State.lineEntries]

theorem storeEntry_gathers (q : Req) (s : State) : s.Gathers q (storeEntry q s) := by
  obtain ⟨g, hlast, hstore⟩ | hstore := storeEntry_cases q s
  · obtain ⟨l, hl⟩ := List.getLast?_eq_some_iff.1 hlast
    have hmap := lineEntries_map s (storeEntry q s) (joinEntry q g) (joinEntry_line q g) (by rw [hstore]; rfl) q.dlpn q.lineNo
    have hfold := foldl_joined q (joinEntry q g) (joinEntry_or q g) l g (by simp [joinEntry]) (0, 0, false)
    rw [State.Gathers, overlay_eq, overlay_eq, hmap, hl]
    exact hfold
  · have hnew : (storeEntry q s).lineEntries q.dlpn q.lineNo = s.lineEntries q.dlpn q.lineNo ++
        [{ dlpn := q.dlpn, lineNo := q.lineNo, data := q.data, mask := q.mask, at_ := s.now, source := q.source, flow := q.flow
           cls := q.cls, verified := q.verified, poisoned := q.poisonIn }] := by
      rw [hstore]
      simp [State.lineEntries, storeEntry.addEntry, claimEntry, State.modPath, State.modGather]
    rw [State.Gathers, overlay_eq, overlay_eq, hnew, List.foldl_append]
    exact ⟨rfl, rfl⟩

/-! #### An eviction that starts leaves the lines as they read (R165, R192) -/

/-- Every line reads as before, and the same requests are under way. -/
structure State.SameLines (s r : State) : Prop where
  overlay : ∀ d n, r.overlay d n = s.overlay d n
  reqs : r.path.reqs = s.path.reqs

theorem State.SameLines.refl (s : State) : s.SameLines s := ⟨fun _ _ => rfl, rfl⟩

theorem State.SameLines.trans {s r q : State} (h : s.SameLines r) (k : r.SameLines q) : s.SameLines q :=
  ⟨fun d n => (k.overlay d n).trans (h.overlay d n), k.reqs.trans h.reqs⟩

theorem State.SameLines.of_entries {s r : State} (h : r.gather.entries = s.gather.entries) (hp : r.path.reqs = s.path.reqs) :
    s.SameLines r := ⟨fun d n => by simp only [State.overlay, h], hp⟩

theorem State.Accounts.sameLines {s r : State} (h : s.Accounts r) : s.SameLines r := .of_entries (by rw [h.rest]) (by rw [h.rest])

/-- A verified entry of a page that is frozen. -/
def GEntry.frozenFor (d : Nat) (x : GEntry) : GEntry := if x.dlpn = d ∧ x.verified then { x with frozen := true } else x

theorem over_frozenFor (d : Nat) (t : Line × BitVec 64 × Bool) (x : GEntry) : GEntry.over t (x.frozenFor d) = GEntry.over t x := by
  unfold GEntry.frozenFor
  split <;> rfl

theorem startEviction_sameLines (d : Nat) (s : State) : s.SameLines (startEviction d s) := by
  unfold startEviction
  split
  · exact .refl s
  · refine ⟨fun e n => ?_, rfl⟩
    have hkeep (x : GEntry) : (x.frozenFor d).dlpn = x.dlpn ∧ (x.frozenFor d).lineNo = x.lineNo := by
      unfold GEntry.frozenFor
      split <;> exact ⟨rfl, rfl⟩
    rw [overlay_eq, lineEntries_map s _ (GEntry.frozenFor d) hkeep rfl, overlay_eq, List.foldl_map]
    simp only [over_frozenFor]

theorem relievePressure_sameLines (q fuel : Nat) (s : State) : s.SameLines (relievePressure q fuel s) := by
  induction fuel generalizing s with
  | zero => exact .refl s
  | succ fuel ih =>
    unfold relievePressure
    dsimp only
    split
    · exact .refl s
    · split
      · exact .refl s
      · exact (startEviction_sameLines _ _).trans (ih _)

theorem packedTriggers_sameLines (d : Nat) (s : State) : s.SameLines (packedTriggers d s) := by
  unfold packedTriggers
  split
  · exact .refl s
  · split
    · exact startEviction_sameLines ..
    · exact relievePressure_sameLines ..

/-! ### Host writes at their page (R31, R140, R144, R300) -/

/-- A host's write as it comes to its service. -/
structure Req.IsWrite (u : Req) : Prop where
  host : u.FromHost
  write : u.write = true
  clean : u.poisonIn = false

theorem hintEvent_none (u : Req) (s : State) (h : s.ril.hints = []) : hintEvent u s = s := by
  simp [hintEvent, h, forEach_nil]

theorem State.Departs.overlay_eq {s r : State} (h : s.Departs r) (d n : Nat) : r.overlay d n = s.overlay d n := by
  have hgather : r.gather = s.gather := by rw [h.rest]
  simp only [State.overlay, hgather]

theorem storeEntry_rest (q : Req) (s : State) : (storeEntry q s).ril = s.ril ∧ (storeEntry q s).path.reqs = s.path.reqs := by
  obtain ⟨g, -, hstore⟩ | hstore := storeEntry_cases q s <;> rw [hstore]
  · exact ⟨rfl, rfl⟩
  · exact ⟨rfl, rfl⟩

/-- A write's completion, with its bytes over what the line read as. -/
structure State.Stores (s : State) (u : Req) (r : State) : Prop where
  out : ∃ n, r.out.head? = some (.writeDone u.source u.ld u.tag n)
  reqs : r.path.reqs = s.path.reqs.filter fun v => v.id != u.id
  line : s.Gathers u r

theorem done_stores (u : Req) (s : State) (hu : u.IsWrite) (hh : s.ril.hints = []) : s.Stores u (serveWrite.done u s) := by
  obtain ⟨hril, hreqs⟩ := storeEntry_rest u s
  have hdone : serveWrite.done u s = respond (u.stamp 5 (packedTriggers u.dlpn (storeEntry u s)).now) 0 false
      (packedTriggers u.dlpn (storeEntry u s)) := by
    simp [serveWrite.done, hu.clean, hintEvent_none u (storeEntry u s) (by rw [hril, hh])]
  have hlines := packedTriggers_sameLines u.dlpn (storeEntry u s)
  have hr := respond_answers (u.stamp 5 (packedTriggers u.dlpn (storeEntry u s)).now) 0 false (packedTriggers u.dlpn (storeEntry u s))
    ⟨hu.host.head, hu.host.verified, hu.host.wanted⟩
  obtain ⟨n, hout⟩ := hr.out
  have hover : (serveWrite.done u s).overlay u.dlpn u.lineNo = (storeEntry u s).overlay u.dlpn u.lineNo := by
    rw [hdone, hr.departs.overlay_eq, hlines.overlay]
  refine ⟨⟨n, ?_⟩, ?_, ?_⟩
  · rw [hdone, hout, Req.answers]
    have hw : (u.stamp 5 (packedTriggers u.dlpn (storeEntry u s)).now).write = true := hu.write
    rw [if_pos hw]
    rfl
  · rw [hdone, hr.reqs, hlines.reqs, hreqs]
    rfl
  · rw [State.Gathers, hover]
    exact storeEntry_gathers u s

theorem State.SameLines.stores {s t r : State} {u : Req} (h : s.SameLines t) (k : t.Stores u r) : s.Stores u r :=
  ⟨k.out, by rw [k.reqs, h.reqs], by rw [State.Gathers, ← h.overlay]; exact k.line⟩

/-- A write that meets neither a STALL nor an exhausted pool goes on to its charge. -/
structure State.Admits (t : State) (u : Req) : Prop where
  unmoved : t.record u.dlpn = none
  entry : t.mayClaim 1 u.source = true
  hintless : t.ril.hints = []

theorem serveWrite_uncharged (u : Req) (t : State) (hu : u.IsWrite) (ht : t.Admits u) (hdue : t.chargeDue u.dlpn (u.lineNo / 16) = none) :
    t.Stores u (serveWrite u t) := by
  have hserve : serveWrite u t = serveWrite.done u t := by
    simp [serveWrite, ht.unmoved, ht.entry, hdue]
  rw [hserve]
  exact done_stores u t hu ht.hintless

theorem serveWrite_granted (u : Req) (t : State) (hu : u.IsWrite) (ht : t.Admits u) {k n : Nat}
    (hdue : t.chargeDue u.dlpn (u.lineNo / 16) = some (k, n)) (hok : t.chargeOk (extentOf u.dlpn) n = true) :
    t.Stores u (serveWrite u t) := by
  let w := t.modGather fun g => { g with charges := Tab.set 0 g.charges k n }
  have hserve : serveWrite u t = serveWrite.done u (takeCharge (extentOf u.dlpn) n w) := by
    simp [serveWrite, ht.unmoved, ht.entry, hdue, hok, w]
  have hcharge := takeCharge_accounts (extentOf u.dlpn) n w
  have hentries : t.SameLines w := .of_entries rfl rfl
  have hlines := hentries.trans hcharge.sameLines
  have hhints : (takeCharge (extentOf u.dlpn) n w).ril.hints = [] := by
    rw [hcharge.rest]
    exact ht.hintless
  rw [hserve]
  exact hlines.stores (done_stores u _ hu hhints)

/-! #### A refused charge (R144) -/

/-- A write's completion after its charge was refused: its block is poisoned and its gathered lines are gone. -/
structure State.Refuses (s : State) (u : Req) (r : State) : Prop where
  out : ∃ n, r.out.head? = some (.writeDone u.source u.ld u.tag n)
  reqs : r.path.reqs = s.path.reqs.filter fun v => v.id != u.id
  poisoned : (r.desc u.dlpn).bpoison.getLsbD (u.lineNo / 16) = true
  exhausted : r.cap.poolExhausted = true
  unstored : r.cap.unstored = satAdd s.cap.unstored 1
  gone : ∀ g ∈ r.gather.entries, ¬ (g.dlpn = u.dlpn ∧ g.lineNo / 16 = u.lineNo / 16)

/-- What the report of a refusal leaves alone: the page, write gather, the requests and the capacity registers. -/
structure State.KeepsRefused (s r : State) : Prop where
  desc : ∀ d, r.desc d = s.desc d
  entries : r.gather.entries = s.gather.entries
  reqs : r.path.reqs = s.path.reqs
  cap : r.cap = s.cap

theorem State.KeepsRefused.trans {s r q : State} (h : s.KeepsRefused r) (k : r.KeepsRefused q) : s.KeepsRefused q :=
  ⟨fun d => (k.desc d).trans (h.desc d), k.entries.trans h.entries, k.reqs.trans h.reqs, k.cap.trans h.cap⟩

theorem State.Reports.keepsRefused {s r : State} (h : s.Reports r) : s.KeepsRefused r :=
  ⟨h.accounts.desc, by rw [h.rest], by rw [h.rest], h.cap_eq⟩

theorem modInteg_keepsRefused (f : Integ → Integ) (s : State) : s.KeepsRefused (s.modInteg f) := ⟨fun _ => rfl, rfl, rfl, rfl⟩

theorem listPoison_keepsRefused (d unit place source : Nat) (s : State) : s.KeepsRefused (listPoison d unit place source s) := by
  unfold listPoison
  split
  · exact ⟨fun _ => rfl, rfl, rfl, rfl⟩
  · split
    · exact modInteg_keepsRefused ..
    · exact (modInteg_keepsRefused ..).trans (condStart_reports 24 _ (by decide)).keepsRefused

/-- Sources 65 and 67 are below F3. -/
theorem refuseWrite_keepsRefused (d b : Nat) (ld : Option (Nat × Nat)) (s : State) :
    (dropRefused d b s).KeepsRefused (refuseWrite d b ld s) := by
  rw [refuseWrite_eq]
  refine .trans ((listPoison_keepsRefused d 1 b 3 _).trans (recordRefused_reports d b ld _).keepsRefused) ?_
  dsimp only
  split
  · exact (fireEvent_reports 65 _ (by decide)).keepsRefused
  · exact (fireEvent_reports 67 _ (by decide)).keepsRefused

theorem getLsbD_setBit (x : BitVec 4) (b : Nat) (h : b < 4) : (x ||| BitVec.ofNat 4 (2 ^ b)).getLsbD b = true := by
  rw [BitVec.getLsbD_or, BitVec.getLsbD_ofNat, Nat.testBit_two_pow_self]
  simp [h]

theorem dropRefused_desc (d b : Nat) (s : State) (h : b < 4) : ((dropRefused d b s).desc d).bpoison.getLsbD b = true := by
  have hset : (modDesc d (fun x => { x with bpoison := x.bpoison ||| BitVec.ofNat 4 (2 ^ b) }) (countEvent 63 0x602 none s)).desc d =
      { s.desc d with bpoison := (s.desc d).bpoison ||| BitVec.ofNat 4 (2 ^ b) } := desc_setDesc ..
  have hdesc : (dropRefused d b s).desc d = { s.desc d with bpoison := (s.desc d).bpoison ||| BitVec.ofNat 4 (2 ^ b) } := hset
  rw [hdesc]
  exact getLsbD_setBit _ b h

theorem serveWrite_refused (u : Req) (t : State) (hu : u.IsWrite) (ht : t.Admits u) (hline : u.lineNo < 64) {k n : Nat}
    (hdue : t.chargeDue u.dlpn (u.lineNo / 16) = some (k, n)) (hno : t.chargeOk (extentOf u.dlpn) n = false) :
    t.Refuses u (serveWrite u t) := by
  let b := u.lineNo / 16
  let w := refuseWrite u.dlpn b (some (u.ld, u.dpa / 2 ^ 28)) t
  have hserve : serveWrite u t = respond (u.stamp 5 t.now) 0 false w := by
    simp [serveWrite, ht.unmoved, ht.entry, hdue, hno, hu.host.head, w, b]
  have hw : (dropRefused u.dlpn b t).KeepsRefused w := refuseWrite_keepsRefused ..
  have hr := respond_answers (u.stamp 5 t.now) 0 false w ⟨hu.host.head, hu.host.verified, hu.host.wanted⟩
  have hdesc (d : Nat) : (respond (u.stamp 5 t.now) 0 false w).desc d = w.desc d := by rw [hr.departs.rest]; rfl
  have hcap : (respond (u.stamp 5 t.now) 0 false w).cap = w.cap := by rw [hr.departs.rest]
  have hgather : (respond (u.stamp 5 t.now) 0 false w).gather = w.gather := by rw [hr.departs.rest]
  obtain ⟨m, hout⟩ := hr.out
  rw [hserve]
  refine ⟨⟨m, ?_⟩, ?_, ?_, ?_, ?_, ?_⟩
  · have hwrite : (u.stamp 5 t.now).write = true := hu.write
    rw [hout, Req.answers, if_pos hwrite]
    rfl
  · rw [hr.reqs, hw.reqs]
    rfl
  · rw [hdesc, hw.desc]
    exact dropRefused_desc u.dlpn b t (by omega)
  · rw [hcap, hw.cap]
    rfl
  · rw [hcap, hw.cap]
    rfl
  · rw [hgather, hw.entries]
    intro g hg
    have hkept : (g.dlpn != u.dlpn || g.lineNo / 16 != b) = true := (List.mem_filter.1 hg).2
    rintro ⟨hpage, hblock⟩
    simp [hpage, hblock, b] at hkept

end Sys2Proof.Machine
end

section
namespace Sys2Proof.Machine

/-! ### Host requests from arrival to their answer (O50) -/

/-- A host's read and write as they arrive (R29, R31). -/
def hostReadReq (p i : Fin 16) (dpa : BitVec 52) (tag : BitVec 16) (own : Bool) : Req :=
  { id := 0, source := p, ld := 16 * p + i, tag, write := false, own, dpa := dpa.toNat, stage := .limit }
def hostWriteReq (p i : Fin 16) (dpa : BitVec 52) (tag : BitVec 16) (data : BitVec 512) (mask : BitVec 64) : Req :=
  { id := 0, source := p, ld := 16 * p + i, tag, write := true, own := false, dpa := dpa.toNat, data, mask, stage := .limit }

section
variable {p i : Fin 16} {dpa : BitVec 52} {tag : BitVec 16} {own : Bool} {data : BitVec 512} {mask : BitVec 64} {a b : BitVec 2} {s : State}

theorem exec_hostRead_refused (h : s.accepts p = false ∨ s.ldExists (16 * p + i) = false) : exec (.hostRead p i dpa tag own a b) s = .next s := by
  change Host.Outcome.next (if s.accepts p && s.ldExists (16 * p + i) then _ else _) = _
  obtain h | h := h <;> simp [h]

theorem exec_hostWrite_refused (h : s.accepts p = false ∨ s.ldExists (16 * p + i) = false) :
    exec (.hostWrite p i dpa tag data mask false 0 a b) s = .next s := by
  change Host.Outcome.next (if s.accepts p && s.ldExists (16 * p + i) then _ else _) = _
  obtain h | h := h <;> simp [h]

theorem exec_hostRead_taken (h : s.accepts p = true) (hld : s.ldExists (16 * p + i) = true) :
    exec (.hostRead p i dpa tag own a b) s = .next (arrive (hostReadReq p i dpa tag own) a b s) := by
  change Host.Outcome.next (if s.accepts p && s.ldExists (16 * p + i) then _ else _) = _
  simp only [h, hld, Bool.and_self, if_true]
  rfl

theorem exec_hostWrite_taken (h : s.accepts p = true) (hld : s.ldExists (16 * p + i) = true) :
    exec (.hostWrite p i dpa tag data mask false 0 a b) s = .next (arrive (hostWriteReq p i dpa tag data mask) a b s) := by
  change Host.Outcome.next (if s.accepts p && s.ldExists (16 * p + i) then _ else _) = _
  simp only [h, hld, Bool.and_self, if_true]
  rfl

/-! #### A request that meets no mapping (R118) -/

/-- The sources of a port's events are below F3. -/
theorem srcPort_noMapping (p : Nat) (h : p < 16) : (((sourceInfo (srcPort p 5)).map (·.cls)).getD 0) < 3 := by
  interval_cases p <;> decide

/-- It is counted, and answered with poison when it is a read. -/
theorem unmappedRequest_answers (u : Req) (t : State) (h : u.FromHost) :
    (∃ n, (unmappedRequest u t).out.head? = some (u.answers 0 (!u.write) n)) ∧
    (unmappedRequest u t).path.reqs = (t.path.reqs.filter fun v => v.id != u.id) ∧
    (unmappedRequest u t).cap.noMapping = t.cap.noMapping + 1 ∧ (unmappedRequest u t).gather = t.gather := by
  let w := t.modCap fun c => { c with noMapping := c.noMapping + 1 }
  let v := fireEvent (srcPort u.source 5) w
  let q := if u.write then u else u.cometFlag 4
  have hun : unmappedRequest u t = respond q 0 (!u.write) v := by
    simp only [unmappedRequest, h.head, if_true, q, v, w]
  have hq : q.FromHost ∧ (∀ n, q.answers 0 (!u.write) n = u.answers 0 (!u.write) n) ∧ q.id = u.id := by
    by_cases hw : u.write = true
    · have hqu : q = u := if_pos hw
      rw [hqu]
      exact ⟨h, fun _ => rfl, rfl⟩
    · have hqu : q = u.cometFlag 4 := if_neg hw
      rw [hqu]
      exact ⟨⟨h.head, h.verified, h.wanted⟩, fun _ => rfl, rfl⟩
  obtain ⟨hhost, hsame, hid⟩ := hq
  have hv : w.Reports v := fireEvent_reports _ _ (srcPort_noMapping _ h.head)
  have hr := respond_answers q 0 (!u.write) v hhost
  obtain ⟨n, hout⟩ := hr.out
  have hcap : (respond q 0 (!u.write) v).cap = v.cap := by rw [hr.departs.rest]
  have hgather : (respond q 0 (!u.write) v).gather = v.gather := by rw [hr.departs.rest]
  rw [hun]
  refine ⟨⟨n, by rw [hout, hsame]⟩, ?_, ?_, ?_⟩
  · have hreqs : v.path.reqs = t.path.reqs := by rw [hv.rest]; rfl
    rw [hr.reqs, hreqs, hid]
  · rw [hcap, hv.cap_eq]
    rfl
  · rw [hgather, hv.rest]
    rfl

/-- A host's request to an address that its LD does not map. -/
theorem arrive_unmapped (q : Req) (a b : BitVec 2) (s : State) (hq : q.source < 16) (hnew : q.tracked = false) (hwanted : q.dead = false)
    (hclear : s.Clear q.source q.ld) (hmap : s.dpaFind q.ld (q.dpa / 2 ^ 28) = none) :
    (∃ n, (arrive q a b s).out.head? = some (q.answers 0 (!q.write) n)) ∧ (arrive q a b s).path.reqs = [] ∧
    (arrive q a b s).cap.noMapping = s.cap.noMapping + 1 ∧ (arrive q a b s).gather = s.gather := by
  obtain ⟨u, t, harrive, hu, -, henters, hreqs⟩ := arrive_translates q a b s hq hnew hclear
  have hrest := hu.rest
  have hnone : t.dpaFind u.ld (u.dpa / 2 ^ 28) = none := by rw [henters.dpaFind_eq, hrest]; exact hmap
  have hhost : (u.stamp 2 t.now).FromHost := ⟨by rw [hrest]; exact hq, by rw [hrest]; rfl, by rw [hrest]; exact hwanted⟩
  have hwrite : (u.stamp 2 t.now).write = q.write := by rw [hrest]; rfl
  have hanswers (n : Nat) : (u.stamp 2 t.now).answers 0 (!q.write) n = q.answers 0 (!q.write) n := by rw [hrest]; rfl
  obtain ⟨⟨n, hout⟩, hleft, hcount, hgather⟩ := unmappedRequest_answers (u.stamp 2 t.now) t hhost
  rw [harrive, translate_unmapped u a b t hnone]
  rw [hwrite, hanswers] at hout
  refine ⟨⟨n, hout⟩, ?_, ?_, ?_⟩
  · rw [hleft, hreqs]
    simp [Req.stamp]
  · rw [hcount, henters.rest]
  · rw [hgather, henters.rest]

/-! #### A read at its page -/

/-- The head's answers: a read's data is on its way, or a write's completion, and no request is under way any more. -/
def State.Gave (r : State) (p ld : Nat) (tag : BitVec 16) (x : Line) (poison : Bool) : Prop :=
  (∃ n, r.out.head? = some (.readData p ld tag x poison n)) ∧ r.path.reqs = []
def State.Completed (r : State) (p ld : Nat) (tag : BitVec 16) : Prop :=
  (∃ n, r.out.head? = some (.writeDone p ld tag n)) ∧ r.path.reqs = []

/-- A read of a head that has come to line n of page d, alone. -/
structure State.ReadAt (s : State) (p ld : Nat) (tag : BitVec 16) (d n : Nat) (u : Req) (t : State) : Prop where
  read : u.IsRead
  answers : ∀ x poison k, u.answers x poison k = .readData p ld tag x poison k
  dlpn : u.dlpn = d
  lineNo : u.lineNo = n
  reaches : s.Reaches t
  alone : t.path.reqs = [u]

theorem hostRead_serves {m : DpaEntry} (hclear : s.Clear p (16 * p + i)) (hmap : s.dpaFind (16 * p + i) (dpa.toNat / 2 ^ 28) = some m)
    (hpage : s.Holds m (m.page dpa.toNat)) : ∃ u t, arrive (hostReadReq p i dpa tag own) a b s = serveRead u t ∧
      s.ReadAt p (16 * p + i) tag (m.page dpa.toNat) (dpa.toNat / 64 % 64) u t := by
  obtain ⟨u, t, hserve, ⟨hfollows, hdlpn, hline⟩, hreach, halone⟩ :=
    arrive_serves (hostReadReq p i dpa tag own) a b s m p.isLt rfl hclear hmap hpage
  have hrest := hfollows.rest
  have hwrite : u.write = false := by rw [hrest]; rfl
  refine ⟨u, t, ?_, ⟨⟨⟨?_, ?_, ?_⟩, hwrite, ?_, ?_⟩, fun x poison k => ?_, hdlpn, hline, hreach, halone⟩⟩
  · rw [hserve, serve, hwrite]
    rfl
  · rw [hrest]; exact p.isLt
  all_goals rw [hrest]; rfl

theorem State.ReadAt.gave {p ld d n : Nat} {u : Req} {t : State} (h : s.ReadAt p ld tag d n u t) (x : Line) (poison : Bool) :
    (answerRead u x poison t).Gave p ld tag x poison := by
  have hr := answerRead_answers x poison t h.read
  obtain ⟨k, hk⟩ := hr.out
  exact ⟨⟨k, by rw [hk, h.answers]⟩, by rw [hr.reqs, h.alone]; simp⟩

/-- The noting of its comet changes nothing of the answer. -/
theorem State.ReadAt.gave_flagged {p ld d n : Nat} {u : Req} {t : State} (h : s.ReadAt p ld tag d n u t) (k : Nat) (x : Line) (poison : Bool) :
    (answerRead (u.cometFlag k) x poison t).Gave p ld tag x poison := by
  have hr := (answerRead_answers x poison t (h.read.cometFlag k)).of_cometFlag
  obtain ⟨j, hj⟩ := hr.out
  exact ⟨⟨j, by rw [hj, h.answers]⟩, by rw [hr.reqs, h.alone]; simp⟩

/-- A read may go on to the data of its line. -/
theorem State.ReadAt.readable {p ld d n : Nat} {u : Req} {t : State} (h : s.ReadAt p ld tag d n u t)
    (hverified : ∀ g ∈ s.gather.entries, g.verified = true)
    (hblock : (s.desc d).state = .poisoned ∨ (s.desc d).bpoison.getLsbD (n / 16) = false) : t.Readable u := by
  refine ⟨?_, unverifiedFor_none ?_⟩
  · rw [h.dlpn, h.lineNo, h.reaches.desc_eq]
    exact hblock
  · rw [h.reaches.gather_eq]
    exact hverified

/-- The source of a POISONED page is POISONED. -/
theorem source_poisoned (d : Nat) (s : State) (h : (s.desc d).state = .poisoned) : (s.source d).1 = .poisoned := by
  simp [State.source, h]

theorem State.ReadAt.overlay {p ld d n : Nat} {u : Req} {t : State} (h : s.ReadAt p ld tag d n u t) :
    t.overlay u.dlpn u.lineNo = s.overlay d n := by rw [h.dlpn, h.lineNo, h.reaches.overlay_eq]

theorem State.ReadAt.poisonedPage {p ld d n : Nat} {u : Req} {t : State} (h : s.ReadAt p ld tag d n u t)
    (hverified : ∀ g ∈ s.gather.entries, g.verified = true) (hst : (s.desc d).state = .poisoned) (ho : s.overlay d n = (0, 0, false)) :
    (serveRead u t).Gave p ld tag 0 true := by
  obtain ⟨-, -, hpoisoned, -⟩ := serveRead_stored (h.readable hverified (.inl hst)) h.read.unmerged (h.overlay.trans ho)
  rw [hpoisoned (by rw [h.dlpn, h.reaches.source_eq]; exact source_poisoned d s hst)]
  exact h.gave 0 true

theorem State.ReadAt.poisonedBlock {p ld d n : Nat} {u : Req} {t : State} (h : s.ReadAt p ld tag d n u t)
    (hst : (s.desc d).state ≠ .poisoned) (hbit : (s.desc d).bpoison.getLsbD (n / 16) = true) : (serveRead u t).Gave p ld tag 0 true := by
  rw [serveRead_poisonedBlock (by rw [h.dlpn, h.reaches.desc_eq]; exact hst) (by rw [h.dlpn, h.lineNo, h.reaches.desc_eq]; exact hbit)]
  exact h.gave 0 true

theorem State.ReadAt.gathered {p ld d n : Nat} {u : Req} {t : State} (h : s.ReadAt p ld tag d n u t)
    (hverified : ∀ g ∈ s.gather.entries, g.verified = true) (hclean : (s.desc d).bpoison.getLsbD (n / 16) = false)
    (ho : (s.overlay d n).2 = (BitVec.allOnes 64, false)) : (serveRead u t).Gave p ld tag (s.overlay d n).1 false := by
  have hover : t.overlay u.dlpn u.lineNo = ((s.overlay d n).1, BitVec.allOnes 64, false) := by rw [h.overlay, ← ho]
  rw [serveRead_gathered (h.readable hverified (.inr hclean)) hover]
  exact h.gave_flagged 1 _ false

/-- A line that write gather does not hold, of a page with no poisoned block (R124, R125, R164). -/
theorem State.ReadAt.stored {p ld d n : Nat} {u : Req} {t : State} (h : s.ReadAt p ld tag d n u t)
    (hverified : ∀ g ∈ s.gather.entries, g.verified = true) (hclean : (s.desc d).bpoison.getLsbD (n / 16) = false)
    (ho : s.overlay d n = (0, 0, false)) :
    (((s.source d).1 = .unmapped ∨ (s.source d).1 = .zero) → (serveRead u t).Gave p ld tag 0 false) ∧
    ((s.source d).1 = .pattern → (serveRead u t).Gave p ld tag (patternLine (s.desc d)) false) ∧
    ((s.source d).1 = .plain → s.readable (lineChan (locLine (s.source d).2.1 + n)) = true → s.sketch.parity = [] →
      ∃ x q, s.Awaits (locLine (s.source d).2.1 + n) x q (serveRead u t)) := by
  obtain ⟨hzero, hpattern, -, hplain⟩ := serveRead_stored (h.readable hverified (.inr hclean)) h.read.unmerged (h.overlay.trans ho)
  rw [h.dlpn, h.lineNo, h.reaches.source_eq] at hplain
  rw [h.dlpn, h.reaches.source_eq] at hzero hpattern
  rw [h.reaches.desc_eq] at hpattern
  refine ⟨fun hst => ?_, fun hst => ?_, fun hst hread hquiet => ?_⟩
  · rw [hzero hst]
    exact h.gave 0 false
  · rw [hpattern hst]
    exact h.gave _ false
  · rw [hplain hst]
    obtain ⟨x, q, hq⟩ := issueLines_awaits u _ t (by rw [h.reaches.readable_eq]; exact hread) h.alone
    obtain ⟨-, hout⟩ := h.reaches.quiet hquiet
    exact ⟨x, q, { hq with out := hq.out.trans hout, gate := by rw [hq.gate, h.reaches.chan_eq] }⟩

/-! #### A write at its page -/

/-- A write of a head that has come to line n of page d, alone. -/
structure State.WriteAt (s : State) (p ld : Nat) (tag : BitVec 16) (data : Line) (mask : BitVec 64) (d n : Nat) (u : Req) (t : State) : Prop where
  write : u.IsWrite
  source : u.source = p
  ld : u.ld = ld
  tag : u.tag = tag
  data : u.data = data
  mask : u.mask = mask
  dlpn : u.dlpn = d
  lineNo : u.lineNo = n
  reaches : s.Reaches t
  alone : t.path.reqs = [u]

theorem hostWrite_serves {m : DpaEntry} (hclear : s.Clear p (16 * p + i)) (hmap : s.dpaFind (16 * p + i) (dpa.toNat / 2 ^ 28) = some m)
    (hpage : s.Holds m (m.page dpa.toNat)) : ∃ u t, arrive (hostWriteReq p i dpa tag data mask) a b s = serveWrite u t ∧
      s.WriteAt p (16 * p + i) tag data mask (m.page dpa.toNat) (dpa.toNat / 64 % 64) u t := by
  obtain ⟨u, t, hserve, ⟨hfollows, hdlpn, hline⟩, hreach, halone⟩ :=
    arrive_serves (hostWriteReq p i dpa tag data mask) a b s m p.isLt rfl hclear hmap hpage
  have hrest := hfollows.rest
  have hwrite : u.write = true := by rw [hrest]; rfl
  refine ⟨u, t, ?_, ⟨⟨⟨?_, ?_, ?_⟩, hwrite, ?_⟩, ?_, ?_, ?_, ?_, ?_, hdlpn, hline, hreach, halone⟩⟩
  · rw [hserve, serve, hwrite]
    rfl
  · rw [hrest]; exact p.isLt
  all_goals rw [hrest]; rfl

theorem State.WriteAt.admits {p ld d n : Nat} {u : Req} {t : State} (h : s.WriteAt p ld tag data mask d n u t) (hrec : s.record d = none)
    (hentry : s.mayClaim 1 p = true) (hhints : s.ril.hints = []) : t.Admits u := by
  refine ⟨?_, ?_, ?_⟩
  · rw [h.dlpn, h.reaches.record_eq, hrec]
  · rw [h.source, h.reaches.mayClaim_eq, hentry]
  · rw [h.reaches.rest]; exact hhints

/-- The bytes of the write lie over what its line read as. -/
def State.Merged (s : State) (data : Line) (mask : BitVec 64) (d n : Nat) (r : State) : Prop :=
  (r.overlay d n).1 = mergeLine (s.overlay d n).1 data mask ∧ (r.overlay d n).2.1 = (s.overlay d n).2.1 ||| mask

theorem State.WriteAt.completed {p ld d n : Nat} {u : Req} {t r : State} (h : s.WriteAt p ld tag data mask d n u t)
    (hr : t.Stores u r) : r.Completed p ld tag ∧ s.Merged data mask d n r := by
  obtain ⟨⟨k, hout⟩, hreqs, hline⟩ := hr
  rw [h.source, h.ld, h.tag] at hout
  rw [State.Gathers, h.dlpn, h.lineNo, h.data, h.mask, h.reaches.overlay_eq] at hline
  exact ⟨⟨⟨k, hout⟩, by rw [hreqs, h.alone]; simp⟩, hline⟩

/-- A refused write completes, and its block is poisoned and not stored (R144). -/
theorem State.WriteAt.refused {p ld d n : Nat} {u : Req} {t r : State} (h : s.WriteAt p ld tag data mask d n u t) (hr : t.Refuses u r) :
    r.Completed p ld tag ∧ (r.desc d).bpoison.getLsbD (n / 16) = true ∧ r.cap.poolExhausted = true ∧
      r.cap.unstored = satAdd s.cap.unstored 1 ∧ ∀ g ∈ r.gather.entries, ¬ (g.dlpn = d ∧ g.lineNo / 16 = n / 16) := by
  obtain ⟨⟨k, hout⟩, hreqs, hpoisoned, hexhausted, hunstored, hgone⟩ := hr
  have hcap : t.cap = s.cap := by rw [h.reaches.rest]
  rw [h.source, h.ld, h.tag] at hout
  rw [h.dlpn, h.lineNo] at hpoisoned hgone
  rw [hcap] at hunstored
  exact ⟨⟨⟨k, hout⟩, by rw [hreqs, h.alone]; simp⟩, hpoisoned, hexhausted, hunstored, hgone⟩

/-- What a host's write comes to, by its charge (R140, R144). -/
theorem hostWrite_charged {m : DpaEntry} {d n : Nat} {u : Req} {t : State} {p ld : Nat} (h : s.WriteAt p ld tag data mask d n u t)
    (hd : extentOf d = m.extent.toNat) (hn : n < 64) (ht : t.Admits u) :
    (s.chargeDue d (n / 16) = none → (serveWrite u t).Completed p ld tag ∧ s.Merged data mask d n (serveWrite u t)) ∧
    ∀ k c, s.chargeDue d (n / 16) = some (k, c) →
      (s.chargeOk m.extent.toNat c = true → (serveWrite u t).Completed p ld tag ∧ s.Merged data mask d n (serveWrite u t)) ∧
      (s.chargeOk m.extent.toNat c = false → (serveWrite u t).Completed p ld tag ∧
        ((serveWrite u t).desc d).bpoison.getLsbD (n / 16) = true ∧ (serveWrite u t).cap.poolExhausted = true ∧
        (serveWrite u t).cap.unstored = satAdd s.cap.unstored 1 ∧
        ∀ g ∈ (serveWrite u t).gather.entries, ¬ (g.dlpn = d ∧ g.lineNo / 16 = n / 16)) := by
  have hdue : t.chargeDue u.dlpn (u.lineNo / 16) = s.chargeDue d (n / 16) := by rw [h.dlpn, h.lineNo, h.reaches.chargeDue_eq]
  have hok (c : Nat) : t.chargeOk (extentOf u.dlpn) c = s.chargeOk m.extent.toNat c := by rw [h.dlpn, hd, h.reaches.chargeOk_eq]
  refine ⟨fun hnone => h.completed (serveWrite_uncharged u t h.write ht (hdue.trans hnone)), fun k c hsome => ⟨fun hyes => ?_, fun hno => ?_⟩⟩
  · exact h.completed (serveWrite_granted u t h.write ht (hdue.trans hsome) ((hok c).trans hyes))
  · exact h.refused (serveWrite_refused u t h.write ht (by rw [h.lineNo]; exact hn) (hdue.trans hsome) ((hok c).trans hno))

theorem DpaEntry.extentOf_page (m : DpaEntry) (x : Nat) : extentOf (m.page x) = m.extent.toNat := by
  unfold extentOf DpaEntry.page
  omega

end

/-- Settles O50. A request that meets nothing in its way comes to its line with what stands there untouched (`State.Reaches`); the answer of
a read follows from the line's page, and a write's from its charge. -/
theorem hostRequestsAreServedFromTheirPages : Obligations.HostRequestsAreServedFromTheirPages := by
  unfold Obligations.HostRequestsAreServedFromTheirPages
  intro p i dpa tag own data mask a b s
  dsimp only
  refine ⟨fun h => ⟨exec_hostRead_refused h, exec_hostWrite_refused h⟩, fun haccepts hld => ?_⟩
  rw [exec_hostRead_taken haccepts hld, exec_hostWrite_taken haccepts hld]
  refine ⟨fun hcontained => ?_, fun hskid halone htracker hlimit hcredit => ?_⟩
  · rw [arrive_contained _ a b s hcontained]
    exact ⟨_, rfl, rfl, _, rfl, rfl, rfl⟩
  have hclear : s.Clear p (16 * p + i) := ⟨hskid, halone, htracker, hlimit, hcredit⟩
  refine ⟨fun hnone => ?_, fun m hmap hhome hlive hshared hcached hverified => ?_⟩
  · obtain ⟨⟨n, hread⟩, -, hcount, -⟩ := arrive_unmapped (hostReadReq p i dpa tag own) a b s p.isLt rfl rfl hclear hnone
    obtain ⟨⟨k, hwrite⟩, hreqs, hcounted, hgather⟩ := arrive_unmapped (hostWriteReq p i dpa tag data mask) a b s p.isLt rfl rfl hclear hnone
    exact ⟨⟨_, n, rfl, hread, hcount⟩, _, k, rfl, hwrite, hreqs, hcounted, hgather⟩
  · have hextent := m.extentOf_page dpa.toNat
    have hpage : s.Holds m (m.page dpa.toNat) := ⟨hhome, hlive, by rw [hextent]; exact hshared, hcached⟩
    obtain ⟨u, t, hserved, hat⟩ := hostRead_serves (tag := tag) (own := own) (a := a) (b := b) hclear hmap hpage
    obtain ⟨v, w, hserved', hat'⟩ := hostWrite_serves (tag := tag) (data := data) (mask := mask) (a := a) (b := b) hclear hmap hpage
    rw [hserved, hserved']
    refine ⟨fun hst ho => ?_, fun hst hbit => ?_, fun hclean => ?_, fun hrec hentry hhints => ?_⟩
    · obtain ⟨⟨n, hout⟩, hreqs⟩ := hat.poisonedPage hverified hst ho
      exact ⟨_, n, rfl, hout, hreqs⟩
    · obtain ⟨⟨n, hout⟩, hreqs⟩ := hat.poisonedBlock hst hbit
      exact ⟨_, n, rfl, hout, hreqs⟩
    · have hbit : (s.desc (m.page dpa.toNat)).bpoison.getLsbD (dpa.toNat / 64 % 64 / 16) = false := by
        rw [DpaEntry.page, hclean]
        exact BitVec.getLsbD_zero
      refine ⟨fun ho => ?_, fun ho => ?_⟩
      · obtain ⟨⟨n, hout⟩, hreqs⟩ := hat.gathered hverified hbit ho
        exact ⟨_, n, rfl, hout, hreqs⟩
      · obtain ⟨hzero, hpattern, hplain⟩ := hat.stored hverified hbit ho
        refine ⟨fun hst => ?_, fun hst => ?_, fun hst hreadable hquiet => ?_⟩
        · obtain ⟨⟨n, hout⟩, hreqs⟩ := hzero hst
          exact ⟨_, n, rfl, hout, hreqs⟩
        · obtain ⟨⟨n, hout⟩, hreqs⟩ := hpattern hst
          exact ⟨_, n, rfl, hout, hreqs⟩
        · obtain ⟨x, q, hq⟩ := hplain hst hreadable hquiet
          exact ⟨_, x, q, rfl, hq.out, hq.reqs, hq.stage, hq.lines, hq.line, hq.req, hq.read, hq.gate⟩
    · obtain ⟨huncharged, hcharged⟩ := hostWrite_charged hat' hextent (Nat.mod_lt _ (by decide)) (hat'.admits hrec hentry hhints)
      refine ⟨fun hnone => ?_, fun k c hsome => ⟨fun hyes => ?_, fun hno => ?_⟩⟩
      · obtain ⟨⟨⟨n, hout⟩, hreqs⟩, hmerged⟩ := huncharged hnone
        exact ⟨_, n, rfl, hout, hreqs, hmerged⟩
      · obtain ⟨⟨⟨n, hout⟩, hreqs⟩, hmerged⟩ := (hcharged k c hsome).1 hyes
        exact ⟨_, n, rfl, hout, hreqs, hmerged⟩
      · obtain ⟨⟨⟨n, hout⟩, hreqs⟩, hrefused⟩ := (hcharged k c hsome).2 hno
        exact ⟨_, n, rfl, hout, hreqs, hrefused⟩

end Sys2Proof.Machine
end

section
namespace Sys2Proof.Machine

/-! ### Bytes of a reply -/

theorem leBytes_one (n : Nat) : leBytes 1 n = [BitVec.ofNat 8 n] := rfl

theorem leBytes_one_toNat (v : BitVec 8) : leBytes 1 v.toNat = [v] := by simp [leBytes_one]

@[simp] theorem leBytes_length (k n : Nat) : (leBytes k n).length = k := by
  induction k generalizing n with
  | zero => rfl
  | succ k ih => simp [leBytes, ih]

/-! ### The checks before a command of the mailbox engine (R92 to R95) -/

/-- The smaller of the two payload buffers is that of the MCTP command interface. -/
theorem mctpBuffer_le_payloadBuffer (cci : Cci) : 4096 ≤ payloadBuffer cci := by
  cases cci <;> simp [payloadBuffer]

theorem badLength_empty (cci : Cci) : badLength cci 0 .empty = false := by
  simp [badLength]

theorem badLength_fixed (cci : Cci) {n : Nat} (h : n ≤ 4096 := by decide) : badLength cci n (.fixed n) = false := by
  simp [badLength, h.trans (mctpBuffer_le_payloadBuffer cci)]

theorem State.permits_any (s : State) (cci : Cci) : s.permits cci .any = true := by
  cases cci <;> rfl

theorem State.permits_mctp (s : State) (path : Via) : s.permits .mctp path = true := by
  cases path <;> rfl

/-- A range inside its table that the reply holds, as Get Almanac and Get Vigil Report take it (R62, R63, R106). -/
structure RangeOk (cci : Cci) (total : Nat) (off n : BitVec 32) : Prop where
  nonzero : n ≠ 0
  offset_aligned : off.toNat % 8 = 0
  length_aligned : n.toNat % 8 = 0
  buffer : 8 + n.toNat ≤ payloadBuffer cci
  mctp : cci = .mctp → n.toNat ≤ 1024
  inside : off.toNat + n.toNat ≤ total

section
variable {cci : Cci} {total : Nat} {off n : BitVec 32}

theorem RangeOk.rangeTooLong_eq (h : RangeOk cci total off n) : rangeTooLong cci total off.toNat n.toNat = false := by
  have hin := h.inside
  have hbuffer := h.buffer
  have hmctp := h.mctp
  cases cci <;> simp_all [rangeTooLong]

theorem RangeOk.length_ne_zero (h : RangeOk cci total off n) : n.toNat ≠ 0 :=
  fun hzero => h.nonzero (BitVec.eq_of_toNat_eq hzero)

/-- Of the checks for an input that is not valid, the one for a length of zero is left. -/
theorem RangeOk.aligned (h : RangeOk cci total off n) (zero : Bool) :
    (zero || decide (off.toNat % 8 ≠ 0) || decide (n.toNat % 8 ≠ 0)) = zero := by
  simp [h.offset_aligned, h.length_aligned]

end

/-! ### Parts of the replies (R96, R101, R109) -/

/-- The oldest record, named by its handle, is the one that goes. -/
theorem clearRecords_oldest {l : EventLog} {e : EventRec} {rest : List EventRec} (h : l.records = e :: rest) :
    clearRecords l false [e.handle] = some { l with records := rest, overflow := 0, firstOverflow := 0, lastOverflow := 0 } := by
  simp [clearRecords, h]

/-- Samples of one quadrant. -/
theorem takeComets_single (q n : Nat) (s : State) : takeComets [q] n s = ((s.cometQuad q).buffer.take n,
    s.modCometQuad q fun c => { c with buffer := c.buffer.drop n, lostSinceGet := 0 }) := by
  simp [takeComets]

/-- What Get Rilia Status returns after the active bank: the staged image, the threads in service, the versions and the traps (R101). -/
def State.riliaTail (s : State) : List Byte :=
  leBytes 1 s.stagedState ++ leBytes 2 0 ++ leBytes 4 s.threadsIn ++ leBytes 8 s.img.fwVersion.toNat ++
    leBytes 8 (if s.img.opRuns then s.img.opVersion.toNat else 0) ++ leBytes 8 s.img.lastSwap.toNat ++
    (List.range 10).flatMap (fun i => leBytes 2 (Tab.get 0 s.ril.trapCounts (i + 1)).toNat) ++ leBytes 1 s.ril.lastTrap.toNat ++
    leBytes 1 s.ril.lastTrapThread.toNat ++ leBytes 2 0 ++ leBytes 4 s.ril.lastTrapPc.toNat ++ leBytes 4 0

theorem State.riliaTail_length (s : State) : s.riliaTail.length = 63 := by
  simp [State.riliaTail]

/-- The byte of the active bank: 0xFF in the Lantern state and where neither bank holds an image (R101). -/
theorem leBytes_activeBank (s : State) :
    leBytes 1 (if s.start.lantern || s.ril.bank0.words.isEmpty && s.ril.bank1.words.isEmpty then 0xFF else flag s.ril.active) =
      [if s.start.lantern ∨ (s.ril.bank0.words = [] ∧ s.ril.bank1.words = []) then 0xFF else if s.ril.active then 1 else 0] := by
  rw [leBytes_one]
  cases s.ril.active <;> simp [apply_ite, flag]

/-! ### The commands of the mailbox engine (R96, R101, R104, R106, R109)

Each is run at once on a live interface that has no command in progress. -/

section
variable {cci : Cci} {s : State} (hlive : s.cciLive cci = true) (hidle : s.cciBusy cci = false)
include hlive hidle

/-- A command of the engine that passes every check runs on the state as it is, and nothing is posted. -/
theorem command_engine {opcode : BitVec 16} {len : Nat} {want : InputLen} {tooLong zero : Bool} {path : Via} {run : State → State}
    (hlen : badLength cci len want = false) (hfits : tooLong = false) (hcount : zero = false) (hpath : s.permits cci path = true) :
    command cci opcode len want tooLong zero path .engine run s = run s := by
  have hnone : s.refusal cci len want tooLong zero path .engine = none := by
    simp [State.refusal, hlen, hfits, hcount, hpath]
  simp [command, hlive, hidle, hnone]

theorem exec_identify :
    exec (.identify cci 0) s = .next (answer cci .success (wordsLe [Config.identifyWord.toNat, s.ident.serial.toNat, payloadBuffer cci]) s) :=
  congrArg Host.Outcome.next (command_engine hlive hidle (badLength_empty cci) rfl rfl (s.permits_any cci))

theorem exec_backgroundOperationStatus :
    exec (.backgroundOperationStatus cci 0) s = .next (answer cci .success (wordsLe
      [flag (s.cci (cciIndex cci)).background.running + 2 * (s.cci (cciIndex cci)).background.percent.toNat,
       (s.cci (cciIndex cci)).background.opcode.toNat, (s.cci (cciIndex cci)).background.code.toNat]) s) :=
  congrArg Host.Outcome.next (command_engine hlive hidle (badLength_empty cci) rfl rfl (s.permits_any cci))

/-! #### Logs -/

theorem exec_getSupportedLogs :
    exec (.getSupportedLogs cci 0) s = .next (answer cci .success (wordsLe [1, (effectsLog cci).length]) s) :=
  congrArg Host.Outcome.next (command_engine hlive hidle (badLength_empty cci) rfl rfl (s.permits_any cci))

theorem exec_getLog {off n : BitVec 32} (hin : off.toNat + n.toNat ≤ (effectsLog cci).length) (hbuffer : n.toNat ≤ payloadBuffer cci) :
    exec (.getLog cci 24 off n) s = .next (answer cci .success (((effectsLog cci).drop off.toNat).take n.toNat) s) :=
  congrArg Host.Outcome.next (command_engine hlive hidle (badLength_fixed cci) (by simp [hin, hbuffer]) rfl (s.permits_any cci))

/-! #### Settings of the MCTP command interface -/

theorem exec_setResponseMessageLimit (hcci : cci = .mctp) (v : BitVec 8) :
    exec (.setResponseMessageLimit cci 1 v) s = .next (answer cci .success [v] (s.modCci 256 fun c => { c with respLimit := v })) := by
  subst hcci
  rw [← leBytes_one_toNat v]
  exact congrArg Host.Outcome.next (command_engine hlive hidle (badLength_fixed _) rfl rfl (s.permits_mctp _))

theorem exec_getResponseMessageLimit (hcci : cci = .mctp) :
    exec (.getResponseMessageLimit cci 0) s = .next (answer cci .success [(s.cci 256).respLimit] s) := by
  subst hcci
  rw [← leBytes_one_toNat]
  exact congrArg Host.Outcome.next (command_engine hlive hidle (badLength_empty _) rfl rfl (s.permits_mctp _))

theorem exec_getMctpEventInterruptPolicy (hcci : cci = .mctp) :
    exec (.getMctpEventInterruptPolicy cci 0) s = .next (answer cci .success (leBytes 2 (s.cci 256).mctpPolicy.toNat) s) := by
  subst hcci
  exact congrArg Host.Outcome.next (command_engine hlive hidle (badLength_empty _) rfl rfl (s.permits_mctp _))

theorem exec_setMctpEventInterruptPolicy (hcci : cci = .mctp) (v : BitVec 16) :
    exec (.setMctpEventInterruptPolicy cci 2 v) s = .next (answer cci .success [] (s.modCci 256 fun c => { c with mctpPolicy := v })) := by
  subst hcci
  exact congrArg Host.Outcome.next (command_engine hlive hidle (badLength_fixed _) rfl rfl (s.permits_mctp _))

/-! #### Settings and event records of an LD -/

section
variable {ld : Fin 256} (hself : s.permits cci (.self ld) = true) (hld : s.ldExists ld = true)
include hself hld

/-- A command of the engine on an LD that exists. -/
theorem command_onLd {opcode : BitVec 16} {len : Nat} {want : InputLen} {run refuse : State → State} (hlen : badLength cci len want = false) :
    command cci opcode len want false false (.self ld) .engine (fun t => if t.ldExists ld then run t else refuse t) s = run s :=
  (command_engine hlive hidle hlen rfl rfl hself).trans (if_pos hld)

theorem exec_setEventInterruptPolicy (v : BitVec 40) :
    exec (.setEventInterruptPolicy cci 5 ld v) s = .next (answer cci .success [] (s.modLd ld fun d => { d with intPolicy := v })) :=
  congrArg Host.Outcome.next (command_onLd hlive hidle hself hld (badLength_fixed cci))

theorem exec_getEventInterruptPolicy :
    exec (.getEventInterruptPolicy cci 0 ld) s = .next (answer cci .success (leBytes 5 (s.ld ld).intPolicy.toNat) s) :=
  congrArg Host.Outcome.next (command_onLd hlive hidle hself hld (badLength_empty cci))

theorem exec_getTimestamp :
    exec (.getTimestamp cci 0 ld) s = .next (answer cci .success (leBytes 8 (s.time.tb + (s.ld ld).timeOffset).toNat) s) :=
  congrArg Host.Outcome.next (command_onLd hlive hidle hself hld (badLength_empty cci))

theorem exec_setTimestamp (v : BitVec 64) :
    exec (.setTimestamp cci 8 ld v) s = .next (answer cci .success [] (s.modLd ld fun d => { d with timeOffset := v - s.time.tb })) :=
  congrArg Host.Outcome.next (command_onLd hlive hidle hself hld (badLength_fixed cci))

/-- A log that fits the payload buffer is returned whole. -/
theorem exec_getEventRecords {n : BitVec 8} {k : LogKind} {l : EventLog} (hk : logOf n.toNat = some k) (hl : (s.ld ld).log k = l)
    (hfits : 128 * l.records.length + 32 ≤ payloadBuffer cci) :
    exec (.getEventRecords cci 1 ld n) s = .next (answer cci .success (wordsLe [flag (decide (l.overflow ≠ 0)) +
      65536 * l.overflow.toNat, l.firstOverflow.toNat, l.lastOverflow.toNat, l.records.length] ++ l.records.flatMap EventRec.bytes) s) := by
  have hall : l.records.take ((payloadBuffer cci - 32) / 128) = l.records := List.take_of_length_le (by omega)
  refine congrArg Host.Outcome.next ((command_engine hlive hidle (badLength_fixed cci) rfl rfl hself).trans ?_)
  simp [hk, hld, hl, hall, flag]

/-- Records that clearRecords leaves are what the log holds after Clear Event Records. -/
theorem exec_clearEventRecords {n : BitVec 8} {k : LogKind} {all : Bool} {handles : List (BitVec 16)} {len : BitVec 32} {l : EventLog}
    (hk : logOf n.toNat = some k) (hlen : len.toNat = 6 + 2 * handles.length) (hshort : len.toNat ≤ 4096)
    (hl : clearRecords ((s.ld ld).log k) all handles = some l) :
    exec (.clearEventRecords cci len ld n all handles) s = .next (answer cci .success [] (s.modLd ld fun d => d.setLog k l)) := by
  refine congrArg Host.Outcome.next ((command_engine hlive hidle (hlen ▸ badLength_fixed cci hshort) rfl rfl hself).trans ?_)
  simp [hk, hld, hl]

end

/-! #### The Almanac and the Vigil report -/

theorem exec_getAlmanac_published {off n : BitVec 32} (h : RangeOk cci (8 * s.alm.words.length) off n) (hupd : s.alm.upd = false) :
    exec (.getAlmanac cci 8 off n) s = .next (answer cci .success (leBytes 8 s.alm.generation.toNat ++
      ((s.alm.words.drop (off.toNat / 8)).take (n.toNat / 8)).flatMap fun w => leBytes 8 w.toNat) s) := by
  refine congrArg Host.Outcome.next ((if_neg (by simp [hupd])).trans ?_)
  exact command_engine hlive hidle (badLength_fixed cci) h.rangeTooLong_eq
    ((h.aligned _).trans (decide_eq_false h.length_ne_zero)) (s.permits_any cci)

/-- A publication that runs makes Get Almanac wait (R59). -/
theorem exec_getAlmanac_publishing (off n : BitVec 32) (hupd : s.alm.upd = true) :
    exec (.getAlmanac cci 8 off n) s =
      .next (s.modAlm fun a => { a with waiting := a.waiting ++ [(cci, 8, off.toNat, n.toNat)] }) :=
  congrArg Host.Outcome.next (if_pos (by simp [hupd, hlive, hidle]))

theorem exec_getVigilReport {off n : BitVec 32} (h : RangeOk cci s.vigilReport.length off n) :
    exec (.getVigilReport cci 8 off n) s = .next (answer cci .success (leBytes 8 s.start.reportEnded.toNat ++
      (s.vigilReport.drop off.toNat).take n.toNat) s) :=
  congrArg Host.Outcome.next (command_engine hlive hidle (badLength_fixed cci) h.rangeTooLong_eq
    ((h.aligned _).trans (decide_eq_false h.nonzero)) (s.permits_any cci))

/-! #### Tallies and comets -/

/-- The reply starts with the sequence number after the last tally returned (R539). -/
theorem exec_getTallies {first : BitVec 64} {n : BitVec 32} {flt : BitVec 16} {t : Tally} {l : List Tally}
    (hmgmt : s.permits cci .mgmt = true) (hn : n ≠ 0) (hbuffer : 16 + 256 * n.toNat ≤ payloadBuffer cci)
    (hpick : s.rec_.pick first n.toNat flt = t :: l) :
    exec (.getTallies cci 16 first n flt) s = .next (answer cci .success ((leBytes 8 (((t :: l).getLast?.getD t).seq + 1).toNat ++
      leBytes 4 (t :: l).length ++ leBytes 4 (flag (s.rec_.gap first t.seq))) ++ (t :: l).flatMap Tally.bytes) s) := by
  have hlast : (t :: l).getLast? = some ((t :: l).getLast (by simp)) := List.getLast?_eq_some_getLast _
  refine congrArg Host.Outcome.next ((command_engine hlive hidle (badLength_fixed cci) (by simpa using hbuffer)
    (by simpa using hn) hmgmt).trans ?_)
  simp only [hpick, hlast, List.head?_cons, Option.getD_some]

theorem exec_getCometSamples (q : Fin 4) {n : BitVec 16} (hmgmt : s.permits cci .mgmt = true) (hn : n ≠ 0) (hmost : n.toNat ≤ 256)
    (hbuffer : 8 + 128 * n.toNat ≤ payloadBuffer cci) :
    exec (.getCometSamples cci 4 (BitVec.ofNat 8 q) n) s = .next (answer cci .success
      (leBytes 4 ((s.cometQuad q).buffer.take n.toNat).length ++ leBytes 4 (s.cometQuad q).lostSinceGet.toNat ++
        ((s.cometQuad q).buffer.take n.toNat).flatMap Comet.bytes)
      (s.modCometQuad q fun c => { c with buffer := c.buffer.drop n.toNat, lostSinceGet := 0 })) := by
  have hq : (BitVec.ofNat 8 q).toNat = q := by rw [BitVec.toNat_ofNat]; omega
  have hone : BitVec.ofNat 8 q ≠ 0xFF#8 := by bv_omega
  refine congrArg Host.Outcome.next ((command_engine hlive hidle (badLength_fixed cci) (by simpa using hbuffer)
    (by simpa using hn) hmgmt).trans ?_)
  have hvalid : ¬ (256 < n.toNat ∨ 3 < q.val ∧ BitVec.ofNat 8 q ≠ 0xFF#8) := by omega
  simp only [hq, if_neg hvalid, if_neg hone, takeComets_single, List.foldl_cons, List.foldl_nil, Nat.zero_add]

/-! #### The Rilia banks -/

/-- The active bank stands first. -/
theorem exec_getRiliaStatus : exec (.getRiliaStatus cci 0) s = .next (answer cci .success
    ((if s.start.lantern ∨ (s.ril.bank0.words = [] ∧ s.ril.bank1.words = []) then 0xFF else if s.ril.active then 1 else 0) ::
      s.riliaTail) s) := by
  refine congrArg Host.Outcome.next ((command_engine hlive hidle (badLength_empty cci) rfl rfl (s.permits_any cci)).trans ?_)
  simp only [leBytes_activeBank, State.riliaTail, List.append_assoc, List.cons_append, List.nil_append]

/-! #### Unlisted opcodes -/

theorem exec_unsupportedCommand {op : BitVec 16} (hop : op.toNat ∉ standardOpcodes ++ fabricOpcodes ++ vendorOpcodes) :
    exec (.unsupportedCommand cci 0 op) s = .next (answer cci .unsupported [] s) := by
  have hunlisted : (standardOpcodes ++ fabricOpcodes ++ vendorOpcodes).contains op.toNat = false := by
    simpa only [List.contains_eq_mem, decide_eq_false_iff_not] using hop
  refine congrArg Host.Outcome.next ((if_pos (by rw [hlive, hunlisted]; rfl)).trans ?_)
  simp [hidle]

end

/-- Settles O34. Every clause is a command of the engine that passes the checks (`command_engine`), so its answer is the one its own
lemma states. -/
theorem engineCommandsAnswerAtOnce : Obligations.EngineCommandsAnswerAtOnce := by
  unfold Obligations.EngineCommandsAnswerAtOnce
  intro cci s hlive hidle
  dsimp only
  refine ⟨exec_identify hlive hidle, exec_backgroundOperationStatus hlive hidle, exec_getSupportedLogs hlive hidle,
    fun off n hin hbuffer => exec_getLog hlive hidle hin hbuffer, fun hcci => ?mctp, fun ld hself hld => ?ld,
    fun off n hn hoff hlen hbuffer hmctp => ?ranges, fun hmgmt => ?mgmt, ⟨s.riliaTail, s.riliaTail_length, exec_getRiliaStatus hlive hidle⟩,
    fun op hop => exec_unsupportedCommand hlive hidle hop⟩
  case mctp =>
    exact ⟨exec_setResponseMessageLimit hlive hidle hcci, exec_getResponseMessageLimit hlive hidle hcci,
      exec_getMctpEventInterruptPolicy hlive hidle hcci, exec_setMctpEventInterruptPolicy hlive hidle hcci⟩
  case ld =>
    refine ⟨exec_setEventInterruptPolicy hlive hidle hself hld, exec_getEventInterruptPolicy hlive hidle hself hld,
      exec_getTimestamp hlive hidle hself hld, exec_setTimestamp hlive hidle hself hld, fun n k hk => ⟨fun hfits => ?_, ?_, ?_⟩⟩
    · exact exec_getEventRecords hlive hidle hself hld hk rfl hfits
    · exact exec_clearEventRecords hlive hidle hself hld hk rfl (by decide) rfl
    · intro e rest hrecords
      exact exec_clearEventRecords hlive hidle hself hld hk rfl (by decide) (clearRecords_oldest hrecords)
  case ranges =>
    refine ⟨fun hin => ⟨fun hupd => ?_, fun hupd => ?_⟩, fun hin => ?_⟩
    · exact exec_getAlmanac_published hlive hidle ⟨hn, hoff, hlen, hbuffer, hmctp, hin⟩ hupd
    · exact exec_getAlmanac_publishing hlive hidle off n hupd
    · exact exec_getVigilReport hlive hidle ⟨hn, hoff, hlen, hbuffer, hmctp, hin⟩
  case mgmt =>
    refine ⟨fun first n flt hn hbuffer t l hpick => ⟨_, ?_, exec_getTallies hlive hidle hmgmt hn hbuffer hpick, ?_⟩,
      fun q n hn hmost hbuffer => ?_⟩
    · simp
    · simp
    · exact exec_getCometSamples hlive hidle q hmgmt hn hmost hbuffer

end Sys2Proof.Machine
end

section
namespace Sys2Proof.Machine

/-! ### Commands that the firmware handles (R93 to R95, R299, R305) -/

/-- The length of an input that must be exactly so many bytes. -/
def InputLen.exact : InputLen → Option Nat
  | .empty => some 0
  | .fixed n => some n
  | .atLeast _ => none

theorem badLength_iff_of_exact (cci : Cci) (len : Nat) {want : InputLen} {n : Nat} (h : want.exact = some n) (hn : n ≤ 4096) :
    badLength cci len want = true ↔ len ≠ n := by
  have hbuffer := mctpBuffer_le_payloadBuffer cci
  cases want with
  | empty => simp_all [InputLen.exact, badLength]; omega
  | fixed m => simp_all [InputLen.exact, badLength]; omega
  | atLeast m => simp [InputLen.exact] at h

/-- What posting a command to the handler of queue 0 changes, and nothing else. -/
structure State.Posts (s t : State) : Prop where
  rest : t = { s with queues := t.queues, ctrs := t.ctrs, ril := { s.ril with nextTag := t.ril.nextTag, mbox := t.ril.mbox } }
  others : ∀ q, q ≠ 0 → t.queue q = s.queue q

theorem State.Posts.refl (s : State) : s.Posts s := ⟨rfl, fun _ _ => rfl⟩

theorem postDevice_queue_other {q k : Nat} (h : k ≠ q) (a b c d : Word) (s : State) : (postDevice q a b c d s).queue k = s.queue k := by
  unfold postDevice
  split
  · rw [countEvent, countEvents, State.modCtr_at_queue, State.modQueue_other s q _ k h]
  · exact State.modQueue_other s q _ k h

theorem postDevice_rest (q : Nat) (a b c d : Word) (s : State) :
    postDevice q a b c d s = { s with queues := (postDevice q a b c d s).queues, ctrs := (postDevice q a b c d s).ctrs } := by
  unfold postDevice
  split <;> rfl

theorem postMailbox_posts (cci : Cci) (opcode : BitVec 16) (len : Nat) (background : Bool) (s : State) :
    s.Posts (postMailbox cci opcode len background s) := by
  unfold postMailbox
  split
  · exact .refl s
  · refine ⟨?_, fun q hq => ?_⟩
    · dsimp only
      rw [postDevice_rest]
      rfl
    · exact postDevice_queue_other hq _ _ _ _ _

theorem State.Posts.answered {s t : State} (h : s.Posts t) (cci : Cci) (code : Code) (payload : List Byte) :
    s.answered (answer cci code payload t) cci code payload := by
  refine ⟨?_, h.others⟩
  conv_lhs => rw [answer, State.emit, h.rest]
  rfl

section
variable {cci : Cci} {s : State} {opcode : BitVec 16} {len n : Nat} {want : InputLen} {tooLong zero : Bool} {path : Via}
  {run : State → State}

/-- A firmware command that passes every check is posted to its handler and carried out. -/
theorem command_firmware (hserves : s.serves cci) (hlen : badLength cci len want = false) (hfits : tooLong = false)
    (hcount : zero = false) (hpath : s.permits cci path = true) :
    ∃ t, s.Posts t ∧ command cci opcode len want tooLong zero path .firmware run s = run t := by
  obtain ⟨hlive, hidle, hlantern, hbound⟩ := hserves
  have hnone : s.refusal cci len want tooLong zero path .firmware = none := by
    simp [State.refusal, hlen, hfits, hcount, hpath, hlantern, State.mailboxBound, hbound]
  exact ⟨_, postMailbox_posts cci opcode len false s, by simp [command, hlive, hidle, hnone]⟩

/-- A firmware command answers what it answers on every state that differs in the posting of it alone. -/
theorem command_answers {u : State} {code : Code} {payload : List Byte} (hserves : s.serves cci) (hlen : badLength cci len want = false)
    (hfits : tooLong = false) (hcount : zero = false) (hpath : s.permits cci path = true)
    (hrun : ∀ t, s.Posts t → ∃ v, u.Posts v ∧ run t = answer cci code payload v) :
    ∃ r, Host.Outcome.next (φ := Fault) (ρ := Refusal) (command cci opcode len want tooLong zero path .firmware run s) = .next r ∧
      u.answered r cci code payload := by
  obtain ⟨t, ht, hcommand⟩ := command_firmware (opcode := opcode) (run := run) hserves hlen hfits hcount hpath
  obtain ⟨v, hv, hanswer⟩ := hrun t ht
  exact ⟨_, rfl, by rw [hcommand, hanswer]; exact hv.answered cci code payload⟩

/-- The checks of R93 to R95 in their order, each on a command that passes the ones before it. -/
theorem command_checks (hexact : want.exact = some n) (hn : n ≤ 4096) :
    let sent := fun (code : Code) => command cci opcode len want false false path .firmware run s = answer cci code [] s
    (s.cciLive cci = false → command cci opcode len want false false path .firmware run s = s) ∧
    (s.cciLive cci = true → s.cciBusy cci = true → sent .busy) ∧
    (s.cciLive cci = true → s.cciBusy cci = false →
      (len ≠ n → sent .invalidPayloadLength) ∧
      (len = n → s.permits cci path = false → sent .unsupportedMailbox) ∧
      (len = n → s.permits cci path = true → s.start.lantern = true → sent .mediaDisabled) ∧
      (len = n → s.permits cci path = true → s.start.lantern = false → (s.queue 0).bound = none → sent .busy)) := by
  have hiff := badLength_iff_of_exact cci len hexact hn
  have hgood : len = n → badLength cci len want = false := fun h => by simpa [h] using hiff
  intro sent
  refine ⟨fun hdead => by simp [command, hdead], fun hlive hbusy => by simp [sent, command, hlive, hbusy], fun hlive hidle => ?_⟩
  have hcommand : ∀ c, s.refusal cci len want false false path .firmware = some c → sent c := fun c hc => by
    simp [sent, command, hlive, hidle, hc]
  refine ⟨fun hlen => ?length, fun hlen hpath => ?path, fun hlen hpath hlantern => ?lantern, fun hlen hpath hlantern hbound => ?bound⟩
  case length => exact hcommand _ (by simp [State.refusal, hiff.2 hlen])
  case path => exact hcommand _ (by simp [State.refusal, hgood hlen, hpath])
  case lantern => exact hcommand _ (by simp [State.refusal, hgood hlen, hpath, hlantern])
  case bound => exact hcommand _ (by simp [State.refusal, hgood hlen, hpath, hlantern, State.mailboxBound, hbound])

end

/-- A command of the firmware with an input of exactly n bytes makes the checks of R93 to R95 before any action. -/
theorem exec_checks {i : Instr} {cci : Cci} {opcode : BitVec 16} {len : BitVec 32} {want : InputLen} {n : Nat} {path : Via}
    {run : State → State} {s : State}
    (hexec : exec i s = .next (command cci opcode len.toNat want false false path .firmware run s))
    (hexact : want.exact = some n) (hn : n ≤ 4096) :
    let sent := fun (code : Code) => exec i s = .next { s with out := .command cci code [] :: s.out }
    (s.cciLive cci = false → exec i s = .next s) ∧
    (s.cciLive cci = true → s.cciBusy cci = true → sent .busy) ∧
    (s.cciLive cci = true → s.cciBusy cci = false →
      (len.toNat ≠ n → sent .invalidPayloadLength) ∧
      (len.toNat = n → s.permits cci path = false → sent .unsupportedMailbox) ∧
      (len.toNat = n → s.permits cci path = true → s.start.lantern = true → sent .mediaDisabled) ∧
      (len.toNat = n → s.permits cci path = true → s.start.lantern = false → (s.queue 0).bound = none → sent .busy)) := by
  have hchecks := command_checks (cci := cci) (s := s) (opcode := opcode) (len := len.toNat) (path := path) (run := run) hexact hn
  simp only [hexec, Host.Outcome.next.injEq]
  exact hchecks

/-- Settles O36. Every row of the list is a command of the firmware, so its checks are those of `exec_checks`. -/
theorem commandsAreCheckedBeforeTheyAct : Obligations.CommandsAreCheckedBeforeTheyAct := by
  unfold Obligations.CommandsAreCheckedBeforeTheyAct
  intro cci ld s len sent rows x hx
  simp only [rows, List.mem_cons, List.not_mem_nil, or_false] at hx
  rcases hx with rfl | rfl | rfl | rfl | rfl | rfl | rfl | rfl | rfl | rfl | rfl <;>
    exact exec_checks rfl rfl (by simp)

end Sys2Proof.Machine
end

section
namespace Sys2Proof.Machine

/-! ### Reports and settings of the firmware's commands (R77, R96, R102, R105, R107, R108, R110, R524) -/

section
variable {cci : Cci} {s : State} {opcode : BitVec 16} {len : Nat} {want : InputLen} {path : Via}

/-- A command that answers from the state alone, and changes nothing. -/
theorem command_reports {tooLong zero : Bool} {code : Code} {payload : List Byte} {run : State → State} (hserves : s.serves cci)
    (hlen : badLength cci len want = false) (hfits : tooLong = false) (hcount : zero = false) (hpath : s.permits cci path = true)
    (hrun : ∀ t, s.Posts t → run t = answer cci code payload t) :
    ∃ r, Host.Outcome.next (φ := Fault) (ρ := Refusal) (command cci opcode len want tooLong zero path .firmware run s) = .next r ∧
      s.answered r cci code payload :=
  command_answers hserves hlen hfits hcount hpath fun t ht => ⟨t, ht, hrun t ht⟩

/-- What holds after a command's run on every state that differs in the posting of it alone holds after the command. -/
theorem command_leads {tooLong zero : Bool} {P : State → Prop} {run : State → State} (hserves : s.serves cci)
    (hlen : badLength cci len want = false) (hfits : tooLong = false) (hcount : zero = false) (hpath : s.permits cci path = true)
    (hrun : ∀ t, s.Posts t → P (run t)) :
    ∃ r, Host.Outcome.next (φ := Fault) (ρ := Refusal) (command cci opcode len want tooLong zero path .firmware run s) = .next r ∧ P r := by
  obtain ⟨t, ht, hcommand⟩ := command_firmware (opcode := opcode) (run := run) hserves hlen hfits hcount hpath
  exact ⟨_, rfl, hcommand ▸ hrun t ht⟩

end

theorem State.Reports.time_eq {s r : State} (h : s.Reports r) : r.time = s.time := by rw [h.rest]

theorem postDevice_time (q : Nat) (a b c d : Word) (s : State) : (postDevice q a b c d s).time = s.time := by rw [postDevice_rest]

theorem setTimebase_time (new : BitVec 64) (s : State) :
    (setTimebase new s).time = { s.time with tb := new, uncert := 0, fallbackNs := 0, setEver := true } := by
  unfold setTimebase stepTimebase
  dsimp only
  rw [postDevice_time, (placeAll_reports ..).time_eq, (sampleTally_reports ..).time_eq]
  rfl

theorem State.Posts.exists_eq {s t : State} (h : s.Posts t) : ∃ q c n m, t = { s with queues := q, ctrs := c, ril := { s.ril with nextTag := n, mbox := m } } :=
  ⟨_, _, _, _, h.rest⟩

theorem State.Posts.modLd {s t : State} (h : s.Posts t) (i : Nat) (f : Ld → Ld) : (s.modLd i f).Posts (t.modLd i f) := by
  refine ⟨?_, h.others⟩
  obtain ⟨q, c, n, m, rfl⟩ := h.exists_eq
  rfl

theorem State.Posts.modRec {s t : State} (h : s.Posts t) (f : Recorder → Recorder) : (s.modRec f).Posts (t.modRec f) := by
  refine ⟨?_, h.others⟩
  obtain ⟨q, c, n, m, rfl⟩ := h.exists_eq
  rfl

/-- An LD named by its head and its LD-ID, neither of them 0xFF (R94). -/
theorem namedLd_own (cci : Cci) (ld : Fin 256) :
    namedLd cci (BitVec.ofNat 8 (ld / 16)).toNat (BitVec.ofNat 8 (ld % 16)).toNat = some ld.val := by
  have hhead : (BitVec.ofNat 8 (ld / 16)).toNat = ld / 16 := by simp; omega
  have hid : (BitVec.ofNat 8 (ld % 16)).toNat = ld % 16 := by simp; omega
  have hh : ld.val / 16 < 16 := by omega
  have hl : ld.val % 16 < 16 := by omega
  have hld : 16 * (ld.val / 16) + ld.val % 16 = ld := by omega
  rw [hhead, hid]
  cases cci with
  | ld i => simp only [namedLd, if_neg (show ld.val / 16 ≠ 0xFF by omega), if_neg (show ld.val % 16 ≠ 0xFF by omega), if_pos (And.intro hh hl), hld]
  | mctp => simp only [namedLd, if_pos (And.intro hh hl), hld]

section
variable {cci : Cci} {s : State} (hserves : s.serves cci)
include hserves

/-! #### Commands of an LD -/

section
variable {ld : Fin 256} (hself : s.permits cci (.self ld) = true) (hld : s.ldExists ld = true)
include hself hld

theorem exec_identifyMemoryDevice : ∃ r, exec (.identifyMemoryDevice cci 0 ld) s = .next r ∧ s.answered r cci .success (wordsLe [0, 0, 0]) :=
  command_reports hserves (badLength_empty cci) rfl rfl hself fun t ht => by
    rw [ht.rest]; exact if_pos hld

theorem exec_getHealthInfo : ∃ l, l.length = 15 ∧
    ∃ r, exec (.getHealthInfo cci 0 ld) s = .next r ∧ s.answered r cci .success (leBytes 1 s.health.toNat ++ l) := by
  refine ⟨leBytes 1 (if s.start.memActive ≠ 0 then 0 else Config.earlyMediaStatus.toNat) ++ leBytes 1 0 ++ leBytes 1 s.deviceTemp.toNat ++
    leBytes 4 0 ++ leBytes 4 s.faults.ceTotal.toNat ++ leBytes 4 0, by simp, ?_⟩
  refine command_reports hserves (badLength_empty cci) rfl rfl hself fun t ht => ?_
  simp only [← List.append_assoc]
  obtain ⟨q, c, n, m, rfl⟩ := ht.exists_eq
  exact if_pos hld

theorem exec_getAlertConfiguration : ∃ r, exec (.getAlertConfiguration cci 0 ld) s = .next r ∧ s.answered r cci .success
    (leBytes 1 (s.ld ld).alerts.valid.toNat ++ leBytes 2 (s.ld ld).alerts.warnTemp.toNat ++ leBytes 2 (s.ld ld).alerts.lowTemp.toNat ++
      leBytes 2 (s.ld ld).alerts.ceThreshold.toNat) :=
  command_reports hserves (badLength_empty cci) rfl rfl hself fun t ht => by
    obtain ⟨q, c, n, m, rfl⟩ := ht.exists_eq; exact if_pos hld

theorem exec_setAlertConfiguration (v : BitVec 8) (w l c : BitVec 16) : ∃ r, exec (.setAlertConfiguration cci 12 ld v w l c) s = .next r ∧
    (s.modLd ld fun d => { d with alerts := { valid := v, warnTemp := w, lowTemp := l, ceThreshold := c } }).answered r cci .success [] :=
  command_answers hserves (badLength_fixed cci) rfl rfl hself fun t ht => ⟨_, ht.modLd ld _, by
    obtain ⟨q, c, n, m, rfl⟩ := ht.exists_eq; exact if_pos hld⟩

end

theorem exec_getFwInfo : ∃ r, exec (.getFwInfo cci 0) s = .next r ∧ s.answered r cci .success (wordsLe [1, 1, s.img.fwVersion.toNat]) :=
  command_reports hserves (badLength_empty cci) rfl rfl (s.permits_any cci) fun t ht => by rw [ht.rest]

/-! #### Commands of management -/

section
variable (hmgmt : s.permits cci .mgmt = true)
include hmgmt

theorem exec_constellationStatus : ∃ l, l.length = 128 ∧
    ∃ r, exec (.constellationStatus cci 0) s = .next r ∧ s.answered r cci .success (leBytes 8 s.time.tb.toNat ++ l) :=
  ⟨(List.range 4).flatMap s.memberBytes, by simp [List.range_succ, State.memberBytes], 
    command_reports hserves (badLength_empty cci) rfl rfl hmgmt fun t ht => by
      obtain ⟨q, c, n, m, rfl⟩ := ht.exists_eq; rfl⟩

theorem exec_slotPowerControl_refused {slot action : BitVec 8} (hbad : slotControlBad slot.toNat action.toNat (s.chan (slot.toNat / 2)).state = true) :
    ∃ r, exec (.slotPowerControl cci 4 slot action) s = .next r ∧ s.answered r cci .invalidInput [] :=
  command_reports hserves (badLength_fixed cci) rfl rfl hmgmt fun t ht => by
    obtain ⟨q, c, n, m, rfl⟩ := ht.exists_eq; exact if_pos hbad

theorem exec_slotPowerControl_query (n : Fin 48) :
    ∃ r, exec (.slotPowerControl cci 4 (BitVec.ofNat 8 n) 0) s = .next r ∧ s.answered r cci .success (s.slotReply n) := by
  have hn : (BitVec.ofNat 8 n).toNat = n := by simp; omega
  refine command_reports hserves (badLength_fixed cci) rfl rfl hmgmt fun t ht => ?_
  obtain ⟨q, c, k, m, rfl⟩ := ht.exists_eq
  have hgood : ∀ c, ¬ slotControlBad n (0 : BitVec 8).toNat c = true := fun c => by simp [slotControlBad]; omega
  simp only [hn]
  exact if_neg (hgood _)

theorem exec_setTimebase_refused {time : BitVec 64} {back : Bool} (hbad : s.ident.role = false ∨ time < s.time.tb ∧ back = false) :
    ∃ r, exec (.setTimebase cci 16 time back) s = .next r ∧ s.answered r cci .invalidInput [] := by
  refine command_reports hserves (badLength_fixed cci) rfl rfl hmgmt fun t ht => ?_
  obtain ⟨q, c, k, m, rfl⟩ := ht.exists_eq
  exact if_pos (by obtain h | ⟨h, rfl⟩ := hbad <;> simp [h])

theorem exec_setTimebase {time : BitVec 64} {back : Bool} (hrole : s.ident.role = true) (hgood : s.time.tb ≤ time ∨ back = true) :
    ∃ r, exec (.setTimebase cci 16 time back) s = .next r ∧
      r.time = { s.time with tb := time, uncert := 0, fallbackNs := 0, setEver := true } ∧
      r.out.head? = some (.command cci .success (leBytes 8 s.time.tb.toNat ++ leBytes 8 time.toNat)) := by
  refine command_leads hserves (badLength_fixed cci) rfl rfl hmgmt fun t ht => ?_
  have hback : (!t.ident.role || (decide (time < t.time.tb) && !back)) = false := by
    rw [ht.rest]
    obtain h | rfl := hgood
    · simp [hrole, h]
    · simp [hrole]
  simp only [hback, Bool.false_eq_true, if_false]
  refine ⟨?_, ?_⟩
  · rw [answer, State.emit, setTimebase_time, ht.rest]
  · rw [ht.rest]; rfl

theorem exec_configureRecorder {config : BitVec 8} {epoch : BitVec 16} {ring : BitVec 32}
    (hgood : recorderConfigOk config.toNat epoch.toNat ring.toNat = true) : 
    let t := { s with rec_ := { s.rec_ with epoch, pendLarge := decide (config = 1), pendRing := ring.setWidth 11 } }
    ∃ r, exec (.configureRecorder cci 16 config epoch ring) s = .next r ∧ t.answered r cci .success t.rec_.settings :=
  command_answers hserves (badLength_fixed cci) rfl rfl hmgmt fun t ht => 
    ⟨_, ht.modRec fun r => { r with epoch, pendLarge := decide (config = 1), pendRing := ring.setWidth 11 }, by
      obtain ⟨q, c, n, m, rfl⟩ := ht.exists_eq; exact if_pos hgood⟩

theorem exec_configureRecorder_refused {config : BitVec 8} {epoch : BitVec 16} {ring : BitVec 32}
    (hbad : recorderConfigOk config.toNat epoch.toNat ring.toNat = false) : 
    ∃ r, exec (.configureRecorder cci 16 config epoch ring) s = .next r ∧ s.answered r cci .invalidInput [] :=
  command_reports hserves (badLength_fixed cci) rfl rfl hmgmt fun t ht => if_neg (by simp [hbad])

theorem exec_counterAccessGrant {ld : Fin 256} {action : BitVec 8} {mask : BitVec 64} (hld : s.ldExists ld = true) (haction : action.toNat ≤ 2)
    {f : BitVec 64 → BitVec 64}
    (hf : ∀ g, (if action = 1 then g ||| mask else if action = 2 then g &&& ~~~ mask else g) = f g) :
    ∃ r, exec (.counterAccessGrant cci 16 (BitVec.ofNat 8 (ld / 16)) (BitVec.ofNat 8 (ld % 16)) action mask) s = .next r ∧
      (s.modLd ld fun d => { d with ctrGrant := f d.ctrGrant }).answered r cci .success (leBytes 8 (f (s.ld ld).ctrGrant).toNat) := by
  refine command_answers hserves (badLength_fixed cci) rfl rfl hmgmt fun t ht => ⟨_, ht.modLd ld _, ?_⟩
  have hgood : (!t.ldExists ld || decide (2 < action.toNat)) = false := by
    rw [ht.rest]
    simp only [Bool.or_eq_false_iff, Bool.not_eq_false', decide_eq_false_iff_not, Nat.not_lt]
    exact ⟨hld, haction⟩
  have ht' : t.ld ld = s.ld ld := by rw [ht.rest]; rfl
  simp only [namedLd_own, hgood, Bool.false_eq_true, if_false, hf, State.modLd_self, ht']

end
end

/-- The ranges of Configure Recorder, as R105 lists them. -/
theorem recorderConfigOk_of {config : BitVec 8} {epoch : BitVec 16} {ring : BitVec 32} (hepoch : epoch ≠ 0)
    (hring : config = 0 ∧ ring = 0 ∨ config = 1 ∧ 16 ≤ ring.toNat ∧ ring.toNat ≤ 1024 ∧ ring.toNat % 16 = 0) :
    recorderConfigOk config.toNat epoch.toNat ring.toNat = true := by
  have hne : epoch.toNat ≠ 0 := fun h => hepoch (BitVec.eq_of_toNat_eq h)
  obtain ⟨rfl, rfl⟩ | ⟨rfl, hleast, hmost, hmod⟩ := hring
  · simp [recorderConfigOk, hne]
  · simp [recorderConfigOk, hne, hleast, hmost, hmod]

/-- Settles O35. Each clause is a command of the firmware that passes its checks, and its answer is the one its own lemma states. -/
theorem firmwareCommandsReportAndConfigure : Obligations.FirmwareCommandsReportAndConfigure := by
  unfold Obligations.FirmwareCommandsReportAndConfigure
  intro cci s hserves does
  refine ⟨fun ld hself hld => ?ld, exec_getFwInfo hserves, fun hmgmt => ?mgmt⟩
  case ld =>
    exact ⟨exec_identifyMemoryDevice hserves hself hld, exec_getHealthInfo hserves hself hld, exec_getAlertConfiguration hserves hself hld,
      exec_setAlertConfiguration hserves hself hld⟩
  case mgmt =>
    refine ⟨exec_constellationStatus hserves hmgmt, fun slot action hbad => ?slotRange, fun n => ⟨exec_slotPowerControl_query hserves hmgmt n, ?slotState⟩,
      fun time back => ⟨fun hrole => ?companion, fun _ hless hback => ?backwards, fun hrole hgood => ?timebase⟩,
      fun config epoch ring hepoch hring => ?recorder, fun config ring => ?noEpoch, fun ld mask hld => ⟨?reads, ?sets, ?clears⟩⟩
    case slotRange =>
      exact exec_slotPowerControl_refused hserves hmgmt (by obtain h | h := hbad <;> simp [slotControlBad, h])
    case slotState =>
      intro hactive action hleast hmost
      refine exec_slotPowerControl_refused hserves hmgmt ?_
      have hn : (BitVec.ofNat 8 n).toNat = n := by simp; omega
      obtain h | h : action.toNat = 1 ∨ 2 ≤ action.toNat := by omega
      · simp [slotControlBad, hn, hactive, slotCommandAccepted, h]
      · simp [slotControlBad, hn, hactive, slotCommandAccepted, h]
    case companion => exact exec_setTimebase_refused hserves hmgmt (.inl hrole)
    case backwards => exact exec_setTimebase_refused hserves hmgmt (.inr ⟨hless, hback⟩)
    case timebase => exact exec_setTimebase hserves hmgmt hrole hgood
    case recorder => exact exec_configureRecorder hserves hmgmt (recorderConfigOk_of hepoch hring)
    case noEpoch => exact exec_configureRecorder_refused hserves hmgmt (by simp [recorderConfigOk])
    case reads => exact exec_counterAccessGrant hserves hmgmt hld (by decide) (f := fun g => g) fun g => by simp
    case sets => exact exec_counterAccessGrant hserves hmgmt hld (by decide) (f := fun g => g ||| mask) fun g => by simp
    case clears => exact exec_counterAccessGrant hserves hmgmt hld (by decide) (f := fun g => g &&& ~~~mask) fun g => by simp

end Sys2Proof.Machine
end

section
namespace Sys2Proof.Machine

/-! ### What the fabric manager and a host read of LDs (R77, R96, R97, R115, R395) -/

/-! #### The entries of an LD, by DPA (R116) -/

theorem mem_insertByBlock (m x : DpaEntry) (l : List DpaEntry) : x ∈ insertByBlock m l ↔ x = m ∨ x ∈ l := by
  induction l with
  | nil => simp [insertByBlock]
  | cons y t ih =>
    unfold insertByBlock
    split
    · simp
    · simp only [List.mem_cons, ih]; tauto

theorem insertByBlock_ascending (m : DpaEntry) (l : List DpaEntry) (h : (l.map (·.block)).Pairwise (· ≤ ·)) :
    ((insertByBlock m l).map (·.block)).Pairwise (· ≤ ·) := by
  induction l with
  | nil => simp [insertByBlock]
  | cons y t ih =>
    have hy := (List.pairwise_cons.mp h).1
    have ht := (List.pairwise_cons.mp h).2
    unfold insertByBlock
    split
    · rename_i hlt
      refine List.pairwise_cons.mpr ⟨fun b hb => ?_, h⟩
      obtain rfl | hb := List.mem_cons.mp hb
      · exact BitVec.le_of_lt hlt
      · exact BitVec.le_trans (BitVec.le_of_lt hlt) (hy b hb)
    · rename_i hle
      refine List.pairwise_cons.mpr ⟨fun b hb => ?_, ih ht⟩
      obtain ⟨x, hx, rfl⟩ := List.mem_map.mp hb
      obtain rfl | hx := (mem_insertByBlock m x t).mp hx
      · exact BitVec.not_lt.mp hle
      · exact hy _ (List.mem_map.mpr ⟨x, hx, rfl⟩)

theorem mem_foldl_insertByBlock (x : DpaEntry) (l acc : List DpaEntry) :
    x ∈ l.foldl (fun l m => insertByBlock m l) acc ↔ x ∈ l ∨ x ∈ acc := by
  induction l generalizing acc with
  | nil => simp
  | cons m t ih => simp only [List.foldl_cons, ih, mem_insertByBlock, List.mem_cons]; tauto

theorem foldl_insertByBlock_ascending (l acc : List DpaEntry) (h : (acc.map (·.block)).Pairwise (· ≤ ·)) :
    ((l.foldl (fun l m => insertByBlock m l) acc).map (·.block)).Pairwise (· ≤ ·) := by
  induction l generalizing acc with
  | nil => exact h
  | cons m t ih => exact ih _ (insertByBlock_ascending m acc h)

theorem ld_of_mem_ldEntries {s : State} {i : Nat} {m : DpaEntry} (h : m ∈ s.ldEntries i) : m.ld.toNat = i := by
  simp only [State.ldEntries, mem_foldl_insertByBlock, List.mem_flatMap, List.mem_filter, decide_eq_true_eq, List.not_mem_nil, or_false] at h
  obtain ⟨_, _, _, hld⟩ := h
  exact hld

theorem ldEntries_ascending (s : State) (i : Nat) : ((s.ldEntries i).map (·.block)).Pairwise (· ≤ ·) :=
  foldl_insertByBlock_ascending _ [] List.Pairwise.nil

/-! #### The queries -/

section
variable {s : State} (hserves : s.serves .mctp)
include hserves

/-- A query of the fabric manager: it answers from the state alone. -/
theorem fabric_query {opcode : BitVec 16} {len : Nat} {want : InputLen} {tooLong zero : Bool} {code : Code} {payload : List Byte}
    {run : State → State} (hlen : badLength .mctp len want = false) (hfits : tooLong = false) (hcount : zero = false)
    (hrun : ∀ q c n m, let t : State := { s with queues := q, ctrs := c, ril := { s.ril with nextTag := n, mbox := m } }
      run t = answer .mctp code payload t) :
    ∃ r, Host.Outcome.next (φ := Fault) (ρ := Refusal) (command .mctp opcode len want tooLong zero .mctp .firmware run s) = .next r ∧
      s.answered r .mctp code payload :=
  command_reports hserves hlen hfits hcount (s.permits_mctp _) fun t ht => by
    obtain ⟨q, c, n, m, rfl⟩ := ht.exists_eq
    exact hrun q c n m

end

/-- Settles O37. Each query is a command of the firmware that passes its checks, and reads what posting it leaves alone. -/
theorem fabricManagerReadsLdsRegionsAndQos : Obligations.FabricManagerReadsLdsRegionsAndQos := by
  unfold Obligations.FabricManagerReadsLdsRegionsAndQos
  intro cci s hserves does n range share regions
  have hregions : ∀ i a c, regions i a c = wordsLe (8 :: s.regionWords i a c) := fun i a c => by
    simp only [regions, State.regionWords, Bool.decide_and]
  refine ⟨fun hcci => ?fabric, fun ld hself hld => ?own, fun i m hm => ld_of_mem_ldEntries hm, ldEntries_ascending s⟩
  case own =>
    refine ⟨fun first count hrange => ?_, fun first count hfirst hbuffer => ?_⟩
    · rw [hregions]
      exact command_reports hserves (badLength_fixed cci) (by simpa using hrange) rfl hself fun t ht => by
        obtain ⟨q, c, n, m, rfl⟩ := ht.exists_eq
        exact if_pos hld
    · exact command_reports hserves (badLength_fixed cci) (by simp [hfirst, hbuffer]) rfl hself fun t ht => by
        obtain ⟨q, c, n, m, rfl⟩ := ht.exists_eq
        exact if_pos hld
  case fabric =>
    subst hcci
    refine ⟨?_, ?_, ?_, fun h => ?_, fun start count => ⟨fun hstart => ⟨?_, ?_⟩, fun hcount hrange => ⟨?_, ?_⟩, fun hrange => ?_, fun hrange ld => ⟨fun hld => ?_, fun hld => ?_⟩⟩,
      fun ld first count hld hfirst hbuffer => ?_⟩
    · exact fabric_query hserves (badLength_empty _) rfl rfl fun _ _ _ _ => rfl
    · exact fabric_query hserves (badLength_empty _) rfl rfl fun _ _ _ _ => rfl
    · exact fabric_query hserves (badLength_empty _) rfl rfl fun _ _ _ _ => rfl
    · exact fabric_query hserves (badLength_empty _) rfl rfl fun _ _ _ _ => rfl
    · exact fabric_query hserves (badLength_fixed _) (by simpa using hstart) rfl fun _ _ _ _ => rfl
    · exact fabric_query hserves (badLength_fixed _) (by simpa using hstart) rfl fun _ _ _ _ => rfl
    · exact fabric_query hserves (badLength_fixed _) (by simpa using hrange) (by simpa using hcount) fun _ _ _ _ => rfl
    · exact fabric_query hserves (badLength_fixed _) (by simpa using hrange) (by simpa using hcount) fun _ _ _ _ => rfl
    · exact fabric_query hserves (badLength_fixed _) (by simpa using hrange) rfl fun _ _ _ _ => rfl
    · rw [hregions]
      exact fabric_query hserves (badLength_fixed _) (by simpa using hrange) rfl fun _ _ _ _ => if_pos hld
    · exact fabric_query hserves (badLength_fixed _) (by simpa using hrange) rfl fun _ _ _ _ => if_neg (ne_true_of_eq_false hld)
    · exact fabric_query hserves (badLength_fixed _) (by simp [hfirst, hbuffer]) rfl fun _ _ _ _ => if_pos hld

end Sys2Proof.Machine
end

section
namespace Sys2Proof.Machine

/-! ### The registers after reset (R12) -/

/-- Settles O58. The statement is closed, so each block's list is evaluated on the reset state; the opaque draws of the random generator
reach none of the registers listed. -/
theorem resetGivesTheRegistersTheirValues : Obligations.ResetGivesTheRegistersTheirValues := by
  unfold Obligations.ResetGivesTheRegistersTheirValues
  dsimp only
  refine ⟨?identity, ?quadrants, ?channels, ?ports, ?links, ?clusters, ?recorder, ?slots, rfl, rfl, ?memories, ?straps⟩
  case identity => decide +kernel
  case quadrants => decide +kernel
  case channels => decide +kernel
  case ports => decide +kernel
  case links => decide +kernel
  case clusters => decide +kernel
  case recorder => decide +kernel
  case slots => decide +kernel
  case memories => decide
  case straps => decide

end Sys2Proof.Machine
end

section
namespace Sys2Proof.Machine

/-! ### What a fault source does to the sticky bits and the conditions (R515 to R518) -/

/-! #### Reporting leaves the sources alone -/

theorem placeRecord_faults (i : Nat) (k : LogKind) (b : RecBody) (s : State) : (placeRecord i k b s).faults = s.faults := by
  unfold placeRecord notifyLog
  split <;> rfl

theorem forEach_faults {α : Type} (l : List α) (f : α → State → State) (h : ∀ a s, (f a s).faults = s.faults) (s : State) :
    (forEach l f s).faults = s.faults :=
  forEach_keeps (R := fun s r => r.faults = s.faults) (fun _ => rfl) (fun h k => k.trans h) l f h s

theorem sendPkt_faults (d : Nat) (p : OutPkt) (s : State) : (sendPkt d p s).faults = s.faults := by
  unfold sendPkt
  split <;> rfl

theorem openTxn_faults (d : Nat) (t : Txn) (c k r p : Nat) (w : List Nat) (s : State) : (openTxn d t c k r p w s).faults = s.faults :=
  sendPkt_faults ..

theorem copyTally_faults (t : Tally) (s : State) : (copyTally t s).faults = s.faults := by
  unfold copyTally
  split
  · rfl
  · split
    · exact openTxn_faults ..
    · rfl

theorem closeTally_faults (src reason : Nat) (t : Tally) (s : State) : (closeTally src reason t s).faults = s.faults := copyTally_faults ..

theorem sampleTally_faults (src : Nat) (v a b : BitVec 64) (s : State) : (sampleTally src v a b s).faults = s.faults := by
  unfold sampleTally
  dsimp only
  split
  · exact closeTally_faults ..
  · rfl

theorem sampleFault_faults (n : Nat) (s : State) : (sampleFault n s).faults = s.faults := sampleTally_faults ..

theorem updateHealth_faults (s : State) : (updateHealth s).faults = { s.faults with lastHealth := s.health } := by
  unfold updateHealth
  dsimp only
  split
  · rfl
  · exact forEach_faults _ _ (fun i s => placeRecord_faults ..) _

/-! #### A source below F3 -/

/-- The class of a source, 0 for an unused bit. -/
def sourceClass (n : Nat) : Nat := ((sourceInfo n).map (·.cls)).getD 0

/-- Only the device's own sources, those of the first word, have a class of 3 or more (R519, R520). -/
theorem sourceClass_low {n : Nat} (h : 64 ≤ n) : sourceClass n < 3 := by
  have hite (p : Prop) [Decidable p] (x y : Option SourceInfo) (hx : (x.map (·.cls)).getD 0 < 3) (hy : (y.map (·.cls)).getD 0 < 3) :
      ((if p then x else y).map (·.cls)).getD 0 < 3 := by
    split
    · exact hx
    · exact hy
  simp only [sourceClass, sourceInfo, if_neg (show n / 64 ≠ 0 by omega), capacitySource, channelSource, portSource, linkSource, policySource]
  repeat' apply hite
  all_goals decide

theorem sourceClass_srcPort (p k : Nat) : sourceClass (srcPort p k) < 3 := sourceClass_low (by unfold srcPort; omega)
theorem fireEvent_low {n : Nat} (hclass : sourceClass n < 3) (s : State) :
    fireEvent n s = if (sourceInfo n).isNone then s else updateHealth (sampleFault n (setSticky n s)) := by
  have hreact : ∀ t, reactClass n t = t := fun t => by
    unfold reactClass
    split <;> simp_all [sourceClass]
  rw [fireEvent, hreact]

theorem fireEvent_faults {n : Nat} (hclass : sourceClass n < 3) (s : State) : ∃ v h, (fireEvent n s).faults = { s.faults with sticky := v, lastHealth := h } ∧
    (v = s.faults.sticky ∨ v = (setSticky n s).faults.sticky) ∧ ((sourceInfo n).isSome = true → v = (setSticky n s).faults.sticky) := by
  rw [fireEvent_low hclass]
  split
  · rename_i hnone
    exact ⟨_, _, rfl, .inl rfl, fun hsome => by simp_all⟩
  · exact ⟨_, _, by rw [updateHealth_faults, sampleFault_faults]; rfl, .inr rfl, fun _ => rfl⟩

theorem stickySet_setSticky (n m : Nat) (s : State) : (setSticky n s).stickySet m = (decide (m = n) || s.stickySet m) := by
  have hbit : m % 64 < 64 := Nat.mod_lt _ (by decide)
  simp only [State.stickySet, State.fsticky, setSticky, State.modFaults, Tab.get_set]
  split
  · rename_i hword
    have hmn : n % 64 = m % 64 ↔ m = n := by omega
    simp [hword, hbit]
    rw [Bool.or_comm]
    congr 1
    rw [Bool.eq_iff_iff]
    simp only [Bool.and_eq_true, Bool.not_eq_true', decide_eq_true_iff, decide_eq_false_iff_not]
    omega
  · rename_i hword
    have hmn : m ≠ n := fun h => hword (by rw [h])
    simp [hmn]

theorem holds_of_live {s r : State} (h : r.faults.live = s.faults.live) (n : Nat) : r.holds n = s.holds n := by rw [State.holds, State.holds, h]

theorem stickySet_of_sticky {s r : State} (h : r.faults.sticky = s.faults.sticky) (n : Nat) : r.stickySet n = s.stickySet n := by
  rw [State.stickySet, State.stickySet, State.fsticky, State.fsticky, h]

theorem holds_fireEvent {n : Nat} (hclass : sourceClass n < 3) (s : State) (m : Nat) : (fireEvent n s).holds m = s.holds m := by
  obtain ⟨v, h, hfaults, _⟩ := fireEvent_faults hclass s
  exact holds_of_live (by rw [hfaults]) m

theorem stickySet_fireEvent_mono {n : Nat} (hclass : sourceClass n < 3) (s : State) {m : Nat} (hm : s.stickySet m = true) :
    (fireEvent n s).stickySet m = true := by
  obtain ⟨v, h, hfaults, hv, _⟩ := fireEvent_faults hclass s
  obtain rfl | rfl := hv
  · rw [stickySet_of_sticky (s := s) (by rw [hfaults]), hm]
  · rw [stickySet_of_sticky (s := setSticky n s) (by rw [hfaults]), stickySet_setSticky, hm, Bool.or_true]

theorem stickySet_fireEvent_self {n : Nat} (hclass : sourceClass n < 3) (hsome : (sourceInfo n).isSome = true) (s : State) :
    (fireEvent n s).stickySet n = true := by
  obtain ⟨v, h, hfaults, _, hv⟩ := fireEvent_faults hclass s
  obtain rfl := hv hsome
  rw [stickySet_of_sticky (s := setSticky n s) (by rw [hfaults]), stickySet_setSticky]
  simp

/-! #### Conditions -/

theorem contains_insertNat (n m : Nat) (l : List Nat) : (insertNat n l).contains m = (decide (m = n) || l.contains m) := by
  induction l with
  | nil => simp [insertNat, eq_comm]
  | cons k t ih =>
    unfold insertNat
    split
    · simp [eq_comm]
    · split
      · rename_i hnk; subst hnk
        simp [eq_comm]
      · simp only [List.contains_cons, ih]
        cases decide (m = n) <;> cases (m == k) <;> simp

/-- The state in which the condition's source fires. -/
theorem condStart_new {n : Nat} {s : State} (h : s.holds n = false) :
    condStart n s = fireEvent n (s.modFaults fun f => { f with live := insertNat n f.live }) := by
  rw [condStart, if_neg (by simp [h])]

theorem condStart_held {n : Nat} {s : State} (h : s.holds n = true) : condStart n s = s := by rw [condStart, if_pos h]

theorem holds_condStart {n : Nat} (hclass : sourceClass n < 3) (s : State) (m : Nat) : (condStart n s).holds m = (decide (m = n) || s.holds m) := by
  cases hn : s.holds n with
  | true =>
    rw [condStart_held hn]
    by_cases hm : m = n
    · subst hm; simp [hn]
    · simp [hm]
  | false => rw [condStart_new hn, holds_fireEvent hclass, State.holds, State.modFaults, contains_insertNat]; rfl

theorem stickySet_condStart_mono {n : Nat} (hclass : sourceClass n < 3) (s : State) {m : Nat} (hm : s.stickySet m = true) :
    (condStart n s).stickySet m = true := by
  cases hn : s.holds n with
  | true => rwa [condStart_held hn]
  | false => rw [condStart_new hn]; exact stickySet_fireEvent_mono hclass _ hm

theorem condEnd_faults (n : Nat) (s : State) : ∃ h, (condEnd n s).faults = { s.faults with live := s.faults.live.erase n, lastHealth := h } :=
  ⟨_, updateHealth_faults _⟩

theorem holds_condEnd_other {n m : Nat} (h : m ≠ n) (s : State) : (condEnd n s).holds m = s.holds m := by
  obtain ⟨v, hfaults⟩ := condEnd_faults n s
  simp only [State.holds, hfaults]
  rw [Bool.eq_iff_iff]
  simp [List.mem_erase_of_ne h]

/-- A condition that the list of conditions names once no longer holds after its end. -/
theorem holds_condEnd_self (n : Nat) (s : State) (h : s.faults.live.Nodup) : (condEnd n s).holds n = false := by
  obtain ⟨v, hfaults⟩ := condEnd_faults n s
  simp only [State.holds, hfaults]
  simpa using h.not_mem_erase

theorem stickySet_condEnd (n m : Nat) (s : State) : (condEnd n s).stickySet m = s.stickySet m := by
  obtain ⟨v, hfaults⟩ := condEnd_faults n s
  exact stickySet_of_sticky (by rw [hfaults]) m

end Sys2Proof.Machine
end

section
namespace Sys2Proof.Machine

/-! ### What leaves the heads alone (R68, R111)

Requests, snoops, releases and reports go on behind a port reset or a retrain. None of them touches a port, the decoders of its LDs,
DRAM, or a condition of a port. -/

/-- The state of a link, whether it is retired, and the cause of that. -/
def Uli.standing (p : Uli) : LState × Bool × BitVec 3 := (p.lstate, p.retired, p.cause)

/-- The ports, the decoders, what lets a link train, the time, DRAM, the ports' conditions and the states of the Ulilet links stand, and
no sticky bit is cleared. -/
structure State.KeepsHeads (s r : State) : Prop where
  ports : r.ports = s.ports
  start : r.start = s.start
  time : r.time = s.time
  dram : r.dram = s.dram
  pads : r.power.cxlLatched = s.power.cxlLatched
  halted : r.faults.halted = s.faults.halted
  decoders : ∀ i, (r.ld i).decoders = (s.ld i).decoders
  sticky : ∀ n, s.stickySet n = true → r.stickySet n = true
  conditions : ∀ n, 512 ≤ n → n < 640 → r.holds n = s.holds n
  links : ∀ u, (r.uli u).standing = (s.uli u).standing

theorem State.KeepsHeads.refl (s : State) : s.KeepsHeads s := ⟨rfl, rfl, rfl, rfl, rfl, rfl, fun _ => rfl, fun _ h => h, fun _ _ _ => rfl,
  fun _ => rfl⟩

theorem State.KeepsHeads.trans {s r q : State} (h : s.KeepsHeads r) (k : r.KeepsHeads q) : s.KeepsHeads q where
  ports := k.ports.trans h.ports
  start := k.start.trans h.start
  time := k.time.trans h.time
  dram := k.dram.trans h.dram
  pads := k.pads.trans h.pads
  halted := k.halted.trans h.halted
  decoders i := (k.decoders i).trans (h.decoders i)
  sticky n hn := k.sticky n (h.sticky n hn)
  conditions n hlo hhi := (k.conditions n hlo hhi).trans (h.conditions n hlo hhi)
  links u := (k.links u).trans (h.links u)

theorem State.KeepsHeads.ite {p : Prop} [Decidable p] {s r q : State} (h : s.KeepsHeads r) (k : s.KeepsHeads q) :
    s.KeepsHeads (if p then r else q) := by
  split
  · exact h
  · exact k

theorem State.KeepsHeads.ite_snd {p : Prop} [Decidable p] {s : State} {x y : Bool × State} (h : s.KeepsHeads x.2) (k : s.KeepsHeads y.2) :
    s.KeepsHeads (if p then x else y).2 := by
  split
  · exact h
  · exact k

theorem forEach_keepsHeads {α : Type} (l : List α) (f : α → State → State) (h : ∀ a s, State.KeepsHeads s (f a s)) (s : State) :
    s.KeepsHeads (forEach l f s) := forEach_keeps .refl .trans l f h s

/-- A change of other parts of the state than those named. -/
theorem State.KeepsHeads.of_eq {s r : State} (hports : r.ports = s.ports) (hstart : r.start = s.start) (htime : r.time = s.time)
    (hdram : r.dram = s.dram) (hpads : r.power.cxlLatched = s.power.cxlLatched) (hfaults : r.faults = s.faults) (hlds : r.lds = s.lds)
    (hulis : r.ulis = s.ulis) : s.KeepsHeads r where
  ports := hports
  start := hstart
  time := htime
  dram := hdram
  pads := hpads
  halted := by rw [hfaults]
  decoders i := by rw [State.ld, State.ld, hlds]
  sticky n hn := by rwa [stickySet_of_sticky (congrArg Faults.sticky hfaults)]
  conditions n _ _ := holds_of_live (by rw [hfaults]) n
  links u := by rw [State.uli, State.uli, hulis]

/-- A report that clears no sticky bit and leaves the conditions of the ports. -/
theorem State.Reports.keepsHeads {s r : State} (h : s.Reports r) (hsticky : ∀ n, s.stickySet n = true → r.stickySet n = true)
    (hconds : ∀ n, 512 ≤ n → n < 640 → r.holds n = s.holds n) : s.KeepsHeads r where
  ports := by rw [h.rest]
  start := by rw [h.rest]
  time := by rw [h.rest]
  dram := by rw [h.rest]
  pads := by rw [h.rest]
  halted := by rw [h.rest]
  decoders i := by rw [h.logs i]
  sticky := hsticky
  conditions := hconds
  links u := by rw [h.links u]; rfl

/-- A report that no source is behind. -/
theorem State.Reports.keepsHeads_of_faults {s r : State} (h : s.Reports r) (hfaults : r.faults = s.faults) : s.KeepsHeads r :=
  h.keepsHeads (fun n hn => by rwa [stickySet_of_sticky (congrArg Faults.sticky hfaults)]) fun n _ _ => holds_of_live (by rw [hfaults]) n

/-! #### Reports and sources -/

theorem fireEvent_keepsHeads {n : Nat} (hclass : sourceClass n < 3) (s : State) : s.KeepsHeads (fireEvent n s) :=
  (fireEvent_reports n s hclass).keepsHeads (fun _ => stickySet_fireEvent_mono hclass s) fun m _ _ => holds_fireEvent hclass s m

theorem condStart_keepsHeads {n : Nat} (hclass : sourceClass n < 3) (hn : n < 512 ∨ 640 ≤ n) (s : State) : s.KeepsHeads (condStart n s) := by
  refine (condStart_reports n s hclass).keepsHeads (fun _ => stickySet_condStart_mono hclass s) fun m hlo hhi => ?_
  simp [holds_condStart hclass, show m ≠ n by omega]

theorem condEnd_keepsHeads {n : Nat} (hn : n < 512 ∨ 640 ≤ n) (s : State) : s.KeepsHeads (condEnd n s) :=
  (condEnd_reports n s).keepsHeads (fun m hm => by rwa [stickySet_condEnd]) fun m hlo hhi => holds_condEnd_other (by omega) s

theorem condSet_keepsHeads {n : Nat} (hclass : sourceClass n < 3) (hn : n < 512 ∨ 640 ≤ n) (b : Bool) (s : State) : s.KeepsHeads (condSet n b s) :=
  .ite (condStart_keepsHeads hclass hn s) (condEnd_keepsHeads hn s)

theorem placeRecord_keepsHeads (i : Nat) (k : LogKind) (b : RecBody) (s : State) : s.KeepsHeads (placeRecord i k b s) :=
  (placeRecord_reports i k b s).keepsHeads_of_faults (placeRecord_faults ..)

theorem placeHead_keepsHeads (h : Nat) (k : LogKind) (b : RecBody) (s : State) : s.KeepsHeads (placeHead h k b s) :=
  forEach_keepsHeads _ _ (fun _ _ => placeRecord_keepsHeads ..) s

theorem sendPkt_keepsHeads (d : Nat) (p : OutPkt) (s : State) : s.KeepsHeads (sendPkt d p s) :=
  (sendPkt_reports d p s).keepsHeads_of_faults (sendPkt_faults ..)

theorem sendResponse_keepsHeads (d op : Nat) (tag : BitVec 16) (status : Nat) (lines : List Line) (words : List Nat) (s : State) :
    s.KeepsHeads (sendResponse d op tag status lines words s) := sendPkt_keepsHeads ..

theorem openTxn_keepsHeads (d : Nat) (t : Txn) (c k r p : Nat) (w : List Nat) (s : State) : s.KeepsHeads (openTxn d t c k r p w s) :=
  (openTxn_reports d t c k r p w s).keepsHeads_of_faults (openTxn_faults ..)

theorem countEvent_keepsHeads (b code : Nat) (ld : Option Nat) (s : State) : s.KeepsHeads (countEvent b code ld s) :=
  .of_eq rfl rfl rfl rfl rfl rfl rfl rfl

theorem emit_keepsHeads (x : Output) (s : State) : s.KeepsHeads (s.emit x) := .of_eq rfl rfl rfl rfl rfl rfl rfl rfl

/-- An update of one part of the state, other than the ports, the LDs, the start, the power and the faults. -/
theorem modPath_keepsHeads (f : Path → Path) (s : State) : s.KeepsHeads (s.modPath f) := .of_eq rfl rfl rfl rfl rfl rfl rfl rfl
theorem modCap_keepsHeads (f : Cap → Cap) (s : State) : s.KeepsHeads (s.modCap f) := .of_eq rfl rfl rfl rfl rfl rfl rfl rfl
theorem modMeta_keepsHeads (f : Meta → Meta) (s : State) : s.KeepsHeads (s.modMeta f) := .of_eq rfl rfl rfl rfl rfl rfl rfl rfl
theorem modGather_keepsHeads (f : Gather → Gather) (s : State) : s.KeepsHeads (s.modGather f) := .of_eq rfl rfl rfl rfl rfl rfl rfl rfl
theorem modConst_keepsHeads (f : Const → Const) (s : State) : s.KeepsHeads (s.modConst f) := .of_eq rfl rfl rfl rfl rfl rfl rfl rfl
theorem modInteg_keepsHeads (f : Integ → Integ) (s : State) : s.KeepsHeads (s.modInteg f) := .of_eq rfl rfl rfl rfl rfl rfl rfl rfl
theorem modSketch_keepsHeads (f : Sketch → Sketch) (s : State) : s.KeepsHeads (s.modSketch f) := .of_eq rfl rfl rfl rfl rfl rfl rfl rfl
theorem modQuad_keepsHeads (q : Nat) (f : Quad → Quad) (s : State) : s.KeepsHeads (s.modQuad q f) := .of_eq rfl rfl rfl rfl rfl rfl rfl rfl
theorem modChan_keepsHeads (c : Nat) (f : Chan → Chan) (s : State) : s.KeepsHeads (s.modChan c f) := .of_eq rfl rfl rfl rfl rfl rfl rfl rfl
theorem modDom_keepsHeads (i : Nat) (f : Dom → Dom) (s : State) : s.KeepsHeads (s.modDom i f) := .of_eq rfl rfl rfl rfl rfl rfl rfl rfl
theorem modQos_keepsHeads (f : Qos → Qos) (s : State) : s.KeepsHeads (s.modQos f) := .of_eq rfl rfl rfl rfl rfl rfl rfl rfl
theorem modRil_keepsHeads (f : Ril → Ril) (s : State) : s.KeepsHeads (s.modRil f) := .of_eq rfl rfl rfl rfl rfl rfl rfl rfl
theorem modExtent_keepsHeads (e : Nat) (f : Extent → Extent) (s : State) : s.KeepsHeads (s.modExtent e f) := .of_eq rfl rfl rfl rfl rfl rfl rfl rfl
theorem modQueue_keepsHeads (q : Nat) (f : Queue → Queue) (s : State) : s.KeepsHeads (s.modQueue q f) := .of_eq rfl rfl rfl rfl rfl rfl rfl rfl
theorem modCtr_keepsHeads (b : Nat) (f : CtrBlock → CtrBlock) (s : State) : s.KeepsHeads (s.modCtr b f) := .of_eq rfl rfl rfl rfl rfl rfl rfl rfl
theorem modAlloc_keepsHeads (c : Nat) (f : Alloc → Alloc) (s : State) : s.KeepsHeads (s.modAlloc c f) := .of_eq rfl rfl rfl rfl rfl rfl rfl rfl
theorem modThread_keepsHeads (t : Nat) (f : Thread → Thread) (s : State) : s.KeepsHeads (s.modThread t f) := .of_eq rfl rfl rfl rfl rfl rfl rfl rfl
theorem modKeySlot_keepsHeads (k : Nat) (f : KeySlot → KeySlot) (s : State) : s.KeepsHeads (s.modKeySlot k f) := .of_eq rfl rfl rfl rfl rfl rfl rfl rfl
theorem modMember_keepsHeads (d : Nat) (f : Member → Member) (s : State) : s.KeepsHeads (s.modMember d f) := .of_eq rfl rfl rfl rfl rfl rfl rfl rfl
theorem modCometQuad_keepsHeads (q : Nat) (f : CometQuad → CometQuad) (s : State) : s.KeepsHeads (s.modCometQuad q f) :=
  .of_eq rfl rfl rfl rfl rfl rfl rfl rfl

/-- A change of a link that leaves its state. -/
theorem modUli_keepsHeads (u : Nat) (f : Uli → Uli) (s : State) (hf : ∀ p, (f p).standing = p.standing) : s.KeepsHeads (s.modUli u f) where
  ports := rfl
  start := rfl
  time := rfl
  dram := rfl
  pads := rfl
  halted := rfl
  decoders _ := rfl
  sticky _ h := h
  conditions _ _ _ := rfl
  links v := by
    rw [State.modUli_at]
    split
    · rename_i hv; rw [hv, hf]
    · rfl

theorem postDevice_keepsHeads (q : Nat) (a b c d : Word) (s : State) : s.KeepsHeads (postDevice q a b c d s) := by
  unfold postDevice
  split
  · exact (modQueue_keepsHeads ..).trans (countEvent_keepsHeads ..)
  · exact modQueue_keepsHeads ..

/-! #### The account of capacity (R137, R141) -/

theorem requestRelease_keepsHeads (e : Nat) (s : State) : s.KeepsHeads (requestRelease e s) := by
  unfold requestRelease
  refine .ite ?_ (.refl s)
  exact ((modExtent_keepsHeads ..).trans (modCap_keepsHeads ..)).trans (forEach_keepsHeads _ _ (fun _ _ => placeRecord_keepsHeads ..) _)

theorem requestUntil_keepsHeads (want : Int) (l : List Nat) (s : State) : s.KeepsHeads (requestUntil want l s) := by
  induction l generalizing s with
  | nil => exact .refl s
  | cons e l ih =>
    unfold requestUntil
    exact .ite (.refl s) ((requestRelease_keepsHeads e s).trans (ih _))

theorem reportDistress_keepsHeads (entered : Bool) (s : State) : s.KeepsHeads (reportDistress entered s) := by
  unfold reportDistress
  refine .trans ?_ (postDevice_keepsHeads ..)
  exact forEach_keepsHeads _ _ (fun _ _ => placeRecord_keepsHeads ..) s

theorem enterDistress_keepsHeads (s : State) : s.KeepsHeads (enterDistress s) :=
  ((modCap_keepsHeads _ s).trans ((modCap_keepsHeads _ _).trans (requestUntil_keepsHeads ..))).trans
    ((reportDistress_keepsHeads ..).trans (condStart_keepsHeads (by decide) (by decide) _))

theorem updateCapacity_keepsHeads (s : State) : s.KeepsHeads (updateCapacity s) := by
  have hexhaust : s.KeepsHeads (endExhaustion s) := .ite (modCap_keepsHeads ..) (.refl s)
  have hshort (u : Int) (t : State) : t.KeepsHeads (endShortfall u t) :=
    .ite ((modCap_keepsHeads ..).trans (condEnd_keepsHeads (by decide) _)) (.refl t)
  have hdistress (u : Int) (t : State) : t.KeepsHeads (judgeDistress u t) := by
    unfold judgeDistress
    refine .ite (enterDistress_keepsHeads t) (.ite ?_ (.refl t))
    exact ((modCap_keepsHeads ..).trans (reportDistress_keepsHeads ..)).trans (condEnd_keepsHeads (by decide) _)
  rw [updateCapacity_eq]
  exact .ite (.refl s) ((hexhaust.trans (hshort ..)).trans (hdistress ..))

theorem addFootprint_keepsHeads (e : Nat) (n : Int) (s : State) : s.KeepsHeads (addFootprint e n s) := modCap_keepsHeads ..

theorem takeCharge_keepsHeads (e n : Nat) (s : State) : s.KeepsHeads (takeCharge e n s) :=
  ((addFootprint_keepsHeads e n s).trans (countEvent_keepsHeads ..)).trans (updateCapacity_keepsHeads _)

theorem giveBack_keepsHeads (e n : Nat) (s : State) : s.KeepsHeads (giveBack e n s) :=
  (addFootprint_keepsHeads ..).trans (updateCapacity_keepsHeads _)

/-! #### Answers -/

theorem putReq_keepsHeads (r : Req) (s : State) : s.KeepsHeads (putReq r s) := modPath_keepsHeads ..
theorem dropReq_keepsHeads (id : Nat) (s : State) : s.KeepsHeads (dropReq id s) := modPath_keepsHeads ..
theorem waitAt_keepsHeads (r : Req) (st : Stage) (s : State) : s.KeepsHeads (waitAt r st s) := putReq_keepsHeads ..
theorem claimEntry_keepsHeads (pool x : Nat) (s : State) : s.KeepsHeads (claimEntry pool x s) := modPath_keepsHeads ..
theorem freeEntries_keepsHeads (pool x n : Nat) (s : State) : s.KeepsHeads (freeEntries pool x n s) := modPath_keepsHeads ..

theorem writeComet_keepsHeads (q : Nat) (c : Comet) (s : State) : s.KeepsHeads (writeComet q c s) := .of_eq rfl rfl rfl rfl rfl rfl rfl rfl

theorem endComet_keepsHeads (r : Req) (poison : Bool) (s : State) : s.KeepsHeads (endComet r poison s) := by
  unfold endComet
  split
  · exact .refl s
  · exact writeComet_keepsHeads ..

theorem finishReq_keepsHeads (r : Req) (data : Line) (poison : Bool) (s : State) : s.KeepsHeads (finishReq r data poison s) := by
  unfold finishReq
  refine .trans (.trans ?_ (endComet_keepsHeads r poison _)) ((dropReq_keepsHeads ..).trans (freeEntries_keepsHeads ..))
  split
  · cases r.dead <;> cases r.write <;> exact .of_eq rfl rfl rfl rfl rfl rfl rfl rfl
  · exact .ite (.ite (sendResponse_keepsHeads ..) (sendResponse_keepsHeads ..)) (.refl s)

theorem respond_keepsHeads (r : Req) (data : Line) (poison : Bool) (s : State) : s.KeepsHeads (respond r data poison s) :=
  .ite (finishReq_keepsHeads ..) (putReq_keepsHeads ..)

theorem answerRead_keepsHeads (r : Req) (data : Line) (poison : Bool) (s : State) : s.KeepsHeads (answerRead r data poison s) := by
  unfold answerRead
  refine .trans ?_ (respond_keepsHeads ..)
  split
  · exact freeEntries_keepsHeads ..
  · exact .refl s

/-! #### Reads -/

theorem modRecord_keepsHeads (q dlpn : Nat) (f : MoverRec → MoverRec) (s : State) : s.KeepsHeads (modRecord q dlpn f s) := modQuad_keepsHeads ..

theorem enqueueGate_keepsHeads (x : LineCmd) (s : State) : s.KeepsHeads (enqueueGate x s) := .of_eq rfl rfl rfl rfl rfl rfl rfl rfl

theorem issueLines_keepsHeads (r : Req) (lines : List Nat) (slots : Nat) (s : State) : s.KeepsHeads (issueLines r lines slots s) := by
  unfold issueLines
  refine .ite (answerRead_keepsHeads ..) ?_
  refine .trans ?_ (forEach_keepsHeads _ _ (fun _ _ => enqueueGate_keepsHeads ..) _)
  refine .trans ?_ (putReq_keepsHeads ..)
  split
  · exact modRecord_keepsHeads ..
  · exact .refl s

theorem readPacked_keepsHeads (r : Req) (loc : BitVec 44) (len : BitVec 20) (s : State) : s.KeepsHeads (readPacked r loc len s) := by
  unfold readPacked
  refine .ite (answerRead_keepsHeads ..) ?_
  split
  · exact answerRead_keepsHeads ..
  · exact .ite (waitAt_keepsHeads ..) ((claimEntry_keepsHeads ..).trans (issueLines_keepsHeads ..))

theorem readFar_keepsHeads (r : Req) (loc : BitVec 44) (s : State) : s.KeepsHeads (readFar r loc s) := by
  unfold readFar
  refine .ite (answerRead_keepsHeads ..) (.ite (answerRead_keepsHeads ..) (.ite (waitAt_keepsHeads ..) ?_))
  refine .trans ?_ (forEach_keepsHeads _ _ (fun _ _ => openTxn_keepsHeads ..) _)
  refine .trans ?_ (putReq_keepsHeads ..)
  split
  · exact .trans (.ite (claimEntry_keepsHeads ..) (.refl s)) (modRecord_keepsHeads ..)
  · exact .ite (claimEntry_keepsHeads ..) (.refl s)

theorem serveRead_keepsHeads (r : Req) (s : State) : s.KeepsHeads (serveRead r s) := by
  unfold serveRead
  refine .ite (answerRead_keepsHeads ..) (.ite (waitAt_keepsHeads ..) (.ite (answerRead_keepsHeads ..) (.ite (answerRead_keepsHeads ..) ?_)))
  dsimp only
  split
  case h_5 => exact issueLines_keepsHeads ..
  case h_6 => exact readPacked_keepsHeads ..
  case h_7 => exact readFar_keepsHeads ..
  all_goals exact answerRead_keepsHeads ..

/-! #### Writes -/

theorem setDesc_keepsHeads (dlpn : Nat) (d : Desc) (s : State) : s.KeepsHeads (setDesc dlpn d s) := modMeta_keepsHeads ..
theorem setLock_keepsHeads (dlpn : Nat) (b : Bool) (s : State) : s.KeepsHeads (setLock dlpn b s) := modMeta_keepsHeads ..

theorem startEviction_keepsHeads (dlpn : Nat) (s : State) : s.KeepsHeads (startEviction dlpn s) :=
  .ite (.refl s) ((modGather_keepsHeads ..).trans (setLock_keepsHeads ..))

theorem relievePressure_keepsHeads (q fuel : Nat) (s : State) : s.KeepsHeads (relievePressure q fuel s) := by
  induction fuel generalizing s with
  | zero => exact .refl s
  | succ fuel ih =>
    unfold relievePressure
    refine .ite (.refl s) ?_
    split
    · exact .refl s
    · exact (startEviction_keepsHeads ..).trans (ih _)

theorem packedTriggers_keepsHeads (dlpn : Nat) (s : State) : s.KeepsHeads (packedTriggers dlpn s) :=
  .ite (.refl s) (.ite (startEviction_keepsHeads ..) (relievePressure_keepsHeads ..))

theorem hintEvent_keepsHeads (r : Req) (s : State) : s.KeepsHeads (hintEvent r s) :=
  forEach_keepsHeads _ _ (fun _ _ => postDevice_keepsHeads ..) s

theorem storeEntry_keepsHeads (r : Req) (s : State) : s.KeepsHeads (storeEntry r s) := by
  unfold storeEntry
  dsimp only
  split
  · exact .ite (modGather_keepsHeads ..) (.of_eq rfl rfl rfl rfl rfl rfl rfl rfl)
  · exact .of_eq rfl rfl rfl rfl rfl rfl rfl rfl

theorem listPoison_keepsHeads (dlpn unit place source : Nat) (s : State) : s.KeepsHeads (listPoison dlpn unit place source s) :=
  .ite (.refl s) (.ite (modInteg_keepsHeads ..) ((modInteg_keepsHeads ..).trans (condStart_keepsHeads (by decide) (by decide) _)))

theorem recordRefused_keepsHeads (dlpn b : Nat) (ld : Option (Nat × Nat)) (s : State) : s.KeepsHeads (recordRefused dlpn b ld s) := by
  cases ld with
  | some p => exact placeRecord_keepsHeads ..
  | none => exact forEach_keepsHeads _ _ (fun _ _ => placeRecord_keepsHeads ..) s

theorem dropRefused_keepsHeads (dlpn b : Nat) (s : State) : s.KeepsHeads (dropRefused dlpn b s) := by
  unfold dropRefused
  refine .trans (.trans (.trans ?_ (modGather_keepsHeads ..)) (modPath_keepsHeads ..)) (modCap_keepsHeads ..)
  exact (countEvent_keepsHeads ..).trans (setDesc_keepsHeads ..)

theorem refuseWrite_keepsHeads (dlpn b : Nat) (ld : Option (Nat × Nat)) (s : State) : s.KeepsHeads (refuseWrite dlpn b ld s) := by
  rw [refuseWrite_eq]
  have hclass (p : Prop) [Decidable p] : sourceClass (if p then 65 else 67) < 3 := by split <;> decide
  exact (((dropRefused_keepsHeads ..).trans (listPoison_keepsHeads ..)).trans (recordRefused_keepsHeads dlpn b ld _)).trans
    (fireEvent_keepsHeads (hclass _) _)

theorem serveWrite_done_keepsHeads (r : Req) (s : State) : s.KeepsHeads (serveWrite.done r s) := by
  unfold serveWrite.done
  refine .trans ?_ (respond_keepsHeads ..)
  refine .trans ?_ (packedTriggers_keepsHeads ..)
  refine .trans ?_ (hintEvent_keepsHeads ..)
  refine .trans ?_ (storeEntry_keepsHeads ..)
  exact .ite (fireEvent_keepsHeads (sourceClass_srcPort ..) _) (.refl s)

theorem serveWrite_keepsHeads (r : Req) (s : State) : s.KeepsHeads (serveWrite r s) := by
  unfold serveWrite
  refine .ite (waitAt_keepsHeads ..) (.ite (waitAt_keepsHeads ..) ?_)
  dsimp only
  split
  · refine .ite ?_ ((refuseWrite_keepsHeads ..).trans (respond_keepsHeads ..))
    exact ((modGather_keepsHeads ..).trans (takeCharge_keepsHeads ..)).trans (serveWrite_done_keepsHeads ..)
  · exact serveWrite_done_keepsHeads ..

/-! #### Lookup, coherence and translation of sound metadata -/

theorem setWay_keepsHeads (k w : Nat) (s : State) : s.KeepsHeads (setWay k w s) := .of_eq rfl rfl rfl rfl rfl rfl rfl rfl

theorem takeFree_keepsHeads (s : State) : s.KeepsHeads s.takeFree := .of_eq rfl rfl rfl rfl rfl rfl rfl rfl

/-- A read of two sound copies reports at most that they differ. -/
theorem readMeta_keepsHeads (k : Nat) (s : State) : s.KeepsHeads (readMeta k 0 0 s).2 := by
  have hread (c : Nat) (p : Prop) [Decidable p] (s : State) : (if p then metaError c 0 s else s) = s := by
    simp [metaError]
  unfold readMeta
  dsimp only
  rw [hread, hread, if_neg (by simp)]
  dsimp only
  exact .trans (.ite (modMeta_keepsHeads ..) (.refl s)) (.ite (fireEvent_keepsHeads (by decide) _) (.refl _))

theorem lookupMeta_keepsHeads (dlpn : Nat) (s : State) : s.KeepsHeads (lookupMeta dlpn 0 0 s).2 := by
  unfold lookupMeta
  dsimp only
  split
  · exact setWay_keepsHeads ..
  · split
    · exact .refl s
    · have hread (t : State) := (countEvent_keepsHeads (59 + chanQuad ((s.extent (dlpn / 4 / 16384)).mirrorA.toNat / 2 ^ 19)) 0x502 none s).trans
        ((takeFree_keepsHeads _).trans (readMeta_keepsHeads (dlpn / 4) _))
      split
      · exact (hread s).trans (setWay_keepsHeads ..)
      · exact hread s

theorem countAccess_keepsHeads (dlpn : Nat) (s : State) : s.KeepsHeads (countAccess dlpn s) := by
  have hfix (i : Nat) (s : State) : s.KeepsHeads (fixParity i s) :=
    .ite ((modSketch_keepsHeads ..).trans (fireEvent_keepsHeads (by decide) _)) (.refl s)
  unfold countAccess
  refine .ite (.refl s) (.ite (modSketch_keepsHeads ..) ?_)
  exact ((modSketch_keepsHeads ..).trans (forEach_keepsHeads _ _ hfix _)).trans
    (forEach_keepsHeads _ _ (fun _ _ => modSketch_keepsHeads ..) _)

theorem writeHeat_keepsHeads (dlpn : Nat) (s : State) : s.KeepsHeads (writeHeat dlpn s) := by
  unfold writeHeat
  refine .ite (.refl s) (.ite ?_ (modQuad_keepsHeads ..))
  exact .ite ((modQuad_keepsHeads ..).trans (modQuad_keepsHeads ..)) ((modQuad_keepsHeads ..).trans (modQuad_keepsHeads ..))

theorem unmappedRequest_keepsHeads (r : Req) (s : State) : s.KeepsHeads (unmappedRequest r s) := by
  unfold unmappedRequest
  refine .trans (.ite ?_ ?_) (respond_keepsHeads ..)
  · exact (modCap_keepsHeads ..).trans (fireEvent_keepsHeads (sourceClass_srcPort ..) _)
  · exact modCap_keepsHeads ..

theorem serve_keepsHeads (r : Req) (s : State) : s.KeepsHeads (serve r s) := .ite (serveWrite_keepsHeads ..) (serveRead_keepsHeads ..)

theorem lookup_keepsHeads (r : Req) (s : State) : s.KeepsHeads (lookup r 0 0 s) := by
  have hmeta := lookupMeta_keepsHeads r.dlpn s
  unfold lookup
  refine .ite (unmappedRequest_keepsHeads ..) ?_
  split
  case h_1 t heq =>
    rw [heq] at hmeta
    exact hmeta.trans (.ite (.refl _) (.ite ((claimEntry_keepsHeads ..).trans (waitAt_keepsHeads ..)) (waitAt_keepsHeads ..)))
  case h_2 t heq =>
    rw [heq] at hmeta
    exact hmeta
  case h_3 found t hwait hlost heq =>
    rw [heq] at hmeta
    refine hmeta.trans (.trans (.ite ?_ ?_) (serve_keepsHeads ..))
    · exact .trans (.trans (.ite (freeEntries_keepsHeads ..) (.refl t)) ((putReq_keepsHeads ..).trans (countAccess_keepsHeads ..)))
        (writeHeat_keepsHeads ..)
    · exact .trans (.ite (freeEntries_keepsHeads ..) (.refl t)) ((putReq_keepsHeads ..).trans (countAccess_keepsHeads ..))

theorem sendSnoops_keepsHeads (l : List Snoop) (s : State) : s.KeepsHeads (sendSnoops l s) := by
  unfold sendSnoops
  exact .trans (forEach_keepsHeads _ _ (fun _ _ => emit_keepsHeads ..) s) (modPath_keepsHeads ..)

theorem setDir_keepsHeads (key : Nat) (m : BitVec 16) (s : State) : s.KeepsHeads (setDir key m s) := modPath_keepsHeads ..

theorem snoopHeads_keepsHeads (key : Nat) (m : BitVec 16) (inv : Bool) (s : State) : s.KeepsHeads (snoopHeads key m inv s) :=
  sendSnoops_keepsHeads ..

theorem coherence_keepsHeads (r : Req) (s : State) : s.KeepsHeads (coherence r s).2 := by
  unfold coherence
  dsimp only
  refine .ite_snd (.ite (setDir_keepsHeads ..) (.refl s)) (.ite_snd (.refl s) (.ite_snd (.ite_snd (setDir_keepsHeads ..) ?_) ?_))
  · exact (putReq_keepsHeads ..).trans (snoopHeads_keepsHeads ..)
  · refine .ite_snd (.refl s) (.ite_snd (setDir_keepsHeads ..) ?_)
    split
    · exact waitAt_keepsHeads ..
    · exact ((takeFree_keepsHeads s).trans (waitAt_keepsHeads ..)).trans (snoopHeads_keepsHeads ..)

theorem askPeers_keepsHeads (r : Req) (s : State) : s.KeepsHeads (askPeers r s) := forEach_keepsHeads _ _ (fun _ _ => openTxn_keepsHeads ..) s

theorem admitLine_keepsHeads (r : Req) (s : State) : s.KeepsHeads (admitLine r 0 0 s) := by
  rw [admitLine_eq]
  refine .ite (lookup_keepsHeads ..) ?_
  have hask : s.KeepsHeads (if r.peersSent || r.writeBack then s else askPeers r s) := .ite (.refl s) (askPeers_keepsHeads ..)
  have hgo := (hask.trans (putReq_keepsHeads { r with peersSent := true } _)).trans (coherence_keepsHeads { r with peersSent := true } _)
  exact .ite hgo (.ite (hgo.trans (waitAt_keepsHeads ..)) (hgo.trans (lookup_keepsHeads ..)))

theorem forward_keepsHeads (r : Req) (s : State) : s.KeepsHeads (forward r s) := by
  unfold forward
  refine .ite (waitAt_keepsHeads ..) (.ite ?_ ?_)
  · exact ((putReq_keepsHeads ..).trans (modConst_keepsHeads ..)).trans (sendPkt_keepsHeads ..)
  · exact (putReq_keepsHeads ..).trans (modConst_keepsHeads ..)

theorem forwardShared_keepsHeads (r : Req) (s : State) : s.KeepsHeads (forwardShared r s) :=
  (coherence_keepsHeads r s).trans (.ite (forward_keepsHeads ..) (.refl _))

theorem translate_keepsHeads (r : Req) (s : State) : s.KeepsHeads (translate r 0 0 s) := by
  cases h : s.dpaFind r.ld (r.dpa / 2 ^ 28) with
  | none => rw [translate_unmapped r 0 0 s h]; exact unmappedRequest_keepsHeads ..
  | some m =>
    rw [translate_mapped r 0 0 s m h]
    have hcache : s.KeepsHeads (cacheEntry r.source r.ld (r.dpa / 2 ^ 28) s) := modPath_keepsHeads ..
    refine (hcache.trans (putReq_keepsHeads (r.located m s.now) _)).trans ?_
    exact .ite (forwardShared_keepsHeads ..) (.ite (admitLine_keepsHeads ..) (unmappedRequest_keepsHeads ..))

/-! #### Requests that go on -/

theorem meterFlow_keepsHeads (flow colour : Nat) (s : State) : s.KeepsHeads (meterFlow flow colour s).2 := .of_eq rfl rfl rfl rfl rfl rfl rfl rfl

theorem tagComet_keepsHeads (r : Req) (s : State) : s.KeepsHeads (tagComet r s).2 := by
  unfold tagComet
  dsimp only
  split
  · split
    · exact .of_eq rfl rfl rfl rfl rfl rfl rfl rfl
    · exact .of_eq rfl rfl rfl rfl rfl rfl rfl rfl
  · exact .of_eq rfl rfl rfl rfl rfl rfl rfl rfl

theorem shape_keepsHeads (r : Req) (s : State) : s.KeepsHeads (shape r 0 0 s) := by
  have hspend : s.KeepsHeads (spendCredit r.ld s) := .of_eq rfl rfl rfl rfl rfl rfl rfl rfl
  exact .ite (waitAt_keepsHeads ..) (hspend.trans (translate_keepsHeads ..))

theorem takeTracker_keepsHeads (r : Req) (s : State) : s.KeepsHeads (takeTracker r 0 0 s) := by
  unfold takeTracker
  refine .trans ?_ ((putReq_keepsHeads ..).trans (shape_keepsHeads ..))
  refine .trans ?_ (.ite ((modQos_keepsHeads ..).trans (countEvent_keepsHeads ..)) (.refl _))
  refine .trans ?_ (meterFlow_keepsHeads ..)
  refine .trans ?_ (tagComet_keepsHeads ..)
  exact ((claimEntry_keepsHeads ..).trans (countEvent_keepsHeads ..)).trans (.ite (countEvent_keepsHeads ..) (.refl _))

theorem tryTracker_keepsHeads (r : Req) (s : State) : s.KeepsHeads (tryTracker r 0 0 s) :=
  .ite (waitAt_keepsHeads ..) (.ite (waitAt_keepsHeads ..) (takeTracker_keepsHeads ..))

theorem startForwarded_keepsHeads (r : Req) (s : State) : s.KeepsHeads (startForwarded r s) := by
  unfold startForwarded
  refine .trans ?_ (.ite (admitLine_keepsHeads ..) (unmappedRequest_keepsHeads ..))
  refine .trans ?_ (putReq_keepsHeads ..)
  refine ((claimEntry_keepsHeads ..).trans (modUli_keepsHeads _ _ _ ?_)).trans (meterFlow_keepsHeads ..)
  exact fun _ => rfl

theorem advance_keepsHeads (r : Req) (s : State) : s.KeepsHeads (advance r s) := by
  unfold advance
  split
  · exact .ite (tryTracker_keepsHeads ..) (startForwarded_keepsHeads ..)
  · exact .ite (tryTracker_keepsHeads ..) (startForwarded_keepsHeads ..)
  · exact .ite (admitLine_keepsHeads ..) (forwardShared_keepsHeads ..)
  · exact .ite (admitLine_keepsHeads ..) (forwardShared_keepsHeads ..)
  · exact lookup_keepsHeads ..
  · exact lookup_keepsHeads ..
  · exact serve_keepsHeads ..
  · exact serve_keepsHeads ..
  · exact serve_keepsHeads ..
  · exact forward_keepsHeads ..
  · exact .refl s

theorem resume_keepsHeads (stages : List Stage) (s : State) : s.KeepsHeads (resume stages s) := by
  refine forEach_keepsHeads _ _ (fun id s => ?_) s
  split
  · exact .ite (advance_keepsHeads ..) (.refl s)
  · exact .refl s

/-! #### Operations that an erasure aborts (R188) -/

theorem dropRecall_keepsHeads (d : Nat) (s : State) : s.KeepsHeads (dropRecall d s) := modPath_keepsHeads ..

theorem sendFarFree_keepsHeads (d i p : Nat) (s : State) : s.KeepsHeads (sendFarFree d i p s) :=
  .ite (openTxn_keepsHeads ..) (modMember_keepsHeads ..)

theorem freeStorage_keepsHeads (l n : Nat) (s : State) : s.KeepsHeads (freeStorage l n s) := by
  unfold freeStorage
  refine .ite (modAlloc_keepsHeads ..) ?_
  split
  · exact .refl s
  · exact .trans (modAlloc_keepsHeads ..) (modAlloc_keepsHeads ..)

theorem releaseM_keepsHeads (n : Nat) (s : State) : s.KeepsHeads (releaseM n s) :=
  .ite (.refl s) ((modCap_keepsHeads ..).trans (updateCapacity_keepsHeads _))

theorem closeComet_keepsHeads (t : Nat) (l : List Nat) (s : State) : s.KeepsHeads (closeComet t l s) := by
  unfold closeComet
  split
  · exact .refl s
  · exact .of_eq rfl rfl rfl rfl rfl rfl rfl rfl

theorem mwaitDone_keepsHeads (t code : Nat) (s : State) : s.KeepsHeads (mwaitDone t code s) :=
  (modThread_keepsHeads ..).trans (closeComet_keepsHeads ..)

theorem completeTicket_keepsHeads (t : BitVec 16) (code : Nat) (s : State) : s.KeepsHeads (completeTicket t code s) := by
  unfold completeTicket
  split
  · exact .refl s
  · refine .trans ?_ (forEach_keepsHeads _ _ (fun _ _ => mwaitDone_keepsHeads ..) _)
    refine .trans ?_ (modRil_keepsHeads ..)
    split
    · exact postDevice_keepsHeads ..
    · exact .refl s

theorem finishOp_keepsHeads (q : Nat) (op : MoverOp) (t : Option (BitVec 16)) (code : Nat) (s : State) :
    s.KeepsHeads (finishOp q op t code s) := by
  unfold finishOp
  have hcount := (modQuad_keepsHeads q (fun d =>
    { d with
      aborts := if code = 6 then satAdd d.aborts 1 else d.aborts
      promoted := if op = .heatUnpack ∧ code = 0 then satAdd d.promoted 1 else d.promoted
      suppressed := if op = .heatUnpack ∧ (code = 3 ∨ code = 4) then satAdd d.suppressed 1 else d.suppressed }) s).trans
    (.ite (p := code = 6) (fireEvent_keepsHeads (n := 782) (by decide) _) (.refl _))
  cases t with
  | none => exact hcount
  | some t => exact hcount.trans (completeTicket_keepsHeads ..)

theorem endRecord_keepsHeads (q : Nat) (r : MoverRec) (code : Nat) (s : State) : s.KeepsHeads (endRecord q r code s) := by
  unfold endRecord
  refine .trans ?_ (finishOp_keepsHeads ..)
  refine .trans ?_ (.ite (.refl _) (.ite (setDesc_keepsHeads ..) (setLock_keepsHeads ..)))
  refine .trans ?_ (releaseM_keepsHeads ..)
  refine .trans ((dropRecall_keepsHeads ..).trans (modQuad_keepsHeads ..)) (.ite ?_ (.refl _))
  split
  · exact sendFarFree_keepsHeads ..
  · exact freeStorage_keepsHeads ..

theorem abortMove_keepsHeads (d : Nat) (s : State) : s.KeepsHeads (abortMove d s) := by
  unfold abortMove
  split
  · exact endRecord_keepsHeads ..
  · exact .refl s

/-! #### Releases and snoops (R133, R214) -/

theorem dropMapping_keepsHeads (ld block : Nat) (s : State) : s.KeepsHeads (dropMapping ld block s) := by
  unfold dropMapping
  refine .trans ?_ ((modCap_keepsHeads ..).trans (modPath_keepsHeads ..))
  split
  · exact .ite (modRil_keepsHeads ..) (.refl s)
  · exact .refl s

theorem dropGathered_keepsHeads (e : Nat) (s : State) : s.KeepsHeads (dropGathered e s) := by
  unfold dropGathered
  refine .trans ?_ (modPath_keepsHeads ..)
  exact (addFootprint_keepsHeads ..).trans (modGather_keepsHeads ..)

theorem returnKey_keepsHeads (k : Nat) (s : State) : s.KeepsHeads (returnKey k s) := .ite (.refl s) (modKeySlot_keepsHeads ..)

theorem enterErasing_keepsHeads (e : Nat) (s : State) : s.KeepsHeads (enterErasing e s) := by
  have hwait (w : List Waiter) (t : State) : t.KeepsHeads { t with waiters := w } := .of_eq rfl rfl rfl rfl rfl rfl rfl rfl
  unfold enterErasing
  refine .trans ?_ (updateCapacity_keepsHeads _)
  refine .trans ?_ (returnKey_keepsHeads ..)
  refine .trans ?_ (hwait ..)
  refine .trans ?_ (modInteg_keepsHeads ..)
  refine .trans ?_ (modCap_keepsHeads ..)
  refine .trans ?_ (modExtent_keepsHeads ..)
  refine .trans ?_ (forEach_keepsHeads _ _ (fun _ _ => abortMove_keepsHeads ..) _)
  exact (forEach_keepsHeads _ _ (fun _ _ => dropMapping_keepsHeads ..) s).trans (dropGathered_keepsHeads ..)

theorem finishReleases_keepsHeads (s : State) : s.KeepsHeads (finishReleases s) :=
  forEach_keepsHeads _ _ (fun _ s => .ite (.refl s) (enterErasing_keepsHeads ..)) s

theorem answerSnoops_keepsHeads (s : State) : s.KeepsHeads (answerSnoops s) :=
  (modConst_keepsHeads ..).trans (forEach_keepsHeads _ _ (fun _ _ => sendResponse_keepsHeads ..) _)

theorem snoopsAnswered_keepsHeads (s : State) : s.KeepsHeads (snoopsAnswered s) :=
  ((finishReleases_keepsHeads s).trans (answerSnoops_keepsHeads _)).trans (resume_keepsHeads ..)

/-! #### The requests of a port reset (R111) -/

theorem dropRequest_keepsHeads (r : Req) (s : State) : s.KeepsHeads (dropRequest r s) := by
  unfold dropRequest
  refine .trans ?_ (.ite (freeEntries_keepsHeads ..) (.refl _))
  refine .trans ?_ ((dropReq_keepsHeads ..).trans (endComet_keepsHeads ..))
  refine .trans ?_ (.ite (freeEntries_keepsHeads ..) (.refl _))
  split
  · exact freeEntries_keepsHeads ..
  · exact .refl s

theorem portResetRequests_keepsHeads (h : Nat) (s : State) : s.KeepsHeads (portResetRequests h s) := by
  unfold portResetRequests
  refine .trans ?_ (snoopsAnswered_keepsHeads _)
  refine .trans ?_ ((modGather_keepsHeads ..).trans (modPath_keepsHeads ..))
  refine .trans ?_ (forEach_keepsHeads _ _ (fun _ _ => finishReq_keepsHeads ..) _)
  exact (forEach_keepsHeads _ _ (fun _ _ => dropRequest_keepsHeads ..) s).trans (modPath_keepsHeads ..)

/-! #### Delivery and power -/

theorem recomputeDelivery_keepsHeads (s : State) : s.KeepsHeads (recomputeDelivery s) :=
  (modQos_keepsHeads ..).trans (condSet_keepsHeads (by decide) (by decide) _ _)

theorem gateDomain_keepsHeads (i : Nat) (gated : Bool) (s : State) : s.KeepsHeads (gateDomain i gated s) :=
  forEach_keepsHeads _ _ (fun _ _ => modCtr_keepsHeads ..) s

theorem dozeDomain_keepsHeads (dest : PState) (i : Nat) (s : State) : s.KeepsHeads (dozeDomain dest i s) :=
  .ite (.refl s) ((modDom_keepsHeads ..).trans (gateDomain_keepsHeads ..))

theorem leaveDoze_keepsHeads (cause : BitVec 3) (s : State) : s.KeepsHeads (leaveDoze cause s) := by
  have hpower : s.KeepsHeads (s.modPower fun p => { p with dozing := false, wakeCause := cause }) := .of_eq rfl rfl rfl rfl rfl rfl rfl rfl
  exact (hpower.trans (forEach_keepsHeads _ _ (fun _ _ => dozeDomain_keepsHeads ..) _)).trans
    (forEach_keepsHeads _ _ (fun _ _ => modChan_keepsHeads ..) _)

theorem wakeDoze_keepsHeads (cause : BitVec 3) (s : State) : s.KeepsHeads (wakeDoze cause s) := .ite (leaveDoze_keepsHeads ..) (.refl s)

theorem wakeDomain_keepsHeads (i : Nat) (s : State) : s.KeepsHeads (wakeDomain i s) := modDom_keepsHeads ..

theorem requestState_keepsHeads (i : Nat) (dest : PState) (s : State) : s.KeepsHeads (requestState i dest s) :=
  .ite (wakeDomain_keepsHeads ..) (.ite (modDom_keepsHeads ..) (modDom_keepsHeads ..))

end Sys2Proof.Machine
end

section
namespace Sys2Proof.Machine

/-! ### Ports that train, retrain and reset (R66 to R71, R111, R112) -/

/-- The ports, what lets a link train and the time stand, and no sticky bit is cleared. -/
structure State.KeepsPorts (s r : State) : Prop where
  ports : r.ports = s.ports
  start : r.start = s.start
  time : r.time = s.time
  pads : r.power.cxlLatched = s.power.cxlLatched
  halted : r.faults.halted = s.faults.halted
  sticky : ∀ n, s.stickySet n = true → r.stickySet n = true

theorem State.KeepsPorts.refl (s : State) : s.KeepsPorts s := ⟨rfl, rfl, rfl, rfl, rfl, fun _ h => h⟩

theorem State.KeepsPorts.trans {s r q : State} (h : s.KeepsPorts r) (k : r.KeepsPorts q) : s.KeepsPorts q where
  ports := k.ports.trans h.ports
  start := k.start.trans h.start
  time := k.time.trans h.time
  pads := k.pads.trans h.pads
  halted := k.halted.trans h.halted
  sticky n hn := k.sticky n (h.sticky n hn)

theorem State.KeepsPorts.ite {p : Prop} [Decidable p] {s r : State} (h : s.KeepsPorts r) : s.KeepsPorts (if p then r else s) := by
  split
  · exact h
  · exact .refl s

theorem State.KeepsHeads.keepsPorts {s r : State} (h : s.KeepsHeads r) : s.KeepsPorts r := ⟨h.ports, h.start, h.time, h.pads, h.halted, h.sticky⟩

theorem State.Reports.keepsPorts {s r : State} (h : s.Reports r) (hsticky : ∀ n, s.stickySet n = true → r.stickySet n = true) : s.KeepsPorts r := by
  refine ⟨?_, ?_, ?_, ?_, ?_, hsticky⟩ <;> rw [h.rest]

theorem State.KeepsPorts.port_eq {s r : State} (h : s.KeepsPorts r) (q : Nat) : r.port q = s.port q := by rw [State.port, State.port, h.ports]

theorem State.KeepsPorts.running_eq {s r : State} (h : s.KeepsPorts r) : r.running = s.running := by
  rw [State.running, State.running, h.start, h.halted]

/-- A change of a port, after what keeps the ports and before it. -/
theorem State.KeepsPorts.modPort {s r : State} (h : s.KeepsPorts r) (p : Nat) (f : Port → Port) : (s.modPort p f).KeepsPorts (r.modPort p f) where
  ports := by simp only [State.modPort, h.port_eq, h.ports]
  start := h.start
  time := h.time
  pads := h.pads
  halted := h.halted
  sticky n hn := h.sticky n hn

/-- The sources of a port are not fatal: a condition of one starts and ends as a report. -/
theorem condStart_srcPort_keepsPorts (p k : Nat) (s : State) : s.KeepsPorts (condStart (srcPort p k) s) :=
  (condStart_reports _ s (sourceClass_srcPort p k)).keepsPorts fun _ => stickySet_condStart_mono (sourceClass_srcPort p k) s

theorem condEnd_srcPort_keepsPorts (p k : Nat) (s : State) : s.KeepsPorts (condEnd (srcPort p k) s) :=
  (condEnd_reports _ s).keepsPorts fun m hm => by rwa [stickySet_condEnd]

theorem srcPort_range {p k : Nat} (hp : p < 16) (hk : k < 8) : 512 ≤ srcPort p k ∧ srcPort p k < 640 := by
  unfold srcPort
  omega

theorem sourceInfo_srcPort_retrain {p : Nat} (hp : p < 16) : (sourceInfo (srcPort p 0)).isSome = true := by
  interval_cases p <;> rfl

theorem State.Reports.ports_eq {s r : State} (h : s.Reports r) : r.ports = s.ports := by rw [h.rest]

theorem State.Reports.start_eq {s r : State} (h : s.Reports r) : r.start = s.start := by rw [h.rest]

theorem State.Reports.decoders_eq {s r : State} (h : s.Reports r) (i : Nat) : (r.ld i).decoders = (s.ld i).decoders := by rw [h.logs i]

/-! #### Heads -/

/-- Which ports are heads follows from the configurations in force alone. -/
theorem isHead_congr {s r : State} (h : ∀ q, (r.port q).trained = (s.port q).trained) (p : Nat) : r.isHead p = s.isHead p := by
  have hleader : r.leaderOf p = s.leaderOf p := by simp only [State.leaderOf, h]
  rw [State.isHead, State.isHead, hleader, h]

theorem State.KeepsPorts.isHead_eq {s r : State} (h : s.KeepsPorts r) (p : Nat) : r.isHead p = s.isHead p :=
  isHead_congr (fun q => by rw [h.port_eq]) p

/-- A change of a port that leaves its configuration in force. -/
theorem isHead_modPort (p n : Nat) (f : Port → Port) (s : State) (hf : (f (s.port n)).trained = (s.port n).trained) :
    (s.modPort n f).isHead p = s.isHead p := by
  refine isHead_congr (fun q => ?_) p
  rw [State.modPort_at]
  split
  · rename_i hq; rw [hq, hf]
  · rfl

/-- Detect begins in a head of a running device that neither PERST, nor a latch-down, nor latched pads hold. -/
theorem beginDetect_of {p : Nat} {s : State} (hrun : s.running = true) (hhead : s.isHead p = true) (hperst : (s.port p).perst = false)
    (hdown : (s.port p).downLatched = false) (hpads : s.power.cxlLatched = false) :
    beginDetect p s = s.modPort p fun q => { q with training := true, clkreq := true } :=
  if_pos (by simp [State.mayDetect, hrun, hhead, hperst, hdown, hpads])

/-- Detect begins in one port or does not begin. -/
theorem beginDetect_cases (p : Nat) (s : State) :
    beginDetect p s = s ∨ beginDetect p s = s.modPort p fun q => { q with training := true, clkreq := true } := by
  unfold beginDetect
  split
  · exact .inr rfl
  · exact .inl rfl

theorem beginDetect_faults (p : Nat) (s : State) : (beginDetect p s).faults = s.faults := by
  obtain h | h := beginDetect_cases p s <;> rw [h]
  rfl

theorem beginDetect_port_other {p q : Nat} (h : q ≠ p) (s : State) : (beginDetect p s).port q = s.port q := by
  obtain hd | hd := beginDetect_cases p s <;> rw [hd]
  exact State.modPort_other s p _ q h

/-! #### Port reset (R111) -/

/-- A port after its reset: its link is down, and IDE is off unless it has failed. -/
def Port.afterReset (q : Port) : Port :=
  { q with up := false, width := 0, rate := 0, flit256 := false, training := false, retraining := false
           ideReset := decide (q.ideState = 3), ideState := if q.ideState = 3 then 3 else 0 }

/-- The HDM decoders of some LDs are cleared. -/
def clearDecoders (l : List Nat) (s : State) : State := forEach l (fun i s => s.modLd i fun d => { d with decoders := [] }) s

theorem clearDecoders_keepsPorts (l : List Nat) (s : State) : s.KeepsPorts (clearDecoders l s) :=
  forEach_keeps .refl .trans l _ (fun _ _ => ⟨rfl, rfl, rfl, rfl, rfl, fun _ h => h⟩) s

theorem decoders_clearDecoders_nil (l : List Nat) (s : State) (i : Nat) (h : (s.ld i).decoders = []) : ((clearDecoders l s).ld i).decoders = [] :=
  forEach_keeps (R := fun s r => (s.ld i).decoders = [] → (r.ld i).decoders = []) (fun _ h => h) (fun h k => k ∘ h) l _ (fun j s hs => by
    rw [State.modLd_at]
    split
    · rfl
    · exact hs) s h

theorem decoders_clearDecoders (l : List Nat) (s : State) (i : Nat) (h : i ∈ l) : ((clearDecoders l s).ld i).decoders = [] := by
  induction l generalizing s with
  | nil => cases h
  | cons j l ih =>
    rw [clearDecoders, forEach_cons, ← clearDecoders]
    by_cases hi : i = j
    · subst hi
      exact decoders_clearDecoders_nil l _ i (by rw [State.modLd_self])
    · exact ih _ (List.mem_of_ne_of_mem hi h)

/-- The counter blocks of some ports start again. -/
def clearBlocks (l : List Nat) (s : State) : State := forEach l (fun p s => s.modCtr (24 + p) fun c => { mark := s.now, gated := c.gated }) s

theorem clearBlocks_keepsHeads (l : List Nat) (s : State) : s.KeepsHeads (clearBlocks l s) :=
  forEach_keepsHeads _ _ (fun _ _ => modCtr_keepsHeads ..) s

/-- The LDs, the counter blocks and the port of a reset, behind its requests. -/
def clearHead (p : Nat) (s : State) : State :=
  (clearBlocks ((clearDecoders (s.headLds p) s).members p) (clearDecoders (s.headLds p) s)).modPort p Port.afterReset

theorem portReset_eq (p : Nat) (s : State) :
    portReset p s = recomputeDelivery (condEnd (srcPort p 1) (clearHead p (portResetRequests p s))) := rfl

theorem clearHead_keepsPorts (p : Nat) (s : State) : (s.modPort p Port.afterReset).KeepsPorts (clearHead p s) := by
  have hclear := clearDecoders_keepsPorts (s.headLds p) s
  exact (hclear.trans (clearBlocks_keepsHeads ((clearDecoders (s.headLds p) s).members p) _).keepsPorts).modPort p Port.afterReset

theorem decoders_clearHead (p : Nat) (s : State) (k : Nat) (hk : k < (s.port p).trained.ldCount.toNat) :
    ((clearHead p s).ld (16 * p + k)).decoders = [] := by
  rw [clearHead, State.modPort_at_ld, (clearBlocks_keepsHeads ..).decoders]
  exact decoders_clearDecoders _ s _ (by simpa [State.headLds] using hk)

/-- A port reset clears the port, behind its requests. -/
theorem portReset_keeps (p : Nat) (s : State) : (s.modPort p Port.afterReset).KeepsPorts (portReset p s) := by
  rw [portReset_eq]
  have hreq := (portResetRequests_keepsHeads p s).keepsPorts.modPort p Port.afterReset
  exact ((hreq.trans (clearHead_keepsPorts ..)).trans (condEnd_srcPort_keepsPorts p 1 _)).trans (recomputeDelivery_keepsHeads _).keepsPorts

theorem portReset_decoders (p : Nat) (s : State) (k : Nat) (hk : k < (s.port p).trained.ldCount.toNat) :
    ((portReset p s).ld (16 * p + k)).decoders = [] := by
  have hreq := (portResetRequests_keepsHeads p s).keepsPorts
  rw [portReset_eq, (recomputeDelivery_keepsHeads _).decoders, (condEnd_reports ..).decoders_eq]
  exact decoders_clearHead p _ k (by rwa [hreq.port_eq])

/-! #### The operations of a port -/

/-- A port reset is confined to its port. -/
theorem portReset_other {p q : Nat} (s : State) (h : q ≠ p) : (portReset p s).port q = s.port q := by
  rw [(portReset_keeps p s).port_eq, State.modPort_other s p _ q h]

theorem portReset_port (p : Nat) (s : State) : (portReset p s).port p = (s.port p).afterReset := by
  rw [(portReset_keeps p s).port_eq, State.modPort_self]

/-- What PERST's release makes of the port. -/
def Port.released (q : Port) : Port :=
  { q with perst := false, trained := q.cfg, downLatched := false
           retrains := if q.downLatched then 0 else q.retrains
           windowFrom := if q.downLatched then none else q.windowFrom }

theorem exec_portPerstRelease (p : Fin 16) (s : State) (hpow : s.start.powered = true) (hhalt : s.faults.halted = false)
    (hperst : (s.port p).perst = true) : ∃ t, (s.modPort p Port.released).KeepsPorts t ∧ exec (.portPerstRelease p) s = .next (beginDetect p t) := by
  have hwake := (wakeDoze_keepsHeads 1 s).keepsPorts
  have hdom (t : State) : t.KeepsPorts (if (t.port p).downLatched then wakeDomain (28 + p) t else t) :=
    .ite (wakeDomain_keepsHeads ..).keepsPorts
  refine ⟨_, ((hwake.trans (hdom _)).modPort p Port.released).trans (condEnd_srcPort_keepsPorts p 2 _), ?_⟩
  change Host.Outcome.next (if _ then _ else _) = _
  rw [if_pos (by simp [hpow, hhalt, hperst])]
  rfl

theorem exec_portPerstAssert (p : Fin 16) (s : State) (hpow : s.start.powered = true) (hhalt : s.faults.halted = false)
    (hhead : s.isHead p = true) (hperst : (s.port p).perst = false) :
    exec (.portPerstAssert p) s = .next ((portReset p s).modPort p fun q => { q with perst := true }) := by
  change Host.Outcome.next (if _ then _ else _) = _
  simp [hpow, hhalt, hhead, hperst]

theorem exec_linkDown (p : Fin 16) (s : State) (hrun : s.running = true) (hhead : s.isHead p = true) (hup : (s.port p).up = true) :
    exec (.linkDown p) s = .next (beginDetect p (portReset p s)) := by
  change Host.Outcome.next (if _ then _ else _) = _
  simp [hrun, hhead, hup]

/-! #### Training and retrains (R68, R112) -/

/-- A port whose link has trained at a width and a rate. -/
def Port.trainedAt (q : Port) (width rate : BitVec 3) (flit256 : Bool) : Port :=
  { q with up := true, training := false, retraining := false, width, rate, flit256
           cdatBandwidth := if q.retraining then q.cdatBandwidth else widthLanes width * rateGbs rate }

/-- The link runs narrower or slower than configured. -/
def PortCfg.degraded (c : PortCfg) (width rate : BitVec 3) : Bool := decide (width ≠ fullWidth c) || decide (rate ≠ c.maxRate)

/-- The record of a degraded link. -/
def recordTrained (p : Nat) (low : Bool) (s : State) : State :=
  if low then placeHead p .warning (.vendor 0x0004 (portRecordArg p (s.linkWord p) false)) s else s

/-- A link that reaches L0. -/
def reachL0 (p : Nat) (width rate : BitVec 3) (flit256 : Bool) (s : State) : State :=
  let low := (s.port p).trained.degraded width rate
  setHeadActive p (condSet (srcPort p 1) low (recordTrained p low (s.modPort p fun q => q.trainedAt width rate flit256)))

theorem exec_linkTrained (p : Fin 16) (width rate : BitVec 3) (flit256 : Bool) (s : State) (hrun : s.running = true)
    (hhead : s.isHead p = true) (htrain : (s.port p).training = true) (hok : linkAllowed (s.port p).trained width rate flit256 = true) :
    exec (.linkTrained p width rate flit256) s = .next (recomputeDelivery (reachL0 p width rate flit256 s)) := by
  change Host.Outcome.next (if _ then _ else _) = _
  rw [if_pos (by simp [hrun, hhead, htrain, hok])]
  rfl

theorem setHeadActive_rest (p : Nat) (s : State) : setHeadActive p s = { s with start := (setHeadActive p s).start } := by
  unfold setHeadActive
  split <;> rfl

theorem start_setHeadActive (p : Nat) (s : State) : (setHeadActive p s).start =
    if s.start.phase = 10 then { s.start with memActive := s.start.memActive ||| (1#16 <<< p) } else s.start := by
  unfold setHeadActive
  split <;> rfl

theorem recordTrained_reports (p : Nat) (low : Bool) (s : State) : s.Reports (recordTrained p low s) := by
  unfold recordTrained
  split
  · exact placeHead_reports ..
  · exact .refl s

theorem recordTrained_faults (p : Nat) (low : Bool) (s : State) : (recordTrained p low s).faults = s.faults := by
  unfold recordTrained
  split
  · exact forEach_faults _ _ (fun _ _ => placeRecord_faults ..) s
  · rfl

/-- Before Memory_Active is set, a link that reaches L0 is reported and changes its port. -/
theorem degraded_reports (p : Nat) (low : Bool) (s : State) : s.Reports (condSet (srcPort p 1) low (recordTrained p low s)) :=
  (recordTrained_reports p low s).trans (condSet_reports _ _ _ (sourceClass_srcPort p 1))

theorem reachL0_port (p q : Nat) (width rate : BitVec 3) (flit256 : Bool) (s : State) :
    (reachL0 p width rate flit256 s).port q = (s.modPort p fun q => q.trainedAt width rate flit256).port q := by
  rw [reachL0, setHeadActive_rest]
  exact congrArg (Tab.get {} · q) (degraded_reports ..).ports_eq

theorem reachL0_cap (p : Nat) (width rate : BitVec 3) (flit256 : Bool) (s : State) : (reachL0 p width rate flit256 s).cap = s.cap := by
  rw [reachL0, setHeadActive_rest]
  exact (degraded_reports ..).cap_eq

theorem reachL0_start (p : Nat) (width rate : BitVec 3) (flit256 : Bool) (s : State) : (reachL0 p width rate flit256 s).start =
    if s.start.phase = 10 then { s.start with memActive := s.start.memActive ||| (1#16 <<< p) } else s.start := by
  rw [reachL0, start_setHeadActive, (degraded_reports ..).start_eq, State.modPort_start]

theorem setHeadActive_faults (p : Nat) (s : State) : (setHeadActive p s).faults = s.faults := by rw [setHeadActive_rest]

/-- The head is degraded exactly when its link is below its configuration. -/
theorem reachL0_holds_degraded (p : Nat) (width rate : BitVec 3) (flit256 : Bool) (s : State)
    (h : (s.port p).trained.degraded width rate = true) : (reachL0 p width rate flit256 s).holds (srcPort p 1) = true := by
  rw [reachL0, holds_of_live (congrArg Faults.live (setHeadActive_faults ..)), h, condSet, if_pos rfl,
    holds_condStart (sourceClass_srcPort p 1)]
  simp

theorem reachL0_holds_full (p : Nat) (width rate : BitVec 3) (flit256 : Bool) (s : State)
    (h : (s.port p).trained.degraded width rate = false) (hlive : s.faults.live.Nodup) :
    (reachL0 p width rate flit256 s).holds (srcPort p 1) = false := by
  rw [reachL0, holds_of_live (congrArg Faults.live (setHeadActive_faults ..)), h, condSet, if_neg Bool.false_ne_true]
  exact holds_condEnd_self _ _ (by rwa [recordTrained_faults])

theorem recomputeDelivery_cap (s : State) : (recomputeDelivery s).cap = s.cap :=
  (condSet_reports 68 _ _ (by decide)).cap_eq

/-- A new 10 s window of retrains begins (R112). -/
def State.freshWindow (s : State) (p : Nat) : Bool := match (s.port p).windowFrom with
  | none => true
  | some t => decide (t + 10 * secNs ≤ s.now)

/-- A port that retrains. -/
def Port.retrain (q : Port) (fresh : Bool) (now : Nat) : Port :=
  { q with up := false, training := true, retraining := true, retrainTotal := satAdd q.retrainTotal 1
           retrains := if fresh then 1 else q.retrains + 1
           windowFrom := if fresh then some now else q.windowFrom }

/-- The retrain is counted and its source fires. -/
def countRetrain (p : Nat) (s : State) : State :=
  fireEvent (srcPort p 0) (s.modPort p fun q => q.retrain (s.freshWindow p) s.now)

theorem countRetrain_keepsPorts (p : Nat) (s : State) :
    (s.modPort p fun q => q.retrain (s.freshWindow p) s.now).KeepsPorts (countRetrain p s) :=
  (fireEvent_keepsHeads (sourceClass_srcPort p 0) _).keepsPorts

theorem countRetrain_port (p : Nat) (s : State) : (countRetrain p s).port p = (s.port p).retrain (s.freshWindow p) s.now := by
  rw [(countRetrain_keepsPorts p s).port_eq, State.modPort_self]

theorem exec_linkRetrain (p : Fin 16) (s : State) (hrun : s.running = true) (hhead : s.isHead p = true) (hup : (s.port p).up = true) :
    exec (.linkRetrain p) s = .next (if 3 ≤ ((s.port p).retrain (s.freshWindow p) s.now).retrains.toNat
      then latchDown p (s.linkWord p) (countRetrain p s) else countRetrain p s) := by
  rw [← countRetrain_port]
  change Host.Outcome.next (if _ then _ else _) = _
  rw [if_pos (by simp [hrun, hhead, hup])]
  rfl

/-- A port latched down no longer trains. -/
def Port.latched (q : Port) : Port := { q with downLatched := true, training := false }

theorem latchDown_keepsPorts (p link : Nat) (s : State) :
    ((s.modPort p Port.afterReset).modPort p Port.latched).KeepsPorts (latchDown p link s) := by
  have hplace := (placeHead_keepsHeads p .warning (.vendor 0x0004 (portRecordArg p link true)) s).keepsPorts
  have hlatch := ((hplace.modPort p Port.afterReset).trans (portReset_keeps p _)).modPort p Port.latched
  exact (hlatch.trans (condStart_srcPort_keepsPorts p 2 _)).trans (requestState_keepsHeads (28 + p) .p1 _).keepsPorts

theorem latchDown_holds {p : Nat} (hp : p < 16) (link : Nat) (s : State) : (latchDown p link s).holds (srcPort p 2) = true := by
  obtain ⟨hlo, hhi⟩ := srcPort_range hp (show 2 < 8 by decide)
  unfold latchDown
  rw [(requestState_keepsHeads ..).conditions _ hlo hhi, holds_condStart (sourceClass_srcPort p 2)]
  simp

theorem exec_downLatchedClear (p : Fin 16) (s : State) (hrun : s.running = true) (hdown : (s.port p).downLatched = true) :
    exec (.downLatchedClear p) s = .next (beginDetect p (wakeDomain (28 + p) (condEnd (srcPort p 2)
      (s.modPort p fun q => { q with downLatched := false, retrains := 0, windowFrom := none })))) := by
  change Host.Outcome.next (if _ then clearDownLatched p s else _) = _
  rw [if_pos hrun, clearDownLatched, if_pos hdown]

end Sys2Proof.Machine
end

section
namespace Sys2Proof.Machine

/-! ### O30: what each operation does to its port -/

section
variable {p : Fin 16} {s : State}

theorem State.running_of (hpow : s.start.powered = true) (hhalt : s.faults.halted = false) (hentry : s.start.entry = .none) : s.running = true := by
  simp [State.running, hpow, hhalt, hentry]

/-- PERST's release (R68, R71). -/
theorem portPerstRelease_begins (hpow : s.start.powered = true) (hhalt : s.faults.halted = false) (hentry : s.start.entry = .none)
    (hpads : s.power.cxlLatched = false) (hperst : (s.port p).perst = true) :
    ∃ r, exec (.portPerstRelease p) s = .next r ∧ (∀ q, q ≠ p.val → r.port q = s.port q) ∧ (r.port p).perst = false ∧
      (r.port p).trained = (s.port p).cfg ∧ (r.port p).downLatched = false ∧
      ((s.modPort p fun q => { q with trained := q.cfg }).isHead p = true → (r.port p).training = true ∧ (r.port p).clkreq = true) := by
  obtain ⟨t, ht, hexec⟩ := exec_portPerstRelease p s hpow hhalt hperst
  have hport : t.port p = (s.port p).released := by rw [ht.port_eq, State.modPort_self]
  have hsettled : ((beginDetect p t).port p).perst = false ∧ ((beginDetect p t).port p).trained = (s.port p).cfg ∧
      ((beginDetect p t).port p).downLatched = false := by
    obtain h | h := beginDetect_cases p t <;> rw [h]
    · rw [hport]; exact ⟨rfl, rfl, rfl⟩
    · rw [State.modPort_self, hport]; exact ⟨rfl, rfl, rfl⟩
  obtain ⟨h1, h2, h3⟩ := hsettled
  refine ⟨_, hexec, fun q hq => ?_, h1, h2, h3, fun hhead => ?_⟩
  · rw [beginDetect_port_other hq, ht.port_eq, State.modPort_other _ _ _ _ hq]
  · have hsame : t.isHead p = (s.modPort p fun q => { q with trained := q.cfg }).isHead p := by
      refine isHead_congr (fun q => ?_) p
      rw [ht.port_eq, State.modPort_at, State.modPort_at]
      split <;> rfl
    have hrun : t.running = true := ht.running_eq.trans (State.running_of hpow hhalt hentry)
    rw [beginDetect_of hrun (hsame.trans hhead) (by rw [hport]; rfl) (by rw [hport]; rfl) (ht.pads.trans hpads), State.modPort_self]
    exact ⟨rfl, rfl⟩

/-- A port reset as R111 gives it: the link of p down, its LDs without decoders, and no other port changed. -/
def ResetsPort (p : Fin 16) (s r : State) : Prop :=
  (∀ q, q ≠ p.val → r.port q = s.port q) ∧ (r.port p).up = false ∧ (r.port p).width = 0 ∧ (r.port p).rate = 0 ∧
    (r.port p).retraining = false ∧ (r.port p).ideState = (if (s.port p).ideState = 3 then 3 else 0) ∧
    (r.port p).trained = (s.port p).trained ∧ ∀ k, k < (s.port p).trained.ldCount.toNat → (r.ld (16 * p.val + k)).decoders = []

theorem portReset_resetsPort (p : Fin 16) (s : State) : ResetsPort p s (portReset p s) := by
  refine ⟨fun q hq => portReset_other s hq, ?_⟩
  rw [portReset_port]
  exact ⟨rfl, rfl, rfl, rfl, rfl, rfl, portReset_decoders p s⟩

/-- A change of a port that leaves its link, its IDE state and its configuration in force. -/
def KeepsLink (f : Port → Port) : Prop :=
  ∀ q : Port, (f q).up = q.up ∧ (f q).width = q.width ∧ (f q).rate = q.rate ∧ (f q).retraining = q.retraining ∧
    (f q).ideState = q.ideState ∧ (f q).trained = q.trained

theorem ResetsPort.modPort {r : State} (h : ResetsPort p s r) (f : Port → Port) (hf : KeepsLink f) : ResetsPort p s (r.modPort p f) := by
  obtain ⟨hother, hrest⟩ := h
  obtain ⟨hup, hwidth, hrate, hretrain, hide, htrained⟩ := hf (r.port p)
  refine ⟨fun q hq => (State.modPort_other _ _ _ _ hq).trans (hother q hq), ?_⟩
  rw [State.modPort_self, hup, hwidth, hrate, hretrain, hide, htrained]
  exact hrest

theorem portPerstAssert_resets (hpow : s.start.powered = true) (hhalt : s.faults.halted = false) (hhead : s.isHead p = true)
    (hperst : (s.port p).perst = false) :
    ∃ r, exec (.portPerstAssert p) s = .next r ∧ ResetsPort p s r ∧ (r.port p).perst = true ∧ (r.port p).training = false := by
  refine ⟨_, exec_portPerstAssert p s hpow hhalt hhead hperst,
    (portReset_resetsPort p s).modPort (fun q => { q with perst := true }) (fun _ => ⟨rfl, rfl, rfl, rfl, rfl, rfl⟩), ?_⟩
  rw [State.modPort_self, portReset_port]
  exact ⟨rfl, rfl⟩

theorem linkDown_resets (hrun : s.running = true) (hpads : s.power.cxlLatched = false) (hhead : s.isHead p = true)
    (hup : (s.port p).up = true) (hperst : (s.port p).perst = false) (hdown : (s.port p).downLatched = false) :
    ∃ r, exec (.linkDown p) s = .next r ∧ ResetsPort p s r ∧ (r.port p).training = true := by
  have hk := portReset_keeps p s
  have hh : (portReset p s).isHead p = true := (hk.isHead_eq p).trans ((isHead_modPort p p _ s rfl).trans hhead)
  refine ⟨_, exec_linkDown p s hrun hhead hup, ?_⟩
  rw [beginDetect_of (hk.running_eq.trans hrun) hh (by rw [portReset_port]; exact hperst) (by rw [portReset_port]; exact hdown) (hk.pads.trans hpads)]
  exact ⟨(portReset_resetsPort p s).modPort (fun q => { q with training := true, clkreq := true }) (fun _ => ⟨rfl, rfl, rfl, rfl, rfl, rfl⟩),
    by rw [State.modPort_self]⟩

/-- A link that trains (R68, R112, R507). -/
theorem linkTrained_reaches (hrun : s.running = true) (hhead : s.isHead p = true) (htrain : (s.port p).training = true)
    {width rate : BitVec 3} {flit : Bool} (hok : linkAllowed (s.port p).trained width rate flit = true) :
    ∃ r, exec (.linkTrained p width rate flit) s = .next r ∧ (∀ q, q ≠ p.val → r.port q = s.port q) ∧
      (∃ bw, r.port p = { s.port p with up := true, training := false, retraining := false, width, rate, flit256 := flit, cdatBandwidth := bw }) ∧
      (width ≠ fullWidth (s.port p).trained ∨ rate ≠ (s.port p).trained.maxRate → r.holds (srcPort p 1) = true) ∧
      (width = fullWidth (s.port p).trained → rate = (s.port p).trained.maxRate → s.faults.live.Nodup → r.holds (srcPort p 1) = false) ∧
      (s.start.phase = 10 → r.start.memActive.getLsbD p = true) ∧ (s.start.phase ≠ 10 → r.start = s.start) ∧ r.cap = s.cap := by
  have hkeep := recomputeDelivery_keepsHeads (reachL0 p width rate flit s)
  have hport (q : Nat) := (hkeep.keepsPorts.port_eq q).trans (reachL0_port p q width rate flit s)
  obtain ⟨hlo, hhi⟩ := srcPort_range p.isLt (show 1 < 8 by decide)
  refine ⟨_, exec_linkTrained p width rate flit s hrun hhead htrain hok, fun q hq => ?_,
    ⟨((s.port p).trainedAt width rate flit).cdatBandwidth, ?_⟩, fun hlow => ?_, fun hw hr hlive => ?_,
    fun hphase => ?_, fun hphase => ?_, (recomputeDelivery_cap _).trans (reachL0_cap ..)⟩
  · rw [hport, State.modPort_other _ _ _ _ hq]
  · rw [hport, State.modPort_self]; rfl
  · refine (hkeep.conditions _ hlo hhi).trans (reachL0_holds_degraded p width rate flit s ?_)
    rwa [PortCfg.degraded, Bool.or_eq_true, decide_eq_true_iff, decide_eq_true_iff]
  · refine (hkeep.conditions _ hlo hhi).trans (reachL0_holds_full p width rate flit s ?_ hlive)
    rw [PortCfg.degraded, Bool.or_eq_false_iff, decide_eq_false_iff_not, decide_eq_false_iff_not, not_not, not_not]
    exact ⟨hw, hr⟩
  · rw [hkeep.start, reachL0_start, if_pos hphase]
    simp
  · rw [hkeep.start, reachL0_start, if_neg hphase]

/-- A window of retrains that has begun less than 10 s ago is not a new one. -/
theorem freshWindow_running {t : Nat} (h : (s.port p).windowFrom = some t) (hnow : s.time.now < t + 10000000000) : s.freshWindow p = false := by
  simp only [State.freshWindow, h, State.now, secNs]
  exact decide_eq_false (by omega)

theorem freshWindow_none (h : (s.port p).windowFrom = none) : s.freshWindow p = true := by simp [State.freshWindow, h]

/-- A retrain that the window allows. -/
theorem linkRetrain_counts (hrun : s.running = true) (hhead : s.isHead p = true) (hup : (s.port p).up = true)
    (hfew : ((s.port p).retrain (s.freshWindow p) s.now).retrains.toNat < 3) : exec (.linkRetrain p) s = .next (countRetrain p s) := by
  rw [exec_linkRetrain p s hrun hhead hup, if_neg (by omega)]

/-- The retrain that latches the port down (R112). -/
theorem linkRetrain_latches (hrun : s.running = true) (hhead : s.isHead p = true) (hup : (s.port p).up = true)
    (hmany : 3 ≤ ((s.port p).retrain (s.freshWindow p) s.now).retrains.toNat) :
    exec (.linkRetrain p) s = .next (latchDown p (s.linkWord p) (countRetrain p s)) := by
  rw [exec_linkRetrain p s hrun hhead hup, if_pos hmany]

theorem countRetrain_other {q : Nat} (h : q ≠ p.val) : (countRetrain p s).port q = s.port q := by
  rw [(countRetrain_keepsPorts p s).port_eq, State.modPort_other _ _ _ _ h]

theorem countRetrain_sticky : (countRetrain p s).stickySet (srcPort p 0) = true :=
  stickySet_fireEvent_self (sourceClass_srcPort p 0) (sourceInfo_srcPort_retrain p.isLt) _

theorem latchDown_port (link : Nat) : (latchDown p link s).port p = ((s.port p).afterReset).latched := by
  rw [(latchDown_keepsPorts p link s).port_eq, State.modPort_self, State.modPort_self]

theorem latchDown_other {q : Nat} (h : q ≠ p.val) (link : Nat) : (latchDown p link s).port q = s.port q := by
  rw [(latchDown_keepsPorts p link s).port_eq, State.modPort_other _ _ _ _ h, State.modPort_other _ _ _ _ h]

theorem latchDown_sticky {n : Nat} (h : s.stickySet n = true) (link : Nat) : (latchDown p link s).stickySet n = true :=
  (latchDown_keepsPorts p link s).sticky n h

theorem linkRetrain_retrains (hrun : s.running = true) (hhead : s.isHead p = true) (hup : (s.port p).up = true) :
    ∃ r, exec (.linkRetrain p) s = .next r ∧ (∀ q, q ≠ p.val → r.port q = s.port q) ∧
      (r.port p).retrainTotal = satAdd (s.port p).retrainTotal 1 ∧ (r.port p).up = false ∧ r.stickySet (srcPort p 0) = true ∧
      ((s.port p).windowFrom = none → (r.port p).retrains = 1 ∧ (r.port p).windowFrom = some s.time.now ∧ (r.port p).training = true) ∧
      (∀ t, (s.port p).windowFrom = some t → s.time.now < t + 10000000000 →
        (((s.port p).retrains + 1).toNat < 3 → (r.port p).retrains = (s.port p).retrains + 1 ∧ (r.port p).windowFrom = some t ∧
          (r.port p).training = true ∧ (r.port p).downLatched = (s.port p).downLatched) ∧
        (3 ≤ ((s.port p).retrains + 1).toNat → (r.port p).downLatched = true ∧ (r.port p).training = false ∧ r.holds (srcPort p 2) = true)) := by
  by_cases hmany : 3 ≤ ((s.port p).retrain (s.freshWindow p) s.now).retrains.toNat
  · refine ⟨_, linkRetrain_latches hrun hhead hup hmany, fun q hq => ?_, ?_, ?_, latchDown_sticky countRetrain_sticky _,
      fun hnone => ?_, fun t ht hnow => ⟨fun hfew => ?_, fun _ => ?_⟩⟩
    · rw [latchDown_other hq, countRetrain_other hq]
    · rw [latchDown_port, countRetrain_port]; rfl
    · rw [latchDown_port]; rfl
    · rw [freshWindow_none hnone] at hmany
      exact absurd hmany (by simp [Port.retrain])
    · rw [freshWindow_running ht hnow] at hmany
      exact absurd hmany (by simpa [Port.retrain] using hfew)
    · rw [latchDown_port]
      exact ⟨rfl, rfl, latchDown_holds p.isLt ..⟩
  · refine ⟨_, linkRetrain_counts hrun hhead hup (by omega), fun q hq => countRetrain_other hq, ?_, ?_, countRetrain_sticky,
      fun hnone => ?_, fun t ht hnow => ⟨fun _ => ?_, fun hthird => ?_⟩⟩
    · rw [countRetrain_port]; rfl
    · rw [countRetrain_port]; rfl
    · rw [countRetrain_port, freshWindow_none hnone]
      exact ⟨rfl, rfl, rfl⟩
    · rw [countRetrain_port, freshWindow_running ht hnow]
      exact ⟨rfl, ht, rfl, rfl⟩
    · rw [freshWindow_running ht hnow] at hmany
      exact absurd hthird (by simpa [Port.retrain] using hmany)

/-- The write of 1 to DOWN_LATCHED (R70, R112). -/
theorem downLatchedClear_detects (hrun : s.running = true) (hpads : s.power.cxlLatched = false) (hhead : s.isHead p = true)
    (hdown : (s.port p).downLatched = true) (hperst : (s.port p).perst = false) :
    ∃ r, exec (.downLatchedClear p) s = .next r ∧ (∀ q, q ≠ p.val → r.port q = s.port q) ∧
      r.port p = { s.port p with downLatched := false, retrains := 0, windowFrom := none, training := true, clkreq := true } ∧
      (s.faults.live.Nodup → r.holds (srcPort p 2) = false) := by
  have hk := (condEnd_srcPort_keepsPorts p 2 (s.modPort p fun q => { q with downLatched := false, retrains := 0, windowFrom := none })).trans
    (wakeDomain_keepsHeads (28 + p) _).keepsPorts
  refine ⟨_, exec_downLatchedClear p s hrun hdown, fun q hq => ?_, ?_, fun hlive => ?_⟩
  · rw [beginDetect_port_other hq, hk.port_eq, State.modPort_other _ _ _ _ hq]
  · rw [beginDetect_of (hk.running_eq.trans hrun) ((hk.isHead_eq p).trans ((isHead_modPort p p _ s rfl).trans hhead))
      (by rw [hk.port_eq, State.modPort_self]; exact hperst) (by rw [hk.port_eq, State.modPort_self]) (hk.pads.trans hpads),
      State.modPort_self, hk.port_eq, State.modPort_self]
  · rw [holds_of_live (congrArg Faults.live (beginDetect_faults ..))]
    exact holds_condEnd_self _ _ hlive

theorem portRetrainWindowEnd_forgets {t : Nat} (h : (s.port p).windowFrom = some t) (hnow : t + 10000000000 ≤ s.time.now) :
    exec (.portRetrainWindowEnd p) s = .next (s.modPort p fun q => { q with retrains := 0, windowFrom := none }) := by
  change Host.Outcome.next (match (s.port p).windowFrom with
    | none => s
    | some t => if t + 10 * secNs ≤ s.now then s.modPort p fun q => { q with retrains := 0, windowFrom := none } else s) = _
  rw [h]
  exact congrArg _ (if_pos hnow)

end

/-- Settles O30: every operation of a port is its change of that port, behind which only reports, requests and power move on. -/
theorem portsTrainRetrainLatchAndReset : Obligations.PortsTrainRetrainLatchAndReset := by
  unfold Obligations.PortsTrainRetrainLatchAndReset
  intro p s hpow hhalt hentry hpads
  have hrun := State.running_of hpow hhalt hentry
  refine ⟨portPerstRelease_begins hpow hhalt hentry hpads, fun hhead => ⟨portPerstAssert_resets hpow hhalt hhead,
    fun width rate flit htrain hw1 hw2 hr1 hr2 hr3 hflit => linkTrained_reaches hrun hhead htrain ?_,
    linkDown_resets hrun hpads hhead, linkRetrain_retrains hrun hhead, downLatchedClear_detects hrun hpads hhead⟩,
    fun t => portRetrainWindowEnd_forgets⟩
  simp only [linkAllowed, Bool.and_eq_true, Bool.or_eq_true, decide_eq_true_iff]
  exact ⟨⟨⟨⟨⟨hw1, hw2⟩, hr1⟩, hr2⟩, hr3⟩, hflit⟩

end Sys2Proof.Machine
end

section
namespace Sys2Proof.Machine

/-! ### O31: what the services of a head do -/

section
variable {h : Fin 16} {s : State}

/-- A condition of a port that ends behind a change of the port. -/
theorem ideKeyExchange_sets (hrun : s.running = true) (hhead : s.isHead h = true) (hup : (s.port h).up = true) (skid : Bool)
    (hcap : if skid then (s.port h).trained.ideCap = 2 else (s.port h).trained.ideCap ≠ 0)
    (hstate : (s.port h).ideState ≠ 3 ∨ (s.port h).ideReset = true) :
    ∃ r, exec (.ideKeyExchange h skid) s = .next r ∧ (∀ q, q ≠ h.val → r.port q = s.port q) ∧
      r.port h = { s.port h with ideState := if skid then 2 else 1, ideReset := false } ∧
      (s.faults.live.Nodup → r.holds (srcPort h 3) = false) := by
  have hk := condEnd_srcPort_keepsPorts h 3 (s.modPort h fun q => { q with ideState := if skid then 2 else 1, ideReset := false })
  have hexec : exec (.ideKeyExchange h skid) s = .next (condEnd (srcPort h 3)
      (s.modPort h fun q => { q with ideState := if skid then 2 else 1, ideReset := false })) := by
    change Host.Outcome.next (if _ then _ else _) = _
    rw [if_pos]
    cases skid <;> simp_all
  refine ⟨_, hexec, fun q hq => ?_, ?_, fun hlive => holds_condEnd_self _ _ hlive⟩
  · rw [hk.port_eq, State.modPort_other _ _ _ _ hq]
  · rw [hk.port_eq, State.modPort_self]

/-! #### MACs (R90) -/

/-- Lines may be frozen; none comes, and none loses or gains its verification. -/
structure State.Freezes (s r : State) : Prop where
  path : r.path = s.path
  ports : r.ports = s.ports
  entries : ∀ g ∈ r.gather.entries, ∃ x ∈ s.gather.entries, g.source = x.source ∧ g.verified = x.verified

theorem State.Freezes.refl (s : State) : s.Freezes s := ⟨rfl, rfl, fun g hg => ⟨g, hg, rfl, rfl⟩⟩

theorem State.Freezes.trans {s r q : State} (h : s.Freezes r) (k : r.Freezes q) : s.Freezes q := by
  refine ⟨k.path.trans h.path, k.ports.trans h.ports, fun g hg => ?_⟩
  obtain ⟨x, hx, hsource, hverified⟩ := k.entries g hg
  obtain ⟨y, hy, hsource', hverified'⟩ := h.entries x hx
  exact ⟨y, hy, hsource.trans hsource', hverified.trans hverified'⟩

theorem State.Freezes.ite {p : Prop} [Decidable p] {s r q : State} (h : s.Freezes r) (k : s.Freezes q) : s.Freezes (if p then r else q) := by
  split
  · exact h
  · exact k

theorem startEviction_freezesLines (d : Nat) (s : State) : s.Freezes (startEviction d s) := by
  refine .ite (.refl s) ⟨rfl, rfl, fun g hg => ?_⟩
  obtain ⟨x, hx, rfl⟩ := List.mem_map.mp hg
  refine ⟨x, hx, ?_⟩
  split <;> exact ⟨rfl, rfl⟩

theorem relievePressure_freezes (q fuel : Nat) (s : State) : s.Freezes (relievePressure q fuel s) := by
  induction fuel generalizing s with
  | zero => exact .refl s
  | succ fuel ih =>
    unfold relievePressure
    refine .ite (.refl s) ?_
    split
    · exact .refl s
    · exact (startEviction_freezesLines ..).trans (ih _)

theorem packedTriggers_freezes (d : Nat) (s : State) : s.Freezes (packedTriggers d s) :=
  .ite (.refl s) (.ite (startEviction_freezesLines ..) (relievePressure_freezes ..))

/-- The gathered lines of a head are verified. -/
def verifyLines (h : Nat) (s : State) : State :=
  s.modGather fun t => { t with entries := t.entries.map fun g => if g.source = h then { g with verified := true } else g }

theorem port_of_ports {s r : State} (h : r.ports = s.ports) (q : Nat) : r.port q = s.port q := by rw [State.port, State.port, h]

/-- A change of the list of requests that leaves an empty one. -/
theorem modPath_noReqs (f : List Req → List Req) (s : State) (hreqs : s.path.reqs = []) (hf : f [] = []) :
    s.modPath (fun p => { p with reqs := f p.reqs }) = s := by
  rw [State.modPath, hreqs, hf, ← hreqs]

theorem headReqs_idle (h : Nat) (s : State) (hreqs : s.path.reqs = []) : s.headReqs h = [] := by rw [State.headReqs, hreqs, List.filter_nil]

/-- With no request in flight a MAC that passes verifies the gathered lines and starts the evictions that they were due. -/
theorem verifyWrites_idle (h : Nat) (s : State) (hreqs : s.path.reqs = []) : (verifyLines h s).Freezes (verifyWrites h s) := by
  have hsame := modPath_noReqs (fun l => l.map fun r => if r.source = h then { r with verified := true } else r) (verifyLines h s) hreqs rfl
  have hnone := headReqs_idle h (verifyLines h s) hreqs
  have hpages (l : List Nat) : (verifyLines h s).Freezes (forEach l packedTriggers (verifyLines h s)) :=
    forEach_keeps .refl .trans l _ packedTriggers_freezes _
  unfold verifyWrites
  dsimp only
  rw [← verifyLines, hsame, hnone, List.filter_nil, forEach_nil, hnone, List.filter_nil, forEach_nil,
    resume_idle _ _ ((congrArg Path.reqs (hpages _).path).trans hreqs)]
  exact hpages _

theorem verifyLines_verified (h : Nat) (s : State) : ∀ g ∈ (verifyLines h s).gather.entries, g.source = h → g.verified = true := by
  intro g hg hsource
  obtain ⟨x, _, rfl⟩ := List.mem_map.mp hg
  split at hsource <;> simp_all

theorem ideMacPass_verifies (hrun : s.running = true) (hide : (s.port h).ideState = 1 ∨ (s.port h).ideState = 2) (hreqs : s.path.reqs = []) :
    ∃ r, exec (.ideMacPass h) s = .next r ∧ (∀ q, q ≠ h.val → r.port q = s.port q) ∧ r.port h = s.port h ∧ r.path.reqs = [] ∧
      ∀ g ∈ r.gather.entries, g.source = h.val → g.verified = true := by
  have hexec : exec (.ideMacPass h) s = .next (verifyWrites h s) := by
    change Host.Outcome.next (if _ then _ else _) = _
    rw [if_pos (by rw [hrun, Bool.true_and, decide_eq_true hide])]
  have hk := verifyWrites_idle h s hreqs
  have hport (q : Nat) : (verifyWrites h s).port q = s.port q := port_of_ports (s := verifyLines h s) hk.ports q
  refine ⟨_, hexec, fun q _ => hport q, hport h, (congrArg Path.reqs hk.path).trans hreqs, fun g hg hsource => ?_⟩
  obtain ⟨x, hx, hxs, hxv⟩ := hk.entries g hg
  rw [hxv]
  exact verifyLines_verified h s x hx (hxs ▸ hsource)

/-- Charges that are given back are accounting. -/
theorem returnCharges_keepsHeads (s : State) : s.KeepsHeads (returnCharges s) :=
  (modGather_keepsHeads ..).trans (forEach_keepsHeads _ _ (fun _ _ => giveBack_keepsHeads ..) _)

theorem giveBack_accounts (e n : Nat) (s : State) : s.Accounts (giveBack e n s) := (addFootprint_accounts ..).trans (updateCapacity_accounts _)

theorem returnCharges_entries (s : State) : (returnCharges s).gather.entries = s.gather.entries ∧ (returnCharges s).path = s.path := by
  have hback (l : List (Nat × Nat)) (t : State) : t.Accounts (forEach l (fun c s => giveBack (extentOf (c.1 / 8)) c.2 s) t) :=
    forEach_keeps State.Accounts.refl State.Accounts.trans l _ (fun _ _ => giveBack_accounts ..) t
  unfold returnCharges
  dsimp only
  rw [(hback _ _).rest]
  exact ⟨rfl, rfl⟩

theorem dropEntries_reqs (p : GEntry → Bool) (s : State) : (dropEntries p s).path.reqs = s.path.reqs :=
  forEach_keeps (R := fun s r => r.path.reqs = s.path.reqs) (fun _ => rfl) (fun h k => k.trans h) (s.gather.entries.filter p)
    (fun g s => freeEntries 1 g.source 1 s) (fun _ _ => rfl) s

/-- With no request in flight a failed MAC drops the unverified lines and gives their charges back. -/
theorem discardUnverified_idle (h : Nat) (s : State) (hreqs : s.path.reqs = []) :
    discardUnverified h s = returnCharges (dropEntries (fun g => decide (g.source = h) && !g.verified) s) := by
  have hdropped := (dropEntries_reqs (fun g => decide (g.source = h) && !g.verified) s).trans hreqs
  unfold discardUnverified
  dsimp only
  rw [headReqs_idle h _ hdropped, List.filter_nil, forEach_nil, resume_idle]
  rw [(returnCharges_entries _).2, hdropped]

theorem ideMacFailure_discards (hrun : s.running = true) (hide : (s.port h).ideState = 1 ∨ (s.port h).ideState = 2) (hreqs : s.path.reqs = []) :
    ∃ r, exec (.ideMacFailure h) s = .next r ∧ (∀ q, q ≠ h.val → r.port q = s.port q) ∧
      r.port h = { s.port h with ideState := 3, ideReset := false } ∧ r.holds (srcPort h 3) = true ∧
      r.gather.entries = s.gather.entries.filter fun g => g.source ≠ h.val ∨ g.verified := by
  have hexec : exec (.ideMacFailure h) s = .next (condStart (srcPort h 3)
      ((discardUnverified h s).modPort h fun q => { q with ideState := 3, ideReset := false })) := by
    change Host.Outcome.next (if _ then _ else _) = _
    rw [if_pos (by rw [hrun, Bool.true_and, decide_eq_true hide])]
  have hreports := condStart_reports (srcPort h 3) ((discardUnverified h s).modPort h fun q => { q with ideState := 3, ideReset := false })
    (sourceClass_srcPort ..)
  have hports : (discardUnverified h s).ports = s.ports := by
    rw [discardUnverified_idle h s hreqs, (returnCharges_keepsHeads _).ports, dropEntries_rest]
  have hport (q : Nat) : (discardUnverified h s).port q = s.port q := port_of_ports hports q
  have hk := condStart_srcPort_keepsPorts h 3 ((discardUnverified h s).modPort h fun q => { q with ideState := 3, ideReset := false })
  refine ⟨_, hexec, fun q hq => ?_, ?_, ?_, ?_⟩
  · rw [hk.port_eq, State.modPort_other _ _ _ _ hq, hport]
  · rw [hk.port_eq, State.modPort_self, hport]
  · rw [holds_condStart (sourceClass_srcPort ..)]
    simp
  · rw [hreports.rest, State.modPort_gather, discardUnverified_idle h s hreqs, (returnCharges_entries _).1, dropEntries_rest]
    refine List.filter_congr fun g _ => ?_
    by_cases hg : g.source = h.val <;> simp [hg]

/-! #### The CDAT, decoders and sessions (R76, R82, R214) -/

theorem ldExists_of (hhead : s.isHead h = true) {ld : Nat} (hld : ld / 16 = h.val) (hcount : ld % 16 < (s.port h).trained.ldCount.toNat) :
    s.ldExists ld = true := by
  simp [State.ldExists, hld, hhead, hcount]

theorem doeCdatTableAccess_answers (hrun : s.running = true) (hhead : s.isHead h = true) (hup : (s.port h).up = true) (ld : Fin 256)
    (hld : ld.val / 16 = h.val) (hcount : ld.val % 16 < (s.port h).trained.ldCount.toNat) (hearly : s.start.earlyDone = true)
    (hlantern : s.start.lantern = false) : exec (.doeCdatTableAccess ld) s = .next { s with
      out := .cdat ld ((s.ld ld).regions.map fun e => (e.2.base, e.2.len, s.regionShared ld e.2)) 98 40 (s.port h).cdatBandwidth
        (s.port h).cdatBandwidth :: s.out } := by
  change Host.Outcome.next (if _ then _ else _) = _
  rw [if_pos (by simp [hrun, hearly, hlantern, ldExists_of hhead hld hcount, hld, hup]), hld]
  rfl

theorem hdmDecoderCommit_locks (hrun : s.running = true) (hhead : s.isHead h = true) (hup : (s.port h).up = true) (ld : Fin 256)
    (hld : ld.val / 16 = h.val) (hcount : ld.val % 16 < (s.port h).trained.ldCount.toNat) (d : Fin 8) (base size : BitVec 64)
    (ways gran : BitVec 16) (hactive : s.start.memActive.getLsbD h = true) (hopen : (Tab.get {} (s.ld ld).decoders d).committed = false)
    (hways : ways.toNat ∈ [1, 2, 3, 4, 6, 8, 12, 16]) (hgran : gran.toNat ∈ [256, 512, 1024, 2048, 4096, 8192, 16384]) :
    ∃ r, exec (.hdmDecoderCommit ld d base size ways gran) s = .next r ∧ r = { s with lds := r.lds } ∧
      (∀ i, i ≠ ld.val → r.ld i = s.ld i) ∧
      Tab.get {} (r.ld ld).decoders d = { base, size, ways, granularity := gran, committed := true } ∧
      ∀ e, e ≠ d.val → Tab.get {} (r.ld ld).decoders e = Tab.get {} (s.ld ld).decoders e := by
  have hexec : exec (.hdmDecoderCommit ld d base size ways gran) s = .next (s.modLd ld fun l =>
      { l with decoders := Tab.set {} l.decoders d { base, size, ways, granularity := gran, committed := true } }) := by
    change Host.Outcome.next (if _ then _ else _) = _
    rw [if_pos]
    simp only [hrun, ldExists_of hhead hld hcount, hld, hup, hactive, hopen, decoderOk, hways, hgran, decide_true, Bool.and_self, Bool.not_false]
  refine ⟨_, hexec, rfl, fun i hi => State.modLd_other _ _ _ _ hi, ?_, fun e he => ?_⟩
  · rw [State.modLd_self, Tab.get_set_self]
  · rw [State.modLd_self, Tab.get_set_other _ _ _ he]

theorem spdmSecureSession_replaces (hrun : s.running = true) (hhead : s.isHead h = true) (hup : (s.port h).up = true) (ld : Fin 256)
    (hld : ld.val / 16 = h.val) (hcount : ld.val % 16 < (s.port h).trained.ldCount.toNat) (hearly : s.start.earlyDone = true)
    (hdoze : s.power.dozing = false) (v13 auth : Bool) :
    ∃ r, exec (.spdmSecureSession (.ld ld) v13 auth) s = .next r ∧ r = { s with ccis := r.ccis } ∧ (∀ i, i ≠ ld.val → r.cci i = s.cci i) ∧
      (r.cci ld).spdm = { established := true, version13 := v13, mutualAuth := auth && s.img.opKey.isSome } := by
  have hexec : exec (.spdmSecureSession (.ld ld) v13 auth) s = .next (s.modCci ld fun c =>
      { c with spdm := { established := true, version13 := v13, mutualAuth := auth && s.img.opKey.isSome } }) := by
    change Host.Outcome.next (if _ then _ else _) = _
    rw [if_pos (by simp [State.cciLive, hrun, hearly, hdoze, ldExists_of hhead hld hcount, hld, hup])]
    rfl
  refine ⟨_, hexec, rfl, fun i hi => State.modCci_other _ _ _ _ hi, ?_⟩
  rw [State.modCci_self]

end

/-! #### A snoop's answer (R84, R85) -/

/-- The snoops in flight and the directory stand, and no request is added. -/
structure State.KeepsSnoops (s r : State) : Prop where
  snoops : r.path.snoops = s.path.snoops
  directory : r.path.directory = s.path.directory
  reqs : ∀ x ∈ r.path.reqs, x ∈ s.path.reqs

theorem State.KeepsSnoops.refl (s : State) : s.KeepsSnoops s := ⟨rfl, rfl, fun _ h => h⟩

theorem State.KeepsSnoops.trans {s r q : State} (h : s.KeepsSnoops r) (k : r.KeepsSnoops q) : s.KeepsSnoops q :=
  ⟨k.snoops.trans h.snoops, k.directory.trans h.directory, fun x hx => h.reqs x (k.reqs x hx)⟩

theorem State.KeepsSnoops.ite {p : Prop} [Decidable p] {s r q : State} (h : s.KeepsSnoops r) (k : s.KeepsSnoops q) :
    s.KeepsSnoops (if p then r else q) := by
  split
  · exact h
  · exact k

theorem forEach_keepsSnoops {α : Type} (l : List α) (f : α → State → State) (h : ∀ a s, State.KeepsSnoops s (f a s)) (s : State) :
    s.KeepsSnoops (forEach l f s) := forEach_keeps .refl .trans l f h s

theorem State.KeepsSnoops.of_path {s r : State} (h : r.path = s.path) : s.KeepsSnoops r := by
  refine ⟨?_, ?_, ?_⟩ <;> rw [h]
  exact fun _ hx => hx

theorem State.Accounts.keepsSnoops {s r : State} (h : s.Accounts r) : s.KeepsSnoops r := .of_path (by rw [h.rest])

theorem State.Reports.keepsSnoops {s r : State} (h : s.Reports r) : s.KeepsSnoops r := h.accounts.keepsSnoops

theorem State.KeepsSnoops.idle {s r : State} (h : s.KeepsSnoops r) (hreqs : s.path.reqs = []) : r.path.reqs = [] := by
  refine List.eq_nil_iff_forall_not_mem.mpr fun x hx => ?_
  have := h.reqs x hx
  simp [hreqs] at this

theorem modCap_keepsSnoops (f : Cap → Cap) (s : State) : s.KeepsSnoops (s.modCap f) := .of_path rfl
theorem modConst_keepsSnoops (f : Const → Const) (s : State) : s.KeepsSnoops (s.modConst f) := .of_path rfl
theorem modInteg_keepsSnoops (f : Integ → Integ) (s : State) : s.KeepsSnoops (s.modInteg f) := .of_path rfl
theorem modExtent_keepsSnoops (e : Nat) (f : Extent → Extent) (s : State) : s.KeepsSnoops (s.modExtent e f) := .of_path rfl
theorem modRil_keepsSnoops (f : Ril → Ril) (s : State) : s.KeepsSnoops (s.modRil f) := .of_path rfl
theorem modQuad_keepsSnoops (q : Nat) (f : Quad → Quad) (s : State) : s.KeepsSnoops (s.modQuad q f) := .of_path rfl
theorem setDesc_keepsSnoops (d : Nat) (x : Desc) (s : State) : s.KeepsSnoops (setDesc d x s) := .of_path rfl
theorem setLock_keepsSnoops (d : Nat) (b : Bool) (s : State) : s.KeepsSnoops (setLock d b s) := .of_path rfl

theorem dropRecall_keepsSnoops (d : Nat) (s : State) : s.KeepsSnoops (dropRecall d s) := ⟨rfl, rfl, fun _ h => List.mem_of_mem_filter h⟩

theorem sendFarFree_keepsSnoops (d i p : Nat) (s : State) : s.KeepsSnoops (sendFarFree d i p s) :=
  .ite (openTxn_reports ..).keepsSnoops (.of_path rfl)

theorem freeStorage_keepsSnoops (l n : Nat) (s : State) : s.KeepsSnoops (freeStorage l n s) := by
  unfold freeStorage
  refine .ite (.of_path rfl) ?_
  split
  · exact .refl s
  · exact .of_path rfl

theorem releaseM_keepsSnoops (n : Nat) (s : State) : s.KeepsSnoops (releaseM n s) :=
  .ite (.refl s) ((modCap_keepsSnoops ..).trans (updateCapacity_accounts _).keepsSnoops)

theorem mwaitDone_keepsSnoops (t code : Nat) (s : State) : s.KeepsSnoops (mwaitDone t code s) := by
  refine .of_path ?_
  unfold mwaitDone closeComet
  split <;> rfl

theorem completeTicket_keepsSnoops (t : BitVec 16) (code : Nat) (s : State) : s.KeepsSnoops (completeTicket t code s) := by
  unfold completeTicket
  split
  · exact .refl s
  · refine .trans ?_ (forEach_keepsSnoops _ _ (fun _ _ => mwaitDone_keepsSnoops ..) _)
    refine .trans ?_ (modRil_keepsSnoops ..)
    split
    · exact (postDevice_accounts ..).keepsSnoops
    · exact .refl s

theorem finishOp_keepsSnoops (q : Nat) (op : MoverOp) (t : Option (BitVec 16)) (code : Nat) (s : State) :
    s.KeepsSnoops (finishOp q op t code s) := by
  have hfire (t : State) : t.KeepsSnoops (if code = 6 then fireEvent 782 t else t) :=
    .ite (fireEvent_reports 782 t (by decide)).keepsSnoops (.refl t)
  unfold finishOp
  cases t with
  | none => exact (modQuad_keepsSnoops ..).trans (hfire _)
  | some t => exact ((modQuad_keepsSnoops ..).trans (hfire _)).trans (completeTicket_keepsSnoops ..)

theorem endRecord_keepsSnoops (q : Nat) (r : MoverRec) (code : Nat) (s : State) : s.KeepsSnoops (endRecord q r code s) := by
  unfold endRecord
  refine .trans ?_ (finishOp_keepsSnoops ..)
  refine .trans ?_ (.ite (.refl _) (.ite (setDesc_keepsSnoops ..) (setLock_keepsSnoops ..)))
  refine .trans ?_ (releaseM_keepsSnoops ..)
  refine .trans ((dropRecall_keepsSnoops r.dlpn s).trans (modQuad_keepsSnoops ..)) (.ite ?_ (.refl _))
  split
  · exact sendFarFree_keepsSnoops ..
  · exact freeStorage_keepsSnoops ..

theorem abortMove_keepsSnoops (d : Nat) (s : State) : s.KeepsSnoops (abortMove d s) := by
  unfold abortMove
  split
  · exact endRecord_keepsSnoops ..
  · exact .refl s

theorem dropMapping_keepsSnoops (ld block : Nat) (s : State) : s.KeepsSnoops (dropMapping ld block s) := by
  have hhint (m : DpaEntry) : s.KeepsSnoops (if m.home = s.ident.devId then dropHint ld m.extent.toNat s else s) := .ite (.of_path rfl) (.refl s)
  have hcache (t : State) (f : Cap → Cap) (g : List (Nat × List (Nat × Nat)) → List (Nat × List (Nat × Nat))) :
      t.KeepsSnoops ((t.modCap f).modPath fun p => { p with cache := g p.cache }) := ⟨rfl, rfl, fun _ h => h⟩
  unfold dropMapping
  refine .trans ?_ (hcache ..)
  split
  · exact hhint _
  · exact .refl s

theorem enterErasing_keepsSnoops (e : Nat) (s : State) : s.KeepsSnoops (enterErasing e s) := by
  have hdrop (t : State) : t.KeepsSnoops (dropGathered e t) := ⟨rfl, rfl, fun _ h => h⟩
  have hwait (w : List Waiter) (t : State) : t.KeepsSnoops { t with waiters := w } := .of_path rfl
  have hkey (k : Nat) (t : State) : t.KeepsSnoops (returnKey k t) := .ite (.refl t) (.of_path rfl)
  unfold enterErasing
  refine .trans ?_ (updateCapacity_accounts _).keepsSnoops
  refine .trans ?_ (hkey ..)
  refine .trans ?_ (hwait ..)
  refine .trans ?_ (modInteg_keepsSnoops ..)
  refine .trans ?_ (modCap_keepsSnoops ..)
  refine .trans ?_ (modExtent_keepsSnoops ..)
  refine .trans ?_ (forEach_keepsSnoops _ _ (fun _ _ => abortMove_keepsSnoops ..) _)
  exact (forEach_keepsSnoops _ _ (fun _ _ => dropMapping_keepsSnoops ..) s).trans (hdrop _)

theorem finishReleases_keepsSnoops (s : State) : s.KeepsSnoops (finishReleases s) :=
  forEach_keepsSnoops _ _ (fun _ s => .ite (.refl s) (enterErasing_keepsSnoops ..)) s

theorem answerSnoops_keepsSnoops (s : State) : s.KeepsSnoops (answerSnoops s) := by
  have hsend (l : List (Nat × BitVec 16 × Nat)) (t : State) : t.KeepsSnoops (forEach l (fun x s => sendResponse x.1 9 x.2.1 0 [] [] s) t) :=
    forEach_keepsSnoops _ _ (fun _ _ => (sendPkt_reports ..).keepsSnoops) t
  exact (modConst_keepsSnoops ..).trans (hsend _ _)

/-- With no request in flight nothing goes on when a snoop is answered. -/
theorem snoopsAnswered_idle (s : State) (hreqs : s.path.reqs = []) : s.KeepsSnoops (snoopsAnswered s) := by
  have hk := (finishReleases_keepsSnoops s).trans (answerSnoops_keepsSnoops _)
  rw [snoopsAnswered, resume_idle _ _ (hk.idle hreqs)]
  exact hk

theorem getLsbD_andNot_bit16 (m : BitVec 16) (h : Fin 16) : (m &&& ~~~ bit16 h).getLsbD h = false := by
  have hbit : (bit16 h).getLsbD h = true := by revert h; decide
  simp [hbit]

theorem birsp_ends {h : Fin 16} {s : State} (hrun : s.running = true) (n : Snoop) (home : BitVec 2) (dlpn : BitVec 34) (line : BitVec 6)
    (hsnoops : s.path.snoops = [n]) (hhead : n.head = h.val) (hline : n.line = lineKey home.toNat dlpn.toNat line.toNat)
    (hreqs : s.path.reqs = []) :
    ∃ r, exec (.birsp h home dlpn line) s = .next r ∧ r.path.snoops = [] ∧ r.path.reqs = [] ∧ r.dram = s.dram ∧
      (n.inv = true → (r.dirEntry n.line).getLsbD h = false) := by
  have hexec : exec (.birsp h home dlpn line) s = .next (snoopsAnswered (endSnoop n s)) := by
    change Host.Outcome.next (if _ then _ else _) = _
    rw [if_pos hrun, hsnoops, List.find?_cons_of_pos (by simp [hhead, hline])]
  have hend : (endSnoop n s).path.snoops = [] ∧ (endSnoop n s).path.reqs = [] ∧ (endSnoop n s).dram = s.dram := by
    unfold endSnoop
    cases n.inv <;> simp [hsnoops, hreqs, State.modPath, setDir]
  obtain ⟨hsnoops', hreqs', hdram⟩ := hend
  have hk := snoopsAnswered_idle (endSnoop n s) hreqs'
  refine ⟨_, hexec, hk.snoops.trans hsnoops', hk.idle hreqs', (snoopsAnswered_keepsHeads _).dram.trans hdram, fun hinv => ?_⟩
  rw [State.dirEntry, hk.directory, endSnoop]
  rw [if_pos hinv, setDir, hhead]
  simp only [State.modPath, Tab.get_set_self]
  exact getLsbD_andNot_bit16 _ h

/-- Settles O31: a service of a head changes what R76, R82, R84, R85, R90 and R214 name, behind which only reports and accounts move. -/
theorem ideCdatAndDecodersServeTheirHead : Obligations.IdeCdatAndDecodersServeTheirHead := by
  unfold Obligations.IdeCdatAndDecodersServeTheirHead
  intro h s hpow hhalt hentry
  have hrun := State.running_of hpow hhalt hentry
  refine ⟨fun hhead hup => ⟨ideKeyExchange_sets hrun hhead hup, fun hide hreqs => ⟨ideMacPass_verifies hrun hide hreqs,
    ideMacFailure_discards hrun hide hreqs⟩, fun ld hld hcount => ⟨doeCdatTableAccess_answers hrun hhead hup ld hld hcount,
    hdmDecoderCommit_locks hrun hhead hup ld hld hcount, spdmSecureSession_replaces hrun hhead hup ld hld hcount⟩⟩, ?_⟩
  exact fun n home dlpn line hsnoops hhead hline hreqs _ => birsp_ends hrun n home dlpn line hsnoops hhead hline hreqs

end Sys2Proof.Machine
end

section
namespace Sys2Proof.Machine

/-! ### Writes of registers in a domain that is awake (R13, R560, R564, R566) -/

/-- A domain that has served an access. -/
def State.served (s : State) (d : Nat) : State := s.modDom d fun x => { x with lastWork := s.now }

/-- The domain is in P0 and stays there. -/
def State.awake (s : State) (d : Nat) : Prop := (s.dom d).state = .p0 ∧ (s.dom d).trans = .none

theorem wakeDomain_awake {d : Nat} {s : State} (h : s.awake d) : wakeDomain d s = s.served d := by
  obtain ⟨hstate, htrans⟩ := h
  unfold wakeDomain State.served
  rw [State.modDom, State.modDom]
  simp [hstate, htrans]

theorem domLost_awake {d : Nat} {s : State} (h : s.awake d) : s.domLost d = false := by simp [State.domLost, h.1]

theorem awake_served {d : Nat} {s : State} (h : s.awake d) : (s.served d).awake d := by
  rw [State.awake, State.served, State.modDom_self]
  exact h

theorem leaveP3_awake {d : Nat} {s : State} (h : s.awake d) (lost : State → State) : leaveP3 d lost s = s := by
  unfold leaveP3
  rw [if_neg (by simp [domLost_awake h]), h.2]

/-- What a write leaves: each field that takes its value sets it, and the others are noted. -/
theorem writeRegister_taken {src : RegSource} {type inst o : Nat} {s : State} (hw : ((registerAt type inst o).any fun f => f.writable) = true)
    (hbelow : s.belowFirmware src type o = false) (hrefused : s.refusedFor src true type o = []) (hawake : s.awake (registerDomain type inst o))
    (htype : type ≠ 0x60) (off : Nat) (w : Word) :
    writeRegister src off true type inst o w s = noteIgnored src off (writeFields (registerAt type inst o) w (s.served (registerDomain type inst o))).1
      (writeFields (registerAt type inst o) w (s.served (registerDomain type inst o))).2 := by
  unfold writeRegister
  rw [if_neg (by simp [hw, hbelow]), if_neg (by simp [hrefused]), if_neg (by simp [domLost_awake hawake]), wakeDomain_awake hawake,
    leaveP3_awake (awake_served hawake), ite_self]
  dsimp only
  rw [if_neg htype]

/-- The mailbox engine's write of a register other than RST_CTL outside the Lantern state. -/
theorem engineWrite_taken {type inst o : Nat} {s : State} (hrun : s.running = true) (hearly : s.start.earlyDone = true)
    (hdoze : s.power.dozing = false) (hlantern : s.start.lantern = false) (hw : ((registerAt type inst o).any fun f => f.writable) = true)
    (hrst : isRstCtl type o = false) (htype : type ≠ 0x60) (hawake : s.awake (registerDomain type inst o)) (w : Word) :
    sourceWrite .engine type inst o w s = noteIgnored .engine (windowOffset type inst o)
      (writeFields (registerAt type inst o) w (s.served (registerDomain type inst o))).1
      (writeFields (registerAt type inst o) w (s.served (registerDomain type inst o))).2 := by
  have hreach : s.reaches .engine = true := by simp [State.reaches, hrun, hearly, hdoze]
  rw [sourceWrite, if_pos hreach, writeRegister_taken hw rfl ?_ hawake htype]
  simp [State.refusedFor, hlantern, hrst]

/-- Every field takes its value: nothing is ignored. -/
theorem writeFields_taken {l : List RegField} {w : Word} {s : State} (h : ∀ f ∈ l, f.judge (f.part w) s = 0) :
    writeFields l w s = ([], forEach l (fun f => f.set (f.part w)) s) := by
  unfold writeFields
  have hnone : (l.map fun f => f.judge (f.part w) s).filter (· != 0) = [] := by
    rw [List.filter_eq_nil_iff]
    intro v hv
    obtain ⟨f, hf, rfl⟩ := List.mem_map.mp hv
    simp [h f hf]
  have hall : (l.filter fun f => f.judge (f.part w) s = 0) = l := List.filter_eq_self.mpr fun f hf => by simp [h f hf]
  rw [hnone, hall]

/-- The fields of a register that the mailbox engine writes with values in range. -/
theorem engineWrite_sets {type inst o : Nat} {s : State} (hrun : s.running = true) (hearly : s.start.earlyDone = true)
    (hdoze : s.power.dozing = false) (hlantern : s.start.lantern = false) (hw : ((registerAt type inst o).any fun f => f.writable) = true)
    (hrst : isRstCtl type o = false) (htype : type ≠ 0x60) (hawake : s.awake (registerDomain type inst o)) {w : Word}
    (hok : ∀ f ∈ registerAt type inst o, f.judge (f.part w) (s.served (registerDomain type inst o)) = 0) :
    sourceWrite .engine type inst o w s = forEach (registerAt type inst o) (fun f => f.set (f.part w)) (s.served (registerDomain type inst o)) := by
  rw [engineWrite_taken hrun hearly hdoze hlantern hw hrst htype hawake, writeFields_taken hok]
  rfl

/-- Bits of a word as a field holds them. -/
theorem ofNat_bits (w : Word) (lo n : Nat) : BitVec.ofNat n (w.toNat / 2 ^ lo % 2 ^ n) = w.extractLsb' lo n := by
  apply BitVec.eq_of_toNat_eq
  simp [Nat.shiftRight_eq_div_pow]

theorem within_of {lo hi v : Nat} (h : lo ≤ v) (k : v ≤ hi) : within lo hi v = true := by simp [within, h, k]

/-! #### PORT_CTL -/

/-- PORT_CTL as a word gives it, with the port enabled (R70). -/
def portCfgOf (w : Word) : PortCfg where
  merge := w.extractLsb' 0 2
  maxRate := w.extractLsb' 2 3
  sris := decide (bitsOf w.toNat 5 1 = 1)
  ideCap := w.extractLsb' 6 2
  ldCount := w.extractLsb' 8 5
  enable := true

theorem portEnable_on (p : Nat) (s : State) : portEnable p true s = s.modPort p fun q => { q with cfg := { q.cfg with enable := true } } := rfl

/-- The fields of PORT_CTL, set one after the other with ENABLE 1. -/
theorem portCtl_sets (p : Nat) (w : Word) (s : State) (henable : bitsOf w.toNat 13 1 = 1) :
    let r := forEach (portCtlReg p) (fun f => f.set (f.part w)) s
    r.regwin = s.regwin ∧ (∀ q, q ≠ p → r.port q = s.port q) ∧
      r.port p = { s.port p with commit := decide (bitsOf w.toNat 63 1 = 1) || (s.port p).commit, cfg := portCfgOf w } := by
  unfold bitsOf at henable
  simp only [portCtlReg, forEach_cons, forEach_nil, fieldRwl, bitCommit, RegField.part, bitsOf, henable, decide_true, portEnable_on, ofNat_bits]
  refine ⟨?_, fun q hq => ?_, ?_⟩
  · split <;> simp only [State.modPort_regwin]
  · split <;> simp only [State.modPort_other _ _ _ _ hq]
  · split
    · rename_i hlock
      simp only [State.modPort_self, hlock, decide_true, Bool.true_or, portCfgOf, bitsOf]
      rfl
    · rename_i hlock
      simp only [State.modPort_self, hlock, decide_false, Bool.false_or, portCfgOf, bitsOf]
      rfl

/-- A merge that the port may lead (R67). -/
theorem mergeOk_of {p v : Nat} (h : v = 0 ∨ (v = 1 ∧ p % 2 = 0) ∨ (v = 2 ∧ p % 4 = 0)) : mergeOk p v = true := by
  rcases h with rfl | ⟨rfl, hp⟩ | ⟨rfl, hp⟩ <;> simp [mergeOk, *]

theorem portCtl_judges {p : Nat} {w : Word} {s : State} (hcommit : (s.port p).commit = false)
    (hmerge : bitsOf w.toNat 0 2 = 0 ∨ (bitsOf w.toNat 0 2 = 1 ∧ p % 2 = 0) ∨ (bitsOf w.toNat 0 2 = 2 ∧ p % 4 = 0))
    (hrate : 1 ≤ bitsOf w.toNat 2 3) (hrate' : bitsOf w.toNat 2 3 ≤ 4) (hide : bitsOf w.toNat 6 2 ≤ 2) (hlds : 1 ≤ bitsOf w.toNat 8 5)
    (hlds' : bitsOf w.toNat 8 5 ≤ 16) : ∀ f ∈ portCtlReg p, f.judge (f.part w) s = 0 := by
  have h1 := mergeOk_of hmerge
  have h2 := within_of hrate hrate'
  have h3 := within_of (Nat.zero_le _) hide
  have h4 := within_of hlds hlds'
  unfold bitsOf at h1 h2 h3 h4
  simp only [portCtlReg, List.forall_mem_cons, fieldRwl, bitCommit, RegField.part, hcommit, h1, h2, h3, h4]
  simp

section
variable {s : State} (hrun : s.running = true) (hearly : s.start.earlyDone = true) (hdoze : s.power.dozing = false)
  (hlantern : s.start.lantern = false)
include hrun hearly hdoze hlantern

theorem portCtlWrite_takes {p : Fin 16} {w : Word} (hawake : s.awake (28 + p))
    (hmerge : bitsOf w.toNat 0 2 = 0 ∨ (bitsOf w.toNat 0 2 = 1 ∧ p.val % 2 = 0) ∨ (bitsOf w.toNat 0 2 = 2 ∧ p.val % 4 = 0))
    (hrate : 1 ≤ bitsOf w.toNat 2 3) (hrate' : bitsOf w.toNat 2 3 ≤ 4) (hide : bitsOf w.toNat 6 2 ≤ 2) (hlds : 1 ≤ bitsOf w.toNat 8 5)
    (hlds' : bitsOf w.toNat 8 5 ≤ 16) (henable : bitsOf w.toNat 13 1 = 1) (hcommit : (s.port p).commit = false) :
    ∃ r, exec (.portCtlWrite .engine p w) s = .next r ∧ r.regwin = s.regwin ∧ (∀ q, q ≠ p.val → r.port q = s.port q) ∧
      r.port p = { s.port p with commit := decide (bitsOf w.toNat 63 1 = 1), cfg := portCfgOf w } := by
  have hjudge := portCtl_judges (s := s.served (28 + p)) hcommit hmerge hrate hrate' hide hlds hlds'
  have hsets := portCtl_sets p w (s.served (28 + p)) henable
  rw [← Bool.or_false (decide (bitsOf w.toNat 63 1 = 1)), ← hcommit]
  exact ⟨_, congrArg Host.Outcome.next (engineWrite_sets (type := 0x20) (inst := p) (o := 0) hrun hearly hdoze hlantern rfl rfl (by decide)
    hawake hjudge), hsets⟩

end

/-- Every locked field names cause 2, and COMMIT stays (R563). -/
theorem portCtl_locked {p : Nat} (w : Word) {s : State} (hcommit : (s.port p).commit = true) :
    writeFields (portCtlReg p) w s = ([2, 2, 2, 2, 2, 2], if bitsOf w.toNat 63 1 = 1 then s.modPort p fun q => { q with commit := true } else s) := by
  simp [writeFields, portCtlReg, fieldRwl, bitCommit, RegField.part, bitsOf, hcommit, forEach_cons, forEach_nil]

/-- Several fields of the mailbox engine's write that name one cause (R560). -/
theorem noteIgnored_same (off c n : Nat) (s : State) : noteIgnored .engine off (List.replicate (n + 1) c) s = s.modRegwin fun r =>
    { ignored := satAdd r.ignored 1, lastCause := BitVec.ofNat 3 c, lastOffset := BitVec.ofNat 26 off
      lastRilia := false, lastSrc := 0, lastEngine := true } := by
  rw [List.replicate_succ, noteIgnored]
  have hall : ((List.replicate n c).all (· == c)) = true := by simp
  simp only [hall, if_true]
  rfl

section
variable {s : State} (hrun : s.running = true) (hearly : s.start.earlyDone = true) (hdoze : s.power.dozing = false)
  (hlantern : s.start.lantern = false)
include hrun hearly hdoze hlantern

theorem portCtlWrite_locked {p : Fin 16} {w : Word} (hawake : s.awake (28 + p)) (hcommit : (s.port p).commit = true) :
    ∃ r, exec (.portCtlWrite .engine p w) s = .next r ∧ r.port p = s.port p ∧ r.regwin.ignored = satAdd s.regwin.ignored 1 ∧
      r.regwin.lastCause = 2 := by
  have hexec := engineWrite_taken (type := 0x20) (inst := p) (o := 0) hrun hearly hdoze hlantern rfl rfl (by decide) hawake w
  have hlocked := portCtl_locked w (s := s.served (28 + p)) hcommit
  have hlocked' : writeFields (registerAt 0x20 p 0) w (s.served (registerDomain 0x20 p 0)) = _ := hlocked
  rw [hlocked'] at hexec
  have hnote := noteIgnored_same (windowOffset 0x20 p 0) 2 5
    (if bitsOf w.toNat 63 1 = 1 then (s.served (28 + p)).modPort p fun q => { q with commit := true } else s.served (28 + p))
  refine ⟨_, congrArg Host.Outcome.next (hexec.trans hnote), ?_, ?_, rfl⟩
  · split
    · simp only [State.modRegwin_at_port, State.modPort_self]
      rw [← hcommit]
      rfl
    · rfl
  · split <;> rfl

end

section
variable {s : State} (hrun : s.running = true) (hearly : s.start.earlyDone = true) (hdoze : s.power.dozing = false)
  (hlantern : s.start.lantern = false)
include hrun hearly hdoze hlantern

/-- A host's write of a firmware-only register (R555). -/
theorem portCtlWrite_host {p : Fin 16} {w : Word} {ld : Fin 256} (hld : s.ldExists ld = true) (hup : (s.port (ld / 16)).up = true)
    (hmgmt : (s.ld ld).mgmt = true) :
    ∃ r, exec (.portCtlWrite (.host ld) p w) s = .next r ∧ r = { s with regwin := r.regwin } ∧
      r.regwin.ignored = satAdd s.regwin.ignored 1 ∧ r.regwin.lastCause = 1 ∧ r.regwin.lastSrc = BitVec.ofNat 8 ld ∧
      r.regwin.lastRilia = false ∧ r.regwin.lastEngine = false := by
  have hreach : s.reaches (.host ld) = true := by simp [State.reaches, hrun, hearly, hdoze, hld, hup]
  have hrefused : s.refusedFor (.host ld) true 0x20 0 = [1] := by simp [State.refusedFor, hmgmt, hlantern, firmwareOnly, isRstCtl]
  have hknown : ((!(registerAt 0x20 p 0).any fun f => f.writable) || s.belowFirmware (.host ld) 0x20 0) = false := rfl
  have hexec : exec (.portCtlWrite (.host ld) p w) s = .next (noteIgnored (.host ld) (windowOffset 0x20 p 0) [1] s) := by
    change Host.Outcome.next (sourceWrite (.host ld) 0x20 p 0 w s) = _
    rw [sourceWrite, if_pos hreach, writeRegister, hknown, if_neg Bool.false_ne_true, hrefused]
    rfl
  exact ⟨_, hexec, rfl, rfl, rfl, rfl, rfl, rfl⟩

end

end Sys2Proof.Machine
end

section
namespace Sys2Proof.Machine

/-! #### CH_CTL -/

/-- The fields of CH_CTL as a word gives them, REF_2X_FORCE and EXPRESS aside (R253). -/
def Chan.ctlSet (h : Chan) (w : Word) : Chan := { h with
  pageDefault := w.extractLsb' 0 2, express := false, pdTimer := w.extractLsb' 3 8, rowIdle := w.extractLsb' 11 8,
  speedMax := w.extractLsb' 19 8, wrHigh := w.extractLsb' 28 7, wrLow := w.extractLsb' 35 7, commit := decide (bitsOf w.toNat 63 1 = 1) }

/-- A write of REF_2X_FORCE that leaves it as it is. -/
theorem forceHot_same (c : Nat) (b : Bool) (s : State) (h : b = (s.chan c).ref2x) :
    forceHot c b s = s.modChan c fun h => { h with ref2x := b } := by
  unfold forceHot
  dsimp only
  rw [if_pos]
  rw [State.modChan_self, h]

theorem chCtl_sets (c : Nat) (w : Word) (s : State) (hexpress : bitsOf w.toNat 2 1 = 0)
    (href : decide (bitsOf w.toNat 27 1 = 1) = (s.chan c).ref2x) (hcommit : (s.chan c).commit = false) :
    let r := forEach (chCtlReg c) (fun f => f.set (f.part w)) s
    r.regwin = s.regwin ∧ (∀ d, d ≠ c → r.chan d = s.chan d) ∧ r.chan c = (s.chan c).ctlSet w := by
  have hword : w.toNat / 2 ^ 0 % 2 ^ 64 = w.toNat := by
    rw [pow_zero, Nat.div_one, Nat.mod_eq_of_lt w.isLt]
  unfold bitsOf at hexpress href
  simp only [chCtlReg, forEach_cons, forEach_nil, fieldRw, fieldRwIf, fieldRwl, fieldPair, bitRw, bitCommit, RegField.part, bitsOf, hexpress, hword]
  rw [forceHot_same _ _ _ (by simp only [State.modChan_self]; exact href)]
  refine ⟨?_, fun d hd => ?_, ?_⟩
  · split <;> simp only [State.modChan_regwin]
  · split <;> simp only [State.modChan_other _ _ _ _ hd]
  · split
    · rename_i hlock
      simp only [State.modChan_self, hlock, decide_true, Chan.ctlSet, bitsOf, href, ofNat_bits]
      rfl
    · rename_i hlock
      simp only [State.modChan_self, hlock, decide_false, Chan.ctlSet, bitsOf, href, ofNat_bits, hcommit]
      rfl

theorem chCtl_judges {c : Nat} {w : Word} {s : State} (hcommit : (s.chan c).commit = false) (hpage : 1 ≤ bitsOf w.toNat 0 2)
    (hexpress : bitsOf w.toNat 2 1 = 0) (hrow : 1 ≤ bitsOf w.toNat 11 8) (hspeed : 48 ≤ bitsOf w.toNat 19 8) (hspeed' : bitsOf w.toNat 19 8 ≤ 64)
    (hhigh : 8 ≤ bitsOf w.toNat 28 7) (hhigh' : bitsOf w.toNat 28 7 ≤ 120) (hlow : 1 ≤ bitsOf w.toNat 35 7)
    (hlow' : bitsOf w.toNat 35 7 < bitsOf w.toNat 28 7) : ∀ f ∈ chCtlReg c, f.judge (f.part w) s = 0 := by
  have hword : w.toNat / 2 ^ 0 % 2 ^ 64 = w.toNat := by
    rw [pow_zero, Nat.div_one, Nat.mod_eq_of_lt w.isLt]
  have h1 := within_of hpage (show bitsOf w.toNat 0 2 ≤ 3 by unfold bitsOf; omega)
  have h2 := within_of hrow (show bitsOf w.toNat 11 8 ≤ 255 by unfold bitsOf; omega)
  have h3 : within 48 (if s.ident.variant = 1 then 64 else 88) (bitsOf w.toNat 19 8) = true :=
    within_of hspeed (by split <;> omega)
  have h4 := within_of hhigh hhigh'
  have h5 : (decide (1 ≤ bitsOf w.toNat 35 7) && decide (bitsOf w.toNat 35 7 < s.highAfter c w.toNat)) = true := by
    simp [State.highAfter, h4, hlow, hlow']
  unfold bitsOf at h1 h2 h3 h4 hexpress
  simp only [chCtlReg, List.forall_mem_cons, fieldRw, fieldRwIf, fieldRwl, fieldPair, bitRw, bitCommit, RegField.part, hcommit, hword,
    hexpress, h1, h2, h3, h4, h5, anyValue]
  simp

/-! #### ULT_CTL -/

/-- The fields of ULT_CTL as a word gives them, with the port enabled (R428). -/
def Uli.ctlSet (p : Uli) (w : Word) : Uli := { p with
  vcs := w.extractLsb' 0 4, enable := true, replayTo := w.extractLsb' 5 7, replayN := w.extractLsb' 12 4, retrainN := w.extractLsb' 16 4,
  retrainWin := w.extractLsb' 20 8, commit := decide (bitsOf w.toNat 63 1 = 1) }

theorem uliEnable_on (u : Nat) (s : State) : uliEnable u true s = s.modUli u fun p => { p with enable := true } := rfl

theorem ultCtl_sets (u : Nat) (w : Word) (s : State) (henable : bitsOf w.toNat 4 1 = 1) (hcommit : (s.uli u).commit = false) :
    let r := forEach (ultCtlReg u) (fun f => f.set (f.part w)) s
    r.regwin = s.regwin ∧ (∀ v, v ≠ u → r.uli v = s.uli v) ∧ r.uli u = (s.uli u).ctlSet w := by
  unfold bitsOf at henable
  simp only [ultCtlReg, forEach_cons, forEach_nil, fieldRw, fieldRwl, bitCommit, RegField.part, henable, decide_true, uliEnable_on, ofNat_bits]
  refine ⟨?_, fun v hv => ?_, ?_⟩
  · split <;> simp only [State.modUli_regwin]
  · split <;> simp only [State.modUli_other _ _ _ _ hv]
  · split
    · rename_i hlock
      simp only [State.modUli_self, hlock, decide_true, Uli.ctlSet, bitsOf]
    · rename_i hlock
      simp only [State.modUli_self, hlock, decide_false, Uli.ctlSet, bitsOf, hcommit]

theorem ultCtl_judges {u : Nat} {w : Word} {s : State} (hcommit : (s.uli u).commit = false) (hvcs : 2 ≤ bitsOf w.toNat 0 4)
    (hvcs' : bitsOf w.toNat 0 4 ≤ 8) (hto : 5 ≤ bitsOf w.toNat 5 7) (hreplay : 1 ≤ bitsOf w.toNat 12 4) (hretrain : 1 ≤ bitsOf w.toNat 16 4)
    (hwin : 1 ≤ bitsOf w.toNat 20 8) : ∀ f ∈ ultCtlReg u, f.judge (f.part w) s = 0 := by
  have h1 := within_of hvcs hvcs'
  have h2 := within_of hto (show bitsOf w.toNat 5 7 ≤ 127 by unfold bitsOf; omega)
  have h3 := within_of hreplay (show bitsOf w.toNat 12 4 ≤ 15 by unfold bitsOf; omega)
  have h4 := within_of hretrain (show bitsOf w.toNat 16 4 ≤ 15 by unfold bitsOf; omega)
  have h5 := within_of hwin (show bitsOf w.toNat 20 8 ≤ 255 by unfold bitsOf; omega)
  unfold bitsOf at h1 h2 h3 h4 h5
  simp only [ultCtlReg, List.forall_mem_cons, fieldRw, fieldRwl, bitCommit, RegField.part, hcommit, h1, h2, h3, h4, h5]
  simp

/-! #### CONST_XMAP -/

/-- The registers of CONST_XMAP after a write whose checks give a code (R437). -/
def xmapOf (code : Nat) (w : Word) : Xmap :=
  { busy := decide (code = 0), result := BitVec.ofNat 4 code, ld := bitsOf w.toNat 0 8, block := bitsOf w.toNat 8 24
    home := bitsOf w.toNat 32 2, extent := bitsOf w.toNat 34 18 }

/-- The code of the first check of CONST_XMAP that a word fails, 0 where none fails. -/
def State.xmapCodeOf (s : State) (w : Word) : Nat :=
  s.xmapCode (bitsOf w.toNat 0 8) (bitsOf w.toNat 8 24) (bitsOf w.toNat 32 2) (bitsOf w.toNat 34 18)

theorem toNat_extractLsb'_bits (w : Word) (lo n : Nat) : (w.extractLsb' lo n).toNat = bitsOf w.toNat lo n := by
  simp [bitsOf, Nat.shiftRight_eq_div_pow]

theorem writeXmap_eq (w : Word) (s : State) (hbusy : s.const.xmap.busy = false) : writeXmap w s =
    let t := s.modConst fun c => { c with xmap := xmapOf (s.xmapCodeOf w) w }
    if s.xmapCodeOf w ≠ 0 then t
    else if s.ident.role then askXmap (recordMapping (bitsOf w.toNat 32 2 * 2 ^ 18 + bitsOf w.toNat 34 18) s.self t)
    else openTxn 0 { op := 11, words := [bitsOf w.toNat 0 8, bitsOf w.toNat 8 24, 0, bitsOf w.toNat 32 2 * 2 ^ 18 + bitsOf w.toNat 34 18] }
      0 0 0 0 [] t := by
  unfold writeXmap
  simp only [toNat_extractLsb'_bits]
  rw [if_neg (by simp [hbusy])]
  rfl

/-- A mapping whose checks pass has a home that is joined. -/
theorem joined_of_xmapCodeOf {w : Word} {s : State} (h : s.xmapCodeOf w = 0) : (s.member (bitsOf w.toNat 32 2)).state = .joined := by
  by_contra hne
  simp only [State.xmapCodeOf, State.xmapCode] at h
  repeat' split at h
  all_goals simp_all

theorem askXmap_reports {s : State} (h : (s.member s.const.xmap.home).state = .joined) : s.Reports (askXmap s) := by
  rw [askXmap, if_pos h]
  exact openTxn_reports ..

/-- Whatever its checks give, a write leaves the registers as xmapOf gives them, and beside them only what is asked of a member. -/
theorem writeXmap_reports (w : Word) (s : State) (hbusy : s.const.xmap.busy = false) :
    (writeXmap w s).const.xmap = xmapOf (s.xmapCodeOf w) w ∧ (writeXmap w s).regwin = s.regwin ∧ (writeXmap w s).cap = s.cap := by
  have hreports {t r : State} (h : t.Reports r) : r.const.xmap = t.const.xmap ∧ r.regwin = t.regwin ∧ r.cap = t.cap := by
    rw [h.rest]; exact ⟨rfl, rfl, rfl⟩
  rw [writeXmap_eq w s hbusy]
  dsimp only
  split
  · exact ⟨rfl, rfl, rfl⟩
  · rename_i hcode
    rw [not_not] at hcode
    split
    · exact hreports (askXmap_reports (joined_of_xmapCodeOf hcode))
    · exact hreports (openTxn_reports ..)

section
variable {s : State} (hrun : s.running = true) (hearly : s.start.earlyDone = true) (hdoze : s.power.dozing = false)
  (hlantern : s.start.lantern = false)
include hrun hearly hdoze hlantern

theorem chCtlWrite_takes {c : Fin 24} {w : Word} (hawake : s.awake (4 + c)) (hpage : 1 ≤ bitsOf w.toNat 0 2)
    (hexpress : bitsOf w.toNat 2 1 = 0) (hrow : 1 ≤ bitsOf w.toNat 11 8) (hspeed : 48 ≤ bitsOf w.toNat 19 8) (hspeed' : bitsOf w.toNat 19 8 ≤ 64)
    (hhigh : 8 ≤ bitsOf w.toNat 28 7) (hhigh' : bitsOf w.toNat 28 7 ≤ 120) (hlow : 1 ≤ bitsOf w.toNat 35 7)
    (hlow' : bitsOf w.toNat 35 7 < bitsOf w.toNat 28 7) (hcommit : (s.chan c).commit = false)
    (href : decide (bitsOf w.toNat 27 1 = 1) = (s.chan c).ref2x) :
    ∃ r, exec (.chCtlWrite .engine c w) s = .next r ∧ r.regwin = s.regwin ∧ (∀ d, d ≠ c.val → r.chan d = s.chan d) ∧
      r.chan c = (s.chan c).ctlSet w :=
  ⟨_, congrArg Host.Outcome.next (engineWrite_sets (type := 0x10) (inst := c) (o := 0) hrun hearly hdoze hlantern rfl rfl (by decide) hawake
    (chCtl_judges hcommit hpage hexpress hrow hspeed hspeed' hhigh hhigh' hlow hlow')), chCtl_sets c w (s.served (4 + c)) hexpress href hcommit⟩

theorem ultCtlWrite_takes {u : Fin 3} {w : Word} (hawake : s.awake (44 + u)) (hvcs : 2 ≤ bitsOf w.toNat 0 4)
    (hvcs' : bitsOf w.toNat 0 4 ≤ 8) (henable : bitsOf w.toNat 4 1 = 1) (hto : 5 ≤ bitsOf w.toNat 5 7) (hreplay : 1 ≤ bitsOf w.toNat 12 4)
    (hretrain : 1 ≤ bitsOf w.toNat 16 4) (hwin : 1 ≤ bitsOf w.toNat 20 8) (hcommit : (s.uli u).commit = false) :
    ∃ r, exec (.ultCtlWrite .engine u w) s = .next r ∧ r.regwin = s.regwin ∧ (∀ v, v ≠ u.val → r.uli v = s.uli v) ∧
      r.uli u = (s.uli u).ctlSet w :=
  ⟨_, congrArg Host.Outcome.next (engineWrite_sets (type := 0x30) (inst := u) (o := 0) hrun hearly hdoze hlantern rfl rfl (by decide) hawake
    (ultCtl_judges hcommit hvcs hvcs' hto hreplay hretrain hwin)), ultCtl_sets u w (s.served (44 + u)) henable hcommit⟩

theorem constXmapWrite_takes (hawake : s.awake 2) (w : Word) (hbusy : s.const.xmap.busy = false) :
    ∃ r, exec (.constXmapWrite .engine w) s = .next r ∧ r.regwin = s.regwin ∧ r.const.xmap = xmapOf (s.xmapCodeOf w) w ∧ r.cap = s.cap := by
  have hword : w.toNat / 2 ^ 0 % 2 ^ 64 = w.toNat := by
    rw [pow_zero, Nat.div_one, Nat.mod_eq_of_lt w.isLt]
  have hset : forEach (registerAt 0x01 0 0x690) (fun f => f.set (f.part w)) (s.served 2) = writeXmap w (s.served 2) := by
    change writeXmap (BitVec.ofNat 64 (w.toNat / 2 ^ 0 % 2 ^ 64)) (s.served 2) = _
    rw [hword, BitVec.ofNat_toNat, BitVec.setWidth_eq]
  have hexec := engineWrite_sets (type := 0x01) (inst := 0) (o := 0x690) (w := w) hrun hearly hdoze hlantern rfl rfl (by decide) hawake
    (by intro f hf; rw [List.mem_singleton.mp hf]; rfl)
  obtain ⟨hxmap, hregwin, hcap⟩ := writeXmap_reports w (s.served 2) hbusy
  exact ⟨_, congrArg Host.Outcome.next (hexec.trans hset), hregwin, hxmap, hcap⟩

end

end Sys2Proof.Machine
end

section
namespace Sys2Proof.Machine

/-! ### What the loss and the joining of a member leave alone (R430, R442 to R446) -/

theorem updateHealth_keepsHeads (s : State) : s.KeepsHeads (updateHealth s) :=
  (updateHealth_reports s).keepsHeads (fun n hn => (stickySet_of_sticky (s := s) (by rw [updateHealth_faults]) n).trans hn)
    fun n _ _ => holds_of_live (by rw [updateHealth_faults]) n

theorem modKeys_keepsHeads (f : Keys → Keys) (s : State) : s.KeepsHeads (s.modKeys f) := .of_eq rfl rfl rfl rfl rfl rfl rfl rfl
theorem modCci_keepsHeads (i : Nat) (f : CciState → CciState) (s : State) : s.KeepsHeads (s.modCci i f) := .of_eq rfl rfl rfl rfl rfl rfl rfl rfl
theorem modCluster_keepsHeads (e : Nat) (f : Cluster → Cluster) (s : State) : s.KeepsHeads (s.modCluster e f) :=
  .of_eq rfl rfl rfl rfl rfl rfl rfl rfl
theorem withImg_keepsHeads (i : Img) (s : State) : s.KeepsHeads { s with img := i } := .of_eq rfl rfl rfl rfl rfl rfl rfl rfl

theorem postMember_keepsHeads (d prev : Nat) (changed : Bool) (s : State) : s.KeepsHeads (postMember d prev changed s) := postDevice_keepsHeads ..

theorem setMemberState_keepsHeads (d : Nat) (st : MemberState) (s : State) : s.KeepsHeads (setMemberState d st s) :=
  .ite (.refl s) (((modMember_keepsHeads ..).trans (updateHealth_keepsHeads _)).trans (postMember_keepsHeads ..))

/-! #### What a lost member was asked (R442) -/

theorem addIndet_keepsHeads (p d : Nat) (far : Bool) (m : BitVec 64) (s : State) : s.KeepsHeads (addIndet p d far m s) := by
  unfold addIndet
  refine .ite (modConst_keepsHeads ..) (.ite (modConst_keepsHeads ..) (.ite (.refl s) (.ite ?_ ?_)))
  · exact (modConst_keepsHeads ..).trans (condStart_keepsHeads (by decide) (by decide) _)
  · exact (modConst_keepsHeads ..).trans (condStart_keepsHeads (by decide) (by decide) _)

theorem settlePage_keepsHeads (d old new : Nat) (s : State) : s.KeepsHeads (settlePage d old new s) :=
  (modGather_keepsHeads ..).trans ((addFootprint_keepsHeads ..).trans (updateCapacity_keepsHeads _))

theorem dropEntries_keepsHeads (p : GEntry → Bool) (s : State) : s.KeepsHeads (dropEntries p s) := by
  unfold dropEntries
  exact (forEach_keepsHeads _ _ (fun _ _ => freeEntries_keepsHeads ..) s).trans (modGather_keepsHeads ..)

theorem readerDone_keepsHeads (r : Req) (s : State) : s.KeepsHeads (readerDone r s) := by
  unfold readerDone
  refine .ite (.refl s) ?_
  split
  · exact modQuad_keepsHeads ..
  · exact .refl s

theorem queueWork_keepsHeads (q : Nat) (k : EngineKind) (cls id : Nat) (s : State) : s.KeepsHeads (queueWork q k cls id s) :=
  (modCluster_keepsHeads ..).trans (wakeDomain_keepsHeads ..)

theorem linesDone_keepsHeads (r : Req) (s : State) : s.KeepsHeads (linesDone r s) := by
  unfold linesDone
  refine .trans (readerDone_keepsHeads r s) (.ite (answerRead_keepsHeads ..) ?_)
  exact (putReq_keepsHeads ..).trans (queueWork_keepsHeads ..)

theorem lineBack_keepsHeads (id line : Nat) (data : Line) (out : LineOut) (s : State) : s.KeepsHeads (lineBack id line data out s) := by
  unfold lineBack
  split
  · exact .refl s
  · exact .ite (linesDone_keepsHeads ..) (putReq_keepsHeads ..)

theorem loseFarRead_keepsHeads (o : Open) (s : State) : s.KeepsHeads (loseFarRead o s) := by
  unfold loseFarRead
  split
  · exact .refl s
  · refine .ite ?_ (.ite (abortMove_keepsHeads ..) (lineBack_keepsHeads ..))
    refine .trans ?_ (setLock_keepsHeads ..)
    refine .trans ?_ (settlePage_keepsHeads ..)
    refine .trans ?_ (dropEntries_keepsHeads ..)
    exact (dropReq_keepsHeads ..).trans (addIndet_keepsHeads ..)

theorem abortDemotes_keepsHeads (d : Nat) (s : State) : s.KeepsHeads (abortDemotes d s) :=
  forEach_keepsHeads _ _ (fun _ _ => abortMove_keepsHeads ..) s

theorem xmapDone_keepsHeads (code : Nat) (s : State) : s.KeepsHeads (xmapDone code s) := modConst_keepsHeads ..

theorem finishPut_keepsHeads (n status : Nat) (s : State) : s.KeepsHeads (finishPut n status s) := by
  unfold finishPut
  split
  · exact .refl s
  · exact (modKeys_keepsHeads ..).trans (emit_keepsHeads ..)

/-! #### A thread that an ADMIT held (R326, R366) -/

theorem raiseFloor_keepsHeads (a : Activation) (s : State) : s.KeepsHeads (raiseFloor a s) := by
  have hdir (f : Img → Img) (t : State) : t.KeepsHeads (writeDirectory f t) := withImg_keepsHeads _ t
  unfold raiseFloor
  refine .ite ?_ (.ite ?_ (.refl s))
  · exact (withImg_keepsHeads _ s).trans (.ite (hdir ..) (.refl _))
  · exact (withImg_keepsHeads _ s).trans (.ite (hdir ..) (.refl _))

theorem finishActivation_keepsHeads (a : Activation) (s : State) : s.KeepsHeads (finishActivation a s) := by
  unfold finishActivation
  refine .trans ?_ (modCci_keepsHeads ..)
  refine .trans ?_ (raiseFloor_keepsHeads ..)
  exact (modRil_keepsHeads ..).trans (withImg_keepsHeads ..)

theorem settleGrace_keepsHeads (s : State) : s.KeepsHeads (settleGrace s) := by
  unfold settleGrace
  split
  · exact .refl s
  · exact .ite (finishActivation_keepsHeads ..) (.refl s)

theorem endInvocation_keepsHeads (t : Nat) (st : ThreadState) (s : State) : s.KeepsHeads (endInvocation t st s) := by
  have hdrop (l : List (BitVec 16)) : s.KeepsHeads (dropTickets l s) := forEach_keepsHeads _ _ (fun _ _ => modRil_keepsHeads ..) s
  exact ((hdrop _).trans (modThread_keepsHeads ..)).trans (settleGrace_keepsHeads _)

theorem unbindTenant_keepsHeads (ld : Nat) (s : State) : s.KeepsHeads (unbindTenant ld s) := by
  have hunbind (f : Nat × Queue → Nat × Queue) : s.KeepsHeads { s with queues := s.queues.map f } := .of_eq rfl rfl rfl rfl rfl rfl rfl rfl
  unfold unbindTenant
  refine .trans ?_ (fireEvent_keepsHeads (by decide) _)
  refine .trans ?_ (placeRecord_keepsHeads ..)
  exact (hunbind _).trans (modRil_keepsHeads ..)

theorem countTenantTrap_keepsHeads (ld : Nat) (s : State) : s.KeepsHeads (countTenantTrap ld s) := by
  unfold countTenantTrap
  exact (modRil_keepsHeads ..).trans (.ite (unbindTenant_keepsHeads ..) (.refl _))

theorem takeTrap_keepsHeads (t code : Nat) (s : State) : s.KeepsHeads (takeTrap t code s) := by
  unfold takeTrap
  refine .trans ?_ (.ite (countTenantTrap_keepsHeads ..) (.refl _))
  refine .trans ?_ (.ite (.refl _) (postDevice_keepsHeads ..))
  refine .trans ?_ (fireEvent_keepsHeads (by decide) _)
  refine .trans ?_ (modRil_keepsHeads ..)
  exact ((endInvocation_keepsHeads ..).trans (closeComet_keepsHeads ..)).trans (modThread_keepsHeads ..)

theorem deviceDone_keepsHeads (t reg : Nat) (v : Word) (s : State) : s.KeepsHeads (deviceDone t reg v s) :=
  .ite (takeTrap_keepsHeads ..) (.ite (takeTrap_keepsHeads ..) ((modThread_keepsHeads ..).trans (closeComet_keepsHeads ..)))

theorem refuseAdmit_keepsHeads (code : Nat) (w : AdmitWait) (s : State) : s.KeepsHeads (refuseAdmit code w s) := by
  have hthread (t : State) : t.KeepsHeads (match w.thread with
      | some (u, reg) => deviceDone u reg (grantWord code 0) t
      | none => t) := by
    split
    · exact deviceDone_keepsHeads ..
    · exact .refl t
  have hcci (t : State) : t.KeepsHeads (match w.cci with
      | some cci => grantAnswer cci code t
      | none => t) := by
    split
    · exact emit_keepsHeads ..
    · exact .refl t
  unfold refuseAdmit
  exact ((modConst_keepsHeads ..).trans (hthread _)).trans (hcci _)

theorem loseMember_keepsHeads (d : Nat) (s : State) : s.KeepsHeads (loseMember d s) := by
  have hdone (code : Nat) (p : Prop) [Decidable p] (t : State) : t.KeepsHeads (if p then xmapDone code t else t) :=
    .ite (xmapDone_keepsHeads ..) (.refl t)
  have hparted (t : State) : t.KeepsHeads (condStart 691 (forEach t.const.admits (refuseAdmit 1) t)) :=
    (forEach_keepsHeads _ _ (fun _ _ => refuseAdmit_keepsHeads ..) t).trans (condStart_keepsHeads (by decide) (by decide) _)
  unfold loseMember
  refine .trans ?_ (.ite ((hdone ..).trans (hparted _)) (.refl _))
  refine .trans ?_ (forEach_keepsHeads _ _ (fun _ _ => finishPut_keepsHeads ..) _)
  refine .trans ?_ (hdone ..)
  refine .trans ?_ (resume_keepsHeads ..)
  refine .trans ?_ (abortDemotes_keepsHeads ..)
  refine .trans ?_ (forEach_keepsHeads _ _ (fun _ _ => loseFarRead_keepsHeads ..) _)
  exact ((modMember_keepsHeads ..).trans (setMemberState_keepsHeads ..)).trans (modConst_keepsHeads ..)

/-! #### Routes (R445, R446) -/

theorem resendWhere_keepsHeads (d : Nat) (p : Open → Bool) (s : State) : s.KeepsHeads (resendWhere d p s) :=
  forEach_keepsHeads _ _ (fun _ _ => (modConst_keepsHeads ..).trans (sendPkt_keepsHeads ..)) s

theorem startJoin_keepsHeads (d : Nat) (s : State) : s.KeepsHeads (startJoin d s) :=
  (modConst_keepsHeads ..).trans (.ite (openTxn_keepsHeads ..) (.refl _))

theorem updateRoute_keepsHeads (d : Nat) (s : State) : s.KeepsHeads (updateRoute d s) := by
  have hstep (f g : Member → Member) : s.KeepsHeads ((s.modMember d f).modMember d g) := (modMember_keepsHeads ..).trans (modMember_keepsHeads ..)
  unfold updateRoute
  dsimp only
  split
  · exact modMember_keepsHeads ..
  · split
    · exact (hstep ..).trans (loseMember_keepsHeads ..)
    · exact (hstep ..).trans (.ite (.refl _) (resendWhere_keepsHeads ..))
    · exact (hstep ..).trans (modConst_keepsHeads ..)
    · exact (hstep ..).trans (startJoin_keepsHeads ..)

theorem updateMembers_keepsHeads (s : State) : s.KeepsHeads (updateMembers s) := forEach_keepsHeads _ _ (fun _ _ => updateRoute_keepsHeads ..) s

/-! ### ULT_RETIRE (R403, R427, R428) -/

theorem endDiscord_keepsHeads (u : Nat) (s : State) : s.KeepsHeads (endDiscord u s) := by
  have hn : srcUlilet u 6 < 512 ∨ 640 ≤ srcUlilet u 6 := .inr (by unfold srcUlilet; omega)
  unfold endDiscord
  refine .ite (.refl s) (.trans (.ite (setMemberState_keepsHeads ..) (.refl s)) (condEnd_keepsHeads hn _))

/-- A link that leaves its state changes no other. -/
theorem leaveLink_links (u : Nat) (dest : LState) (s : State) (v : Nat) :
    ((leaveLink u dest s).uli v).standing = if v = u then (dest, (s.uli u).retired, (s.uli u).cause) else (s.uli v).standing := by
  rw [leaveLink, (updateMembers_keepsHeads _).links, State.modUli_at]
  have hend (v : Nat) := (endDiscord_keepsHeads u s).links v
  split
  · have hu := hend u
    simp only [Uli.standing, Prod.mk.injEq] at hu
    obtain ⟨_, hretired, hcause⟩ := hu
    simp only [Uli.standing, Uli.dropped, hretired, hcause]
  · exact hend v

theorem srcUlilet_low (u k : Nat) : sourceClass (srcUlilet u k) < 3 := sourceClass_low (by unfold srcUlilet; omega)

theorem sendUnnumbered_keepsHeads (u type : Nat) (fields : List Nat) (s : State) : s.KeepsHeads (sendUnnumbered u type fields s) := by
  unfold sendUnnumbered
  refine (emit_keepsHeads ..).trans (modUli_keepsHeads _ _ _ ?_)
  exact fun _ => rfl

theorem retireLink_links (u : Nat) (cause : BitVec 3) (s : State) (v : Nat) :
    ((retireLink u cause s).uli v).standing = if v = u then (.retired, true, cause) else (s.uli v).standing := by
  have hsend : s.KeepsHeads (if (s.uli u).lstate = .active then sendUnnumbered u 4 [2] s else s) := by
    exact .ite (sendUnnumbered_keepsHeads ..) (.refl s)
  have hcond (t : State) (v : Nat) : ((condStart (srcUlilet u 5) t).uli v).standing = (t.uli v).standing :=
    (condStart_keepsHeads (srcUlilet_low u 5) (.inr (by unfold srcUlilet; omega)) t).links v
  unfold retireLink partLeaves
  dsimp only
  rw [(show ∀ t : State, (startRequest (44 + u) .p3 t).uli v = t.uli v from fun _ => rfl), hcond, leaveLink_links, State.modUli_self]
  split
  · rfl
  · rename_i hv
    rw [State.modUli_other _ _ _ _ hv, hsend.links]

theorem retireLink_self (u : Nat) (cause : BitVec 3) (s : State) : ((retireLink u cause s).uli u).lstate = .retired ∧
    ((retireLink u cause s).uli u).retired = true ∧ ((retireLink u cause s).uli u).cause = cause := by
  have h := retireLink_links u cause s u
  rw [if_pos rfl] at h
  simpa only [Uli.standing, Prod.mk.injEq] using h

theorem retireLink_other {u v : Nat} (cause : BitVec 3) (s : State) (hv : v ≠ u) :
    ((retireLink u cause s).uli v).lstate = (s.uli v).lstate := by
  have h := retireLink_links u cause s v
  rw [if_neg hv] at h
  simp only [Uli.standing, Prod.mk.injEq] at h
  exact h.1

theorem retireLink_holds (u : Nat) (cause : BitVec 3) (s : State) : (retireLink u cause s).holds (srcUlilet u 5) = true := by
  have hpart (t : State) (n : Nat) : (startRequest (44 + u) .p3 t).holds n = t.holds n := rfl
  unfold retireLink partLeaves
  dsimp only
  rw [hpart, holds_condStart (srcUlilet_low u 5)]
  simp

/-- What a domain's return from P3 leaves of a link: its registers may be reset (R466). -/
theorem leaveP3_link (i u : Nat) (s : State) :
    (leaveP3 i (fun s => s.modUli u Uli.lostRegs) s).faults = s.faults ∧ (leaveP3 i (fun s => s.modUli u Uli.lostRegs) s).time = s.time ∧
      (∀ v, v ≠ u → (leaveP3 i (fun s => s.modUli u Uli.lostRegs) s).uli v = s.uli v) ∧
      ((leaveP3 i (fun s => s.modUli u Uli.lostRegs) s).uli u).cause = (s.uli u).cause := by
  have hlost (f : Dom → Dom) : ((s.modUli u Uli.lostRegs).modDom i f).faults = s.faults ∧ ((s.modUli u Uli.lostRegs).modDom i f).time = s.time ∧
      (∀ v, v ≠ u → ((s.modUli u Uli.lostRegs).modDom i f).uli v = s.uli v) ∧
      (((s.modUli u Uli.lostRegs).modDom i f).uli u).cause = (s.uli u).cause := by
    refine ⟨rfl, rfl, fun v hv => State.modUli_other s u _ v hv, ?_⟩
    rw [State.modDom_at_uli, State.modUli_self]
    rfl
  unfold leaveP3
  split
  · exact hlost _
  · split
    · split
      · exact hlost _
      · exact ⟨rfl, rfl, fun _ _ => rfl, rfl⟩
    · exact ⟨rfl, rfl, fun _ _ => rfl, rfl⟩

theorem updateHealth_ulis (s : State) : (updateHealth s).ulis = s.ulis := by
  have hplace (l : List Nat) (k : LogKind) (b : RecBody) (t : State) : (forEach l (fun i => placeRecord i k b) t).ulis = t.ulis :=
    forEach_keeps (R := fun s r => r.ulis = s.ulis) (fun _ => rfl) (fun h k => k.trans h) l (fun i => placeRecord i k b) (fun i t => by
      unfold placeRecord notifyLog
      split <;> rfl) t
  unfold updateHealth
  dsimp only
  split
  · rfl
  · exact hplace ..

theorem condEnd_uli (n v : Nat) (s : State) : (condEnd n s).uli v = s.uli v := by
  rw [State.uli, condEnd, updateHealth_ulis]
  rfl

/-- A link whose retirement ends (R403). -/
def Uli.cleared (p : Uli) (now : Nat) : Uli := { p with retired := false, lstate := .down, since := now, retrainTimes := [], trainFails := 0 }

theorem clearRetired_eq (u : Nat) (s : State) (h : (s.uli u).retired = true) :
    let t := leaveP3 (44 + u) (fun s => s.modUli u Uli.lostRegs) s
    clearRetired u s = condEnd (srcUlilet u 5) (t.modUli u fun p => p.cleared t.now) := if_pos h

theorem clearRetired_self (u : Nat) (s : State) (h : (s.uli u).retired = true) :
    (clearRetired u s).uli u = ((leaveP3 (44 + u) (fun s => s.modUli u Uli.lostRegs) s).uli u).cleared s.now := by
  rw [clearRetired_eq u s h, condEnd_uli, State.modUli_self, State.now, (leaveP3_link (44 + u) u s).2.1]
  rfl

theorem clearRetired_other (u v : Nat) (s : State) (h : (s.uli u).retired = true) (hv : v ≠ u) : (clearRetired u s).uli v = s.uli v := by
  obtain ⟨_, _, hother, _⟩ := leaveP3_link (44 + u) u s
  rw [clearRetired_eq u s h, condEnd_uli, State.modUli_other _ _ _ _ hv, hother v hv]

theorem clearRetired_holds (u : Nat) (s : State) (h : (s.uli u).retired = true) (hlive : s.faults.live.Nodup) :
    (clearRetired u s).holds (srcUlilet u 5) = false := by
  obtain ⟨hfaults, _⟩ := leaveP3_link (44 + u) u s
  rw [clearRetired_eq u s h]
  exact holds_condEnd_self _ _ (by rw [State.modUli_faults, hfaults]; exact hlive)

section
variable {s : State} (hrun : s.running = true) (hearly : s.start.earlyDone = true) (hdoze : s.power.dozing = false)
  (hlantern : s.start.lantern = false)
include hrun hearly hdoze hlantern

/-- A write of ULT_RETIRE acts through its only field that takes one. -/
theorem ultRetireWrite (hawake : s.awake 0) (u : Fin 3) (w : Word) : sourceWrite .engine 0x30 u 0x18 w s =
    (fun t => if w.toNat / 2 ^ 0 % 2 ^ 2 / 2 = 1 then retireLink u 3 t else if w.toNat / 2 ^ 0 % 2 ^ 2 = 1 then clearRetired u t else t) (s.served 0) := by
  refine (engineWrite_sets (type := 0x30) (inst := u) (o := 0x18) hrun hearly hdoze hlantern rfl rfl (by decide) hawake ?_).trans rfl
  intro f hf
  have hf' : f ∈ ultRetireReg u := hf
  simp only [ultRetireReg, List.mem_cons, List.not_mem_nil, or_false] at hf'
  obtain rfl | rfl | rfl | rfl := hf' <;> rfl

theorem ultRetireRetire_retires (hawake : s.awake 0) (u : Fin 3) :
    ∃ r, exec (.ultRetireRetire .engine u) s = .next r ∧ (r.uli u).lstate = .retired ∧ (r.uli u).retired = true ∧ (r.uli u).cause = 3 ∧
      r.holds (srcUlilet u 5) = true ∧ ∀ v, v < 3 → v ≠ u.val → (r.uli v).lstate = (s.uli v).lstate := by
  have hexec : sourceWrite .engine 0x30 u 0x18 2 s = retireLink u 3 (s.served 0) :=
    (ultRetireWrite hrun hearly hdoze hlantern hawake u 2).trans (if_pos (by decide))
  obtain ⟨hstate, hretired, hcause⟩ := retireLink_self u 3 (s.served 0)
  exact ⟨_, congrArg Host.Outcome.next hexec, hstate, hretired, hcause, retireLink_holds u 3 (s.served 0),
    fun v _ hv => retireLink_other 3 (s.served 0) hv⟩

theorem ultRetireClear_clears (hawake : s.awake 0) (u : Fin 3) (hretired : (s.uli u).retired = true) :
    ∃ r, exec (.ultRetireClear .engine u) s = .next r ∧ (r.uli u).lstate = .down ∧ (r.uli u).retired = false ∧
      (r.uli u).cause = (s.uli u).cause ∧ (r.uli u).retrainTimes = [] ∧ (r.uli u).since = s.time.now ∧
      (s.faults.live.Nodup → r.holds (srcUlilet u 5) = false) ∧ ∀ v, v ≠ u.val → r.uli v = s.uli v := by
  have hexec : sourceWrite .engine 0x30 u 0x18 1 s = clearRetired u (s.served 0) :=
    (ultRetireWrite hrun hearly hdoze hlantern hawake u 1).trans ((if_neg (by decide)).trans (if_pos (by decide)))
  obtain ⟨_, _, _, hcause⟩ := leaveP3_link (44 + u) u (s.served 0)
  refine ⟨_, congrArg Host.Outcome.next hexec, ?_⟩
  rw [clearRetired_self u (s.served 0) hretired]
  exact ⟨rfl, rfl, hcause, rfl, rfl, clearRetired_holds u (s.served 0) hretired, fun v => clearRetired_other u v (s.served 0) hretired⟩

end

/-- Settles O32: a write of the engine sets each field of its register, and a host's or a locked one is noted. -/
theorem controlRegistersTakeFieldsInRangeAndCountOthers : Obligations.ControlRegistersTakeFieldsInRangeAndCountOthers := by
  unfold Obligations.ControlRegistersTakeFieldsInRangeAndCountOthers
  intro s hpow hhalt hentry hearly hdoze hlantern
  have hrun := State.running_of hpow hhalt hentry
  refine ⟨fun p w hawake => ⟨?_, portCtlWrite_locked hrun hearly hdoze hlantern hawake, fun ld => portCtlWrite_host hrun hearly hdoze hlantern⟩,
    fun c w hawake => chCtlWrite_takes hrun hearly hdoze hlantern hawake,
    fun u w hawake hvcs hvcs' henable hto => ultCtlWrite_takes hrun hearly hdoze hlantern hawake hvcs hvcs' henable hto,
    fun hawake u => ⟨ultRetireRetire_retires hrun hearly hdoze hlantern hawake u, ultRetireClear_clears hrun hearly hdoze hlantern hawake u⟩,
    fun hawake w hbusy => ?_⟩
  · exact portCtlWrite_takes hrun hearly hdoze hlantern hawake
  · obtain ⟨r, hexec, hregwin, hxmap, hcap⟩ := constXmapWrite_takes hrun hearly hdoze hlantern hawake w hbusy
    refine ⟨r, hexec, hregwin, ?_⟩
    rw [hxmap]
    exact ⟨rfl, rfl, rfl, rfl, rfl, rfl, hcap⟩

end Sys2Proof.Machine
end

section
namespace Sys2Proof.Machine

/-! ### Whole lines that enter write gather (R87, R192) -/

theorem foldl_over_append (l : List GEntry) (g : GEntry) (hmask : g.mask = BitVec.allOnes 64) (hclean : g.poisoned = false)
    (a : Line × BitVec 64 × Bool) : (l ++ [g]).foldl GEntry.over a = (g.data, BitVec.allOnes 64, false) := by
  rw [List.foldl_append, List.foldl_cons, List.foldl_nil, GEntry.over, hmask, hclean, mergeLine_full, BitVec.or_allOnes,
    bne_self_eq_false, Bool.and_false, Bool.or_false]

/-- A whole line covers what the line read as. -/
theorem storeEntry_overlay_self (q : Req) (s : State) (hmask : q.mask = BitVec.allOnes 64) (hclean : q.poisonIn = false) :
    (storeEntry q s).overlay q.dlpn q.lineNo = (q.data, BitVec.allOnes 64, false) := by
  obtain ⟨g, hlast, hstore⟩ | hstore := storeEntry_cases q s
  · obtain ⟨l, hl⟩ := List.getLast?_eq_some_iff.1 hlast
    have hmap := lineEntries_map s (storeEntry q s) (joinEntry q g) (joinEntry_line q g) (by rw [hstore]; rfl) q.dlpn q.lineNo
    have hself : joinEntry q g g = g.joined q := if_pos rfl
    rw [overlay_eq, hmap, hl, List.map_append, List.map_cons, List.map_nil, hself, foldl_over_append]
    · simp only [GEntry.joined, hmask, mergeLine_full]
    · simp only [GEntry.joined, hmask, BitVec.or_allOnes]
    · simp only [GEntry.joined, hmask, hclean, bne_self_eq_false, Bool.and_false, Bool.or_false]
  · have hnew : (storeEntry q s).lineEntries q.dlpn q.lineNo = s.lineEntries q.dlpn q.lineNo ++
        [{ dlpn := q.dlpn, lineNo := q.lineNo, data := q.data, mask := q.mask, at_ := s.now, source := q.source, flow := q.flow
           cls := q.cls, verified := q.verified, poisoned := q.poisonIn }] := by
      rw [hstore]
      simp [State.lineEntries, storeEntry.addEntry, claimEntry, State.modPath, State.modGather]
    rw [overlay_eq, hnew, foldl_over_append _ _ hmask hclean]

/-- Another line reads as before. -/
theorem storeEntry_overlay_other (q : Req) (s : State) {d n : Nat} (h : d ≠ q.dlpn ∨ n ≠ q.lineNo) :
    (storeEntry q s).overlay d n = s.overlay d n := by
  obtain ⟨g, hlast, hstore⟩ | hstore := storeEntry_cases q s
  · have hg := List.mem_of_getLast? hlast
    have hmap := lineEntries_map s (storeEntry q s) (joinEntry q g) (joinEntry_line q g) (by rw [hstore]; rfl) d n
    have hkeep : (s.lineEntries d n).map (joinEntry q g) = s.lineEntries d n := by
      refine (List.map_congr_left fun x hx => ?_).trans (List.map_id _)
      refine if_neg ?_
      rintro rfl
      simp only [State.lineEntries, List.mem_filter, decide_eq_true_eq] at hg hx
      omega
    rw [overlay_eq, hmap, hkeep, overlay_eq]
  · have hnew : (storeEntry q s).lineEntries d n = s.lineEntries d n := by
      rw [hstore]
      simp only [State.lineEntries, storeEntry.addEntry, claimEntry, State.modPath, State.modGather, List.filter_append]
      simp only [List.append_right_eq_self, List.filter_eq_nil_iff, List.mem_singleton, forall_eq, decide_eq_true_eq]
      omega
    rw [overlay_eq, hnew, overlay_eq]

/-- A whole line of a page has been written: it reads as its data, and no other line, descriptor or poison changed. -/
structure State.WroteLine (s r : State) (d n : Nat) (data : Line) : Prop where
  line : r.overlay d n = (data, BitVec.allOnes 64, false)
  others : ∀ k, k ≠ n → r.overlay d k = s.overlay d k
  desc : ∀ e, r.desc e = s.desc e
  integ : r.integ = s.integ

/-- The request that stands for a whole line written by a command. -/
def lineReq (d n ld : Nat) (data : Line) : Req :=
  { id := 0, source := ld / 16, ld, tag := 0, write := true, stage := .gather, dlpn := d, lineNo := n, data, mask := BitVec.allOnes 64, dpa := 0 }

theorem storeEntry_desc (q : Req) (s : State) (e : Nat) : (storeEntry q s).desc e = s.desc e := by
  obtain ⟨g, -, hstore⟩ | hstore := storeEntry_cases q s <;> rw [hstore]
  · rfl
  · rfl

theorem storeEntry_integ (q : Req) (s : State) : (storeEntry q s).integ = s.integ := by
  obtain ⟨g, -, hstore⟩ | hstore := storeEntry_cases q s <;> rw [hstore]
  · rfl
  · rfl

theorem storeEntry_wroteLine (d n ld : Nat) (data : Line) (s : State) : s.WroteLine (storeEntry (lineReq d n ld data) s) d n data :=
  ⟨storeEntry_overlay_self (lineReq d n ld data) s rfl rfl, fun _ hk => storeEntry_overlay_other _ s (.inr hk), storeEntry_desc _ s, storeEntry_integ _ s⟩

/-- A write behind a change that no line, descriptor or poison shows. -/
theorem State.WroteLine.of_same {s t r : State} {d n : Nat} {data : Line} (h : t.WroteLine r d n data) (hover : ∀ k, t.overlay d k = s.overlay d k)
    (hdesc : ∀ e, t.desc e = s.desc e) (hinteg : t.integ = s.integ) : s.WroteLine r d n data :=
  ⟨h.line, fun k hk => (h.others k hk).trans (hover k), fun e => (h.desc e).trans (hdesc e), h.integ.trans hinteg⟩

/-- A page that is not PACKED has no trigger of R152. -/
theorem packedTriggers_unpacked {d : Nat} {s : State} (h : (s.desc d).state ≠ .packed) : packedTriggers d s = s :=
  if_pos (by simp [State.packedNow, h])

/-- A line whose charge, if one is due, is accepted. -/
theorem writeLine_accepted {d n ld : Nat} {data : Line} {s : State} (hpage : (s.desc d).state ≠ .packed) (hcharge : s.chargeFails d (n / 16) = false) :
    s.WroteLine (writeLine d n ld data s) d n data := by
  have hplain {t : State} (h : t.WroteLine (storeEntry (lineReq d n ld data) t) d n data) (hpage : (t.desc d).state ≠ .packed) :
      t.WroteLine (packedTriggers d (storeEntry (lineReq d n ld data) t)) d n data := by
    rwa [packedTriggers_unpacked (by rwa [h.desc])]
  unfold writeLine
  unfold State.chargeFails at hcharge
  cases hdue : s.chargeDue d (n / 16) with
  | none => exact hplain (storeEntry_wroteLine ..) hpage
  | some x =>
    obtain ⟨k, m⟩ := x
    simp only [hdue, Bool.not_eq_eq_eq_not, Bool.not_false] at hcharge
    dsimp only
    rw [if_pos hcharge]
    have haccounts := takeCharge_accounts (extentOf d) m (s.modGather fun g => { g with charges := Tab.set 0 g.charges k m })
    refine (hplain (storeEntry_wroteLine ..) (by rwa [haccounts.desc])).of_same (fun j => ?_) (fun e => ?_) ?_
    · exact haccounts.sameLines.overlay d j
    · exact haccounts.desc e
    · rw [haccounts.rest]
      rfl

theorem chargeDue_plain {d : Nat} (b : Nat) {s : State} (h : (s.desc d).state = .plain) : s.chargeDue d b = none := by
  simp [State.chargeDue, source_eq_desc s d (by simp [h]), chargeFor, h, PageState.bare]

/-- A line of a PLAIN page has its place: no charge is due (R140). -/
theorem writeLine_plain {d : Nat} (n ld : Nat) (data : Line) {s : State} (h : (s.desc d).state = .plain) :
    s.WroteLine (writeLine d n ld data s) d n data :=
  writeLine_accepted (by simp [h]) (by simp [State.chargeFails, chargeDue_plain _ h])

/-- Several lines of a PLAIN page, one after the other. -/
theorem writeLines_plain {d : Nat} (ld : Nat) (data : Nat → Line) (l : List Nat) {s : State} (h : (s.desc d).state = .plain) :
    let r := forEach l (fun k s => writeLine d k ld (data k) s) s
    (∀ k ∈ l, r.overlay d k = (data k, BitVec.allOnes 64, false)) ∧ (∀ k, k ∉ l → r.overlay d k = s.overlay d k) ∧
      (∀ e, r.desc e = s.desc e) ∧ r.integ = s.integ := by
  induction l generalizing s with
  | nil => exact ⟨fun _ hk => absurd hk List.not_mem_nil, fun _ _ => rfl, fun _ => rfl, rfl⟩
  | cons a l ih =>
    have hw := writeLine_plain a ld (data a) h
    obtain ⟨hline, hother, hdesc, hinteg⟩ := ih (s := writeLine d a ld (data a) s) (by rw [hw.desc, h])
    intro r
    refine ⟨fun k hk => ?_, fun k hk => ?_, fun e => (hdesc e).trans (hw.desc e), hinteg.trans hw.integ⟩
    · by_cases hkl : k ∈ l
      · exact hline k hkl
      · obtain rfl : k = a := (List.mem_cons.mp hk).resolve_right hkl
        exact (hother k hkl).trans hw.line
    · rw [List.mem_cons, not_or] at hk
      exact (hother k hk.2).trans (hw.others k hk.1)

/-! ### Clear Poison (R87) -/

theorem abortMove_idle {d : Nat} {s : State} (h : ∀ q, ∀ x ∈ (s.quad q).records, x.dlpn ≠ d) : abortMove d s = s := by
  have hnone (q : Nat) : ((s.quad q).records.find? fun r => decide (r.dlpn = d) && decide (r.phase ≠ .swap) && decide (r.phase ≠ .free)) = none :=
    List.find?_eq_none.mpr fun x hx => by simp [h q x hx]
  unfold abortMove
  simp only [hnone, Option.map_none]
  rw [List.findSome?_eq_none_iff.mpr fun _ _ => rfl]

theorem poisonListed_congr {s r : State} (h : r.integ = s.integ) (d u k : Nat) : r.poisonListed d u k = s.poisonListed d u k := by
  simp only [State.poisonListed, h]

/-- A line of a PLAIN page. -/
theorem clearAt_line {d n ld : Nat} {data : Line} {s : State} (hidle : ∀ q, ∀ x ∈ (s.quad q).records, x.dlpn ≠ d)
    (hplain : (s.desc d).state = .plain) (hblock : (s.desc d).bpoison.getLsbD (n / 16) = false) :
    (clearAt d n ld data s).overlay d n = (data, BitVec.allOnes 64, false) ∧ (clearAt d n ld data s).poisonListed d 0 n = false := by
  have hclear : clearAt d n ld data s = writeLine d n ld data (unlistPoison d 0 n s) := by
    unfold clearAt
    dsimp only
    rw [abortMove_idle hidle, if_neg (by simp [hplain]), if_neg (by simp [hblock])]
  have hw := writeLine_plain n ld data (s := unlistPoison d 0 n s) hplain
  rw [hclear]
  exact ⟨hw.line, (poisonListed_congr hw.integ ..).trans (poisonListed_unlistPoison ..)⟩

/-- A block of a page is no longer marked, and no longer listed. -/
def healBlock (d b : Nat) (s : State) : State :=
  unlistPoison d 1 b (setDesc d { s.desc d with bpoison := (s.desc d).bpoison &&& ~~~ BitVec.ofNat 4 (2 ^ b) } s)

theorem healBlock_desc (d b : Nat) (s : State) :
    (healBlock d b s).desc d = { s.desc d with bpoison := (s.desc d).bpoison &&& ~~~ BitVec.ofNat 4 (2 ^ b) } :=
  desc_setDesc d _ s

theorem poisonListed_healBlock (d b : Nat) (s : State) : (healBlock d b s).poisonListed d 1 b = false :=
  poisonListed_unlistPoison d 1 b _

theorem getLsbD_and_not_bit (x : BitVec 4) (b : Nat) : (x &&& ~~~ BitVec.ofNat 4 (2 ^ b)).getLsbD b = false := by
  simp only [BitVec.getLsbD_and, BitVec.getLsbD_not, BitVec.getLsbD_ofNat, Nat.testBit_two_pow_self, Bool.and_true]
  cases decide (b < 4) <;> simp

/-- A poisoned block of a PLAIN page. -/
theorem clearAt_block {d n ld : Nat} {data : Line} {s : State} (hidle : ∀ q, ∀ x ∈ (s.quad q).records, x.dlpn ≠ d)
    (hplain : (s.desc d).state = .plain) (hblock : (s.desc d).bpoison.getLsbD (n / 16) = true) :
    let r := clearAt d n ld data s
    (∀ k, k / 16 = n / 16 → r.overlay d k = (if k = n then data else 0, BitVec.allOnes 64, false)) ∧ r.poisonListed d 1 (n / 16) = false ∧
      (r.desc d).bpoison.getLsbD (n / 16) = false := by
  have hclear : clearAt d n ld data s = forEach ((List.range 16).map fun i => 16 * (n / 16) + i)
      (fun k s => writeLine d k ld (if k = n then data else 0) s) (healBlock d (n / 16) s) := by
    unfold clearAt
    dsimp only
    rw [abortMove_idle hidle, if_neg (by simp [hplain]), if_pos hblock]
    rfl
  obtain ⟨hlines, -, hdescs, hinteg⟩ := writeLines_plain ld (fun k => if k = n then data else 0)
    ((List.range 16).map fun i => 16 * (n / 16) + i) (s := healBlock d (n / 16) s) (by rw [healBlock_desc]; exact hplain)
  dsimp only
  rw [hclear]
  refine ⟨fun k hk => hlines k (List.mem_map.mpr ⟨k % 16, List.mem_range.mpr (by omega), by omega⟩),
    (poisonListed_congr hinteg ..).trans (poisonListed_healBlock ..), ?_⟩
  rw [hdescs, healBlock_desc]
  exact getLsbD_and_not_bit ..

/-- Posting a command takes no frame and frees none. -/
theorem takeFrameOn_posts {o : Owner} {s t : State} (h : s.Posts t) (places : List Nat) :
    (takeFrameOn o t places).isSome = (takeFrameOn o s places).isSome := by
  have hrun (c : Nat) : t.lowestRun c 1 1 1 = s.lowestRun c 1 1 1 := by rw [h.rest]; rfl
  induction places with
  | nil => rfl
  | cons c places ih =>
    unfold takeFrameOn
    rw [hrun]
    cases s.lowestRun c 1 1 1 with
    | some f => rfl
    | none => exact ih

theorem State.Accounts.integ {s r : State} (h : s.Accounts r) : r.integ = s.integ := by
  rw [h.rest]

theorem settlePage_integ (d old new : Nat) (s : State) : (settlePage d old new s).integ = s.integ := by
  unfold settlePage
  exact (updateCapacity_accounts _).integ.trans (addFootprint_accounts ..).integ

theorem restorePage_state (d l : Nat) (s : State) : ((restorePage d l s).desc d).state = .plain := by
  unfold restorePage
  dsimp only
  rw [(settlePage_keepsPages ..).desc, desc_setDesc]

theorem restorePage_integ (d l : Nat) (s : State) : (restorePage d l s).integ = s.integ := by
  unfold restorePage
  dsimp only
  rw [settlePage_integ]
  obtain ⟨m, c, hput⟩ := putLines_rest l ((List.range 64).map fun i => { cipher := s.cipherOf d 0 i 0 }) s
  rw [hput]
  rfl

theorem unlistPage_poison (d : Nat) (s : State) : ∀ p ∈ (unlistPage d s).integ.poison, p.dlpn ≠ d := by
  intro p hp
  exact bne_iff_ne.mp (List.mem_filter.mp hp).2

/-- A page that was POISONED is PLAIN in the frame taken for it, or ZERO where none is free, and no unit of it is listed; a ZERO page's
charge is accepted as before. -/
theorem clearPage_settles (d : Nat) (s : State) :
    let r := clearPage d s
    (r.desc d).state = (if (takeFrameOn (.page d) s (s.firstPlaces d)).isSome then .plain else .zero) ∧
      (∀ p ∈ r.integ.poison, p.dlpn ≠ d) ∧ ((r.desc d).state = .zero → r.chargeOk (extentOf d) 64 = s.chargeOk (extentOf d) 64) := by
  unfold clearPage
  cases htake : takeFrameOn (.page d) s (s.firstPlaces d) with
  | none =>
    refine ⟨by simp [desc_setDesc], ?_, fun _ => rfl⟩
    exact unlistPage_poison d s
  | some x =>
    obtain ⟨l, t⟩ := x
    have hstate := restorePage_state d l (unlistPage d t)
    refine ⟨hstate, ?_, fun hzero => absurd (hstate.symm.trans hzero) (by decide)⟩
    dsimp only
    rw [restorePage_integ]
    exact unlistPage_poison d t

theorem chargeFails_of_bare {d : Nat} (b : Nat) {s : State} (hmoving : (s.desc d).state ≠ .moving) (hbare : (s.desc d).state.bare = true)
    (hok : s.chargeOk (extentOf d) 64 = true) : s.chargeFails d b = false := by
  have hdue : s.chargeDue d b = none ∨ s.chargeDue d b = some (d * 8 + 4, 64) := by
    simp only [State.chargeDue, source_eq_desc s d hmoving, chargeFor, hbare, if_true]
    split
    · exact .inl rfl
    · exact .inr rfl
  unfold State.chargeFails
  obtain hnone | hsome := hdue
  · rw [hnone]
  · simp [hsome, hok]

/-- A POISONED page whose write is not refused for want of capacity. -/
theorem clearAt_page {d n ld : Nat} {data : Line} {s : State} (hidle : ∀ q, ∀ x ∈ (s.quad q).records, x.dlpn ≠ d)
    (hstate : (s.desc d).state = .poisoned) (hok : s.chargeOk (extentOf d) 64 = true) :
    let r := clearAt d n ld data s
    r.overlay d n = (data, BitVec.allOnes 64, false) ∧ (∀ p ∈ r.integ.poison, p.dlpn ≠ d) ∧
      (r.desc d).state = if (takeFrameOn (.page d) s (s.firstPlaces d)).isSome then .plain else .zero := by
  obtain ⟨hsettled, hunlisted, hcharge⟩ := clearPage_settles d s
  have hclear : clearAt d n ld data s = writeLine d n ld data (clearPage d s) := by
    unfold clearAt
    dsimp only
    rw [abortMove_idle hidle, if_pos hstate, chargeFails_of_bare _ (by simp [hstate]) (by simp [hstate, PageState.bare]) hok]
    rfl
  have hw : (clearPage d s).WroteLine (writeLine d n ld data (clearPage d s)) d n data := by
    by_cases hframe : (takeFrameOn (.page d) s (s.firstPlaces d)).isSome
    · rw [if_pos hframe] at hsettled
      exact writeLine_plain n ld data hsettled
    · rw [if_neg hframe] at hsettled
      exact writeLine_accepted (by simp [hsettled])
        (chargeFails_of_bare _ (by simp [hsettled]) (by simp [hsettled, PageState.bare]) ((hcharge hsettled).trans hok))
  dsimp only
  rw [hclear]
  exact ⟨hw.line, fun p hp => hunlisted p (hw.integ ▸ hp), (congrArg Desc.state (hw.desc d)).trans hsettled⟩

end Sys2Proof.Machine
end

section
namespace Sys2Proof.Machine

/-! ### The poison list, Inject and Clear Poison, and Scan Media (R86, R87, R270, R275) -/

/-- The poisoned units of an LD in a range are those of the list under the mappings of the LD. -/
theorem mem_ldPoison {s : State} {ld lo hi a n k : Nat} : (a, n, k) ∈ s.ldPoison ld lo hi ↔ ∃ p ∈ s.integ.poison, ∃ b,
    (ld, b) ∈ s.mappings (extentOf p.dlpn) ∧ a = b * 2 ^ 28 + p.dlpn % 65536 * 4096 + unitByte p.unit p.place ∧
      n = (if p.unit = 0 then 64 else if p.unit = 1 then 1024 else 4096) ∧ k = p.source ∧ a < hi ∧ lo < a + n := by
  simp only [State.ldPoison, List.mem_flatMap, List.mem_filterMap, List.mem_filter, decide_eq_true_eq, Option.ite_none_right_eq_some,
    Option.some.injEq, Prod.mk.injEq, Prod.exists]
  refine exists_congr fun p => and_congr_right fun _ => ⟨?_, ?_⟩
  · rintro ⟨i, b, ⟨hm, rfl⟩, ⟨hhi, hlo⟩, rfl, rfl, rfl⟩
    exact ⟨b, hm, rfl, rfl, rfl, hhi, hlo⟩
  · rintro ⟨b, hm, rfl, rfl, rfl, hhi, hlo⟩
    exact ⟨ld, b, ⟨hm, rfl⟩, ⟨hhi, hlo⟩, rfl, rfl, rfl⟩

theorem ldExists_not_not {s : State} {i : Nat} (h : s.ldExists i = true) : ¬(!s.ldExists i) = true := by
  rw [h]; exact Bool.false_ne_true

theorem State.Posts.modCci {s t : State} (h : s.Posts t) (i : Nat) (f : CciState → CciState) : (s.modCci i f).Posts (t.modCci i f) := by
  refine ⟨?_, h.others⟩
  obtain ⟨q, c, n, m, rfl⟩ := h.exists_eq
  rfl

theorem State.Posts.modInteg {s t : State} (h : s.Posts t) (f : Integ → Integ) : (s.modInteg f).Posts (t.modInteg f) := by
  refine ⟨?_, h.others⟩
  obtain ⟨q, c, n, m, rfl⟩ := h.exists_eq
  rfl

theorem State.Posts.setDesc {s t : State} (h : s.Posts t) (d : Nat) (x : Desc) : (setDesc d x s).Posts (setDesc d x t) := by
  refine ⟨?_, h.others⟩
  obtain ⟨q, c, n, m, rfl⟩ := h.exists_eq
  rfl

theorem State.Posts.putLine {s t : State} (h : s.Posts t) (l : Nat) (x : DLine) : (putLine l x s).Posts (putLine l x t) := by
  refine ⟨?_, h.others⟩
  obtain ⟨q, c, n, m, rfl⟩ := h.exists_eq
  rfl

/-- Posting a command shows on no page and no mover record. -/
theorem State.Posts.pages {s t : State} (h : s.Posts t) : (∀ q, t.quad q = s.quad q) ∧ ∀ d, t.desc d = s.desc d := by
  rw [h.rest]
  exact ⟨fun _ => rfl, fun _ => rfl⟩

/-- A unit that is not listed is listed while there is room (R271). -/
theorem listPoison_room {d u k n : Nat} {s : State} (hnew : s.poisonListed d u k = false) (hroom : s.integ.poison.length < 65536) :
    listPoison d u k n s = s.modInteg fun i => { i with
      poison := i.poison ++ [{ dlpn := d, unit := u, place := k, source := n, timebase := s.time.tb }] } := by
  unfold listPoison
  rw [hnew, if_neg Bool.false_ne_true, if_pos hroom]

theorem injectAt_plain {d n : Nat} {s : State} (h : (s.desc d).state = .plain) :
    injectAt d n s = markLine d n (locLine (s.desc d).location + n) 2 s := by
  simp only [injectAt, h]

theorem injectAt_poisoned {d n : Nat} {s : State} (h : (s.desc d).state = .poisoned) : injectAt d n s = s := by
  simp only [injectAt, h]

/-- A block of a page of another state, one of whose blocks stays good. -/
theorem injectAt_block {d n : Nat} {s : State} (hpoisoned : (s.desc d).state ≠ .poisoned) (hplain : (s.desc d).state ≠ .plain)
    (hnew : s.poisonListed d 1 (n / 16) = false) (hroom : s.integ.poison.length < 65536)
    (hgood : (s.desc d).bpoison ||| BitVec.ofNat 4 (2 ^ (n / 16)) ≠ 15) :
    injectAt d n s = (modDesc d (fun x => { x with bpoison := x.bpoison ||| BitVec.ofNat 4 (2 ^ (n / 16)) }) s).modInteg fun i => { i with
      poison := i.poison ++ [{ dlpn := d, unit := 1, place := n / 16, source := 2, timebase := s.time.tb }] } := by
  have hinject : injectAt d n s = poisonIfWhole d 2 (markBlock d (n / 16) 2 s) := by
    unfold injectAt
    dsimp only
    split
    · exact absurd ‹_› hplain
    · exact absurd ‹_› hpoisoned
    · rfl
  have hmark : markBlock d (n / 16) 2 s = (modDesc d (fun x => { x with bpoison := x.bpoison ||| BitVec.ofNat 4 (2 ^ (n / 16)) }) s).modInteg
      fun i => { i with poison := i.poison ++ [{ dlpn := d, unit := 1, place := n / 16, source := 2, timebase := s.time.tb }] } :=
    listPoison_room hnew hroom
  have hpoison : ((markBlock d (n / 16) 2 s).desc d).bpoison = (s.desc d).bpoison ||| BitVec.ofNat 4 (2 ^ (n / 16)) := by
    rw [hmark]
    exact congrArg Desc.bpoison (desc_setDesc d _ s)
  rw [hinject, poisonIfWhole, if_neg (by rw [hpoison]; exact fun h => hgood h.1), hmark]

section
variable {cci : Cci} {s : State} {ld : Fin 256} (hserves : s.serves cci) (hld : s.ldExists ld = true)
include hserves hld

/-- An interface that may inject: the MCTP interface, or that of an LD with the grant. -/
theorem exec_injectPoison {dpa : BitVec 64} {d n : Nat} {u : State} (hpath : s.permits cci (s.injectVia cci ld) = true)
    (hline : s.ownLine ld dpa = some (d, n)) (hinject : ∀ t, s.Posts t → u.Posts (injectAt d n t)) :
    ∃ r, exec (.injectPoison cci 8 ld dpa) s = .next r ∧ u.answered r cci .success [] :=
  command_answers hserves (badLength_fixed cci) rfl rfl hpath fun t ht => ⟨_, hinject t ht, by
    have hown : (if t.ldExists ld then t.ownLine ld dpa else none) = some (d, n) := by
      rw [ht.rest]; exact (if_pos hld).trans hline
    simp only [hown]⟩

theorem exec_injectPoison_noLine {dpa : BitVec 64} (hpath : s.permits cci (s.injectVia cci ld) = true) (hline : s.ownLine ld dpa = none) :
    ∃ r, exec (.injectPoison cci 8 ld dpa) s = .next r ∧ s.answered r cci .invalidInput [] :=
  command_reports hserves (badLength_fixed cci) rfl rfl hpath fun t ht => by
    have hown : (if t.ldExists ld then t.ownLine ld dpa else none) = none := by
      rw [ht.rest]; exact (if_pos hld).trans hline
    simp only [hown]

section
variable (hself : s.permits cci (.self ld) = true)
include hself

theorem exec_clearPoison_noLine {dpa : BitVec 64} (data : BitVec 512) (hline : s.ownLine ld dpa = none) :
    ∃ r, exec (.clearPoison cci 72 ld dpa data) s = .next r ∧ s.answered r cci .invalidInput [] :=
  command_reports hserves (badLength_fixed cci) rfl rfl hself fun t ht => by
    have hown : (if t.ldExists ld then t.ownLine ld dpa else none) = none := by
      rw [ht.rest]; exact (if_pos hld).trans hline
    simp only [hown]

/-- What `clearAt` makes true of every state that differs in the posting of the command holds after it, and it succeeds. -/
theorem exec_clearPoison {dpa : BitVec 64} {d n : Nat} (data : BitVec 512) {P : State → Prop} (hline : s.ownLine ld dpa = some (d, n))
    (hanswer : ∀ r, P r → P (answer cci .success [] r)) (hclear : ∀ t, s.Posts t → P (clearAt d n ld data t)) :
    ∃ r, exec (.clearPoison cci 72 ld dpa data) s = .next r ∧ r.out.head? = some (.command cci .success []) ∧ P r :=
  command_leads hserves (badLength_fixed cci) rfl rfl hself fun t ht => by
    have hown : (if t.ldExists ld then t.ownLine ld dpa else none) = some (d, n) := by
      rw [ht.rest]; exact (if_pos hld).trans hline
    simp only [hown]
    exact ⟨rfl, hanswer _ (hclear t ht)⟩

theorem exec_getPoisonList (dpa length : BitVec 64) :
    let fit := (payloadBuffer cci - 32) / 16
    let all := s.ldPoison ld dpa.toNat (dpa.toNat + 64 * length.toNat)
    ∃ r, exec (.getPoisonList cci 16 ld dpa length) s = .next r ∧ s.answered r cci .success
      (wordsLe ([flag (decide ((all.take fit).length < all.length)) + 2 * flag s.integ.overflow,
        (s.integ.firstRefused + (s.ld ld).timeOffset).toNat, (all.take fit).length] ++ poisonWords (all.take fit))) :=
  command_reports hserves (badLength_fixed cci) rfl rfl hself fun t ht => by
    obtain ⟨q, c, k, m, rfl⟩ := ht.exists_eq
    exact if_neg (ldExists_not_not hld)

theorem exec_getScanMediaCapabilities (dpa length : BitVec 64) :
    ∃ r, exec (.getScanMediaCapabilities cci 16 ld dpa length) s = .next r ∧
      s.answered r cci .success (leBytes 4 (64 * length.toNat * 1000 / s.scanRate)) :=
  command_reports hserves (badLength_fixed cci) rfl rfl hself fun t ht => by
    obtain ⟨q, c, k, m, rfl⟩ := ht.exists_eq
    exact if_pos hld

theorem exec_scanMedia_busy (dpa length : BitVec 64) (hbusy : ((s.cci (cciIndex cci)).background.running || (s.ld ld).scan.running) = true) :
    ∃ r, exec (.scanMedia cci 17 ld dpa length) s = .next r ∧ s.answered r cci .busy [] :=
  command_reports hserves (badLength_fixed cci) rfl rfl hself fun t ht => by
    obtain ⟨q, c, k, m, rfl⟩ := ht.exists_eq
    exact (if_neg (ldExists_not_not hld)).trans (if_pos hbusy)

theorem exec_scanMedia (dpa length : BitVec 64) (hidle : ((s.cci (cciIndex cci)).background.running || (s.ld ld).scan.running) = false) :
    ∃ r, exec (.scanMedia cci 17 ld dpa length) s = .next r ∧
      ((s.modCci (cciIndex cci) fun c => { c with background := { opcode := 0x4304, running := true } }).modLd ld fun d => { d with
        scan := { fromDpa := dpa.toNat, toDpa := dpa.toNat + 64 * length.toNat, running := true, by_ := cciIndex cci } }).answered r cci
          .backgroundStarted [] :=
  command_answers hserves (badLength_fixed cci) rfl rfl hself fun t ht => ⟨_, (ht.modCci _ _).modLd ld _, by
    obtain ⟨q, c, k, m, rfl⟩ := ht.exists_eq
    exact (if_neg (ldExists_not_not hld)).trans (if_neg (ne_true_of_eq_false hidle))⟩

theorem exec_getScanMediaResults_busy (hscan : (s.ld ld).scan.running = true) :
    ∃ r, exec (.getScanMediaResults cci 0 ld) s = .next r ∧ s.answered r cci .busy [] :=
  command_reports hserves (badLength_empty cci) rfl rfl hself fun t ht => by
    obtain ⟨q, c, k, m, rfl⟩ := ht.exists_eq
    exact (if_neg (ldExists_not_not hld)).trans (if_pos hscan)

theorem exec_getScanMediaResults (hscan : (s.ld ld).scan.running = false) :
    let sc := (s.ld ld).scan
    let fit := (payloadBuffer cci - 32) / 16
    ∃ r, exec (.getScanMediaResults cci 0 ld) s = .next r ∧ s.answered r cci .success (wordsLe ([sc.fromDpa, (sc.toDpa - sc.fromDpa) / 64,
      (sc.results.take fit).length] ++ (sc.results.take fit).flatMap fun p => [p.1, p.2 / 64])) :=
  command_reports hserves (badLength_empty cci) rfl rfl hself fun t ht => by
    obtain ⟨q, c, k, m, rfl⟩ := ht.exists_eq
    exact (if_neg (ldExists_not_not hld)).trans (if_neg (ne_true_of_eq_false hscan))

end

end

/-- An LD interface without the grant may not inject. -/
theorem exec_injectPoison_refused {i ld : Fin 256} {s : State} (hserves : s.serves (.ld i)) (hgrant : (s.ld i).injectPoison = false)
    (dpa : BitVec 64) : exec (.injectPoison (.ld i) 8 ld dpa) s = .next (answer (.ld i) .unsupportedMailbox [] s) := by
  obtain ⟨hlive, hidle, hlantern, hbound⟩ := hserves
  have hvia : s.injectVia (.ld i) ld = .mctp := by simp [State.injectVia, hgrant]
  have hchecks := (command_checks (cci := .ld i) (s := s) (opcode := 0x4301) (len := 8) (want := .fixed 8) (n := 8) (path := .mctp)
    (run := fun s => match (if s.ldExists ld then s.ownLine ld dpa else none) with
      | some (d, n) => answer (.ld i) .success [] (injectAt d n s)
      | none => answer (.ld i) .invalidInput [] s) rfl (by decide)).2.2 hlive hidle
  have hexec : exec (.injectPoison (.ld i) 8 ld dpa) s = .next (command (.ld i) 0x4301 8 (.fixed 8) false false (s.injectVia (.ld i) ld) .firmware
    (fun s => match (if s.ldExists ld then s.ownLine ld dpa else none) with
      | some (d, n) => answer (.ld i) .success [] (injectAt d n s)
      | none => answer (.ld i) .invalidInput [] s) s) := rfl
  rw [hexec, hvia]
  exact congrArg _ (hchecks.2.1 rfl rfl)

theorem State.modCci_ld (s : State) (n : Nat) (f : CciState → CciState) (i : Nat) : (s.modCci n f).ld i = s.ld i := rfl

/-- Scan Media at the end of its range: its results are the poisoned units in it. -/
theorem exec_scanMediaComplete {ld : Fin 256} {s : State} (hrun : s.running = true) (hscan : (s.ld ld).scan.running = true) (ues : List (BitVec 38)) :
    let sc := (s.ld ld).scan
    ∃ r, exec (.scanMediaComplete ld ues) s = .next r ∧ (r.ld ld).scan.running = false ∧
      (r.ld ld).scan.results = (r.ldPoison ld sc.fromDpa sc.toDpa).map (fun p => (p.1, p.2.1)) ∧
      (r.cci sc.by_).background.running = false ∧ (r.cci sc.by_).background.percent = 100 := by
  refine ⟨_, congrArg Host.Outcome.next (if_pos (by rw [hrun, hscan]; rfl)), ?_, ?_, ?_, ?_⟩
  · rw [State.modCci_ld, State.modLd_at, if_pos rfl]
  · rw [State.modCci_ld, State.modLd_at, if_pos rfl]
    rfl
  · rw [State.modCci_at, if_pos rfl]
  · rw [State.modCci_at, if_pos rfl]

theorem State.serves.running {cci : Cci} {s : State} (h : s.serves cci) : s.running = true := by
  have hlive := h.1
  simp only [State.cciLive, Bool.and_eq_true] at hlive
  exact hlive.1.1.1

theorem injectVia_permits {cci : Cci} {ld : Fin 256} {s : State} (hself : s.permits cci (.self ld) = true)
    (hmay : ∀ i, cci = .ld i → (s.ld ld).injectPoison = true) : s.permits cci (s.injectVia cci ld) = true := by
  cases cci with
  | mctp => rfl
  | ld i =>
    obtain rfl : ld = i := Fin.ext (by simpa [State.permits] using hself)
    simp [State.injectVia, hmay ld rfl, State.permits]

/-- Settles O41. -/
theorem poisonIsListedInjectedClearedAndScanned : Obligations.PoisonIsListedInjectedClearedAndScanned := by
  unfold Obligations.PoisonIsListedInjectedClearedAndScanned
  intro cci ld s hserves hld hself does last sc busy fit
  refine ⟨fun lo hi a n k => mem_ldPoison, fun dpa length => ⟨?_, ?_, ?_, ?_⟩, fun hscan => ⟨?_, ?_⟩, fun hscan => ?_, ?_, fun dpa => ?_⟩
  · exact exec_getPoisonList hserves hld hself dpa length
  · exact exec_getScanMediaCapabilities hserves hld hself dpa length
  · exact exec_scanMedia_busy hserves hld hself dpa length
  · exact exec_scanMedia hserves hld hself dpa length
  · exact exec_getScanMediaResults_busy hserves hld hself hscan
  · exact exec_scanMediaComplete hserves.running hscan
  · exact exec_getScanMediaResults hserves hld hself hscan
  · rintro i rfl hgrant dpa
    obtain rfl : ld = i := Fin.ext (by simpa [State.permits] using hself)
    exact ⟨_, exec_injectPoison_refused hserves hgrant dpa, (State.Posts.refl s).answered _ _ _⟩
  · intro may
    refine ⟨?_, ?_⟩
    · exact fun hline => ⟨fun hmay => exec_injectPoison_noLine hserves hld (injectVia_permits hself hmay) hline,
        fun data => exec_clearPoison_noLine hserves hld hself data hline⟩
    · intro d n hline hroom l b listed
      refine ⟨fun hmay => ⟨fun hstate => ?_, fun hstate hnew => ?_, fun hpoisoned hplain hnew hgood => ?_⟩, fun hidle data => ⟨?_, ?_, ?_⟩⟩
      · refine exec_injectPoison hserves hld (injectVia_permits hself hmay) hline fun t ht => ?_
        rw [injectAt_poisoned (by rw [ht.rest]; exact hstate)]
        exact ht
      · refine exec_injectPoison hserves hld (injectVia_permits hself hmay) hline fun t ht => ?_
        have hlineNow : t.lineNow l = s.lineNow l := by rw [ht.rest]; rfl
        rw [injectAt_plain (by rw [ht.pages.2, hstate]), markLine, ht.pages.2]
        rw [listPoison_room (by rw [ht.rest]; exact hnew) (by rw [ht.rest]; exact hroom), hlineNow]
        have htime : (putLine l { s.lineNow l with poisoned := true } t).time = s.time := by rw [ht.rest]; rfl
        rw [htime]
        exact (ht.putLine l _).modInteg _
      · refine exec_injectPoison hserves hld (injectVia_permits hself hmay) hline fun t ht => ?_
        have hinject := injectAt_block (n := n) (s := t) (d := d) (by rw [ht.rest]; exact hpoisoned) (by rw [ht.rest]; exact hplain)
          (by rw [ht.rest]; exact hnew) (by rw [ht.rest]; exact hroom) (by rw [ht.rest]; exact hgood)
        rw [hinject]
        obtain ⟨q, c, k, m, rfl⟩ := ht.exists_eq
        exact (ht.setDesc d _).modInteg _
      · refine fun hplain hblock => exec_clearPoison hserves hld hself data hline (fun _ h => h) fun t ht => ?_
        obtain ⟨hquad, hdesc⟩ := ht.pages
        exact clearAt_line (by simpa [hquad] using hidle) (by rw [hdesc, hplain]) (by rw [hdesc, hblock])
      · refine fun hplain hblock => exec_clearPoison hserves hld hself data hline (fun _ h => h) fun t ht => ?_
        obtain ⟨hquad, hdesc⟩ := ht.pages
        exact clearAt_block (by simpa [hquad] using hidle) (by rw [hdesc, hplain]) (by rw [hdesc, hblock])
      · refine fun hstate hok => exec_clearPoison hserves hld hself data hline (fun _ h => h) fun t ht => ?_
        obtain ⟨hquad, hdesc⟩ := ht.pages
        have hcharge : t.chargeOk (extentOf d) 64 = true := by rw [ht.rest]; exact hok
        have hplaces : t.firstPlaces d = s.firstPlaces d := by rw [ht.rest]; rfl
        rw [← takeFrameOn_posts (o := .page d) ht, ← hplaces]
        exact clearAt_page (by simpa [hquad] using hidle) (by rw [hdesc, hstate]) hcharge

end Sys2Proof.Machine
end

section
namespace Sys2Proof.Machine

/-! ### Loads of program images (R99, R355, R362) -/

theorem sameLoad_of_target {t : Nat} (ht : t ≠ 2) (ld ld' : Nat) : sameLoad t ld = sameLoad t ld' := by
  funext l
  simp [sameLoad, ht]

theorem sameLoad_self (l : Load) : sameLoad l.target l.ld l = true := by
  simp [sameLoad]

/-- A load of the firmware's or the operator's image is found whatever LD is named. -/
theorem loadOf_of_target {t : Nat} (ht : t ≠ 2) (ld ld' : Nat) (s : State) : s.loadOf t ld = s.loadOf t ld' := by
  rw [State.loadOf, State.loadOf, sameLoad_of_target ht]

theorem loadOf_setLoad {l : Load} {s : State} (h : (s.loadOf l.target l.ld).isSome = true) : (setLoad l s).loadOf l.target l.ld = some l := by
  have hsame : sameLoad l.target l.ld ∘ (fun x => if sameLoad l.target l.ld x then l else x) = sameLoad l.target l.ld := by
    funext x
    by_cases hx : sameLoad l.target l.ld x = true
    · simp [hx, sameLoad_self]
    · simp [hx]
  obtain ⟨y, hy⟩ := Option.isSome_iff_exists.mp h
  have hfind : (setLoad l s).loadOf l.target l.ld = (s.loadOf l.target l.ld).map fun x => if sameLoad l.target l.ld x then l else x := by
    unfold State.loadOf setLoad
    rw [List.find?_map, hsame]
  have hself : sameLoad l.target l.ld y = true := List.find?_some hy
  rw [hfind, hy, Option.map_some, if_pos hself]

/-- The verdict looks at the image, the operator key and the SVN floors, and for a tenant image at its LD. -/
theorem verdict_congr {s r : State} {t : Nat} (ht : t ≠ 2) (hkey : r.img.opKey = s.img.opKey) (hfloor : r.img.floor t = s.img.floor t)
    (ld ld' : Nat) (b : List Byte) (sigOk : Bool) : r.verdict t ld b sigOk = s.verdict t ld' b sigOk := by
  simp only [State.verdict, formatOk, hkey, hfloor, ht, decide_not, decide_false, Bool.not_false, Bool.true_or]

theorem copy_setCopy (i : Img) (op second : Bool) (b : List Byte) : (i.setCopy op second b).copy op second = b := by
  cases op <;> cases second <;> rfl

/-- What a change of a copy in flash leaves of the image state. -/
structure Img.KeepsLoads (i j : Img) : Prop where
  fwCopy : j.fwCopy = i.fwCopy
  opCopy : j.opCopy = i.opCopy
  opKey : j.opKey = i.opKey
  fwFloor : j.fwFloor = i.fwFloor
  opFloor : j.opFloor = i.opFloor
  loads : j.loads = i.loads

theorem setCopy_keepsLoads (i : Img) (op second : Bool) (b : List Byte) : i.KeepsLoads (i.setCopy op second b) := by
  cases op <;> cases second <;> exact ⟨rfl, rfl, rfl, rfl, rfl, rfl⟩

theorem Img.KeepsLoads.floor {i j : Img} (h : i.KeepsLoads j) (t : Nat) : j.floor t = i.floor t := by
  rw [Img.floor, Img.floor, h.fwFloor, h.opFloor]

theorem Img.KeepsLoads.inactive {i j : Img} (h : i.KeepsLoads j) (t : Nat) : j.inactive t = i.inactive t := by
  rw [Img.inactive, Img.inactive, h.fwCopy, h.opCopy]

theorem flag_ne_two (op : Bool) : flag op ≠ 2 := by cases op <;> decide

/-- The state that a load of the firmware's or the operator's image is in with these bytes. -/
def State.loadState (s : State) (op : Bool) (total : Nat) (b : List Byte) (sigOk : Bool) : Nat :=
  if b.length < total then 0 else (s.verdict (flag op) 0 b sigOk).1

/-- The flash copy and the load hold the bytes of a load. -/
structure State.Loaded (s r : State) (op : Bool) (l : Load) : Prop where
  copy : r.img.copy op (s.img.inactive (flag op)) = l.bytes
  load : r.loadOf (flag op) 0 = some l

/-- The flash copy of a load of the firmware's or the operator's image takes its bytes. -/
def storeBytes (op : Bool) (l : Load) (b : List Byte) (s : State) : State :=
  { s with img := { s.img.setCopy op (s.img.inactive (flag op)) b with
    writes := s.img.writes + BitVec.ofNat 32 (sectors b.length - sectors l.bytes.length) } }

theorem takeChunk_eq {op : Bool} {l : Load} (htarget : l.target = flag op) (chunk : List Byte) (sigOk : Bool) (s : State) :
    takeChunk l chunk sigOk s =
      let b := l.bytes ++ chunk
      let u := storeBytes op l b s
      let v := u.verdict l.target l.ld b sigOk
      let r := setLoad { l with bytes := b, at_ := s.time.now, state := v.1 } u
      if b.length < l.total then (0, setLoad { l with bytes := b, at_ := s.time.now } u) else (v.1, if v.2 then fireEvent 779 r else r) := by
  obtain ⟨target, ld, cci, total, bytes, at_, state⟩ := l
  obtain rfl : target = flag op := htarget
  cases op <;> rfl

theorem takeChunk_loaded {op : Bool} {l : Load} {s : State} (chunk : List Byte) (sigOk : Bool) (htarget : l.target = flag op) (hstate : l.state = 0)
    (hload : (s.loadOf (flag op) 0).isSome = true) :
    let b := l.bytes ++ chunk
    let st := s.loadState op l.total b sigOk
    (takeChunk l chunk sigOk s).1 = st ∧ s.Loaded (takeChunk l chunk sigOk s).2 op { l with bytes := b, at_ := s.time.now, state := st } := by
  have hne : l.target ≠ 2 := htarget ▸ flag_ne_two op
  let b := l.bytes ++ chunk
  let u := storeBytes op l b s
  have hkeeps := setCopy_keepsLoads s.img op (s.img.inactive (flag op)) b
  have hloaded (st : Nat) : s.Loaded (setLoad { l with bytes := b, at_ := s.time.now, state := st } u) op
      { l with bytes := b, at_ := s.time.now, state := st } := by
    refine ⟨(copy_setCopy ..), ?_⟩
    have hu : (u.loadOf l.target l.ld).isSome = true := by
      rw [loadOf_of_target hne _ 0, htarget]
      simpa [u, storeBytes, State.loadOf, hkeeps.loads] using hload
    rw [← htarget, loadOf_of_target hne 0 l.ld]
    exact loadOf_setLoad (l := { l with bytes := b, at_ := s.time.now, state := st }) hu
  have hverdict : u.verdict l.target l.ld b sigOk = s.verdict (flag op) 0 b sigOk := by
    rw [htarget]
    exact verdict_congr (flag_ne_two op) hkeeps.opKey (hkeeps.floor _) ..
  intro b' st
  by_cases hshort : b.length < l.total
  · have hst : st = 0 := if_pos hshort
    have htake : takeChunk l chunk sigOk s = (0, setLoad { l with bytes := b, at_ := s.time.now, state := 0 } u) := by
      rw [takeChunk_eq htarget, ← hstate]
      exact if_pos hshort
    rw [htake, hst]
    exact ⟨rfl, hloaded 0⟩
  · have hst : st = (s.verdict (flag op) 0 b sigOk).1 := if_neg hshort
    have hreports := fireEvent_reports 779 (setLoad { l with bytes := b, at_ := s.time.now, state := st } u) (by decide)
    have htake : takeChunk l chunk sigOk s = (st, if (s.verdict (flag op) 0 b sigOk).2 then
        fireEvent 779 (setLoad { l with bytes := b, at_ := s.time.now, state := st } u)
        else setLoad { l with bytes := b, at_ := s.time.now, state := st } u) := by
      rw [takeChunk_eq htarget, hst, ← hverdict]
      exact if_neg hshort
    rw [htake]
    refine ⟨rfl, ?_⟩
    dsimp only
    split
    · have himg := congrArg State.img hreports.rest
      have hl := hloaded st
      exact ⟨himg ▸ hl.copy, by rw [State.loadOf, himg]; exact hl.load⟩
    · exact hloaded st

/-- The first chunk's erasure of the inactive copy. -/
theorem eraseCopy_keepsLoads (op : Bool) (s : State) : ∃ i, eraseCopy (flag op) s = { s with img := i } ∧ s.img.KeepsLoads i := by
  have hset := setCopy_keepsLoads s.img op (s.img.inactive (flag op)) []
  cases op with
  | false =>
    unfold eraseCopy
    simp only [flag, Bool.false_eq_true, if_false, if_true]
    split
    · exact ⟨_, rfl, hset.fwCopy, hset.opCopy, hset.opKey, hset.fwFloor, hset.opFloor, hset.loads⟩
    · exact ⟨_, rfl, hset⟩
  | true =>
    unfold eraseCopy
    simp only [flag, if_true]
    split
    · exact absurd ‹_› (by decide)
    · split
      · exact ⟨_, rfl, hset.fwCopy, hset.opCopy, hset.opKey, hset.fwFloor, hset.opFloor, hset.loads⟩
      · exact ⟨_, rfl, hset⟩

/-- A first chunk finds its load empty, and the device's other image state as it was. -/
theorem startLoad_image (op : Bool) (cci : Cci) (total : Nat) (s : State) :
    ∃ i, startLoad (flag op) 0 cci total s = some { s with img := i } ∧ i.opKey = s.img.opKey ∧ i.floor (flag op) = s.img.floor (flag op) ∧
      i.inactive (flag op) = s.img.inactive (flag op) ∧ ({ s with img := i }.loadOf (flag op) 0).isSome = true := by
  let t : State := { s with img := { s.img with loads := s.img.loads.filter fun l => !sameLoad (flag op) 0 l } }
  obtain ⟨i, herase, hkeeps⟩ := eraseCopy_keepsLoads op t
  refine ⟨{ i with loads := i.loads ++ [{ target := flag op, ld := 0, cci, total }] }, ?_, hkeeps.opKey, ?_, ?_, ?_⟩
  · unfold startLoad
    rw [if_neg (flag_ne_two op)]
    dsimp only
    rw [herase]
  · exact hkeeps.floor (flag op)
  · exact hkeeps.inactive (flag op)
  · refine List.find?_isSome.mpr ⟨_, List.mem_append_right _ (List.mem_singleton.mpr rfl), ?_⟩
    simp [sameLoad]

/-- The reply to a chunk of an image: the bytes received and the state of the load. -/
def chunkReply (cci : Cci) (n st : Nat) : Output := .command cci .success (leBytes 4 n ++ leBytes 1 st ++ leBytes 3 0)

/-- What the state shows after a chunk that joined the bytes `old` of a load. -/
structure State.TookChunk (s r : State) (cci : Cci) (op : Bool) (total : Nat) (b : List Byte) (sigOk : Bool) : Prop where
  reply : r.out.head? = some (chunkReply cci b.length (s.loadState op total b sigOk))
  copy : r.img.copy op (s.img.inactive (flag op)) = b
  load : ∃ l, r.loadOf (flag op) 0 = some l ∧ l.bytes = b ∧ l.state = s.loadState op total b sigOk ∧ l.total = total ∧ l.at_ = s.time.now

theorem loadReply_tookChunk {op : Bool} {l : Load} {s : State} (cci : Cci) (chunk : List Byte) (sigOk : Bool) (htarget : l.target = flag op)
    (hstate : l.state = 0) (hload : (s.loadOf (flag op) 0).isSome = true) :
    s.TookChunk (loadReply cci l chunk sigOk s) cci op l.total (l.bytes ++ chunk) sigOk := by
  obtain ⟨hst, hcopy, hloaded⟩ := takeChunk_loaded chunk sigOk htarget hstate hload
  refine ⟨?_, hcopy, ⟨_, hloaded, rfl, rfl, rfl, rfl⟩⟩
  rw [chunkReply, ← hst, List.length_append]
  rfl

/-- Chunks act alike on states that agree in the operator key, the target's floor and copies, and the time. -/
theorem State.TookChunk.congr {s t r : State} {cci : Cci} {op : Bool} {total : Nat} {b : List Byte} {sigOk : Bool}
    (h : t.TookChunk r cci op total b sigOk) (hkey : t.img.opKey = s.img.opKey) (hfloor : t.img.floor (flag op) = s.img.floor (flag op))
    (hinactive : t.img.inactive (flag op) = s.img.inactive (flag op)) (htime : t.time = s.time) : s.TookChunk r cci op total b sigOk := by
  have hst : t.loadState op total b sigOk = s.loadState op total b sigOk := by
    rw [State.loadState, State.loadState, verdict_congr (flag_ne_two op) hkey hfloor 0 0]
  obtain ⟨hreply, hcopy, hload⟩ := h
  rw [hst] at hreply hload
  exact ⟨hreply, hinactive ▸ hcopy, htime ▸ hload⟩

section
variable {cci : Cci} {op : Bool} {total : Nat} {chunk : List Byte} {sigOk : Bool} {s : State}

theorem loadChunk_first (hfree : s.activating (flag op) 0 = false) (hnone : s.loadOf (flag op) 0 = none) :
    s.TookChunk (loadChunk cci (flag op) 0 0 total chunk sigOk s) cci op total chunk sigOk := by
  obtain ⟨i, hstart, hkey, hfloor, hinactive, hload⟩ := startLoad_image op cci total s
  have hchunk : loadChunk cci (flag op) 0 0 total chunk sigOk s =
      loadReply cci { target := flag op, ld := 0, cci, total } chunk sigOk { s with img := i } := by
    unfold loadChunk
    simp only [hfree, hnone, otherLoad, Bool.or_self, Bool.false_eq_true, if_false, if_true, hstart]
  rw [hchunk]
  exact (loadReply_tookChunk cci chunk sigOk rfl rfl hload).congr hkey hfloor hinactive rfl

theorem loadChunk_next {l : Load} {off : Nat} (hfree : s.activating (flag op) 0 = false) (hoff : off ≠ 0) (hload : s.loadOf (flag op) 0 = some l)
    (hcci : l.cci = cci) (hstate : l.state = 0) (hbytes : l.bytes.length = off) (htotal : l.total = total) :
    s.TookChunk (loadChunk cci (flag op) 0 off total chunk sigOk s) cci op total (l.bytes ++ chunk) sigOk := by
  have htarget : l.target = flag op := by
    have hsame : sameLoad (flag op) 0 l = true := List.find?_some hload
    simp only [sameLoad, Bool.and_eq_true, decide_eq_true_eq] at hsame
    exact hsame.1
  have hchunk : loadChunk cci (flag op) 0 off total chunk sigOk s = loadReply cci l chunk sigOk s := by
    unfold loadChunk
    simp only [hfree, hload, otherLoad, hcci, ne_eq, not_true_eq_false, decide_false, Bool.and_false, Bool.or_self, Bool.false_eq_true, if_false,
      hoff, hbytes, htotal, and_self, if_true]
  rw [hchunk, ← htotal]
  exact loadReply_tookChunk cci chunk sigOk htarget hstate (by rw [hload]; rfl)

/-- A command for the firmware's or the operator's image passes the checks of its target. -/
theorem imageCommand_image (hmay : s.mayImage cci (flag op) 0 = true) (run : Nat → State → State) :
    imageCommand cci (BitVec.ofNat 8 (flag op)) 0 0 run s = run 0 s := by
  have htarget : (BitVec.ofNat 8 (flag op)).toNat = flag op := by cases op <;> rfl
  have hld : imageLd cci (BitVec.ofNat 8 (flag op)) 0 0 = some 0 := by cases op <;> rfl
  have hne : BitVec.ofNat 8 (flag op) ≠ 2 := by cases op <;> decide
  unfold imageCommand
  rw [hld, htarget, if_neg (by cases op <;> decide)]
  simp only [hmay, hne, Bool.not_true, Bool.false_eq_true, if_false, false_and]

end

theorem State.Posts.tookChunk {s t r : State} {cci : Cci} {op : Bool} {total : Nat} {b : List Byte} {sigOk : Bool} (h : s.Posts t)
    (hr : t.TookChunk r cci op total b sigOk) : s.TookChunk r cci op total b sigOk := by
  obtain ⟨q, c, n, m, rfl⟩ := h.exists_eq
  exact hr.congr rfl rfl rfl rfl

/-- A chunk whose lengths are right reaches the load of its target. -/
theorem exec_loadRiliaImage {cci : Cci} {op : Bool} {off total len : BitVec 32} {chunk : List Byte} {sigOk : Bool} {s : State} {P : State → Prop}
    (hserves : s.serves cci) (hmay : s.mayImage cci (flag op) 0 = true) (hchunk : chunk ≠ []) (hlen : len.toNat = 16 + chunk.length)
    (hbuffer : len.toNat ≤ payloadBuffer cci) (htotal : total.toNat ≤ 524288) (hoff : off.toNat + chunk.length ≤ total.toNat)
    (hrun : ∀ t, s.Posts t → P (loadChunk cci (flag op) 0 off.toNat total.toNat chunk sigOk t)) :
    ∃ r, exec (.loadRiliaImage cci len off total (BitVec.ofNat 8 (flag op)) 0 0 chunk sigOk) s = .next r ∧ P r := by
  have htarget : (BitVec.ofNat 8 (flag op)).toNat = flag op := by cases op <;> rfl
  have hne : BitVec.ofNat 8 (flag op) ≠ 2 := by cases op <;> decide
  refine command_leads hserves ?_ ?_ ?_ (s.permits_any cci) fun t ht => ?_
  · simp [badLength, hbuffer]; omega
  · rw [if_neg hne]
    simp [hlen, htotal, hoff]
  · cases chunk with
    | nil => exact absurd rfl hchunk
    | cons x l => rfl
  · have hmay : t.mayImage cci (flag op) 0 = true := by rw [ht.rest]; exact hmay
    rw [htarget, imageCommand_image hmay]
    exact hrun t ht

/-- Activate of a verified load, with nothing else active, starts in the background. -/
theorem exec_activateRiliaImage {cci : Cci} {op : Bool} {l : Load} {s : State} (hserves : s.serves cci) (hmay : s.mayImage cci (flag op) 0 = true)
    (hload : s.loadOf (flag op) 0 = some l) (hstate : l.state = 1) (hact : s.img.act = none)
    (hidle : (s.cci (cciIndex cci)).background.running = false) :
    ∃ r, exec (.activateRiliaImage cci 4 (BitVec.ofNat 8 (flag op)) 0 0 0) s = .next r ∧ r.out.head? = some (.command cci .backgroundStarted []) ∧
      r.img = { s.img with act := some { target := flag op, bytes := l.bytes, cci, at_ := s.time.now } } ∧
      (r.cci (cciIndex cci)).background = { opcode := 0xC002, running := true } ∧ r.ril.active = s.ril.active ∧ r.threads = s.threads := by
  have htarget : (BitVec.ofNat 8 (flag op)).toNat = flag op := by cases op <;> rfl
  have hne : BitVec.ofNat 8 (flag op) ≠ 2 := by cases op <;> decide
  refine command_leads hserves (badLength_fixed cci) rfl rfl (s.permits_any cci) fun t ht => ?_
  have himg : t.img = s.img := by rw [ht.rest]
  have hcandidate : t.candidate (flag op) 0 false = some l.bytes := by
    simp only [State.candidate, State.loadOf, himg, Bool.not_false, if_true]
    rw [show s.img.loads.find? (sameLoad (flag op) 0) = some l from hload]
    simp [hstate]
  have hbusy : (t.img.act.isSome || (t.cci (cciIndex cci)).background.running) = false := by
    rw [himg, hact, ht.rest]; exact hidle
  rw [imageCommand_image (s := t) (by rw [ht.rest]; exact hmay)]
  simp only [htarget, show (0 : BitVec 8).getLsbD 0 = false from rfl, hcandidate, hbusy, hne, false_and, if_false, Bool.false_eq_true]
  refine ⟨rfl, ?_, ?_, ?_, ?_⟩
  · rw [ht.rest]; rfl
  · exact congrArg CciState.background (t.modCci_self (cciIndex cci) fun c => { c with background := { opcode := 0xC002, running := true } })
  · rw [ht.rest]; rfl
  · rw [ht.rest]; rfl

end Sys2Proof.Machine
end

section
namespace Sys2Proof.Machine

/-! ### The swap of the banks and its grace period (R366 to R372) -/

/-- What every step of an activation but its own change of the images, banks, interfaces and threads leaves as it is. -/
structure State.KeepsPrograms (s r : State) : Prop where
  img : r.img = s.img
  active : r.ril.active = s.ril.active
  bank0 : r.ril.bank0 = s.ril.bank0
  bank1 : r.ril.bank1 = s.ril.bank1
  ccis : r.ccis = s.ccis
  threads : r.threads = s.threads
  dram : r.dram = s.dram
  time : r.time = s.time

theorem State.KeepsPrograms.refl (s : State) : s.KeepsPrograms s := ⟨rfl, rfl, rfl, rfl, rfl, rfl, rfl, rfl⟩

theorem State.KeepsPrograms.trans {s r q : State} (h : s.KeepsPrograms r) (k : r.KeepsPrograms q) : s.KeepsPrograms q :=
  ⟨k.img.trans h.img, k.active.trans h.active, k.bank0.trans h.bank0, k.bank1.trans h.bank1, k.ccis.trans h.ccis, k.threads.trans h.threads,
    k.dram.trans h.dram, k.time.trans h.time⟩

theorem State.KeepsPrograms.ite {p : Prop} [Decidable p] {s r q : State} (h : s.KeepsPrograms r) (k : s.KeepsPrograms q) :
    s.KeepsPrograms (if p then r else q) := by
  split
  · exact h
  · exact k

theorem forEach_keepsPrograms {α : Type} (l : List α) (f : α → State → State) (h : ∀ a s, State.KeepsPrograms s (f a s)) (s : State) :
    s.KeepsPrograms (forEach l f s) := by
  induction l generalizing s with
  | nil => exact .refl s
  | cons a l ih => exact (h a s).trans (ih _)

theorem State.Reports.keepsPrograms {s r : State} (h : s.Reports r) : s.KeepsPrograms r := by
  constructor <;> rw [h.rest]

theorem State.KeepsPrograms.bank {s r : State} (h : s.KeepsPrograms r) (b : Bool) : r.bank b = s.bank b := by
  simp only [State.bank, h.bank0, h.bank1]

theorem State.KeepsPrograms.thread {s r : State} (h : s.KeepsPrograms r) (t : Nat) : r.thread t = s.thread t := by
  simp only [State.thread, h.threads]

theorem State.KeepsPrograms.cci {s r : State} (h : s.KeepsPrograms r) (i : Nat) : r.cci i = s.cci i := by
  simp only [State.cci, h.ccis]

theorem modQueue_keepsPrograms (q : Nat) (f : Queue → Queue) (s : State) : s.KeepsPrograms (s.modQueue q f) :=
  ⟨rfl, rfl, rfl, rfl, rfl, rfl, rfl, rfl⟩

theorem postDevice_keepsPrograms (q : Nat) (a b c d : Word) (s : State) : s.KeepsPrograms (postDevice q a b c d s) := by
  constructor <;> rw [postDevice_rest]

theorem dropTickets_keepsPrograms (l : List (BitVec 16)) (s : State) : s.KeepsPrograms (dropTickets l s) :=
  forEach_keepsPrograms _ _ (fun k s => by
    constructor <;> simp only [State.modRil] <;> split <;> rfl) s

theorem writeComet_keepsPrograms (q : Nat) (c : Comet) (s : State) : s.KeepsPrograms (writeComet q c s) := by
  exact ⟨rfl, rfl, rfl, rfl, rfl, rfl, rfl, rfl⟩

theorem unbindTenant_keepsPrograms (ld : Nat) (s : State) : s.KeepsPrograms (unbindTenant ld s) := by
  unfold unbindTenant
  refine .trans ?_ ((placeRecord_reports ..).trans (fireEvent_reports 777 _ (by decide))).keepsPrograms
  exact ⟨rfl, rfl, rfl, rfl, rfl, rfl, rfl, rfl⟩

theorem countTenantTrap_keepsPrograms (ld : Nat) (s : State) : s.KeepsPrograms (countTenantTrap ld s) := by
  unfold countTenantTrap
  refine .ite (.trans ?_ (unbindTenant_keepsPrograms ..)) ?_
  · exact ⟨rfl, rfl, rfl, rfl, rfl, rfl, rfl, rfl⟩
  · exact ⟨rfl, rfl, rfl, rfl, rfl, rfl, rfl, rfl⟩

/-! #### The end of an activation -/

/-- Nothing runs in the bank that is not active. -/
def State.graceOver (s : State) : Bool := (List.range 32).all fun t => !(s.thread t).state.busy || (s.thread t).bank == s.ril.active

theorem graceOver_iff (s : State) : s.graceOver = true ↔ ¬∃ t, t < 32 ∧ (s.thread t).state.busy = true ∧ (s.thread t).bank = !s.ril.active := by
  have hbool : ∀ a b : Bool, a = b ↔ ¬a = !b := by decide
  simp only [State.graceOver, List.all_eq_true, List.mem_range, Bool.or_eq_true, Bool.not_eq_true', beq_iff_eq, not_exists, not_and]
  refine forall_congr' fun t => forall_congr' fun _ => ?_
  rw [hbool]
  cases (s.thread t).state.busy <;> simp

/-- An activation is over: it left the images, and the bank that is not active is empty. -/
structure State.Finished (s r : State) (a : Activation) : Prop where
  img : ∃ i, r.img = i ∧ i.act = none ∧ i.lastSwap = s.img.lastSwap ∧ i.fwCopy = s.img.fwCopy
  active : r.ril.active = s.ril.active
  bankNew : r.bank s.ril.active = s.bank s.ril.active
  bankOld : r.bank (!s.ril.active) = {}
  command : (r.cci (cciIndex a.cci)).background.running = false
  threads : r.threads = s.threads
  dram : r.dram = s.dram
  time : r.time = s.time

theorem raiseFloor_img (a : Activation) (s : State) : ∃ i, raiseFloor a s = { s with img := i } ∧ i.act = s.img.act ∧
    i.lastSwap = s.img.lastSwap ∧ i.fwCopy = s.img.fwCopy := by
  unfold raiseFloor writeDirectory
  dsimp only
  split
  · split <;> exact ⟨_, rfl, rfl, rfl, rfl⟩
  · split
    · split <;> exact ⟨_, rfl, rfl, rfl, rfl⟩
    · exact ⟨_, rfl, rfl, rfl, rfl⟩

theorem finishActivation_finished (a : Activation) (s : State) : s.Finished (finishActivation a s) a := by
  let u : State := s.modRil fun r => if r.active then { r with bank0 := {} } else { r with bank1 := {} }
  obtain ⟨i, hraise, hact, hswap, hcopy⟩ := raiseFloor_img a { u with img := { u.img with act := none } }
  have hfinish : finishActivation a s = ({ u with img := i } : State).modCci (cciIndex a.cci) fun c =>
      { c with background := { c.background with running := false, percent := 100, code := 0 } } := by
    unfold finishActivation
    dsimp only
    rw [hraise]
  have hbanks : u.ril.active = s.ril.active ∧ u.bank s.ril.active = s.bank s.ril.active ∧ u.bank (!s.ril.active) = {} := by
    cases hactive : s.ril.active <;> simp [u, State.modRil, State.bank, hactive]
  obtain ⟨hactive, hnew, hold⟩ := hbanks
  rw [hfinish]
  exact ⟨⟨i, rfl, hact, hswap, hcopy⟩, hactive, hnew, hold, by rw [State.modCci_self], rfl, rfl, rfl⟩

theorem settleGrace_idle {s : State} (h : s.img.act = none) : settleGrace s = s := by
  simp only [settleGrace, h]

theorem settleGrace_swapped {a : Activation} {s : State} (hact : s.img.act = some a) (hswapped : a.swapped.isSome = true) :
    settleGrace s = if s.graceOver then finishActivation a s else s := by
  simp only [settleGrace, hact, hswapped, Bool.true_and, State.graceOver]
  rfl

/-! #### Threads in the old bank when the grace period ends -/

/-- A swapped activation that has the banks so is in its grace period, or its grace period is over. -/
structure State.InGrace (s r : State) (a : Activation) : Prop where
  active : r.ril.active = s.ril.active
  bankNew : r.bank s.ril.active = s.bank s.ril.active
  phase : r.img.act = some a ∨ r.img.act = none ∧ r.bank (!s.ril.active) = {} ∧ (r.cci (cciIndex a.cci)).background.running = false

theorem State.InGrace.keeps {s r q : State} {a : Activation} (h : s.InGrace r a) (k : r.KeepsPrograms q) : s.InGrace q a := by
  obtain ⟨hactive, hnew, hphase⟩ := h
  refine ⟨k.active.trans hactive, (k.bank _).trans hnew, ?_⟩
  rwa [k.img, k.bank, k.cci]

theorem State.InGrace.modThread {s r : State} {a : Activation} (h : s.InGrace r a) (t : Nat) (f : Thread → Thread) : s.InGrace (r.modThread t f) a :=
  ⟨h.active, h.bankNew, h.phase⟩

theorem State.InGrace.finished {s r q : State} {a : Activation} (h : s.InGrace r a) (k : r.Finished q a) :
    q.img.act = none ∧ q.ril.active = s.ril.active ∧ q.bank s.ril.active = s.bank s.ril.active ∧ q.bank (!s.ril.active) = {} ∧
      (q.cci (cciIndex a.cci)).background.running = false := by
  obtain ⟨i, himg, hact, -, -⟩ := k.img
  have hnew := k.bankNew
  have hold := k.bankOld
  rw [h.active] at hnew hold
  exact ⟨himg ▸ hact, k.active.trans h.active, hnew.trans h.bankNew, hold, k.command⟩

theorem State.InGrace.settle {s r : State} {a : Activation} (hswapped : a.swapped.isSome = true) (h : s.InGrace r a) : s.InGrace (settleGrace r) a := by
  obtain hact | ⟨hact, -, -⟩ := h.phase
  · rw [settleGrace_swapped hact hswapped]
    split
    · obtain ⟨hnone, hactive, hnew, hold, hdone⟩ := h.finished (finishActivation_finished a r)
      exact ⟨hactive, hnew, .inr ⟨hnone, hold, hdone⟩⟩
    · exact h
  · rwa [settleGrace_idle hact]

theorem settleGrace_threads (s : State) : (settleGrace s).threads = s.threads := by
  unfold settleGrace
  split
  · rfl
  · split
    · exact (finishActivation_finished ..).threads
    · rfl

/-- Behind the end of the invocation a trap changes no image, bank, interface or thread. -/
theorem takeTrap_keepsPrograms (t code : Nat) (s : State) :
    ((closeComet t [] (endInvocation t .free s)).modThread t fun v => { v with scratchOwner := none }).KeepsPrograms (takeTrap t code s) := by
  unfold takeTrap
  dsimp only
  refine .trans (.trans ?_ (fireEvent_reports 776 _ (by decide)).keepsPrograms)
    (.trans (.ite (.refl _) (postDevice_keepsPrograms ..)) (.ite (countTenantTrap_keepsPrograms ..) (.refl _)))
  exact ⟨rfl, rfl, rfl, rfl, rfl, rfl, rfl, rfl⟩

theorem endInvocation_thread (t : Nat) (st : ThreadState) (s : State) : ((endInvocation t st s).thread t).state = st ∧
    ∀ k, k ≠ t → (endInvocation t st s).thread k = s.thread k := by
  have hsettle (u : State) (k : Nat) : (settleGrace u).thread k = u.thread k := by simp only [State.thread, settleGrace_threads]
  unfold endInvocation
  refine ⟨?_, fun k hk => ?_⟩
  · rw [hsettle, State.modThread_self]
  · rw [hsettle, State.modThread_other _ _ _ _ hk, (dropTickets_keepsPrograms ..).thread]

/-- A thread that ends in a trap is free, and no other thread changes. -/
theorem takeTrap_thread (t code : Nat) (s : State) : ((takeTrap t code s).thread t).state = .free ∧
    ∀ k, k ≠ t → (takeTrap t code s).thread k = s.thread k := by
  obtain ⟨hended, hendedOther⟩ := endInvocation_thread t .free s
  refine ⟨?_, fun k hk => ?_⟩
  · rw [(takeTrap_keepsPrograms ..).thread, State.modThread_self]
    dsimp only
    rw [closeComet_thread, if_pos rfl]
    exact hended
  · rw [(takeTrap_keepsPrograms ..).thread, State.modThread_other _ _ _ _ hk, closeComet_thread, if_neg hk, hendedOther k hk]

theorem takeTrap_inGrace {s r : State} {a : Activation} (t code : Nat) (hswapped : a.swapped.isSome = true) (h : s.InGrace r a) :
    s.InGrace (takeTrap t code r) a := by
  have hended : s.InGrace (endInvocation t .free r) a := ((h.keeps (dropTickets_keepsPrograms ..)).modThread ..).settle hswapped
  have hclosed : s.InGrace (closeComet t [] (endInvocation t .free r)) a := by
    unfold closeComet
    split
    · exact hended
    · exact (hended.modThread ..).keeps (writeComet_keepsPrograms ..)
  exact (hclosed.modThread ..).keeps (takeTrap_keepsPrograms ..)

/-- What the end of the grace period does to a thread: an invocation in the old bank ends, or is cut when its device operation returns. -/
structure Thread.CutFrom (old : Bool) (u v : Thread) : Prop where
  ends : u.state.busy = true → u.bank = old → u.state ≠ .deviceOp → v.state = .free
  cut : u.bank = old → u.state = .deviceOp → v.state = .deviceOp ∧ v.cut = true
  stays : u.state.busy = true → u.bank ≠ old → v.state = u.state

theorem cutThread_thread (t : Nat) (s : State) : Thread.CutFrom (!s.ril.active) (s.thread t) ((cutThread t s).thread t) ∧
    ∀ k, k ≠ t → (cutThread t s).thread k = s.thread k := by
  unfold cutThread
  dsimp only
  by_cases hstay : (!(s.thread t).state.busy || (s.thread t).bank == s.ril.active) = true
  · rw [if_pos hstay]
    have hnot : (s.thread t).state.busy = true → (s.thread t).bank ≠ !s.ril.active := fun hbusy => by simp_all
    refine ⟨⟨fun hbusy hbank => absurd hbank (hnot hbusy), fun hbank hop => absurd hbank (hnot (by rw [hop]; rfl)), fun _ _ => rfl⟩, fun _ _ => rfl⟩
  · rw [if_neg hstay]
    have hbank : (s.thread t).bank = !s.ril.active := by
      simp only [Bool.or_eq_true, not_or, Bool.not_eq_true, beq_eq_false_iff_ne] at hstay
      exact Bool.eq_not_of_ne hstay.2
    by_cases hop : (s.thread t).state = .deviceOp
    · rw [if_pos hop]
      refine ⟨⟨fun _ _ hnot => absurd hop hnot, fun _ _ => ?_, fun _ hnot => absurd hbank hnot⟩, fun k hk => State.modThread_other _ _ _ _ hk⟩
      rw [State.modThread_self]
      exact ⟨hop, rfl⟩
    · rw [if_neg hop]
      obtain ⟨hfree, hother⟩ := takeTrap_thread t trapIllegal s
      exact ⟨⟨fun _ _ _ => hfree, fun _ h => absurd h hop, fun _ hnot => absurd hbank hnot⟩, hother⟩

theorem cutThread_inGrace {s r : State} {a : Activation} (t : Nat) (hswapped : a.swapped.isSome = true) (h : s.InGrace r a) :
    s.InGrace (cutThread t r) a := by
  unfold cutThread
  dsimp only
  split
  · exact h
  · split
    · exact h.modThread ..
    · exact takeTrap_inGrace t _ hswapped h

theorem cutThreads {a : Activation} {l : List Nat} {s r : State} (hl : l.Nodup) (hswapped : a.swapped.isSome = true) (h : s.InGrace r a) :
    s.InGrace (forEach l cutThread r) a ∧ (∀ t ∈ l, Thread.CutFrom (!s.ril.active) (r.thread t) ((forEach l cutThread r).thread t)) ∧
      ∀ t, t ∉ l → (forEach l cutThread r).thread t = r.thread t := by
  induction l generalizing r with
  | nil => exact ⟨h, fun _ ht => absurd ht List.not_mem_nil, fun _ _ => rfl⟩
  | cons k l ih =>
    obtain ⟨hk, hl⟩ := List.nodup_cons.mp hl
    obtain ⟨hcut, hother⟩ := cutThread_thread k r
    obtain ⟨hgrace, hcuts, hothers⟩ := ih hl (cutThread_inGrace k hswapped h)
    rw [h.active] at hcut
    refine ⟨hgrace, fun t ht => ?_, fun t ht => ?_⟩
    · obtain rfl | htl := List.mem_cons.mp ht
      · exact (hothers t hk).symm ▸ hcut
      · have hne : t ≠ k := fun heq => hk (heq ▸ htl)
        exact hother t hne ▸ hcuts t htl
    · rw [List.mem_cons, not_or] at ht
      exact (hothers t ht.2).trans (hother t ht.1)

/-- The end of the grace period (R370). -/
theorem exec_gracePeriodExpiry {a : Activation} {s : State} {d : Nat} (hrun : s.running = true) (hact : s.img.act = some a)
    (hswapped : a.swapped = some d) (hdue : d + 100000000 ≤ s.time.now) :
    ∃ r, exec .gracePeriodExpiry s = .next r ∧ (r.img.act = none ∧ r.ril.active = s.ril.active ∧ r.bank s.ril.active = s.bank s.ril.active ∧
      r.bank (!s.ril.active) = {} ∧ (r.cci (cciIndex a.cci)).background.running = false) ∧
      ∀ t, t < 32 → Thread.CutFrom (!s.ril.active) (s.thread t) (r.thread t) := by
  have hsome : a.swapped.isSome = true := by rw [hswapped]; rfl
  obtain ⟨hgrace, hcut, -⟩ := cutThreads List.nodup_range hsome (l := List.range 32) (s := s) (r := s) (a := a) ⟨rfl, rfl, .inl hact⟩
  generalize hu : forEach (List.range 32) cutThread s = u at hgrace hcut
  have hexec : exec .gracePeriodExpiry s = .next (match u.img.act with
      | some a => finishActivation a u
      | none => u) := by
    have hguard : (s.running && ((a.swapped.map fun d => decide (d + graceNs ≤ s.now)).getD false)) = true := by
      rw [hrun, hswapped]
      simp [graceNs, msNs, State.now, hdue]
    change execGracePeriodExpiry s = _
    unfold execGracePeriodExpiry
    rw [hact]
    dsimp only
    rw [if_pos hguard, hu] <;> rfl
  rw [hexec]
  refine ⟨_, rfl, ?_⟩
  obtain hon | ⟨hoff, hdone⟩ := hgrace.phase
  · rw [hon]
    have hfinish := finishActivation_finished a u
    refine ⟨hgrace.finished hfinish, fun t ht => ?_⟩
    have hthread : (finishActivation a u).thread t = u.thread t := by
      simp only [State.thread, hfinish.threads]
    dsimp only
    rw [hthread]
    exact hcut t (List.mem_range.mpr ht)
  · rw [hoff]
    exact ⟨⟨hoff, hgrace.active, hgrace.bankNew, hdone⟩, fun t ht => hcut t (List.mem_range.mpr ht)⟩

end Sys2Proof.Machine
end

section
namespace Sys2Proof.Machine

/-! #### The swap (R366 to R372) -/

theorem bindQueue_keepsPrograms (q : Nat) (entry : BitVec 19) (n : Nat) (p : Priv) (ld period : Nat) (s : State) :
    s.KeepsPrograms (bindQueue q entry n p ld period s) := modQueue_keepsPrograms ..

theorem dropBindings_keepsPrograms (p : Priv) (ld : Nat) (s : State) : s.KeepsPrograms (dropBindings p ld s) :=
  forEach_keepsPrograms _ _ (fun q s => by
    split
    · exact .refl s
    · exact .ite (modQueue_keepsPrograms ..) (.refl s)) s

theorem foldl_keepsPrograms {α : Type} (l : List α) (f : Nat × State → α → Nat × State) 
    (h : ∀ (r : Nat × State) a, r.2.KeepsPrograms (f r a).2) (r : Nat × State) :
    r.2.KeepsPrograms (l.foldl f r).2 := by
  induction l generalizing r with
  | nil => exact .refl _
  | cons a l ih => exact (h r a).trans (ih _)

theorem installBindings_keepsPrograms (p : Priv) (ld base : Nat) (queues : List Nat) (img : List Byte) (s : State) :
    s.KeepsPrograms (installBindings p ld base queues img s).2 :=
  foldl_keepsPrograms _ _ (fun r b => by
    dsimp only
    generalize (if p = .tenant then queues.getD b.queue 0 else b.queue) = q
    split
    · exact bindQueue_keepsPrograms ..
    · exact .refl _) (0, s)

/-- Only a tenant image takes queues and a hint page. -/
theorem installImage_keepsPrograms {target : Nat} (h : target ≠ 2) (ld base : Nat) (data : Bool) (queues : List Nat) (img : List Byte) (s : State) :
    s.KeepsPrograms (installImage target ld base data queues img s).2 := by
  unfold installImage
  dsimp only
  rw [if_neg h]
  refine .trans (.ite ?_ (.refl s)) (installBindings_keepsPrograms ..)
  exact ⟨rfl, rfl, rfl, rfl, rfl, rfl, rfl, rfl⟩

theorem placeImageRecord_keepsPrograms (a : Activation) (skipped : Nat) (s : State) : s.KeepsPrograms (placeImageRecord a skipped s) :=
  .ite (placeRecord_reports ..).keepsPrograms (placeAll_reports ..).keepsPrograms

/-- The directory names the image that is active now. -/
theorem recordActive_img {a : Activation} (ha : a.target < 2) (queues : List Nat) (s : State) : ∃ i,
    ({ s with img := i } : State).KeepsPrograms (recordActive a queues s) ∧
      (a.target = 0 → i.fwCopy = !s.img.fwCopy ∧ i.fwPrevious = true ∧ i.sequence = s.img.sequence + 1) := by
  obtain ⟨u, hu, j, hj, hcopy, hsequence⟩ : ∃ u, (if a.rollback then s else
      { s with img := { s.img with loads := s.img.loads.filter fun l => !sameLoad a.target a.ld l } }) = u ∧
      ∃ j, u = { s with img := j } ∧ j.fwCopy = s.img.fwCopy ∧ j.sequence = s.img.sequence := by
    refine ⟨_, rfl, ?_⟩
    split
    · exact ⟨s.img, rfl, rfl, rfl⟩
    · exact ⟨_, rfl, rfl, rfl⟩
  unfold recordActive
  dsimp only
  rw [hu, hj]
  by_cases hfirmware : a.target = 0
  · rw [if_pos hfirmware]
    exact ⟨_, .refl _, fun _ => ⟨congrArg (fun b => !b) hcopy, rfl, congrArg (· + 1) hsequence⟩⟩
  · have hoperator : a.target = 1 := by omega
    rw [if_neg hfirmware, if_pos hoperator]
    exact ⟨_, (condEnd_reports ..).keepsPrograms, fun h => absurd h hfirmware⟩

/-- A thread as the next invocation of an image finds it: a thread that ran stays as it is. -/
structure Thread.KeepsRun (u v : Thread) : Prop where
  bank : v.bank = u.bank
  busy : v.state.busy = u.state.busy
  state : u.state.busy = true → v.state = u.state

theorem Thread.KeepsRun.refl (u : Thread) : u.KeepsRun u := ⟨rfl, rfl, fun _ => rfl⟩

theorem Thread.KeepsRun.trans {u v w : Thread} (h : u.KeepsRun v) (k : v.KeepsRun w) : u.KeepsRun w :=
  ⟨k.bank.trans h.bank, k.busy.trans h.busy, fun hu => (k.state (h.busy.trans hu)).trans (h.state hu)⟩

/-- What the threads and the banks show after `freshThreads`. -/
structure State.Freshened (s r : State) : Prop where
  threads : ∀ t, (s.thread t).KeepsRun (r.thread t)
  rest : r = { s with threads := r.threads }

theorem freshThreads_freshened (target ld : Nat) (s : State) : s.Freshened (freshThreads target ld s) := by
  unfold freshThreads
  generalize List.range 32 = l
  induction l generalizing s with
  | nil => exact ⟨fun t => .refl _, rfl⟩
  | cons k l ih =>
    have h := ih (s.modThread k fun u =>
      let o := if u.scratchOwner = some (targetPriv target, if target = 2 then ld else 0) then none else u.scratchOwner
      { u with scratchOwner := o, state := if target = 0 ∧ u.state = .out then .free else u.state })
    refine ⟨fun t => .trans ?_ (h.threads t), h.rest⟩
    rw [State.modThread_at]
    by_cases ht : t = k
    · rw [if_pos ht, ht]
      refine ⟨rfl, ?_, fun hbusy => if_neg fun hout => ?_⟩
      · dsimp only
        split
        · rename_i hout
          rw [hout.2]
          rfl
        · rfl
      · rw [hout.2] at hbusy
        exact absurd hbusy (by decide)
    · rw [if_neg ht]
      exact .refl _

/-- A swapped activation before its grace period is judged. -/
structure State.Swapped (s r : State) (a : Activation) : Prop where
  active : r.ril.active = !s.ril.active
  bankNew : r.bank (!s.ril.active) = ((s.bank s.ril.active).withText a.target a.ld a.bytes).1
  bankOld : r.bank s.ril.active = s.bank s.ril.active
  act : r.img.act = some { a with swapped := some s.time.now }
  lastSwap : r.img.lastSwap = s.time.tb
  firmware : a.target = 0 → r.img.fwCopy = !s.img.fwCopy ∧ r.img.fwPrevious = true ∧ r.img.sequence = s.img.sequence + 1
  threads : ∀ t, (s.thread t).KeepsRun (r.thread t)
  dram : r.dram = s.dram
  time : r.time = s.time

/-- The active bank turns, with the image's text placed in the bank that becomes active. -/
def placeBank (bank : Bank) (s : State) : State :=
  s.modRil fun r => if r.active then { r with active := false, bank0 := bank } else { r with active := true, bank1 := bank }

/-- The activation has swapped, at the time of the state. -/
def nameSwap (a : Activation) (s : State) : State :=
  { s with img := { s.img with lastSwap := s.time.tb, act := some { a with swapped := some s.now } } }

theorem placeBank_banks (bank : Bank) (s : State) : (placeBank bank s).ril.active = (!s.ril.active) ∧
    (placeBank bank s).bank (!s.ril.active) = bank ∧ (placeBank bank s).bank s.ril.active = s.bank s.ril.active := by
  cases hactive : s.ril.active <;> simp [placeBank, State.modRil, State.bank, hactive]

/-- The stages of a swap, from the bank that is placed to the reports. -/
theorem State.Swapped.of_stages {a : Activation} {s installed recorded fresh r : State} {i : Img}
    (hinstalled : (placeBank ((s.bank s.ril.active).withText a.target a.ld a.bytes).1 s).KeepsPrograms installed)
    (hrecorded : ({ installed with img := i } : State).KeepsPrograms recorded)
    (hfirmware : a.target = 0 → i.fwCopy = !installed.img.fwCopy ∧ i.fwPrevious = true ∧ i.sequence = installed.img.sequence + 1)
    (hfresh : recorded.Freshened fresh) (hreported : (nameSwap a fresh).KeepsPrograms r) : s.Swapped r a := by
  obtain ⟨hactive, hnew, hold⟩ := placeBank_banks ((s.bank s.ril.active).withText a.target a.ld a.bytes).1 s
  have hril : fresh.ril = recorded.ril := by rw [hfresh.rest]
  have himg : fresh.img = i := (show fresh.img = recorded.img by rw [hfresh.rest]).trans hrecorded.img
  have htime : fresh.time = s.time := (show fresh.time = recorded.time by rw [hfresh.rest]).trans (hrecorded.time.trans hinstalled.time)
  have hinstalledImg : installed.img = s.img := hinstalled.img
  have hbank (b : Bool) : r.bank b = (placeBank ((s.bank s.ril.active).withText a.target a.ld a.bytes).1 s).bank b := by
    have hfreshBank : (nameSwap a fresh).bank b = recorded.bank b := by
      rw [State.bank, State.bank, show (nameSwap a fresh).ril = recorded.ril from hril]
    exact (hreported.bank b).trans (hfreshBank.trans ((hrecorded.bank b).trans (hinstalled.bank b)))
  refine ⟨?_, (hbank _).trans hnew, (hbank _).trans hold, ?_, ?_, fun hzero => ?_, fun t => ?_, ?_, hreported.time.trans htime⟩
  · exact hreported.active.trans ((congrArg Ril.active hril).trans (hrecorded.active.trans (hinstalled.active.trans hactive)))
  · rw [hreported.img, ← htime]
    rfl
  · rw [hreported.img, ← htime]
    rfl
  · obtain ⟨hcopy, hprevious, hsequence⟩ := hfirmware hzero
    rw [hinstalledImg] at hcopy hsequence
    rw [hreported.img, ← hcopy, ← hsequence, ← hprevious, ← himg]
    exact ⟨rfl, rfl, rfl⟩
  · have hthread : recorded.thread t = s.thread t := (hrecorded.thread t).trans (hinstalled.thread t)
    rw [hreported.thread, ← hthread]
    exact hfresh.threads t
  · exact hreported.dram.trans ((show fresh.dram = recorded.dram by rw [hfresh.rest]).trans (hrecorded.dram.trans hinstalled.dram))

theorem swapBank_swapped {a : Activation} (ha : a.target < 2) (s : State) : ∃ r, s.Swapped r a ∧ swapBank a s = settleGrace r := by
  have hne : a.target ≠ 2 := by omega
  have hof {installed recorded fresh r : State} {i : Img} := State.Swapped.of_stages (a := a) (s := s) (installed := installed)
    (recorded := recorded) (fresh := fresh) (r := r) (i := i)
  have hinstall (base : Nat) (queues : List Nat) (t : State) : t.KeepsPrograms (installImage a.target a.ld base (!a.rollback) queues a.bytes
    (dropBindings (targetPriv a.target) a.ld t)).2 := (dropBindings_keepsPrograms ..).trans (installImage_keepsPrograms hne ..)
  have hrecord := recordActive_img ha
  have hfresh := freshThreads_freshened a.target a.ld
  have hreport := placeImageRecord_keepsPrograms a
  unfold swapBank
  -- The stages' own definitions play no part from here on.
  generalize (if a.target = 2 then s.queuesFor a.ld (claimed a.bytes) else []) = queues
  generalize (s.bank s.ril.active).withText a.target a.ld a.bytes = text at hof ⊢
  generalize dropBindings (targetPriv a.target) a.ld = drop at hinstall ⊢
  generalize installImage a.target a.ld = install at hinstall ⊢
  generalize recordActive a = record at hrecord ⊢
  generalize freshThreads a.target a.ld = freshen at hfresh ⊢
  generalize placeImageRecord a = report at hreport ⊢
  obtain ⟨bank, base⟩ := text
  obtain ⟨i, hrecorded, hfirmware⟩ := hrecord queues (install base (!a.rollback) queues a.bytes (drop (placeBank bank s))).2
  refine ⟨_, ?_, rfl⟩
  exact hof (hinstall base queues (placeBank bank s)) hrecorded hfirmware (hfresh _) ((hreport ..).trans (postDevice_keepsPrograms ..))

/-- The swap (R366 to R372). -/
theorem exec_activationSwap {a : Activation} {s : State} (hrun : s.running = true) (hact : s.img.act = some a) (hawake : s.power.dozing = false)
    (hnone : a.swapped = none) (ha : a.target < 2) :
    ∃ u, s.Swapped u a ∧ exec .activationSwap s = .next (settleGrace u) := by
  obtain ⟨u, hu, hswap⟩ := swapBank_swapped ha s
  refine ⟨u, hu, ?_⟩
  change execActivationSwap s = _
  unfold execActivationSwap
  rw [hact]
  dsimp only
  rw [if_pos (by simp [hrun, hawake, hnone]), hswap]

theorem State.Swapped.graceOver_iff {a : Activation} {s u : State} (h : s.Swapped u a) :
    u.graceOver = true ↔ ¬∃ t, t < 32 ∧ (s.thread t).state.busy = true ∧ (s.thread t).bank = s.ril.active := by
  rw [Machine.graceOver_iff]
  simp only [h.active, Bool.not_not, (h.threads _).bank, (h.threads _).busy]

/-- The first operator key is stored over a session of version 1.3 of the MCTP interface (R358). -/
theorem exec_opkeyEnrol {key : List Byte} {s : State} (hlive : s.cciLive .mctp = true) (hestablished : (s.cci 256).spdm.established = true)
    (hversion : (s.cci 256).spdm.version13 = true) (hnone : s.img.opKey = none) (hlen : key.length = 96) :
    exec (.opkeyEnrol .mctp 208 1 key true) s = .next { s with
      img := { s.img with opKey := some key, keyCounter := 1, writes := s.img.writes + 1 }, out := .spdm .mctp (keyBody 0x10 0 0 0) :: s.out } := by
  change execOpkeyEnrol .mctp 208 1 key true s = _
  have hindex : cciIndex .mctp = 256 := rfl
  unfold execOpkeyEnrol
  dsimp only
  rw [hindex, if_neg (by simp [hlive]), if_neg (by simp [hestablished, hversion, hnone]), if_neg (by simp [hlen]), if_neg (by simp [hnone])]
  rfl

/-- Settles O39. -/
theorem imagesAreLoadedActivatedAndSwapped : Obligations.ImagesAreLoadedActivatedAndSwapped := by
  unfold Obligations.ImagesAreLoadedActivatedAndSwapped
  refine ⟨?load, ?activate, ?swap, ?key⟩
  case load =>
    intro cci op off total len chunk sigOk s hserves t c reply loaded hmay hfree hchunk hlen hbuffer htotal hoff
    have hloaded {r : State} {old : List Byte} (h : s.TookChunk r cci op total.toNat (old ++ chunk) sigOk) : loaded r old :=
      ⟨h.reply, h.copy, h.load⟩
    refine ⟨fun hzero hnone => ?_, fun l hne hload hcci hstate hbytes hsize => ?_⟩
    · refine exec_loadRiliaImage hserves hmay hchunk hlen hbuffer htotal hoff fun u hu => hloaded (hu.tookChunk ?_)
      have himg : u.img = s.img := by rw [hu.rest]
      have hfirst := loadChunk_first (cci := cci) (op := op) (total := total.toNat) (chunk := chunk) (sigOk := sigOk) (s := u)
        (by rw [State.activating, himg]; exact hfree) (by rw [State.loadOf, himg]; exact hnone)
      rw [hzero]
      exact hfirst
    · refine exec_loadRiliaImage hserves hmay hchunk hlen hbuffer htotal hoff fun u hu => hloaded (hu.tookChunk ?_)
      have himg : u.img = s.img := by rw [hu.rest]
      have hoff : off.toNat ≠ 0 := fun h => hne (BitVec.eq_of_toNat_eq h)
      exact loadChunk_next (by rw [State.activating, himg]; exact hfree) hoff (by rw [State.loadOf, himg]; exact hload) hcci hstate hbytes hsize
  case activate =>
    intro cci op l s hserves t hmay hload hstate hact hidle
    exact exec_activateRiliaImage hserves hmay hload hstate hact hidle
  case swap =>
    intro a s hrun hact old busyOld
    refine ⟨fun hawake hnone ha => ?_, fun d hswapped hdue => ?_⟩
    · obtain ⟨u, hu, hexec⟩ := exec_activationSwap hrun hact hawake hnone ha
      have hover := hu.graceOver_iff
      rw [settleGrace_swapped hu.act rfl] at hexec
      by_cases hold : ∃ t, busyOld s t
      · rw [if_neg (fun h => hover.mp h hold)] at hexec
        exact ⟨u, hexec, hu.active, hu.bankNew, hu.lastSwap, fun h => (hu.firmware h).1, fun t h => ⟨(hu.threads t).state h, (hu.threads t).bank⟩,
          fun _ => ⟨hu.act, hu.bankOld, fun h => (hu.firmware h).2⟩, fun h => absurd hold h, hu.dram, hu.time⟩
      · rw [if_pos (hover.mpr hold)] at hexec
        have hdone := finishActivation_finished { a with swapped := some s.time.now } u
        obtain ⟨i, himg, hnoAct, hlast, hcopy⟩ := hdone.img
        have hthread (t : Nat) : (finishActivation { a with swapped := some s.time.now } u).thread t = u.thread t := by
          simp only [State.thread, hdone.threads]
        have hnew := hdone.bankNew
        have hempty := hdone.bankOld
        rw [hu.active] at hnew hempty
        rw [Bool.not_not] at hempty
        refine ⟨_, hexec, hdone.active.trans hu.active, hnew.trans hu.bankNew, ?_, fun h => ?_, fun t h => ?_, fun h => absurd h hold,
          fun _ => ⟨?_, hempty⟩, hdone.dram.trans hu.dram, hdone.time.trans hu.time⟩
        · rw [himg, hlast, hu.lastSwap]
        · rw [himg, hcopy, (hu.firmware h).1]
        · rw [hthread]
          exact ⟨(hu.threads t).state h, (hu.threads t).bank⟩
        · rw [himg, hnoAct]
    · obtain ⟨r, hexec, ⟨hnoAct, hactive, hnew, hempty, hdone⟩, hcut⟩ := exec_gracePeriodExpiry hrun hact hswapped hdue
      refine ⟨r, hexec, hnoAct, hactive, hempty, hnew, hdone, fun t ht => ⟨fun hbusy hbank => ⟨fun hop => ?_, fun hop => ?_⟩, fun hbusy hbank => ?_⟩⟩
      · exact (hcut t ht).ends hbusy (Bool.eq_not_of_ne hbank) hop
      · exact (hcut t ht).cut (Bool.eq_not_of_ne hbank) hop
      · exact (hcut t ht).stays hbusy (by rw [hbank]; exact (Bool.not_ne_self _).symm)
  case key =>
    intro key s p hlive hestablished hversion hnone hlen
    exact ⟨_, exec_opkeyEnrol hlive hestablished hversion hnone hlen⟩

end Sys2Proof.Machine
end

section
namespace Sys2Proof.Machine

/-! ### Evacuation and restore of channels (R103, R197 to R201) -/

/-! #### What leaves the channels as they are -/

theorem State.Accounts.chans {s r : State} (h : s.Accounts r) : r.chans = s.chans := by rw [h.rest]

theorem State.Reports.chans {s r : State} (h : s.Reports r) : r.chans = s.chans := by rw [h.rest]

theorem chan_of_chans {s r : State} (h : r.chans = s.chans) (c : Nat) : r.chan c = s.chan c := by rw [State.chan, State.chan, h]

theorem forEach_chans {α : Type} (l : List α) (f : α → State → State) (h : ∀ a s, (f a s).chans = s.chans) (s : State) :
    (forEach l f s).chans = s.chans := by
  induction l generalizing s with
  | nil => rfl
  | cons a l ih => exact (ih _).trans (h a s)

theorem ite_chans {p : Prop} [Decidable p] {s r q : State} (h : r.chans = s.chans) (k : q.chans = s.chans) :
    (if p then r else q).chans = s.chans := by
  split
  · exact h
  · exact k

theorem postDevice_chans (q : Nat) (a b c d : Word) (s : State) : (postDevice q a b c d s).chans = s.chans := by rw [postDevice_rest]

theorem updateCapacity_chans (s : State) : (updateCapacity s).chans = s.chans := (updateCapacity_accounts s).chans

theorem capacityFell_chans (s : State) : (capacityFell s).chans = s.chans := by
  refine ite_chans ?_ (updateCapacity_chans s)
  exact (updateCapacity_chans _).trans (condStart_reports 66 _ (by decide)).chans

theorem recomputeDelivery_chans (s : State) : (recomputeDelivery s).chans = s.chans := by
  unfold recomputeDelivery
  exact (condSet_reports 68 _ _ (by decide)).chans

theorem freeStorage_chans (l n : Nat) (s : State) : (freeStorage l n s).chans = s.chans := by
  unfold freeStorage
  refine ite_chans rfl ?_
  split
  · rfl
  · rfl

theorem sendFarFree_chans (d i p : Nat) (s : State) : (sendFarFree d i p s).chans = s.chans :=
  ite_chans (openTxn_reports ..).chans rfl

theorem closeComet_chans (t : Nat) (l : List Nat) (s : State) : (closeComet t l s).chans = s.chans := by
  unfold closeComet
  split
  · rfl
  · rfl

theorem mwaitDone_chans (t code : Nat) (s : State) : (mwaitDone t code s).chans = s.chans := closeComet_chans ..

theorem completeTicket_chans (t : BitVec 16) (code : Nat) (s : State) : (completeTicket t code s).chans = s.chans := by
  unfold completeTicket
  split
  · rfl
  · refine (forEach_chans _ _ (fun _ _ => mwaitDone_chans ..) _).trans ?_
    split
    · exact postDevice_chans ..
    · rfl

theorem finishOp_chans (q : Nat) (op : MoverOp) (t : Option (BitVec 16)) (code : Nat) (s : State) : (finishOp q op t code s).chans = s.chans := by
  have hcount (u : State) : (if code = 6 then fireEvent 782 u else u).chans = u.chans :=
    ite_chans (fireEvent_reports 782 _ (by decide)).chans rfl
  unfold finishOp
  cases t with
  | none => exact hcount _
  | some t => exact (completeTicket_chans ..).trans (hcount _)

theorem endRecord_chans (q : Nat) (r : MoverRec) (code : Nat) (s : State) : (endRecord q r code s).chans = s.chans := by
  have hstorage (u : State) : (match r.op with
      | .demote g => sendFarFree g (locRemote r.dstLoc) r.dlpn u
      | _ => freeStorage (locLine r.dstLoc) r.dstSlots u).chans = u.chans := by
    split
    · exact sendFarFree_chans ..
    · exact freeStorage_chans ..
  have hrelease (u : State) : (releaseM r.inM u).chans = u.chans := ite_chans rfl (updateCapacity_chans _)
  have hlock (u : State) (x : Desc) : (if r.phase = .claim then u else if x.state = .moving then
      setDesc r.dlpn { x with state := stateOf r.srcState, lock := false } u else setLock r.dlpn false u).chans = u.chans :=
    ite_chans rfl (ite_chans rfl rfl)
  unfold endRecord
  refine (finishOp_chans ..).trans ?_
  refine (hlock _ _).trans ?_
  refine (hrelease _).trans ?_
  exact ite_chans (hstorage _) rfl

theorem abortMove_chans (d : Nat) (s : State) : (abortMove d s).chans = s.chans := by
  unfold abortMove
  split
  · exact endRecord_chans ..
  · rfl

theorem channelLeft_chans (c : Nat) (s : State) : (channelLeft c s).chans = s.chans :=
  (forEach_chans _ _ (fun _ _ => abortMove_chans ..) _).trans ((recomputeDelivery_chans _).trans (capacityFell_chans s))

/-! #### Requests, queries and cancels -/

/-- An accepted evacuation: the channel is EVACUATING, and nothing else of it changes. -/
theorem acceptEvac_chan (c : Nat) (force slotsOff retire : Bool) (queue : Option Nat) (s : State) :
    (acceptEvac c force slotsOff retire queue s).chan c = { s.chan c with
      state := .evacuating, evac := some { force, slotsOff, retire, total := 4096 * s.framesUsed c, queue } } := by
  unfold acceptEvac
  rw [chan_of_chans (channelLeft_chans ..), State.modChan_self]

/-- A cancelled evacuation ends once no claimed move is left. -/
theorem finishCancel_chan {c : Nat} {v : Evac} {s : State} (h : (s.chan c).evac = some v) (hcancelled : v.cancelled = true) :
    (finishCancel c s).chan c = if s.evacRecords c = [] then { s.chan c with state := .active, evac := none } else s.chan c := by
  unfold finishCancel
  rw [h]
  dsimp only
  by_cases hidle : s.evacRecords c = []
  · rw [if_pos (by simp [hcancelled, hidle]), if_pos hidle]
    split
    · rw [chan_of_chans (postDevice_chans ..), chan_of_chans (recomputeDelivery_chans ..), chan_of_chans (updateCapacity_chans ..), State.modChan_self]
    · rw [chan_of_chans (recomputeDelivery_chans ..), chan_of_chans (updateCapacity_chans ..), State.modChan_self]
  · rw [if_neg (by simp [hidle]), if_neg hidle]

theorem cancelEvac_chan {c : Nat} {v : Evac} {s : State} (hstate : (s.chan c).state = .evacuating) (hevac : (s.chan c).evac = some v) :
    (cancelEvac c s).1 = 5 ∧ (cancelEvac c s).2.chan c =
      if s.evacRecords c = [] then { s.chan c with state := .active, evac := none } else { s.chan c with evac := some { v with cancelled := true } } := by
  let t := s.modChan c fun h => { h with evac := h.evac.map fun v => { v with cancelled := true } }
  have ht : t.chan c = { s.chan c with evac := some { v with cancelled := true } } := by
    rw [State.modChan_self, hevac]
    rfl
  have hcancel : cancelEvac c s = (5, finishCancel c t) := if_pos hstate
  have hfinish := finishCancel_chan (c := c) (v := { v with cancelled := true }) (s := t) (by rw [ht]) rfl
  rw [hcancel]
  refine ⟨rfl, ?_⟩
  rw [hfinish, ht]
  rfl

section
variable {cci : Cci} {s : State} {cb : BitVec 8} (hserves : s.serves cci) (hmgmt : s.permits cci .mgmt = true)
include hserves hmgmt

theorem exec_channelEvacuate_invalid {action flags : BitVec 8} (hbad : 23 < cb.toNat ∨ 2 < action.toNat) :
    ∃ r, exec (.channelEvacuate cci 4 cb action flags) s = .next r ∧ s.answered r cci .invalidInput [] :=
  command_reports hserves (badLength_fixed cci) rfl rfl hmgmt fun t ht => if_pos hbad

theorem exec_channelRestore_invalid (hbad : 23 < cb.toNat) :
    ∃ r, exec (.channelRestore cci 4 cb) s = .next r ∧ s.answered r cci .invalidInput [] :=
  command_reports hserves (badLength_fixed cci) rfl rfl hmgmt fun t ht => if_pos hbad

end

theorem State.Posts.modChan {s t : State} (h : s.Posts t) (c : Nat) (f : Chan → Chan) : (s.modChan c f).Posts (t.modChan c f) := by
  refine ⟨?_, h.others⟩
  obtain ⟨q, c, n, m, rfl⟩ := h.exists_eq
  rfl

theorem State.Posts.takeFree {s t : State} (h : s.Posts t) : s.takeFree.Posts t.takeFree := by
  refine ⟨?_, h.others⟩
  obtain ⟨q, c, n, m, rfl⟩ := h.exists_eq
  rfl

/-- Posting a command shows in no part of the state that evacuation looks at. -/
theorem State.Posts.evac {s t : State} (h : s.Posts t) (c : Nat) : t.chan c = s.chan c ∧ t.evacCode c false = s.evacCode c false ∧
    t.evacLeft c = s.evacLeft c ∧ t.evacRecords c = s.evacRecords c ∧ t.framesUsed c = s.framesUsed c ∧ t.restoreCode c = s.restoreCode c := by
  rw [h.rest]
  exact ⟨rfl, rfl, rfl, rfl, rfl, rfl⟩

/-- What Channel Evacuate does with a valid channel and action: the outcome and the state. -/
def evacAction (c : Nat) (action flags : BitVec 8) (s : State) : Nat × State :=
  if action = 0 then requestEvac c (flags.getLsbD 0) s else if action = 1 then (s.evacOutcome c, s.takeFree)
  else
    let (code, s) := cancelEvac c s
    (code, s.modChan c fun h => { h with evacLast := some code })

theorem evacLeft_evacLast (c k : Nat) (s : State) : (s.modChan c fun h => { h with evacLast := some k }).evacLeft c = s.evacLeft c := by
  rw [State.evacLeft, State.evacLeft, State.modChan_self]
  rfl

theorem evacAction_refused {c : Nat} {flags : BitVec 8} {s : State} (hcode : s.evacCode c false ≠ 0) :
    evacAction c 0 flags s = (s.evacCode c false, s.modChan c fun h => { h with evacLast := some (s.evacCode c false) }) :=
  if_neg hcode

theorem evacAction_accepted {c : Nat} {flags : BitVec 8} {s : State} (hcode : s.evacCode c false = 0) :
    evacAction c 0 flags s = (0, acceptEvac c false (flags.getLsbD 0) false none s) :=
  if_pos hcode

/-- A cancel of an evacuation, and one of a channel that is not evacuating. -/
theorem evacAction_cancel (c : Nat) (flags : BitVec 8) (s : State) : evacAction c 2 flags s =
    ((cancelEvac c s).1, (cancelEvac c s).2.modChan c fun h => { h with evacLast := some (cancelEvac c s).1 }) := rfl

theorem cancelEvac_refused {c : Nat} {s : State} (h : (s.chan c).state ≠ .evacuating) : cancelEvac c s = (3, s) := if_neg h

section
variable {cci : Cci} {s : State} {cb flags action : BitVec 8} (hserves : s.serves cci) (hmgmt : s.permits cci .mgmt = true)
  (hc : cb.toNat ≤ 23)
include hserves hmgmt hc

/-- What the action makes true of every state that differs in the posting of the command holds after it. -/
theorem channelEvacuate_leads {P : State → List Byte → Prop} (haction : action.toNat ≤ 2)
    (hanswer : ∀ r w, P r w → P (answer cci .success w r) w)
    (hrun : ∀ t, s.Posts t → let x := evacAction cb.toNat action flags t
      P x.2 (evacReply cb.toNat x.1 (x.2.evacLeft cb.toNat))) :
    ∃ r w, exec (.channelEvacuate cci 4 cb action flags) s = .next r ∧ r.out.head? = some (.command cci .success w) ∧ P r w := by
  have hvalid : ¬(23 < cb.toNat ∨ 2 < action.toNat) := by omega
  obtain ⟨r, hexec, w, hout, hP⟩ := command_leads (opcode := 0xC011) (P := fun r => ∃ w, r.out.head? = some (.command cci .success w) ∧ P r w)
    (run := fun s => if 23 < cb.toNat ∨ 2 < action.toNat then answer cci .invalidInput [] s
      else answer cci .success (evacReply cb.toNat (evacAction cb.toNat action flags s).1 ((evacAction cb.toNat action flags s).2.evacLeft cb.toNat))
        (evacAction cb.toNat action flags s).2)
    hserves (badLength_fixed (n := 4) cci) rfl rfl hmgmt fun t ht => by
      rw [if_neg hvalid]
      exact ⟨_, rfl, hanswer _ _ (hrun t ht)⟩
  exact ⟨r, w, hexec, hout, hP⟩

/-- An action that gives one outcome, and one state but for the posting of the command. -/
theorem channelEvacuate_answers {u : State} {k : Nat} (haction : action.toNat ≤ 2)
    (hrun : ∀ t, s.Posts t → (evacAction cb.toNat action flags t).1 = k ∧ u.Posts (evacAction cb.toNat action flags t).2) :
    ∃ r, exec (.channelEvacuate cci 4 cb action flags) s = .next r ∧
      u.answered r cci .success (evacReply cb.toNat k (u.evacLeft cb.toNat)) := by
  have hvalid : ¬(23 < cb.toNat ∨ 2 < action.toNat) := by omega
  exact command_answers hserves (badLength_fixed cci) rfl rfl hmgmt fun t ht => ⟨_, (hrun t ht).2, by
    obtain ⟨hk, hu⟩ := hrun t ht
    rw [← (hu.evac cb.toNat).2.2.1, ← hk]
    exact if_neg hvalid⟩

theorem exec_channelEvacuate_refused (hcode : s.evacCode cb.toNat false ≠ 0) :
    ∃ r, exec (.channelEvacuate cci 4 cb 0 flags) s = .next r ∧
      (s.modChan cb.toNat fun h => { h with evacLast := some (s.evacCode cb.toNat false) }).answered r cci .success
        (evacReply cb.toNat (s.evacCode cb.toNat false) (s.evacLeft cb.toNat)) := by
  rw [← evacLeft_evacLast cb.toNat (s.evacCode cb.toNat false) s]
  refine channelEvacuate_answers hserves hmgmt hc (by decide) fun t ht => ?_
  have htcode := (ht.evac cb.toNat).2.1
  rw [evacAction_refused (by rw [htcode]; exact hcode), htcode]
  exact ⟨rfl, ht.modChan ..⟩

theorem exec_channelEvacuate_accepted (hcode : s.evacCode cb.toNat false = 0) :
    ∃ r w, exec (.channelEvacuate cci 4 cb 0 flags) s = .next r ∧ r.out.head? = some (.command cci .success w) ∧
      w = evacReply cb.toNat 0 (r.evacLeft cb.toNat) ∧ (r.chan cb.toNat).state = .evacuating ∧
      (r.chan cb.toNat).evac = some { slotsOff := flags.getLsbD 0, total := 4096 * s.framesUsed cb.toNat } := by
  refine channelEvacuate_leads hserves hmgmt hc (P := fun r w => w = evacReply cb.toNat 0 (r.evacLeft cb.toNat) ∧
    (r.chan cb.toNat).state = .evacuating ∧ (r.chan cb.toNat).evac = some { slotsOff := flags.getLsbD 0, total := 4096 * s.framesUsed cb.toNat })
    (by decide) (fun _ _ h => h) fun t ht => ?_
  obtain ⟨-, htcode, -, -, htframes, -⟩ := ht.evac cb.toNat
  rw [evacAction_accepted (htcode.trans hcode)]
  dsimp only
  rw [acceptEvac_chan, htframes]
  exact ⟨rfl, rfl, rfl⟩

theorem exec_channelEvacuate_query {k : Nat} (hk : ∀ t, s.Posts t → t.evacOutcome cb.toNat = k) :
    ∃ r, exec (.channelEvacuate cci 4 cb 1 flags) s = .next r ∧
      s.takeFree.answered r cci .success (evacReply cb.toNat k (s.evacLeft cb.toNat)) :=
  channelEvacuate_answers hserves hmgmt hc (by decide) fun t ht => ⟨hk t ht, ht.takeFree⟩

theorem exec_channelEvacuate_noCancel (hstate : (s.chan cb.toNat).state ≠ .evacuating) :
    ∃ r, exec (.channelEvacuate cci 4 cb 2 flags) s = .next r ∧
      (s.modChan cb.toNat fun h => { h with evacLast := some 3 }).answered r cci .success (evacReply cb.toNat 3 (s.evacLeft cb.toNat)) := by
  rw [← evacLeft_evacLast cb.toNat 3 s]
  refine channelEvacuate_answers hserves hmgmt hc (by decide) fun t ht => ?_
  rw [evacAction_cancel, cancelEvac_refused (by rw [(ht.evac cb.toNat).1]; exact hstate)]
  exact ⟨rfl, ht.modChan ..⟩

theorem exec_channelEvacuate_cancel {v : Evac} (hstate : (s.chan cb.toNat).state = .evacuating) (hevac : (s.chan cb.toNat).evac = some v) :
    ∃ r w, exec (.channelEvacuate cci 4 cb 2 flags) s = .next r ∧ r.out.head? = some (.command cci .success w) ∧
      w = evacReply cb.toNat 5 (r.evacLeft cb.toNat) ∧
      if s.evacRecords cb.toNat = [] then (r.chan cb.toNat).state = .active ∧ (r.chan cb.toNat).evac = none
      else (r.chan cb.toNat).state = .evacuating ∧ (r.chan cb.toNat).evac = some { v with cancelled := true } := by
  refine channelEvacuate_leads hserves hmgmt hc (P := fun r w => w = evacReply cb.toNat 5 (r.evacLeft cb.toNat) ∧
    if s.evacRecords cb.toNat = [] then (r.chan cb.toNat).state = .active ∧ (r.chan cb.toNat).evac = none
    else (r.chan cb.toNat).state = .evacuating ∧ (r.chan cb.toNat).evac = some { v with cancelled := true })
    (by decide) (fun _ _ h => h) fun t ht => ?_
  obtain ⟨htchan, -, -, htrecords, -⟩ := ht.evac cb.toNat
  obtain ⟨hcode, hchan⟩ := cancelEvac_chan (s := t) (by rw [htchan]; exact hstate) (by rw [htchan]; exact hevac)
  rw [htrecords, htchan] at hchan
  rw [evacAction_cancel, hcode]
  refine ⟨rfl, ?_⟩
  rw [State.modChan_self, hchan]
  split
  · exact ⟨rfl, rfl⟩
  · exact ⟨hstate, rfl⟩

end

theorem evacOutcome_running {c : Nat} {s : State} (h : (s.chan c).evac ≠ none) : s.evacOutcome c = 0 := by
  rw [State.evacOutcome, if_pos (Option.isSome_iff_ne_none.mpr h)]

theorem evacOutcome_done {c : Nat} {s : State} (h : (s.chan c).evac = none) (hstate : (s.chan c).state = .evacuated ∨ (s.chan c).state = .retired) :
    s.evacOutcome c = 1 := by
  rw [State.evacOutcome, h, if_neg (by simp), if_pos hstate]

theorem evacOutcome_last {c k : Nat} {s : State} (h : (s.chan c).evac = none) (hevacuated : (s.chan c).state ≠ .evacuated)
    (hretired : (s.chan c).state ≠ .retired) (hlast : (s.chan c).evacLast = some k) : s.evacOutcome c = k := by
  rw [State.evacOutcome, h, if_neg (by simp), if_neg (by simp [hevacuated, hretired]), hlast]
  rfl

end Sys2Proof.Machine
end

section
namespace Sys2Proof.Machine

/-! #### Channel Restore (R103, R201) -/

/-- Leaving P3 changes domains, and the channel whose registers it may lose. -/
theorem leaveP3_slots (i c : Nat) (f : State → Chan → Chan) (s : State) :
    (leaveP3 i (fun s => s.modChan c (f s)) s).slots = s.slots ∧ (leaveP3 i (fun s => s.modChan c (f s)) s).slotMgr = s.slotMgr := by
  unfold leaveP3
  split
  · exact ⟨rfl, rfl⟩
  · split
    · split <;> exact ⟨rfl, rfl⟩
    · exact ⟨rfl, rfl⟩

/-- A restored channel is UNTRAINED with nothing in use on it, and its occupied slots that are OFF wait for power. -/
theorem startRestore_restored (c : Nat) (s : State) : let r := startRestore c s
    ((r.chan c).state = .untrained ∧ (r.chan c).usable = 0 ∧ (r.chan c).frontier = 0 ∧ (r.chan c).train = { restore := true }) ∧ r.alloc c = {} ∧
      ∀ k ∈ s.presentSlots c, (s.slot (2 * c + k)).state = .off → (2 * c + k) ∈ r.slotMgr.queue ∨ s.slotWaits (2 * c + k) = true := by
  unfold startRestore
  dsimp only
  obtain ⟨hslots, hmgr⟩ := leaveP3_slots (4 + c) c (fun s => Chan.lost s.ident.variant) s
  generalize leaveP3 (4 + c) (fun s => s.modChan c (Chan.lost s.ident.variant)) s = u at hslots hmgr ⊢
  have hended (t : State) : t.Reports (condEnd (srcChannel c 9) (condEnd (srcChannel c 10) t)) := (condEnd_reports ..).trans (condEnd_reports ..)
  generalize hv : u.modChan c (fun h =>
    { h with state := .untrained, cause := 0, usable := 0, speed := 0, frontier := 0, unreadable := false, retirePending := none
             train := { restore := true } }) = v
  have hvchan : (v.chan c).state = .untrained ∧ (v.chan c).usable = 0 ∧ (v.chan c).frontier = 0 ∧ (v.chan c).train = { restore := true } := by
    rw [← hv, State.modChan_self]
    exact ⟨rfl, rfl, rfl, rfl⟩
  have hvslots : v.slots = s.slots := by rw [← hv]; exact hslots
  have hvmgr : v.slotMgr = s.slotMgr := by rw [← hv]; exact hmgr
  have hreports := hended v
  generalize condEnd (srcChannel c 9) (condEnd (srcChannel c 10) v) = w at hreports ⊢
  have hwslots (n : Nat) : w.slot n = s.slot n := by rw [State.slot, State.slot, ← hvslots, hreports.rest]
  have hwmgr : w.slotMgr = s.slotMgr := by rw [← hvmgr, hreports.rest]
  refine ⟨?_, w.modAlloc_self c fun _ => {}, fun k hk hoff => ?_⟩
  · have hchan : (requestSlots ((w.presentSlots c).map fun k => 2 * c + k) (w.modAlloc c fun _ => {})).chan c = v.chan c :=
      chan_of_chans (s := v) hreports.chans c
    rw [hchan]
    exact hvchan
  · by_cases hwaits : s.slotWaits (2 * c + k) = true
    · exact .inr hwaits
    · have hpresent : w.presentSlots c = s.presentSlots c := by simp only [State.presentSlots, hwslots]
      have hprsnt : (s.slot (2 * c + k)).prsnt = true := (List.mem_filter.mp hk).2
      refine .inl (List.mem_append_right _ (List.mem_filter.mpr ⟨List.mem_map.mpr ⟨k, hpresent ▸ hk, rfl⟩, ?_⟩))
      have hqueue : (w.modAlloc c fun _ => {}).slotWaits (2 * c + k) = s.slotWaits (2 * c + k) := by
        rw [State.slotWaits, State.slotWaits, ← hwmgr]
        rfl
      rw [hqueue, State.modAlloc_at_slot, hwslots]
      simp [hoff, hprsnt, hwaits]

section
variable {cci : Cci} {s : State} {cb : BitVec 8} (hserves : s.serves cci) (hmgmt : s.permits cci .mgmt = true) (hc : cb.toNat ≤ 23)
include hserves hmgmt hc

theorem exec_channelRestore_refused (hcode : s.restoreCode cb.toNat ≠ 0) :
    ∃ r, exec (.channelRestore cci 4 cb) s = .next r ∧
      s.answered r cci .success (leBytes 1 cb.toNat ++ leBytes 1 (s.restoreCode cb.toNat) ++ leBytes 6 0) :=
  command_reports hserves (badLength_fixed cci) rfl rfl hmgmt fun t ht => by
    have htcode := (ht.evac cb.toNat).2.2.2.2.2
    refine (if_neg (by omega)).trans ?_
    dsimp only
    rw [htcode, if_neg hcode]

theorem exec_channelRestore (hcode : s.restoreCode cb.toNat = 0) : let c := cb.toNat
    ∃ r w, exec (.channelRestore cci 4 cb) s = .next r ∧ r.out.head? = some (.command cci .success w) ∧
      w = leBytes 1 c ++ leBytes 1 (s.restoreCode c) ++ leBytes 6 0 ∧
      ((r.chan c).state = .untrained ∧ (r.chan c).usable = 0 ∧ (r.chan c).frontier = 0 ∧ (r.chan c).train = { restore := true }) ∧ r.alloc c = {} ∧
      ∀ k ∈ s.presentSlots c, (s.slot (2 * c + k)).state = .off → (2 * c + k) ∈ r.slotMgr.queue ∨ s.slotWaits (2 * c + k) = true := by
  intro c
  have hnot : ¬23 < c := by omega
  obtain ⟨r, hexec, hout, hrestored⟩ := command_leads (opcode := 0xC012) (P := fun r =>
    r.out.head? = some (.command cci .success (leBytes 1 c ++ leBytes 1 (s.restoreCode c) ++ leBytes 6 0)) ∧
      ((r.chan c).state = .untrained ∧ (r.chan c).usable = 0 ∧ (r.chan c).frontier = 0 ∧ (r.chan c).train = { restore := true }) ∧ r.alloc c = {} ∧
      ∀ k ∈ s.presentSlots c, (s.slot (2 * c + k)).state = .off → (2 * c + k) ∈ r.slotMgr.queue ∨ s.slotWaits (2 * c + k) = true)
    (run := fun s => if 23 < c then answer cci .invalidInput [] s
      else answer cci .success (leBytes 1 c ++ leBytes 1 (s.restoreCode c) ++ leBytes 6 0) (if s.restoreCode c = 0 then startRestore c s else s))
    hserves (badLength_fixed (n := 4) cci) rfl rfl hmgmt fun t ht => by
      have htcode : t.restoreCode c = s.restoreCode c := (ht.evac c).2.2.2.2.2
      have hrestored := startRestore_restored c t
      have hpresent : t.presentSlots c = s.presentSlots c := by rw [ht.rest]; rfl
      have hslot (n : Nat) : t.slot n = s.slot n ∧ t.slotWaits n = s.slotWaits n := by rw [ht.rest]; exact ⟨rfl, rfl⟩
      simp only [hpresent, hslot] at hrestored
      rw [if_neg hnot, htcode, if_pos hcode]
      exact ⟨rfl, hrestored⟩
  exact ⟨r, _, hexec, hout, rfl, hrestored⟩

end

/-! #### Structures of an evacuating channel (R198) -/

theorem mem_of_smallest {l : List Nat} {x : Nat} (h : smallest l = some x) : x ∈ l := by
  cases l with
  | nil => simp [smallest] at h
  | cons y t =>
    simp only [smallest, Option.some.injEq] at h
    subst h
    induction t generalizing y with
    | nil => simp
    | cons z t ih =>
      rw [List.foldl_cons]
      have hmem := ih (min y z)
      rw [List.mem_cons] at hmem
      obtain heq | hmem := hmem
      · rw [heq]
        rcases min_choice y z with hy | hz
        · simp [hy]
        · simp [hz]
      · exact List.mem_cons_of_mem _ (List.mem_cons_of_mem _ hmem)

/-- A run of frames that a slot holds lies below the end of the channel's frame numbers. -/
theorem lowestRun_lt {s : State} {d n align b : Nat} (h : s.lowestRun d n align (2 ^ 26) = some b) : b + n ≤ 2 ^ 27 := by
  unfold State.lowestRun at h
  dsimp only at h
  split at h
  · exact absurd h (by simp)
  · have hmem := (List.mem_filter.mp (mem_of_smallest h)).2
    simp only [Bool.and_eq_true, decide_eq_true_eq, Chan.framesBelow, frameSlot] at hmem
    obtain ⟨⟨⟨-, hregion⟩, -⟩, ⟨hslot, -⟩, -⟩ := hmem
    have hslot := of_decide_eq_true hslot
    omega

/-- What `moveMegas` puts into the allocation of the new channel. -/
theorem useMegas {d b n : Nat} (u : MegaUse) (hb : b + n ≤ 2 ^ 19) {l : List Nat} (hl : ∀ i ∈ l, i < n) (s : State) :
    let r := forEach l (fun i => useMega (d * 2 ^ 19 + b + i) (some u)) s
    (∀ k, k ∈ l ∨ Tab.get none (s.alloc d).megas (b + k) = some u → Tab.get none (r.alloc d).megas (b + k) = some u) ∧
      (∀ c, c ≠ d → r.alloc c = s.alloc c) ∧ r = { s with allocs := r.allocs } := by
  induction l generalizing s with
  | nil => exact ⟨fun k hk => hk.resolve_left List.not_mem_nil, fun _ _ => rfl, rfl⟩
  | cons i l ih =>
    have hi : i < n := hl i List.mem_cons_self
    have hchan : (d * 2 ^ 19 + b + i) / 2 ^ 19 = d := by omega
    have hframe : (d * 2 ^ 19 + b + i) % 2 ^ 19 = b + i := by omega
    have huse : useMega (d * 2 ^ 19 + b + i) (some u) s = s.modAlloc d fun a => { a with megas := Tab.set none a.megas (b + i) (some u) } := by
      rw [useMega, hchan, hframe]
    obtain ⟨hget, hother, hrest⟩ := ih (fun j hj => hl j (List.mem_cons_of_mem _ hj)) (useMega (d * 2 ^ 19 + b + i) (some u) s)
    refine ⟨fun k hk => hget k ?_, fun c hc => (hother c hc).trans ?_, hrest⟩
    · by_cases hkl : k ∈ l
      · exact .inl hkl
      · refine .inr ?_
        rw [huse, State.modAlloc_self, Tab.get_set]
        split
        · rfl
        · rename_i hne
          refine hk.resolve_left fun hmem => ?_
          obtain rfl | hmem := List.mem_cons.mp hmem
          · exact hne rfl
          · exact hkl hmem
    · rw [huse, State.modAlloc_other _ _ _ _ hc]

/-! A fault source leaves the ring's segments where they are. -/

theorem copyTally_segments (t : Tally) (s : State) : (copyTally t s).rec_.segments = s.rec_.segments := by
  have hsend (d : Nat) (p : OutPkt) (s : State) : (sendPkt d p s).rec_.segments = s.rec_.segments := by
    unfold sendPkt
    split <;> rfl
  unfold copyTally
  split
  · rfl
  · split
    · exact hsend ..
    · rfl

theorem put_segments (r : Recorder) (t : Tally) : (r.put t).segments = r.segments := by
  unfold Recorder.put
  repeat' split
  all_goals rfl

theorem sampleTally_segments (src : Nat) (v a b : BitVec 64) (s : State) : (sampleTally src v a b s).rec_.segments = s.rec_.segments := by
  unfold sampleTally
  dsimp only
  split
  · unfold closeTally
    exact (copyTally_segments ..).trans (put_segments ..)
  · rfl

theorem updateHealth_segments (s : State) : (updateHealth s).rec_.segments = s.rec_.segments := by
  have hplace (i : Nat) (k : LogKind) (b : RecBody) (s : State) : (placeRecord i k b s).rec_ = s.rec_ := by
    unfold placeRecord notifyLog
    split <;> rfl
  have hall := forEach_keeps (R := fun s r => r.rec_ = s.rec_) (fun _ => rfl) (fun h k => k.trans h) (noteHealth s).allLds
    (fun i => placeRecord i .warning (.memoryModule evHealth)) (fun i s => hplace i _ _ s) (noteHealth s)
  unfold updateHealth
  dsimp only
  split
  · rfl
  · exact congrArg Recorder.segments hall

theorem fireEvent_segments {n : Nat} (hclass : sourceClass n < 3) (s : State) : (fireEvent n s).rec_.segments = s.rec_.segments := by
  rw [fireEvent_low hclass]
  split
  · rfl
  · exact (updateHealth_segments _).trans (sampleTally_segments ..)

/-- A wait for an allocation changes no allocation. -/
theorem waitFor_allocs (w : Waiter) (q slots : Nat) (s : State) : (waitFor w q slots s).allocs = s.allocs ∧
    (waitFor w q slots s).rec_.segments = s.rec_.segments := by
  have hclass : sourceClass 69 < 3 := sourceClass_low (by decide)
  have hshort (u : State) : (slabShortage q slots u).allocs = u.allocs ∧ (slabShortage q slots u).rec_.segments = u.rec_.segments := by
    unfold slabShortage
    split
    · rw [fireEvent_segments hclass, (fireEvent_reports 69 _ hclass).rest, postDevice_rest]
      exact ⟨rfl, rfl⟩
    · exact ⟨rfl, rfl⟩
  unfold waitFor
  obtain ⟨hallocs, hsegments⟩ := hshort (if s.waiters.contains w then s else { s with waiters := s.waiters ++ [w] })
  rw [hallocs, hsegments]
  split
  · exact ⟨rfl, rfl⟩
  · exact ⟨rfl, rfl⟩

/-- Another channel that is ACTIVE and has room for n consecutive 1 MiB frames. -/
def State.megaRoom (s : State) (c n d : Nat) : Bool := decide (d ≠ c) && s.activeChan d && (s.lowestRun d (256 * n) 256 (2 ^ 26)).isSome

/-- Among the ACTIVE channels other than the structure's own, the place found is that of the first with room. -/
theorem findSome_megaRoom (s : State) (c n : Nat) (l : List Nat) :
    (((l.filter (· != c)).filter s.activeChan).findSome? fun d => if s.activeChan d then
      (s.lowestRun d (256 * n) 256 (2 ^ 26)).map fun f => d * 2 ^ 19 + f / 256 else none) =
    (l.find? (s.megaRoom c n)).bind fun d => (s.lowestRun d (256 * n) 256 (2 ^ 26)).map fun f => d * 2 ^ 19 + f / 256 := by
  induction l with
  | nil => rfl
  | cons d l ih =>
    by_cases hd : d = c
    · have hroom : s.megaRoom c n d = false := by simp [State.megaRoom, hd]
      rw [List.filter_cons, if_neg (by simp [hd]), List.find?_cons, hroom]
      exact ih
    · rw [List.filter_cons, if_pos (by simp [hd]), List.filter_cons, List.find?_cons]
      by_cases hactive : s.activeChan d = true
      · have hroom : s.megaRoom c n d = (s.lowestRun d (256 * n) 256 (2 ^ 26)).isSome := by simp [State.megaRoom, hd, hactive]
        rw [if_pos hactive, List.findSome?_cons, if_pos hactive, hroom]
        cases hrun : s.lowestRun d (256 * n) 256 (2 ^ 26) with
        | none => exact ih
        | some f => simp only [hrun, Option.map_some, Option.isSome_some, Option.bind_some]
      · have hroom : s.megaRoom c n d = false := by simp [State.megaRoom, hactive]
        rw [if_neg hactive, hroom]
        exact ih

/-- The allocation of a ring segment's frames in the first channel with room. -/
theorem moveMegas_moved {s : State} {c n d b : Nat} (u : MegaUse) (hfind : (List.range 24).find? (s.megaRoom c n) = some d)
    (hrun : s.lowestRun d (256 * n) 256 (2 ^ 26) = some b) :
    ∃ a, moveMegas c n u (((List.range 24).filter (· != c)).filter s.activeChan) s = some (d * 2 ^ 19 + b / 256, { s with allocs := a }) ∧
      (∀ k < n, Tab.get none (({ s with allocs := a } : State).alloc d).megas (b / 256 + k) = some u) ∧
      (({ s with allocs := a } : State).alloc c).megas = (s.alloc c).megas.filter (fun x => x.2 != some u) := by
  have hne : d ≠ c := by
    have hroom := List.find?_some hfind
    simp only [State.megaRoom, Bool.and_eq_true, decide_eq_true_eq] at hroom
    exact hroom.1.1
  have hlt := lowestRun_lt hrun
  let t := s.modAlloc c fun a => { a with megas := a.megas.filter fun x => x.2 != some u }
  obtain ⟨hget, hother, hrest⟩ := useMegas (d := d) (b := b / 256) (n := n) u (by omega) (l := List.range n) (fun i hi => List.mem_range.mp hi) t
  refine ⟨(forEach (List.range n) (fun i => useMega (d * 2 ^ 19 + b / 256 + i) (some u)) t).allocs, ?_, fun k hk => ?_, ?_⟩
  · unfold moveMegas
    rw [findSome_megaRoom, hfind]
    simp only [Option.bind_some, hrun, Option.map_some]
    exact congrArg (fun r => some (d * 2 ^ 19 + b / 256, r)) hrest
  · exact hget k (.inl (List.mem_range.mpr hk))
  · have hown : t.alloc c = { s.alloc c with megas := (s.alloc c).megas.filter fun x => x.2 != some u } := s.modAlloc_self c _
    exact (congrArg Alloc.megas (hother c hne.symm)).trans (congrArg Alloc.megas hown)

theorem moveMegas_none {s : State} {c n : Nat} (u : MegaUse) (hfind : (List.range 24).find? (s.megaRoom c n) = none) :
    moveMegas c n u (((List.range 24).filter (· != c)).filter s.activeChan) s = none := by
  unfold moveMegas
  rw [findSome_megaRoom, hfind]
  rfl

section
variable {c : Fin 24} {s : State} {f i : Nat} (hrun : s.running = true) (hdone : s.start.phase9Done = true)
  (hstate : (s.chan c).state = .evacuating) (hon : (s.chan c).evac.map (·.cancelled) = some false) (hfirst : s.firstMega c = some (f, .ring i))
include hrun hdone hstate hon hfirst

theorem exec_evacuationStructureMoved_eq : exec (.evacuationStructureMoved c) s =
    .next (if ((moveStructure c f (.ring i) s).alloc c).megas = (s.alloc c).megas then waitFor (.evac c) (chanQuad c) 0 s
      else moveStructure c f (.ring i) s) := by
  change execEvacuationStructureMoved c s = _
  unfold execEvacuationStructureMoved
  dsimp only
  rw [if_pos (by simp [hrun, hdone, hstate, hon]), hfirst]

theorem exec_evacuationStructureMoved {d b : Nat} (hfind : (List.range 24).find? (s.megaRoom c 16) = some d)
    (hroom : s.lowestRun d 4096 256 (2 ^ 26) = some b) :
    ∃ r, exec (.evacuationStructureMoved c) s = .next r ∧ r.rec_.segments = s.rec_.segments.set i d ∧
      (∀ k < 16, Tab.get none (r.alloc d).megas (b / 256 + k) = some (.ring i)) ∧ ∀ e ∈ (r.alloc c).megas, e.2 ≠ some (.ring i) := by
  have hlt := lowestRun_lt hroom
  obtain ⟨a, hmove, hget, hleft⟩ := moveMegas_moved (n := 16) (.ring i) hfind hroom
  have hstructure : moveStructure c f (.ring i) s =
      ({ s with allocs := a } : State).modRec fun r => { r with segments := r.segments.set i ((d * 2 ^ 19 + b / 256) / 2 ^ 19) } := by
    simp only [moveStructure, hmove]
  have hmem : (f, some (.ring i)) ∈ (s.alloc c).megas := by
    unfold State.firstMega at hfirst
    split at hfirst
    · rename_i g u l heq
      obtain ⟨rfl, rfl⟩ := Prod.mk.inj (Option.some.inj hfirst)
      rw [heq]
      exact List.mem_cons_self
    · exact absurd hfirst (by simp)
  have hmoved : ((moveStructure c f (.ring i) s).alloc c).megas = (s.alloc c).megas.filter (fun x => x.2 != some (.ring i)) := by
    rw [hstructure]
    exact hleft
  have hchanged : ((moveStructure c f (.ring i) s).alloc c).megas ≠ (s.alloc c).megas := by
    intro hsame
    rw [← hsame, hmoved] at hmem
    simp at hmem
  rw [exec_evacuationStructureMoved_eq hrun hdone hstate hon hfirst, if_neg hchanged]
  refine ⟨_, rfl, ?_, fun k hk => ?_, fun e he => ?_⟩
  · have hsegment : (d * 2 ^ 19 + b / 256) / 2 ^ 19 = d := by omega
    rw [hstructure, hsegment]
    rfl
  · rw [hstructure]
    exact hget k hk
  · rw [hmoved] at he
    exact bne_iff_ne.mp (List.mem_filter.mp he).2

theorem exec_evacuationStructureMoved_waits (hfind : (List.range 24).find? (s.megaRoom c 16) = none) :
    ∃ r, exec (.evacuationStructureMoved c) s = .next r ∧ Waiter.evac c ∈ r.waiters ∧ r.allocs = s.allocs ∧ r.rec_.segments = s.rec_.segments := by
  have hstructure : moveStructure c f (.ring i) s = s := by
    simp only [moveStructure, moveMegas_none (.ring i) hfind]
  rw [exec_evacuationStructureMoved_eq hrun hdone hstate hon hfirst, hstructure, if_pos rfl]
  exact ⟨_, rfl, (waitFor_waits ..).1, waitFor_allocs ..⟩

end

/-! #### The end of an evacuation (R199) -/

section
variable {c : Fin 24} {v : Evac} {s : State} (hrun : s.running = true) (hstate : (s.chan c).state = .evacuating) (hevac : (s.chan c).evac = some v)
include hrun hstate hevac

theorem exec_evacuationEnd_cancelled (hcancelled : v.cancelled = true) (hidle : s.evacRecords c = []) :
    ∃ r, exec (.evacuationEnd c) s = .next r ∧ (r.chan c).state = .active ∧ (r.chan c).evac = none := by
  have hexec : exec (.evacuationEnd c) s = .next (finishCancel c s) := by
    change execEvacuationEnd c s = _
    unfold execEvacuationEnd
    dsimp only
    rw [hevac]
    dsimp only
    rw [if_neg (by simp [hrun, hstate]), if_pos hcancelled]
  have hchan := finishCancel_chan hevac hcancelled
  rw [if_pos hidle] at hchan
  exact ⟨_, hexec, by rw [hchan], by rw [hchan]⟩

theorem exec_evacuationEnd_running (hon : v.cancelled = false) (hleft : s.evacEmpty c = false) : exec (.evacuationEnd c) s = .next s := by
  change execEvacuationEnd c s = _
  unfold execEvacuationEnd
  dsimp only
  rw [hevac]
  dsimp only
  rw [if_neg (by simp [hrun, hstate]), if_neg (by simp [hon]), if_pos (by simp [hleft])]

end

/-- The channel when its evacuation ends: banks precharged, refresh stopped, no slot usable. -/
def endedChan (retire : Bool) (h : Chan) : Chan :=
  { prechargeAll h with
    state := if retire then .retired else .evacuated, evac := none, retirePending := none, refreshing := false
    selfRefresh := false, srPending := false, powerDown := [], usable := 0, speed := 0, evacLast := some 1 }

/-- A slot that is powered goes to OFF. -/
def slotOff (n : Nat) (s : State) : State := if (s.slot n).state.powered then switchSlotOff n .off s else s

theorem slotOff_rest (n : Nat) (s : State) : slotOff n s = { s with slots := (slotOff n s).slots, slotMgr := (slotOff n s).slotMgr } := by
  unfold slotOff
  split <;> rfl

theorem slotOff_self {n : Nat} {s : State} (h : (s.slot n).state.powered = true) : ((slotOff n s).slot n).state = .off := by
  rw [slotOff, if_pos h]
  simp [switchSlotOff, State.slot, State.modSlot]

theorem slotOff_other {n m : Nat} (h : m ≠ n) (s : State) : (slotOff n s).slot m = s.slot m := by
  unfold slotOff
  split
  · simp [switchSlotOff, State.slot, State.modSlot, Tab.get_set, h]
  · rfl

/-- The powered slots of a channel go to OFF. -/
def slotsOff (c : Nat) (s : State) : State := slotOff (2 * c + 1) (slotOff (2 * c) s)

theorem slotsOff_rest (c : Nat) (s : State) : slotsOff c s = { s with slots := (slotsOff c s).slots, slotMgr := (slotsOff c s).slotMgr } := by
  unfold slotsOff
  rw [slotOff_rest (2 * c + 1), slotOff_rest (2 * c)]

theorem slotsOff_off (c : Nat) (s : State) {k : Nat} (hk : k < 2) (hpowered : (s.slot (2 * c + k)).state.powered = true) :
    ((slotsOff c s).slot (2 * c + k)).state = .off := by
  obtain rfl | rfl : k = 0 ∨ k = 1 := by omega
  · rw [slotsOff, slotOff_other (by omega)]
    exact slotOff_self hpowered
  · exact slotOff_self (by rw [slotOff_other (by omega)]; exact hpowered)

/-- The stages of the end of an evacuation, up to the entry in its completion queue. -/
def endEvac (c : Nat) (v : Evac) (s : State) : State :=
  let s := s.modChan c (endedChan v.retire)
  let s := if v.retire then condStart (srcChannel c 10) s else s
  let s := if v.slotsOff then slotsOff c s else s
  partLeaves (4 + c) { s with waiters := s.waiters.filter (· != .evac c) }

/-- What the end of an evacuation changes besides the channel, the slots, the conditions, the waiters and the domain. -/
structure State.EndedEvac (s r : State) (c : Nat) (v : Evac) : Prop where
  chan : r.chan c = endedChan v.retire (s.chan c)
  off : v.slotsOff = true → ∀ k < 2, (s.slot (2 * c + k)).state.powered = true → (r.slot (2 * c + k)).state = .off
  slots : v.slotsOff = false → r.slots = s.slots
  holds : v.retire = true → r.holds (srcChannel c 10) = true
  queues : r.queues = s.queues
  time : r.time = s.time

theorem endEvac_ended (c : Nat) (v : Evac) (s : State) : s.EndedEvac (endEvac c v s) c v := by
  have hclass : sourceClass (srcChannel c 10) < 3 := sourceClass_low (by unfold srcChannel; omega)
  let t := s.modChan c (endedChan v.retire)
  have ht : t.chan c = endedChan v.retire (s.chan c) := s.modChan_self c _
  obtain ⟨u, hu⟩ : ∃ u, u = if v.retire then condStart (srcChannel c 10) t else t := ⟨_, rfl⟩
  have hreports : t.Reports u := by
    rw [hu]
    split
    · exact condStart_reports _ _ hclass
    · exact .refl t
  have hholds : v.retire = true → u.holds (srcChannel c 10) = true := fun hretire => by
    rw [hu, if_pos hretire, holds_condStart hclass]
    simp
  have hchan : u.chan c = endedChan v.retire (s.chan c) := (chan_of_chans hreports.chans c).trans ht
  have hslots : u.slots = s.slots := by rw [hreports.rest]; rfl
  have hqueues : u.queues = s.queues := by rw [hreports.rest]; rfl
  have htime : u.time = s.time := by rw [hreports.rest]; rfl
  have hend : endEvac c v s = partLeaves (4 + c) { (if v.slotsOff then slotsOff c u else u) with
      waiters := (if v.slotsOff then slotsOff c u else u).waiters.filter (· != .evac c) } := by
    rw [hu]
    rfl
  rw [hend]
  by_cases hoff : v.slotsOff = true
  · rw [if_pos hoff]
    have hrest := slotsOff_rest c u
    refine ⟨?_, fun _ k hk hpowered => ?_, fun h => absurd (hoff.symm.trans h) (by decide), fun h => ?_, ?_, ?_⟩
    · have hchans : (slotsOff c u).chans = u.chans := by rw [hrest]
      exact (chan_of_chans hchans c).trans hchan
    · exact slotsOff_off c u hk (by rw [State.slot, hslots]; exact hpowered)
    · have hlive : (slotsOff c u).faults.live = u.faults.live := by rw [hrest]
      exact (holds_of_live hlive _).trans (hholds h)
    · have hsame : (slotsOff c u).queues = u.queues := by rw [hrest]
      exact hsame.trans hqueues
    · have hsame : (slotsOff c u).time = u.time := by rw [hrest]
      exact hsame.trans htime
  · rw [if_neg hoff]
    exact ⟨hchan, fun h => absurd h hoff, fun _ => hslots, hholds, hqueues, htime⟩

theorem exec_evacuationEnd {c : Fin 24} {v : Evac} {s : State} (hrun : s.running = true) (hstate : (s.chan c).state = .evacuating)
    (hevac : (s.chan c).evac = some v) (hon : v.cancelled = false) (hempty : s.evacEmpty c = true) (hretrain : (s.chan c).retrainBusy = false)
    (hrepair : (s.chan c).repairBusy = false) :
    exec (.evacuationEnd c) s = .next (match v.queue with
      | some q => postDevice q (BitVec.ofNat 64 c) 1 0 0 (endEvac c v s)
      | none => endEvac c v s) := by
  change execEvacuationEnd c s = _
  unfold execEvacuationEnd
  dsimp only
  rw [hevac]
  dsimp only
  rw [if_neg (by simp [hrun, hstate]), if_neg (by simp [hon]), if_neg (by simp [hempty, hretrain, hrepair])] <;> rfl

theorem postDevice_entries {q : Nat} {s : State} (h : (s.queue q).entries.length < queueCap q) (a b c d : Word) :
    ((postDevice q a b c d s).queue q).entries = (s.queue q).entries ++ [{ g1 := a, g2 := b, g3 := c, g4 := d, timebase := s.time.tb }] := by
  rw [postDevice, if_pos h, countEvent, countEvents, State.modCtr_at_queue, State.modQueue_self]

/-- A channel whose evacuation ends (R199). -/
theorem evacuationEnd_ends {c : Fin 24} {v : Evac} {s : State} (hrun : s.running = true) (hstate : (s.chan c).state = .evacuating)
    (hevac : (s.chan c).evac = some v) (hon : v.cancelled = false) (hempty : s.evacEmpty c = true) (hretrain : (s.chan c).retrainBusy = false)
    (hrepair : (s.chan c).repairBusy = false) : ∃ r, exec (.evacuationEnd c) s = .next r ∧ r.chan c = endedChan v.retire (s.chan c) ∧
      (v.slotsOff = true → ∀ k < 2, (s.slot (2 * c + k)).state.powered = true → (r.slot (2 * c + k)).state = .off) ∧
      (v.slotsOff = false → r.slots = s.slots) ∧ (v.retire = true → r.holds (srcChannel c 10) = true) ∧
      ∀ q, v.queue = some q → (s.queue q).entries.length < queueCap q →
        (r.queue q).entries = (s.queue q).entries ++ [{ g1 := BitVec.ofNat 64 c, g2 := 1, g3 := 0, g4 := 0, timebase := s.time.tb }] := by
  have hended := endEvac_ended c v s
  rw [exec_evacuationEnd hrun hstate hevac hon hempty hretrain hrepair]
  refine ⟨_, rfl, ?_⟩
  cases hqueue : v.queue with
  | none => exact ⟨hended.chan, hended.off, hended.slots, hended.holds, fun q h => absurd h (by simp)⟩
  | some k =>
    dsimp only
    have hqueues (q : Nat) : (endEvac c v s).queue q = s.queue q := by rw [State.queue, State.queue, hended.queues]
    have hrest := postDevice_rest k (BitVec.ofNat 64 c) 1 0 0 (endEvac c v s)
    have hsame : (postDevice k (BitVec.ofNat 64 c) 1 0 0 (endEvac c v s)).chans = (endEvac c v s).chans ∧
        (postDevice k (BitVec.ofNat 64 c) 1 0 0 (endEvac c v s)).slots = (endEvac c v s).slots ∧
        (postDevice k (BitVec.ofNat 64 c) 1 0 0 (endEvac c v s)).faults = (endEvac c v s).faults := by
      rw [hrest]
      exact ⟨rfl, rfl, rfl⟩
    obtain ⟨hchans, hslots, hfaults⟩ := hsame
    refine ⟨(chan_of_chans hchans c).trans hended.chan, fun hoff j hj hpowered => ?_, fun hoff => hslots.trans (hended.slots hoff), fun h => ?_,
      fun q hq hlen => ?_⟩
    · rw [State.slot, hslots]
      exact hended.off hoff j hj hpowered
    · exact (holds_of_live (congrArg Faults.live hfaults) _).trans (hended.holds h)
    · obtain rfl := Option.some.inj hq
      rw [postDevice_entries (by rw [hqueues]; exact hlen), hqueues, hended.time]

/-- Settles O44. -/
theorem channelsAreEvacuatedAndRestored : Obligations.ChannelsAreEvacuatedAndRestored := by
  unfold Obligations.ChannelsAreEvacuatedAndRestored
  refine fun s => ⟨fun cci cb hserves hmgmt => ?_, fun c f i hrun hdone hstate hon hfirst => ?_, fun c v hrun hstate hevac => ?_⟩
  · intro c does last
    refine ⟨fun action flags hbad => ?_, fun hbad => ?_, fun hc flags => ⟨?_, ?_, fun hstate => ?_, fun v hstate hevac => ?_, ?_⟩⟩
    · exact exec_channelEvacuate_invalid hserves hmgmt hbad
    · exact exec_channelRestore_invalid hserves hmgmt hbad
    · exact ⟨fun hcode => exec_channelEvacuate_refused hserves hmgmt hc hcode, fun hcode => exec_channelEvacuate_accepted hserves hmgmt hc hcode⟩
    · have hquery {k : Nat} (h : ∀ t : State, t.chan c = s.chan c → t.evacOutcome c = k) :=
        exec_channelEvacuate_query (flags := flags) hserves hmgmt hc fun t ht => h t (ht.evac c).1
      refine ⟨fun hon => hquery fun t ht => ?_, fun hoff hstate => hquery fun t ht => ?_, fun k hoff hevacuated hretired hlast => hquery fun t ht => ?_⟩
      · exact evacOutcome_running (by rw [ht]; exact hon)
      · exact evacOutcome_done (by rw [ht]; exact hoff) (by rw [ht]; exact hstate)
      · exact evacOutcome_last (by rw [ht]; exact hoff) (by rw [ht]; exact hevacuated) (by rw [ht]; exact hretired) (by rw [ht]; exact hlast)
    · exact exec_channelEvacuate_noCancel hserves hmgmt hc hstate
    · exact exec_channelEvacuate_cancel hserves hmgmt hc hstate hevac
    · refine ⟨fun hcode => exec_channelRestore_refused hserves hmgmt hc hcode, fun hcode => ?_⟩
      obtain ⟨r, w, hexec, hout, hw, ⟨hstate, husable, hfrontier, htrain⟩, halloc, hslots⟩ := exec_channelRestore hserves hmgmt hc hcode
      exact ⟨r, w, hexec, hout, hw, hstate, husable, hfrontier, htrain, halloc, hslots⟩
  · refine ⟨fun d b hfind hroom => ?_, fun hfind => ?_⟩
    · exact exec_evacuationStructureMoved hrun hdone hstate hon hfirst hfind hroom
    · exact exec_evacuationStructureMoved_waits hrun hdone hstate hon hfirst hfind
  · refine ⟨fun hcancelled hidle => ?_, fun hon hleft => ?_, fun hon hempty hretrain hrepair => ?_⟩
    · exact exec_evacuationEnd_cancelled hrun hstate hevac hcancelled hidle
    · exact exec_evacuationEnd_running hrun hstate hevac hon hleft
    · obtain ⟨r, hexec, hchan, hrest⟩ := evacuationEnd_ends hrun hstate hevac hon hempty hretrain hrepair
      refine ⟨r, hexec, ?_⟩
      rw [hchan]
      exact ⟨rfl, rfl, rfl, rfl, rfl, rfl, hrest⟩

end Sys2Proof.Machine
end

section
namespace Sys2Proof.Machine

/-! ### The phases of a start up to 8 (R360, R361, R468, R469, R496, R498, R499, R507) -/

/-! #### The CXL pads -/

theorem isHead_beginDetect (k p : Nat) (s : State) : (beginDetect k s).isHead p = s.isHead p := by
  obtain h | h := beginDetect_cases k s <;> rw [h]
  exact isHead_modPort p k _ s rfl

theorem beginDetect_rest (k : Nat) (s : State) : beginDetect k s = { s with ports := (beginDetect k s).ports } := by
  obtain h | h := beginDetect_cases k s <;> rw [h]
  rfl

/-- Detect in the heads of a list, in a running device whose CXL pads are released. -/
theorem beginDetects {l : List Nat} (hl : l.Nodup) {s : State} (hrun : s.running = true) (hpads : s.power.cxlLatched = false)
    (hheads : ∀ p ∈ l, s.isHead p = true) : let r := forEach l beginDetect s
    r = { s with ports := r.ports } ∧ ∀ p, r.port p = if p ∈ l ∧ (s.port p).perst = false ∧ (s.port p).downLatched = false then
      { s.port p with training := true, clkreq := true } else s.port p := by
  induction l generalizing s with
  | nil => exact ⟨rfl, fun p => by simp [forEach]⟩
  | cons k l ih =>
    obtain ⟨hk, hl⟩ := List.nodup_cons.mp hl
    have hrest := beginDetect_rest k s
    have hrun' : (beginDetect k s).running = true := by rw [hrest]; exact hrun
    have hpads' : (beginDetect k s).power.cxlLatched = false := by rw [hrest]; exact hpads
    obtain ⟨hr, hports⟩ := ih hl hrun' hpads' fun p hp => by
      rw [isHead_beginDetect]; exact hheads p (List.mem_cons_of_mem _ hp)
    have hcons : forEach (k :: l) beginDetect s = forEach l beginDetect (beginDetect k s) := rfl
    rw [hcons]
    refine ⟨hr.trans (by rw [hrest]), fun p => ?_⟩
    rw [hports]
    by_cases hp : p = k
    · subst hp
      rw [if_neg (fun h => hk h.1)]
      unfold beginDetect
      have hmay : s.mayDetect p = true ↔ (s.port p).perst = false ∧ (s.port p).downLatched = false := by
        simp [State.mayDetect, hrun, hpads, hheads p List.mem_cons_self]
      by_cases hfree : (s.port p).perst = false ∧ (s.port p).downLatched = false
      · rw [if_pos (hmay.mpr hfree), if_pos ⟨List.mem_cons_self, hfree⟩, State.modPort_self]
      · rw [if_neg (fun h => hfree (hmay.mp h)), if_neg (fun h => hfree h.2)]
    · rw [beginDetect_port_other hp]
      simp only [List.mem_cons, hp, false_or]

/-- The release of latched CXL pads. -/
theorem releaseCxlPads_releases {s : State} (hrun : s.running = true) (hlatched : s.power.cxlLatched = true) : let r := releaseCxlPads s
    r = { s with ports := r.ports, power := { s.power with cxlLatched := false } } ∧
      ∀ p, p < 16 → r.port p = if s.isHead p = true ∧ (s.port p).perst = false ∧ (s.port p).downLatched = false then
        { s.port p with training := true, clkreq := true } else s.port p := by
  let t := s.modPower fun p => { p with cxlLatched := false }
  have hrelease : releaseCxlPads s = forEach t.heads beginDetect t := if_pos hlatched
  obtain ⟨hr, hports⟩ := beginDetects (l := t.heads) (s := t) (List.nodup_range.filter _) hrun rfl fun p hp => (List.mem_filter.mp hp).2
  dsimp only
  rw [hrelease]
  refine ⟨hr, fun p hp => ?_⟩
  rw [hports]
  have hmem : p ∈ t.heads ↔ s.isHead p = true := by simp [State.heads, hp]; rfl
  simp only [hmem]
  rfl

theorem exec_cxlPadRelease {s : State} (hrun : s.running = true) (hlatched : s.power.cxlLatched = true) : ∃ r, exec .cxlPadRelease s = .next r ∧
    r = { s with
      ports := r.ports, power := { s.power with cxlLatched := false }, start := { s.start with phase := if s.start.phase < 4 then 4 else s.start.phase } } ∧
    ∀ p, p < 16 → r.port p = if s.isHead p = true ∧ (s.port p).perst = false ∧ (s.port p).downLatched = false then
      { s.port p with training := true, clkreq := true } else s.port p := by
  obtain ⟨hr, hports⟩ := releaseCxlPads_releases hrun hlatched
  have hexec : exec .cxlPadRelease s = .next ((releaseCxlPads s).modStart fun r => if r.phase < 4 then { r with phase := 4 } else r) :=
    congrArg Host.Outcome.next (if_pos (by rw [hrun, hlatched]; rfl))
  refine ⟨_, hexec, ?_, hports⟩
  have hstart : (releaseCxlPads s).start = s.start := by rw [hr]
  have hphase : (if s.start.phase < 4 then { s.start with phase := 4 } else s.start) =
      { s.start with phase := if s.start.phase < 4 then 4 else s.start.phase } := by
    split <;> rfl
  rw [State.modStart, hstart, hphase]
  conv_lhs => rw [hr]

/-! #### Early Vigil (R360, R496, R498, R499) -/

/-- What the steps of a start leave as it is. -/
structure State.KeepsStart (s r : State) : Prop where
  start : r.start = s.start
  time : r.time = s.time
  dram : r.dram = s.dram
  alm : r.alm = s.alm
  pads : r.power.cxlLatched = s.power.cxlLatched

theorem State.KeepsStart.refl (s : State) : s.KeepsStart s := ⟨rfl, rfl, rfl, rfl, rfl⟩

theorem State.KeepsStart.trans {s r q : State} (h : s.KeepsStart r) (k : r.KeepsStart q) : s.KeepsStart q :=
  ⟨k.start.trans h.start, k.time.trans h.time, k.dram.trans h.dram, k.alm.trans h.alm, k.pads.trans h.pads⟩

theorem State.Reports.keepsStart {s r : State} (h : s.Reports r) : s.KeepsStart r := by
  constructor <;> rw [h.rest]

/-- What taking parts out of service leaves as it is: the start, the images, and the engines in service. -/
structure State.KeepsEngines (s r : State) : Prop where
  keeps : s.KeepsStart r
  img : r.img = s.img
  clusters : ∀ e, r.cluster e = s.cluster e

theorem State.KeepsEngines.refl (s : State) : s.KeepsEngines s := ⟨.refl s, rfl, fun _ => rfl⟩

theorem State.KeepsEngines.trans {s r q : State} (h : s.KeepsEngines r) (k : r.KeepsEngines q) : s.KeepsEngines q :=
  ⟨h.keeps.trans k.keeps, k.img.trans h.img, fun e => (k.clusters e).trans (h.clusters e)⟩

theorem State.Reports.keepsEngines {s r : State} (h : s.Reports r) : s.KeepsEngines r :=
  ⟨h.keepsStart, by rw [h.rest], fun e => by rw [State.cluster, State.cluster, h.rest]⟩

theorem forEach_keepsEngines {α : Type} (l : List α) (f : α → State → State) (h : ∀ a s, State.KeepsEngines s (f a s)) (s : State) :
    s.KeepsEngines (forEach l f s) := forEach_keeps .refl .trans l f h s

theorem condSet_keepsEngines {n : Nat} (h : 64 ≤ n) (b : Bool) (s : State) : s.KeepsEngines (condSet n b s) :=
  (condSet_reports n b s (sourceClass_low h)).keepsEngines

theorem modCtr_keepsEngines (b : Nat) (f : CtrBlock → CtrBlock) (s : State) : s.KeepsEngines (s.modCtr b f) :=
  ⟨⟨rfl, rfl, rfl, rfl, rfl⟩, rfl, fun _ => rfl⟩

theorem modThread_keepsEngines (t : Nat) (f : Thread → Thread) (s : State) : s.KeepsEngines (s.modThread t f) :=
  ⟨⟨rfl, rfl, rfl, rfl, rfl⟩, rfl, fun _ => rfl⟩

theorem leftInP3_keepsEngines (i : Nat) (s : State) : s.KeepsEngines (leftInP3 i s) := by
  unfold leftInP3 gateDomain
  refine .trans ?_ (forEach_keepsEngines _ _ (fun _ _ => modCtr_keepsEngines ..) _)
  exact ⟨⟨rfl, rfl, rfl, rfl, rfl⟩, rfl, fun _ => rfl⟩

theorem modCluster_keepsStart (e : Nat) (f : Cluster → Cluster) (s : State) : s.KeepsStart (s.modCluster e f) :=
  ⟨rfl, rfl, rfl, rfl, rfl⟩

/-- A cluster's engines after their BIST, and the cluster left in P3 where none is in service. -/
def settleCluster (failed : List VigilFail) (e : Nat) (s : State) : State :=
  let bad := failedEngines e failed
  let s := condSet (srcCluster e 1) (!bad.isEmpty) (s.modCluster e fun k => k.afterBist bad)
  if s.clusterInService e then s else leftInP3 (47 + e) s

theorem settleCluster_settles (failed : List VigilFail) (e : Nat) (s : State) : s.KeepsStart (settleCluster failed e s) ∧
    (settleCluster failed e s).img = s.img ∧ (settleCluster failed e s).cluster e = (s.cluster e).afterBist (failedEngines e failed) ∧
    ∀ k, k ≠ e → (settleCluster failed e s).cluster k = s.cluster k := by
  have hkeeps (u : State) : u.KeepsEngines (if u.clusterInService e then u else leftInP3 (47 + e) u) := by
    split
    · exact .refl u
    · exact leftInP3_keepsEngines ..
  have hall := (condSet_keepsEngines (n := srcCluster e 1) (by unfold srcCluster; omega) (!(failedEngines e failed).isEmpty)
    (s.modCluster e fun k => k.afterBist (failedEngines e failed))).trans (hkeeps _)
  exact ⟨(modCluster_keepsStart ..).trans hall.keeps, hall.img, (hall.clusters e).trans (s.modCluster_self e _), fun k hk => (hall.clusters k).trans (s.modCluster_other e _ k hk)⟩

theorem settleClusters {failed : List VigilFail} {l : List Nat} (hl : l.Nodup) (s : State) : let r := forEach l (settleCluster failed) s
    s.KeepsStart r ∧ r.img = s.img ∧ (∀ e ∈ l, r.cluster e = (s.cluster e).afterBist (failedEngines e failed)) ∧
      ∀ e, e ∉ l → r.cluster e = s.cluster e := by
  induction l generalizing s with
  | nil => exact ⟨.refl s, rfl, fun _ h => absurd h List.not_mem_nil, fun _ _ => rfl⟩
  | cons k l ih =>
    obtain ⟨hk, hl⟩ := List.nodup_cons.mp hl
    obtain ⟨hkeeps, himg, hself, hother⟩ := settleCluster_settles failed k s
    obtain ⟨hkeeps', himg', hmem, hnot⟩ := ih hl (settleCluster failed k s)
    refine ⟨hkeeps.trans hkeeps', himg'.trans himg, fun e he => ?_, fun e he => ?_⟩
    · obtain rfl | hel := List.mem_cons.mp he
      · exact (hnot e hk).trans hself
      · exact (hmem e hel).trans (by rw [hother e (fun h => hk (h ▸ hel))])
    · rw [List.mem_cons, not_or] at he
      exact (hnot e he.2).trans (hother e he.1)

theorem takeOutOfService_settles (failed : List VigilFail) (s : State) : s.KeepsStart (takeOutOfService failed s) ∧
    (takeOutOfService failed s).img = s.img ∧
    ∀ e < 8, ((takeOutOfService failed s).cluster e) = (s.cluster e).afterBist (failedEngines e failed) := by
  have hcores := forEach_keepsEngines (List.range 8) (fun c s =>
    condSet (768 + c) (((failed.filter fun f => f.1 = 0x20).map fun f => f.2.1.toNat).contains c)
      (if ((failed.filter fun f => f.1 = 0x20).map fun f => f.2.1.toNat).contains c then
        forEach [0, 1, 2, 3] (fun t s => s.modThread (4 * c + t) fun u => { u with state := .out }) s else s))
    (fun c s => by
      refine .trans ?_ (condSet_keepsEngines (by omega) _ _)
      split
      · exact forEach_keepsEngines _ _ (fun _ _ => modThread_keepsEngines ..) s
      · exact .refl s) s
  obtain ⟨hkeeps, himg, hclusters, -⟩ := settleClusters (failed := failed) (l := List.range 8) List.nodup_range (forEach (List.range 8) (fun c s =>
    condSet (768 + c) (((failed.filter fun f => f.1 = 0x20).map fun f => f.2.1.toNat).contains c)
      (if ((failed.filter fun f => f.1 = 0x20).map fun f => f.2.1.toNat).contains c then
        forEach [0, 1, 2, 3] (fun t s => s.modThread (4 * c + t) fun u => { u with state := .out }) s else s)) s)
  exact ⟨hcores.keeps.trans hkeeps, himg.trans hcores.img, fun e he => (hclusters e (List.mem_range.mpr he)).trans (by rw [hcores.clusters])⟩

/-- With no engine failed every quadrant keeps engines of each kind. -/
theorem quadBare_takeOutOfService {failed : List VigilFail} (hnone : ∀ f ∈ failed, f.1 ≠ 0x21) (s : State) {q : Nat} (hq : q < 4) :
    quadBare (takeOutOfService failed s) q = false := by
  have hbad (e : Nat) : failedEngines e failed = [] := by
    rw [failedEngines, List.filterMap_eq_nil_iff]
    exact fun f hf => if_neg fun h => hnone f hf h.1
  obtain ⟨-, -, hclusters⟩ := takeOutOfService_settles failed s
  have hcluster := hclusters (2 * q) (by omega)
  rw [hbad] at hcluster
  rw [quadBare, hcluster]
  rfl

end Sys2Proof.Machine
end

section
namespace Sys2Proof.Machine

/-! #### The end of early Vigil -/

theorem forEach_beginDetect_rest (l : List Nat) (s : State) : forEach l beginDetect s = { s with ports := (forEach l beginDetect s).ports } := by
  induction l generalizing s with
  | nil => rfl
  | cons k l ih =>
    have hcons : forEach (k :: l) beginDetect s = forEach l beginDetect (beginDetect k s) := rfl
    rw [hcons]
    exact (ih _).trans (by rw [beginDetect_rest k s])

theorem releaseCxlPads_rest (s : State) : releaseCxlPads s =
    { s with ports := (releaseCxlPads s).ports, power := { s.power with cxlLatched := false } } := by
  unfold releaseCxlPads
  by_cases h : s.power.cxlLatched = true
  · rw [if_pos h]
    exact forEach_beginDetect_rest _ (s.modPower fun p => { p with cxlLatched := false })
  · have hpower : s.power = { s.power with cxlLatched := false } := by
      rw [Bool.not_eq_true] at h
      rw [← h]
    rw [if_neg h, ← hpower]

theorem writeDirectory_keepsStart (f : Img → Img) (s : State) : s.KeepsStart (writeDirectory f s) := ⟨rfl, rfl, rfl, rfl, rfl⟩

theorem selectFirmware_selects (second : Bool) (s : State) :
    s.KeepsStart (selectFirmware second s) ∧ (selectFirmware second s).img.fwCopy = second := by
  unfold selectFirmware
  dsimp only
  split
  case isTrue h => exact ⟨⟨rfl, rfl, rfl, rfl, rfl⟩, h.symm⟩
  case isFalse =>
    have hfire := fireEvent_reports 780 (writeDirectory (fun i => { i with
      fwCopy := second, fwPrevious := false, fwVersion := BitVec.ofNat 64 (imgField (s.img.copy false second) 8 8) }) s) (by decide)
    exact ⟨(writeDirectory_keepsStart ..).trans hfire.keepsStart, by rw [hfire.rest]; rfl⟩

theorem selectOperator_selects (pick : Option Bool) (s : State) :
    s.KeepsStart (selectOperator pick s) ∧ (selectOperator pick s).img.fwCopy = s.img.fwCopy := by
  unfold selectOperator
  by_cases hpresent : s.img.opPresent = true
  case neg => rw [if_pos (by simpa using hpresent)]; exact ⟨.refl s, rfl⟩
  rw [if_neg (by simpa using hpresent)]
  cases pick with
  | none =>
    have hreports := (fireEvent_reports 780 s (by decide)).trans (condStart_reports 781 _ (by decide))
    exact ⟨hreports.keepsStart, by dsimp only; rw [hreports.rest]⟩
  | some second =>
    dsimp only
    obtain ⟨t, ht, hkeeps, hcopy⟩ : ∃ t, (if second = s.img.opCopy then
        { s with img := { s.img with opVersion := BitVec.ofNat 64 (imgField (s.img.copy true second) 8 8), opRuns := true } }
      else fireEvent 780 (writeDirectory (fun i => { i with opCopy := second, opPrevious := false
                                                            opVersion := BitVec.ofNat 64 (imgField (s.img.copy true second) 8 8), opRuns := true }) s)) = t ∧
        s.KeepsStart t ∧ t.img.fwCopy = s.img.fwCopy := by
      refine ⟨_, rfl, ?_⟩
      split
      · exact ⟨⟨rfl, rfl, rfl, rfl, rfl⟩, rfl⟩
      · have hfire := fireEvent_reports 780 (writeDirectory (fun i => { i with
          opCopy := second, opPrevious := false, opVersion := BitVec.ofNat 64 (imgField (s.img.copy true second) 8 8), opRuns := true }) s) (by decide)
        exact ⟨(writeDirectory_keepsStart ..).trans hfire.keepsStart, by rw [hfire.rest]; rfl⟩
    have hend := condEnd_reports 781 t
    rw [ht]
    exact ⟨hkeeps.trans hend.keepsStart, by rw [hend.rest]; exact hcopy⟩

/-- What follows the report of early Vigil: the pads' release, the images or the Lantern state, and the Almanac. -/
def concludeVigil (passed : Bool) (fw op : Option Bool) (s : State) : State :=
  let s := releaseCxlPads s
  let s := if passed then selectOperator op ((selectFirmware (fw.getD false) s).modStart fun r => { r with phase := 5 })
    else enterLantern (s.modStart fun r => { r with phase := 4 })
  buildAlmanac (updateHealth s)

theorem buildAlmanac_rest (s : State) : buildAlmanac s = { s with alm := (buildAlmanac s).alm } := by
  unfold buildAlmanac startPublication
  split <;> rfl

theorem buildAlmanac_built (s : State) : (buildAlmanac s).alm.built = true := by
  unfold buildAlmanac startPublication
  split
  case isTrue h => exact h
  case isFalse => rfl

theorem concludeVigil_concludes (passed : Bool) (fw op : Option Bool) (s : State) : let r := concludeVigil passed fw op s
    r.power.cxlLatched = false ∧ r.alm.built = true ∧ r.time = s.time ∧ r.dram = s.dram ∧
      (passed = true → r.start = { s.start with phase := 5 } ∧ r.img.fwCopy = fw.getD false) ∧
      (passed = false → r.start = { s.start with phase := 4, lantern := true, qspi := false, alive := false }) := by
  let opened := releaseCxlPads s
  have hopened := releaseCxlPads_rest s
  obtain ⟨t, ht, htime, hdram, hpads, hpass, hfail⟩ : ∃ t, (if passed = true then
        selectOperator op ((selectFirmware (fw.getD false) opened).modStart fun r => { r with phase := 5 })
      else enterLantern (opened.modStart fun r => { r with phase := 4 })) = t ∧
      t.time = opened.time ∧ t.dram = opened.dram ∧ t.power.cxlLatched = opened.power.cxlLatched ∧
      (passed = true → t.start = { opened.start with phase := 5 } ∧ t.img.fwCopy = fw.getD false) ∧
      (passed = false → t.start = { opened.start with phase := 4, lantern := true, qspi := false, alive := false }) := by
    refine ⟨_, rfl, ?_⟩
    cases passed with
    | true =>
      obtain ⟨hfw, hcopy⟩ := selectFirmware_selects (fw.getD false) opened
      obtain ⟨hop, hkept⟩ := selectOperator_selects op ((selectFirmware (fw.getD false) opened).modStart fun r => { r with phase := 5 })
      refine ⟨hop.time.trans hfw.time, hop.dram.trans hfw.dram, hop.pads.trans hfw.pads, fun _ => ⟨hop.start.trans ?_, hkept.trans hcopy⟩, nofun⟩
      exact congrArg (fun r => { r with phase := 5 }) hfw.start
    | false => exact ⟨rfl, rfl, rfl, nofun, fun _ => rfl⟩
  have hhealth := (updateHealth_reports t).keepsStart
  have himg : (updateHealth t).img = t.img := by rw [(updateHealth_reports t).rest]
  have hconclude : concludeVigil passed fw op s = buildAlmanac (updateHealth t) := ht ▸ rfl
  have hstart : opened.start = s.start := by rw [show opened = _ from hopened]
  dsimp only
  rw [hconclude]
  refine ⟨?_, buildAlmanac_built _, ?_, ?_, fun h => ?_, fun h => ?_⟩ <;> rw [buildAlmanac_rest]
  · exact hhealth.pads.trans (hpads.trans (by rw [show opened = _ from hopened]))
  · exact hhealth.time.trans (htime.trans (by rw [show opened = _ from hopened]))
  · exact hhealth.dram.trans (hdram.trans (by rw [show opened = _ from hopened]))
  · exact ⟨hhealth.start.trans (by rw [(hpass h).1, hstart]), himg ▸ (hpass h).2⟩
  · exact hhealth.start.trans (by rw [hfail h, hstart])

/-! #### The tests that fail fatally -/

/-- The tests of early Vigil that run and fail fatally. -/
def State.fatalTests (s : State) (failed : List VigilFail) (fw : Option Bool) : List Nat :=
  vigilTests.filter fun c => vigilRuns s.start.kind c && s.vigilFatal failed fw c

section
variable {s : State} {failed : List VigilFail} {fw : Option Bool}

theorem fatalTests_of_test {c : Nat} (hc : c ∈ vigilTests) (hruns : vigilRuns s.start.kind c = true)
    (hfatal : s.vigilFatal failed fw c = true) : (s.fatalTests failed fw).isEmpty = false := by
  rw [List.isEmpty_eq_false_iff_exists_mem]
  exact ⟨c, List.mem_filter.mpr ⟨hc, by rw [hruns, hfatal]; rfl⟩⟩

theorem mine_of_failure {f : VigilFail} (hf : f ∈ failed) {c : Nat} (hc : f.1.toNat = c) :
    (failed.filter fun f => f.1.toNat = c).isEmpty = false := by
  rw [List.isEmpty_eq_false_iff_exists_mem]
  exact ⟨f, List.mem_filter.mpr ⟨hf, decide_eq_true hc⟩⟩

/-- A failure that ends a start (R496). -/
def VigilFail.ends (f : VigilFail) (kind : BitVec 2) : Prop :=
  f.1 ∈ [0x01#8, 0x02#8, 0x11#8, 0x30#8] ∨ (f.1 ∈ [0x10#8, 0x12#8] ∧ kind = 1) ∨ (f.1 = 0x20 ∧ f.2.1 = 0)

theorem fatalTests_of_failure {f : VigilFail} (hf : f ∈ failed) (hends : f.ends s.start.kind) : (s.fatalTests failed fw).isEmpty = false := by
  have hmine := mine_of_failure hf rfl
  obtain hcode | ⟨hcode, hkind⟩ | ⟨hcode, hcore⟩ := hends
  · simp only [List.mem_cons, List.not_mem_nil, or_false] at hcode
    obtain h | h | h | h := hcode <;> rw [h] at hmine
    · exact fatalTests_of_test (c := 0x01) (by decide) rfl (by simpa [State.vigilFatal] using hmine)
    · exact fatalTests_of_test (c := 0x02) (by decide) rfl (by simpa [State.vigilFatal] using hmine)
    · exact fatalTests_of_test (c := 0x11) (by decide) rfl (by simpa [State.vigilFatal] using hmine)
    · exact fatalTests_of_test (c := 0x30) (by decide) rfl (by simpa [State.vigilFatal] using hmine)
  · simp only [List.mem_cons, List.not_mem_nil, or_false] at hcode
    obtain h | h := hcode <;> rw [h] at hmine
    · exact fatalTests_of_test (c := 0x10) (by decide) rfl (by simpa [State.vigilFatal, hkind] using hmine)
    · exact fatalTests_of_test (c := 0x12) (by decide) (by rw [hkind]; rfl) (by simpa [State.vigilFatal] using hmine)
  · refine fatalTests_of_test (c := 0x20) (by decide) rfl ?_
    have hany : ((failed.filter fun f => f.1.toNat = 0x20).any fun f => f.2.1 = 0) = true :=
      List.any_eq_true.mpr ⟨f, List.mem_filter.mpr ⟨hf, decide_eq_true (by rw [hcode]; rfl)⟩, decide_eq_true hcore⟩
    simpa [State.vigilFatal] using hany

theorem fatalTests_of_resets (hkind : s.start.kind = 3) (hresets : 3 ≤ s.immRecent) : (s.fatalTests failed fw).isEmpty = false :=
  fatalTests_of_test (c := 0x70) (by decide) (by rw [hkind]; rfl) (by simpa [State.vigilFatal] using hresets)

theorem fatalTests_of_noFirmware : (s.fatalTests failed none).isEmpty = false :=
  fatalTests_of_test (c := 0x50) (by decide) rfl (by simp [State.vigilFatal])

/-- No test ends a start whose instances all pass, with firmware that verifies. -/
theorem fatalTests_of_passes (hpass : ∀ f ∈ failed, f.1 ∉ [0x01#8, 0x02#8, 0x10#8, 0x11#8, 0x12#8, 0x20#8, 0x21#8, 0x30#8])
    (hkind : s.start.kind ≠ 3) (hbare : ∀ q < 4, quadBare s q = false) {b : Bool} : (s.fatalTests failed (some b)).isEmpty = true := by
  rw [List.isEmpty_iff, State.fatalTests, List.filter_eq_nil_iff]
  have hnone (c : BitVec 8) (hc : c ∈ [0x01#8, 0x02#8, 0x10#8, 0x11#8, 0x12#8, 0x20#8, 0x21#8, 0x30#8]) :
      failed.filter (fun f => f.1.toNat = c.toNat) = [] := by
    rw [List.filter_eq_nil_iff]
    exact fun f hf h => hpass f hf (BitVec.eq_of_toNat_eq (of_decide_eq_true h) ▸ hc)
  have hquads : (List.range 4).any (quadBare s) = false := by
    rw [List.any_eq_false]
    exact fun q hq => by rw [hbare q (List.mem_range.mp hq)]; decide
  have hmine : ∀ c ∈ [0x01, 0x02, 0x10, 0x11, 0x12, 0x20, 0x30], failed.filter (fun f => f.1.toNat = c) = [] := by
    simp only [List.forall_mem_cons]
    exact ⟨hnone 0x01 (by decide), hnone 0x02 (by decide), hnone 0x10 (by decide), hnone 0x11 (by decide), hnone 0x12 (by decide),
      hnone 0x20 (by decide), hnone 0x30 (by decide), nofun⟩
  simp only [List.forall_mem_cons] at hmine
  obtain ⟨h01, h02, h10, h11, h12, h20, h30, -⟩ := hmine
  have hresets : vigilRuns s.start.kind 0x70 = false := by simpa [vigilRuns] using hkind
  have hfatal : ∀ c ∈ [0x01, 0x02, 0x10, 0x11, 0x12, 0x20, 0x21, 0x30, 0x40, 0x41, 0x50, 0x51], s.vigilFatal failed (some b) c = false := by
    simp only [List.forall_mem_cons]
    simp [State.vigilFatal, h01, h02, h10, h11, h12, h20, h30, hquads]
  intro c hc
  have hcases : c ∈ [0x01, 0x02, 0x10, 0x11, 0x12, 0x20, 0x21, 0x30, 0x40, 0x41, 0x50, 0x51] ∨ c = 0x70 := by
    simpa [vigilTests, or_assoc] using hc
  obtain hc | rfl := hcases
  · rw [hfatal c hc, Bool.and_false]; decide
  · rw [hresets, Bool.false_and]; decide

end

end Sys2Proof.Machine
end

section
namespace Sys2Proof.Machine

/-! #### Early Vigil as a whole (R360, R496, R498, R499) -/

/-- Leaving out the firmware's test, when a test before it failed fatally, leaves a fatal test. -/
theorem isEmpty_withoutImages (l : List Nat) :
    (if l.any (fun c => decide (c < 0x50)) then l.filter (· != 0x50) else l).isEmpty = l.isEmpty := by
  split
  case isFalse => rfl
  case isTrue h =>
    obtain ⟨c, hc, hlow⟩ := List.any_eq_true.mp h
    have hne : c ≠ 0x50 := fun h => absurd (of_decide_eq_true hlow) (by omega)
    rw [List.isEmpty_eq_false_iff_exists_mem.mpr ⟨c, hc⟩,
      List.isEmpty_eq_false_iff_exists_mem.mpr ⟨c, List.mem_filter.mpr ⟨hc, by simpa using hne⟩⟩]

/-- The firmware copy that early Vigil takes. -/
def State.vigilFirmware (s : State) (fw0 fw1 : Bool) : Option Bool := pickCopy s.img.fwCopy (s.copyStates false fw0 fw1)

theorem endVigil_reports (failed : List VigilFail) (times : List (BitVec 32)) (fw0 fw1 op0 op1 : Bool) (s : State) :
    let u := takeOutOfService failed s
    let passed := (u.fatalTests failed (u.vigilFirmware fw0 fw1)).isEmpty
    ∃ r op, endVigil failed times fw0 fw1 op0 op1 s = concludeVigil passed (u.vigilFirmware fw0 fw1) op { u with start := r } ∧
      r.earlyDone = true ∧ r.lantern = u.start.lantern ∧ r.reportPassed = passed ∧ ∃ v, r.report.head? = some v ∧ v.code = 1 ∧ v.inst = 0xFFFF := by
  unfold endVigil
  generalize takeOutOfService failed s = u
  dsimp only
  have hpassed := isEmpty_withoutImages (u.fatalTests failed (u.vigilFirmware fw0 fw1))
  apply Exists.intro
  apply Exists.intro
  apply And.intro
  · rw [← hpassed]
    rfl
  · refine ⟨rfl, rfl, hpassed, ?_⟩
    rw [vigilTests]
    exact ⟨_, rfl, rfl, rfl⟩

end Sys2Proof.Machine
end

section
namespace Sys2Proof.Machine

section
variable {s : State} {fw0 fw1 : Bool}

theorem verdict_of_badSignature {target ld : Nat} {img : List Byte} : (s.verdict target ld img false).1 ≠ 1 := by
  simp only [State.verdict, Bool.not_false, Bool.true_or, if_true]
  generalize (if target = 0 then 0 else 1) = kind
  split <;> simp

theorem vigilFirmware_of_none : s.vigilFirmware false false = none := by
  have hbad (second : Bool) : ((s.verdict 0 0xFFFF (s.img.copy false second) false).1 = 1) = False := eq_false verdict_of_badSignature
  cases hactive : s.img.fwCopy <;> simp [State.vigilFirmware, State.copyStates, pickCopy, flag, hbad, hactive]

theorem vigilFirmware_of_verdict
    (hgood : (s.verdict 0 0xFFFF (s.img.copy false s.img.fwCopy) (if s.img.fwCopy then fw1 else fw0)).1 = 1) :
    s.vigilFirmware fw0 fw1 = some s.img.fwCopy := by
  cases hactive : s.img.fwCopy <;> rw [hactive] at hgood <;>
    simpa [State.vigilFirmware, State.copyStates, pickCopy, flag, hactive] using hgood

end

/-- The end of early Vigil, and which failures end the start. -/
theorem exec_earlyVigilDone {s : State} (hrun : s.running = true) (hearly : s.start.earlyDone = false) (failed : List VigilFail)
    (times : List (BitVec 32)) (fw0 fw1 op0 op1 : Bool) : ∃ r, exec (.earlyVigilDone failed times fw0 fw1 op0 op1) s = .next r ∧
      r.start.earlyDone = true ∧ r.power.cxlLatched = false ∧ r.alm.built = true ∧ r.time = s.time ∧ r.dram = s.dram ∧
      (∃ v, r.start.report.head? = some v ∧ v.code = 1 ∧ v.inst = 0xFFFF) ∧
      (r.start.reportPassed = true → r.start.lantern = s.start.lantern ∧ r.start.phase = 5) ∧
      (r.start.reportPassed = false → r.start.lantern = true ∧ r.start.phase = 4 ∧ r.start.alive = false ∧ r.start.qspi = false) ∧
      ((∃ f ∈ failed, VigilFail.ends f s.start.kind) → r.start.reportPassed = false) ∧
      (s.start.kind = 3 → 3 ≤ s.immRecent → r.start.reportPassed = false) ∧
      (fw0 = false → fw1 = false → r.start.reportPassed = false) ∧
      ((∀ f ∈ failed, f.1 ∉ [0x01#8, 0x02#8, 0x10#8, 0x11#8, 0x12#8, 0x20#8, 0x21#8, 0x30#8]) → s.start.kind ≠ 3 →
        (s.verdict 0 0xFFFF (s.img.copy false s.img.fwCopy) (if s.img.fwCopy then fw1 else fw0)).1 = 1 →
        r.start.reportPassed = true ∧ r.img.fwCopy = s.img.fwCopy) := by
  have hexec : exec (.earlyVigilDone failed times fw0 fw1 op0 op1) s = .next (endVigil failed times fw0 fw1 op0 op1 s) :=
    congrArg Host.Outcome.next (if_pos (by rw [hrun, hearly]; rfl))
  obtain ⟨v, op, hend, hdone, hlantern, hreported, hhead⟩ := endVigil_reports failed times fw0 fw1 op0 op1 s
  obtain ⟨hkeeps, himg, -⟩ := takeOutOfService_settles failed s
  have hbare := fun (h : ∀ f ∈ failed, f.1 ≠ 0x21) q hq => quadBare_takeOutOfService h s (q := q) hq
  rw [hexec, hend]
  generalize takeOutOfService failed s = u at *
  generalize hpassed : (u.fatalTests failed (u.vigilFirmware fw0 fw1)).isEmpty = passed at *
  obtain ⟨hpads, halm, htime, hdram, hpass, hfail⟩ := concludeVigil_concludes passed (u.vigilFirmware fw0 fw1) op { u with start := v }
  generalize concludeVigil passed (u.vigilFirmware fw0 fw1) op { u with start := v } = r at *
  have hstart : r.start.earlyDone = v.earlyDone ∧ r.start.report = v.report ∧ r.start.reportPassed = passed := by
    cases hp : passed with
    | true => rw [(hpass hp).1]; exact ⟨rfl, rfl, hreported.trans hp⟩
    | false => rw [hfail hp]; exact ⟨rfl, rfl, hreported.trans hp⟩
  obtain ⟨hearly', hreport, hreport'⟩ := hstart
  refine ⟨r, rfl, hearly'.trans hdone, hpads, halm, htime.trans hkeeps.time, hdram.trans hkeeps.dram, hreport.symm ▸ hhead, ?_, ?_, ?_, ?_, ?_, ?_⟩ <;>
    rw [hreport']
  · intro hp
    rw [(hpass hp).1]
    exact ⟨hlantern.trans (by rw [hkeeps.start]), rfl⟩
  · intro hp
    rw [hfail hp]
    exact ⟨rfl, rfl, rfl, rfl⟩
  · rintro ⟨f, hf, hends⟩
    exact hpassed ▸ fatalTests_of_failure hf (hkeeps.start.symm ▸ hends)
  · intro hkind hresets
    refine hpassed ▸ fatalTests_of_resets (hkeeps.start.symm ▸ hkind) ?_
    rw [State.immRecent, State.now, hkeeps.start, hkeeps.time]
    exact hresets
  · rintro rfl rfl
    rw [← hpassed, vigilFirmware_of_none]
    exact fatalTests_of_noFirmware
  · intro hgood hkind hverdict
    have hfirmware : u.vigilFirmware fw0 fw1 = some s.img.fwCopy := himg ▸ vigilFirmware_of_verdict (by
      simp only [State.verdict, himg] at hverdict ⊢
      exact hverdict)
    have htrue : passed = true := by
      rw [← hpassed, hfirmware]
      exact fatalTests_of_passes hgood (hkeeps.start.symm ▸ hkind) (hbare fun f hf h => hgood f hf (by rw [h]; decide))
    refine ⟨htrue, (hpass htrue).2.trans ?_⟩
    rw [hfirmware]
    rfl

end Sys2Proof.Machine
end

section
namespace Sys2Proof.Machine

/-! #### The boot (R361, R469) -/

/-- What placing and installing an image leaves as it is. -/
structure State.KeepsBoot (s r : State) : Prop where
  start : r.start = s.start
  time : r.time = s.time
  dram : r.dram = s.dram
  cap : r.cap = s.cap
  power : r.power = s.power
  threads : r.threads = s.threads
  active : r.ril.active = s.ril.active

theorem State.KeepsBoot.refl (s : State) : s.KeepsBoot s := ⟨rfl, rfl, rfl, rfl, rfl, rfl, rfl⟩

theorem State.KeepsBoot.trans {s r q : State} (h : s.KeepsBoot r) (k : r.KeepsBoot q) : s.KeepsBoot q :=
  ⟨k.start.trans h.start, k.time.trans h.time, k.dram.trans h.dram, k.cap.trans h.cap, k.power.trans h.power, k.threads.trans h.threads,
    k.active.trans h.active⟩

theorem State.KeepsBoot.ite {p : Prop} [Decidable p] {s r q : State} (h : s.KeepsBoot r) (k : s.KeepsBoot q) :
    s.KeepsBoot (if p then r else q) := by
  split
  · exact h
  · exact k

theorem forEach_keepsBoot {α : Type} (l : List α) (f : α → State → State) (h : ∀ a s, State.KeepsBoot s (f a s)) (s : State) :
    s.KeepsBoot (forEach l f s) := forEach_keeps .refl .trans l f h s

theorem modQueue_keepsBoot (q : Nat) (f : Queue → Queue) (s : State) : s.KeepsBoot (s.modQueue q f) := ⟨rfl, rfl, rfl, rfl, rfl, rfl, rfl⟩

theorem bindQueue_keepsBoot (q : Nat) (entry : BitVec 19) (n : Nat) (p : Priv) (ld period : Nat) (s : State) :
    s.KeepsBoot (bindQueue q entry n p ld period s) := modQueue_keepsBoot ..

theorem writeWindow_keepsBoot (a : Nat) (l : List Byte) (s : State) : s.KeepsBoot (writeWindow a l s) := ⟨rfl, rfl, rfl, rfl, rfl, rfl, rfl⟩

theorem giveQueues_keepsBoot (ld : Nat) (l : List Nat) (s : State) : s.KeepsBoot (giveQueues ld l s) :=
  forEach_keepsBoot _ _ (fun _ s => .ite (.refl s) (modQueue_keepsBoot ..)) s

theorem bindEntries_keepsBoot (l : List BindEntry) (step : Nat × State → BindEntry → Nat × State)
    (h : ∀ (r : Nat × State) b, r.2.KeepsBoot (step r b).2) (r : Nat × State) :
    r.2.KeepsBoot (l.foldl step r).2 := by
  induction l generalizing r with
  | nil => exact .refl _
  | cons b l ih => exact (h r b).trans (ih _)

theorem installBindings_keepsBoot (p : Priv) (ld base : Nat) (queues : List Nat) (img : List Byte) (s : State) :
    s.KeepsBoot (installBindings p ld base queues img s).2 :=
  bindEntries_keepsBoot _ _ (fun r b => by
    dsimp only
    generalize (if p = .tenant then queues.getD b.queue 0 else b.queue) = q
    split
    · exact bindQueue_keepsBoot ..
    · exact .refl _) (0, s)

theorem installImage_keepsBoot (target ld base : Nat) (data : Bool) (queues : List Nat) (img : List Byte) (s : State) :
    s.KeepsBoot (installImage target ld base data queues img s).2 := by
  unfold installImage
  dsimp only
  generalize hu : (if data = true then writeWindow (dataBase target ld + (sectionOf img secData).2.2) (secBytes img secData) s else s) = u
  have hdata : s.KeepsBoot u := hu ▸ .ite (writeWindow_keepsBoot ..) (.refl s)
  refine hdata.trans (.trans (.ite ?_ (.refl u)) (installBindings_keepsBoot ..))
  have hqueues := (writeWindow_keepsBoot (dataBase 2 ld) (tenantHeader ld img queues) u).trans (giveQueues_keepsBoot ld queues _)
  exact ⟨hqueues.start, hqueues.time, hqueues.dram, hqueues.cap, hqueues.power, hqueues.threads, hqueues.active⟩

theorem bootImage_keepsBoot (target ld : Nat) (bytes : List Byte) (s : State) : s.KeepsBoot (bootImage target ld bytes s) := by
  unfold bootImage
  dsimp only
  refine .trans ?_ (installImage_keepsBoot ..)
  split <;> exact ⟨rfl, rfl, rfl, rfl, rfl, rfl, rfl⟩

/-- The images of a boot, placed in an empty bank 0. -/
def placeImages (s : State) : State :=
  let noQueues : TenantImage → TenantImage := fun t => { t with queues := [] }
  let s : State := { s with img := { s.img with tenants := s.img.tenants.map noQueues } }
  let s := s.modRil fun r => { r with bank0 := {}, bank1 := {}, active := false, window := [], hints := [] }
  let s := bootImage 0 0 (s.img.copy false s.img.fwCopy) s
  let s := if s.img.opRuns then bootImage 1 0 (s.img.copy true s.img.opCopy) s else s
  forEach s.activeTenants (fun (t : TenantImage) => bootImage 2 t.ld t.bytes) s

theorem placeImages_keepsBoot (s : State) : (s.modRil fun r => { r with active := false }).KeepsBoot (placeImages s) := by
  unfold placeImages
  dsimp only
  refine .trans ?_ (forEach_keepsBoot _ _ (fun _ _ => bootImage_keepsBoot ..) _)
  refine .trans ?_ (.ite (bootImage_keepsBoot ..) (.refl _))
  refine .trans ?_ (bootImage_keepsBoot ..)
  exact ⟨rfl, rfl, rfl, rfl, rfl, rfl, rfl⟩

theorem boot_starts (s : State) : ∃ e : QEntry, boot s = startInvocation 0 0xFFFF
    (BitVec.ofNat 19 (secField (s.img.copy false s.img.fwCopy) secManifest 0 4)) 0 e ((placeImages s).takeFree.modStart fun r => { r with phase := 6 }) :=
  ⟨_, rfl⟩

theorem setReg_entry (n : Nat) (v : Word) (u : Thread) :
    (u.setReg n v).state = u.state ∧ (u.setReg n v).bank = u.bank ∧ (u.setReg n v).pc = u.pc := by
  unfold Thread.setReg
  split <;> exact ⟨rfl, rfl, rfl⟩

theorem entryRegs_entry (q : Nat) (e : QEntry) (u : Thread) :
    (entryRegs q e u).state = u.state ∧ (entryRegs q e u).bank = u.bank ∧ (entryRegs q e u).pc = u.pc := by
  simp only [entryRegs, setReg_entry, and_self]

/-- An invocation that starts changes its thread, which runs at the entry in the active bank, and counters. -/
theorem startInvocation_starts (t q : Nat) (entry : BitVec 19) (ld : Nat) (e : QEntry) (s : State) : let r := startInvocation t q entry ld e s
    r.start = s.start ∧ r.time = s.time ∧ r.dram = s.dram ∧ r.cap = s.cap ∧ r.power = s.power ∧ r.ril = s.ril ∧
      (r.thread t).state = .running ∧ (r.thread t).bank = s.ril.active ∧ (r.thread t).pc = entry ∧ ∀ k, k ≠ t → r.thread k = s.thread k := by
  unfold startInvocation
  dsimp only
  refine ⟨rfl, rfl, rfl, rfl, rfl, rfl, ?_, ?_, ?_, fun k hk => ?_⟩
  · rw [State.modThread_self, (entryRegs_entry ..).1]
  · rw [State.modThread_self, (entryRegs_entry ..).2.1]
    rfl
  · rw [State.modThread_self, (entryRegs_entry ..).2.2]
  · rw [State.modThread_other _ _ _ _ hk]; rfl

theorem exec_bootStart {s : State} (hrun : s.running = true) (hearly : s.start.earlyDone = true) (hlantern : s.start.lantern = false)
    (hphase : s.start.phase = 5) : ∃ r, exec .bootStart s = .next r ∧
      r.start = { s.start with phase := 6 } ∧ (r.thread 0).state = .running ∧ (r.thread 0).bank = false ∧ r.ril.active = false ∧
      (r.thread 0).pc = BitVec.ofNat 19 (secField (s.img.copy false s.img.fwCopy) secManifest 0 4) ∧ r.time = s.time ∧ r.dram = s.dram ∧
      r.cap = s.cap ∧ r.power = s.power ∧ ∀ t, 0 < t → t < 32 → (r.thread t).state = (s.thread t).state := by
  have hexec : exec .bootStart s = .next (boot s) := congrArg Host.Outcome.next (if_pos (by rw [hrun, hearly, hlantern, hphase]; rfl))
  obtain ⟨e, hboot⟩ := boot_starts s
  have hplaced := placeImages_keepsBoot s
  generalize placeImages s = u at *
  obtain ⟨hstart, htime, hdram, hcap, hpower, hril, hstate, hbank, hpc, hothers⟩ := startInvocation_starts 0 0xFFFF
    (BitVec.ofNat 19 (secField (s.img.copy false s.img.fwCopy) secManifest 0 4)) 0 e (u.takeFree.modStart fun r => { r with phase := 6 })
  rw [← hboot] at hstart htime hdram hcap hpower hril hstate hbank hpc hothers
  have hthread (t : Nat) : u.thread t = s.thread t := congrArg (Tab.get _ · t) hplaced.threads
  exact ⟨_, hexec, hstart.trans (congrArg (fun r : Start => { r with phase := 6 }) hplaced.start), hstate, hbank.trans hplaced.active,
    (congrArg Ril.active hril).trans hplaced.active, hpc, htime.trans hplaced.time, hdram.trans hplaced.dram, hcap.trans hplaced.cap,
    hpower.trans hplaced.power, fun t ht _ => by rw [hothers t (Nat.ne_of_gt ht)]; exact congrArg Thread.state (hthread t)⟩

end Sys2Proof.Machine
end

section
namespace Sys2Proof.Machine

/-! #### The release of the pads and the cutoff (R469, R494, R507) -/

/-- The occupied slots that are OFF. -/
def State.darkSlots (s : State) : List Nat := (List.range 48).filter fun n => (s.slot n).prsnt ∧ (s.slot n).state = .off

theorem slotPending_requestSlots {l : List Nat} {n : Nat} {s : State} (hn : n ∈ l) (hoff : (s.slot n).state = .off) (hprsnt : (s.slot n).prsnt = true)
    (hqueue : n ∉ s.slotMgr.queue) : (requestSlots l s).slotPending n = true := by
  have hmem : n ∈ (requestSlots l s).slotMgr.queue := List.mem_append_right _ (List.mem_filter.mpr ⟨hn, by
    simp [State.slotWaits, hoff, hprsnt, hqueue]⟩)
  simp [State.slotPending, State.slotWaits, hmem]

/-- Phase 7 goes on while a slot is pending. -/
theorem endPhase7_pending {n : Nat} {s : State} (hn : n < 48) (hpending : s.slotPending n = true) : endPhase7 s = s := by
  refine if_neg fun h => ?_
  have hall := List.all_eq_true.mp h.2 n (List.mem_range.mpr hn)
  rw [hpending] at hall
  cases hall

theorem endPhase7_rest (s : State) : endPhase7 s = { s with start := (endPhase7 s).start } := by
  unfold endPhase7
  split <;> rfl

/-- The channels without training yet take the state that their occupied slots give. -/
def settleChannels (s : State) : State :=
  forEach (List.range 24) (fun c s => s.modChan c fun h => { h with
    state := if h.state = .absent ∨ h.state = .untrained then (if (s.presentSlots c).isEmpty then .absent else .untrained) else h.state }) s

theorem forEach_modChan_rest (f : Nat → State → Chan → Chan) (l : List Nat) (s : State) :
    forEach l (fun c s => s.modChan c (f c s)) s = { s with chans := (forEach l (fun c s => s.modChan c (f c s)) s).chans } := by
  induction l generalizing s with
  | nil => rfl
  | cons c l ih => exact (ih _).trans rfl

theorem settleChannels_rest (s : State) : settleChannels s = { s with chans := (settleChannels s).chans } := forEach_modChan_rest ..

/-- The pads with their latches open. -/
def State.unlatched (s : State) : State := s.modPower fun p => { p with latched := false }

/-- Phase 7 as the release of the pads begins it: the occupied slots that are OFF ask for power. -/
def State.powering (s : State) : State := (requestSlots s.darkSlots (settleChannels s.unlatched)).modStart fun r => { r with phase := 7 }

theorem requestSlots_rest (l : List Nat) (s : State) : requestSlots l s = { s with slotMgr := (requestSlots l s).slotMgr } := rfl

theorem slotPending_modStart (f : Start → Start) (n : Nat) (s : State) : (s.modStart f).slotPending n = s.slotPending n := rfl

theorem powering_rest (s : State) : ∃ chans mgr, s.powering =
    { s with chans, slotMgr := mgr, power := { s.power with latched := false }, start := { s.start with phase := 7 } } := by
  have hrequest := requestSlots_rest s.darkSlots (settleChannels s.unlatched)
  generalize (requestSlots s.darkSlots (settleChannels s.unlatched)).slotMgr = mgr at hrequest
  have hsettled := settleChannels_rest s.unlatched
  generalize (settleChannels s.unlatched).chans = chans at hsettled
  refine ⟨chans, mgr, ?_⟩
  rw [State.powering, hrequest, hsettled]
  rfl

theorem slotPending_powering {n : Nat} {s : State} (hn : n ∈ s.darkSlots) (hqueue : n ∉ s.slotMgr.queue) : s.powering.slotPending n = true := by
  obtain ⟨-, hslot⟩ := List.mem_filter.mp hn
  obtain ⟨hprsnt, hoff⟩ := of_decide_eq_true hslot
  have hsettled : (settleChannels s.unlatched).slot n = s.slot n := by
    rw [settleChannels_rest]
    rfl
  have hmgr : (settleChannels s.unlatched).slotMgr = s.slotMgr := by
    rw [settleChannels_rest]
    rfl
  rw [State.powering, slotPending_modStart]
  generalize settleChannels s.unlatched = u at hsettled hmgr ⊢
  exact slotPending_requestSlots hn (hsettled ▸ hoff) (hsettled ▸ hprsnt) (hmgr ▸ hqueue)

section
variable {s : State} (hlatched : s.power.latched = true) (hphase : 6 ≤ s.start.phase)
include hlatched hphase

theorem releasePads_powers (h : s.start.kind = 1 ∨ s.start.memValid = false ∧ s.darkSlots ≠ []) :
    releasePads s = endPhase7 s.powering :=
  (if_pos (by rw [hlatched, decide_eq_true hphase]; rfl)).trans (if_pos h)

theorem releasePads_trains (h : ¬(s.start.kind = 1 ∨ s.start.memValid = false ∧ s.darkSlots ≠ [])) :
    releasePads s = s.unlatched.modStart fun r => { r with phase := 8, phase8At := s.now } :=
  (if_pos (by rw [hlatched, decide_eq_true hphase]; rfl)).trans (if_neg h)

theorem releasePads_latched : let r := releasePads s
    r.regwin = s.regwin ∧ r.time = s.time ∧ r.dram = s.dram ∧ r.power.latched = false ∧ r.power.cxlLatched = s.power.cxlLatched ∧
      (s.start.kind ≠ 1 → s.start.memValid = true ∨ s.darkSlots = [] → r.start = { s.start with phase := 8, phase8At := s.now }) ∧
      (s.start.kind = 1 ∨ s.start.memValid = false → (∀ m ∈ s.darkSlots, m ∉ s.slotMgr.queue) → s.darkSlots ≠ [] → r.start.phase = 7) := by
  by_cases hpowers : s.start.kind = 1 ∨ s.start.memValid = false ∧ s.darkSlots ≠ []
  case neg =>
    rw [releasePads_trains hlatched hphase hpowers]
    exact ⟨rfl, rfl, rfl, rfl, rfl, fun _ _ => rfl, fun h _ hdark => absurd (h.imp_right fun h => ⟨h, hdark⟩) hpowers⟩
  case pos =>
    obtain ⟨chans, mgr, hrest⟩ := powering_rest s
    rw [releasePads_powers hlatched hphase hpowers]
    refine ⟨?_, ?_, ?_, ?_, ?_, fun hkind h => ?_, fun _ hqueue hdark => ?_⟩
    · rw [endPhase7_rest, hrest]
    · rw [endPhase7_rest, hrest]
    · rw [endPhase7_rest, hrest]
    · rw [endPhase7_rest, hrest]
    · rw [endPhase7_rest, hrest]
    · obtain hcold | ⟨hmem, hne⟩ := hpowers
      · exact absurd hcold hkind
      · exact (h.elim (fun h => absurd (hmem.symm.trans h) Bool.false_ne_true) hne).elim
    · obtain ⟨n, hn⟩ := List.exists_mem_of_ne_nil _ hdark
      rw [endPhase7_pending (List.mem_range.mp (List.mem_filter.mp hn).1) (slotPending_powering hn (hqueue n hn))]
      rfl

end

theorem releasePads_refused {s : State} (h : s.power.latched = false ∨ s.start.phase < 6) : releasePads s = s :=
  if_neg fun hboth => by
    obtain ⟨hlatched, hphase⟩ := Bool.and_eq_true_iff.mp hboth
    obtain h | h := h
    · exact absurd (h.symm.trans hlatched) Bool.false_ne_true
    · exact absurd (of_decide_eq_true hphase) (BitVec.not_le.mpr h)

/-- The mailbox engine's release of the pads. -/
theorem exec_padRelease {s : State} (hrun : s.running = true) (hearly : s.start.earlyDone = true) (hlantern : s.start.lantern = false)
    (hdoze : s.power.dozing = false) (hawake : s.awake 0) : exec (.padRelease .engine) s = .next (releasePads (s.served 0)) :=
  congrArg Host.Outcome.next ((engineWrite_sets (type := 0x01) (inst := 0) (o := 0x700) (w := 1) hrun hearly hdoze hlantern rfl rfl (by decide)
    hawake (by
      intro f hf
      fin_cases hf <;> rfl)).trans rfl)

theorem cutoffNs_le (s : State) : s.cutoffNs ≤ 4500000000 := by
  unfold State.cutoffNs msNs
  split <;> omega

theorem cutoffNs_single {s : State} (h : ∀ c, c < 24 → (s.slot (2 * c)).prsnt = false ∨ (s.slot (2 * c + 1)).prsnt = false) :
    s.cutoffNs = 2500000000 := by
  have hany : (List.range 24).any (fun c => decide ((s.presentSlots c).length = 2)) = false := by
    rw [List.any_eq_false]
    intro c hc
    have hone := h c (List.mem_range.mp hc)
    unfold State.presentSlots
    obtain h | h := hone <;> simp [List.filter, h] <;> split <;> simp
  unfold State.cutoffNs msNs
  rw [hany]
  rfl

theorem exec_phase8Cutoff {s : State} (hrun : s.running = true) (hphase : s.start.phase = 8) (hnow : s.start.phase8At + s.cutoffNs ≤ s.time.now) :
    exec .phase8Cutoff s = .next { s with start := { s.start with phase8Done := true } } :=
  congrArg Host.Outcome.next (if_pos (by rw [hrun, hphase, State.now, decide_eq_true hnow]; rfl))

/-- Settles O25, by what each step of a start changes: the pads' release, early Vigil with the tests that fail fatally, the boot, the
release of the latched pads and the cutoff. -/
theorem vigilThePadsAndTheBootLeadToPhaseEight : Obligations.VigilThePadsAndTheBootLeadToPhaseEight := by
  unfold Obligations.VigilThePadsAndTheBootLeadToPhaseEight
  intro s hpowered hhalted hentry
  have hrun : s.running = true := by simp [State.running, hpowered, hhalted, hentry]
  refine ⟨exec_cxlPadRelease hrun, fun failed times fw0 fw1 op0 op1 hearly => ?_, fun hearly hlantern hphase => exec_bootStart hrun hearly hlantern hphase,
    fun hearly hlantern hdoze hstate htrans => ?_, fun hphase hcut => exec_phase8Cutoff hrun hphase ?_⟩
  · obtain ⟨r, hexec, hdone, hpads, halm, htime, hdram, hhead, hpass, hfail, hrest⟩ :=
      exec_earlyVigilDone hrun hearly failed times fw0 fw1 op0 op1
    obtain ⟨hfailures, hresets, hnone, hgood⟩ := hrest
    refine ⟨r, hexec, hdone, hpads, halm, htime, hdram, hhead, ⟨hpass, fun ⟨_, hphase⟩ => ?_⟩, hfail, hfailures, fun hkind hlen => ?_, hnone, hgood⟩
    · by_contra hnot
      rw [(hfail (Bool.eq_false_iff.mpr hnot)).2.1] at hphase
      exact absurd hphase (by decide)
    · exact hresets hkind (le_min (le_refl 3) hlen)
  · have hexec := exec_padRelease hrun hearly hlantern hdoze ⟨hstate, htrans⟩
    refine ⟨_, hexec, ?_⟩
    by_cases hrelease : s.power.latched = true ∧ 6 ≤ s.start.phase
    · obtain ⟨hregwin, htime, hdram, hlatched, hcxl, htrains, hpowers⟩ := releasePads_latched (s := s.served 0) hrelease.1 hrelease.2
      refine ⟨hregwin, htime, hdram, fun _ _ => ⟨hlatched, hcxl, htrains, hpowers⟩, fun h => ?_⟩
      obtain h | h := h
      · exact absurd (h.symm.trans hrelease.1) Bool.false_ne_true
      · exact absurd hrelease.2 (BitVec.not_le.mpr h)
    · have hrefused : s.power.latched = false ∨ s.start.phase < 6 := by
        by_cases hlatched : s.power.latched = true
        · exact .inr (BitVec.not_le.mp fun h => hrelease ⟨hlatched, h⟩)
        · exact .inl (Bool.eq_false_iff.mpr hlatched)
      rw [releasePads_refused (s := s.served 0) hrefused]
      exact ⟨rfl, rfl, rfl, fun hlatched hphase => absurd ⟨hlatched, hphase⟩ hrelease, fun _ => ⟨rfl, rfl, rfl⟩⟩
  · obtain hcut | ⟨hcut, hsingle⟩ := hcut
    · exact (Nat.add_le_add_left (cutoffNs_le s) _).trans hcut
    · exact cutoffNs_single hsingle ▸ hcut

end Sys2Proof.Machine
end

section
namespace Sys2Proof.Machine

/-! ### The bytes of words, and the words of a block (R156) -/

theorem leValue_lowBytes (x : Word) (w : Nat) :
    leValue ((List.range w).map fun i => x.extractLsb' (8 * i) 8) = x.toNat % 2 ^ (8 * w) := by
  refine Nat.eq_of_testBit_eq fun k => ?_
  rw [leValue_testBit, Nat.testBit_mod_two_pow]
  by_cases hk : k / 8 < w
  · have hlt : k < 8 * w := by omega
    have hget : ((List.range w).map fun i => x.extractLsb' (8 * i) 8).getD (k / 8) 0 = x.extractLsb' (8 * (k / 8)) 8 := by
      simp [List.getD, hk]
    rw [hget, BitVec.getLsbD_extractLsb', Nat.div_add_mod]
    simp [hlt, Nat.mod_lt, BitVec.getLsbD]
  · have hge : ¬ k < 8 * w := by omega
    simp [List.getD, hk, hge]

theorem wordBytes_leValue {l : List Byte} (h : l.length = 8) : wordBytes (BitVec.ofNat 64 (leValue l)) = l := by
  refine List.ext_getElem (by simp [wordBytes, h]) fun i hi hil => ?_
  refine BitVec.eq_of_getLsbD_eq fun k hk => ?_
  have hbound : 8 * i + k < 64 := by omega
  have hdiv : (8 * i + k) / 8 = i := by omega
  have hmod : (8 * i + k) % 8 = k := by omega
  have hget : (wordBytes (BitVec.ofNat 64 (leValue l)))[i] = (BitVec.ofNat 64 (leValue l)).extractLsb' (8 * i) 8 := by simp [wordBytes]
  rw [hget, BitVec.getLsbD_extractLsb', BitVec.getLsbD_ofNat, leValue_testBit, hdiv, hmod]
  simp [hk, hbound, List.getD, hil]

/-- The words of a block spell its bytes. -/
theorem flatMap_blockWords {n : Nat} {l : List Byte} (h : l.length = 8 * n) : (blockWords n l).flatMap wordBytes = l := by
  induction n generalizing l with
  | zero => exact (List.eq_nil_of_length_eq_zero h).symm
  | succ n ih =>
    rw [blockWords, List.flatMap_cons, wordBytes_leValue (by rw [List.length_take]; omega), ih (by rw [List.length_drop]; omega),
      List.take_append_drop]

theorem length_blockWords (n : Nat) (l : List Byte) : (blockWords n l).length = n := by
  induction n generalizing l with
  | zero => rfl
  | succ n ih => rw [blockWords, List.length_cons, ih]

theorem length_intLe (w : Nat) (d : Int) : (intLe w d).length = w := by simp [intLe]

theorem length_wordDeltas (a : Word) (ws : List Word) : (wordDeltas (a :: ws)).length = ws.length := by
  induction ws generalizing a with
  | nil => rfl
  | cons b t ih => rw [wordDeltas, List.length_cons, ih, List.length_cons]

theorem length_flatMap_intLe (w : Nat) (l : List Int) : (l.flatMap (intLe w)).length = l.length * w := by
  simp [List.length_flatMap, length_intLe]

/-- A delta that fits the width is read back from its low bytes, whatever follows them. -/
theorem signedLe_intLe {k : Nat} (hk : k ≤ 2) {d : Int} (hlow : -(2 ^ (8 * 2 ^ k - 1)) ≤ d) (hhigh : d < 2 ^ (8 * 2 ^ k - 1)) (rest : List Byte) :
    signedLe (2 ^ k) (intLe (2 ^ k) d ++ rest) = d := by
  have htake : (intLe (2 ^ k) d ++ rest).take (2 ^ k) = intLe (2 ^ k) d := List.take_left' (length_intLe _ _)
  have hval : leValue (intLe (2 ^ k) d) = (d % 2 ^ 64).toNat % 2 ^ (8 * 2 ^ k) := by
    rw [intLe, leValue_lowBytes, BitVec.toNat_ofInt]; rfl
  simp only [signedLe, htake, hval]
  interval_cases k <;> norm_num at hlow hhigh ⊢ <;> split <;> omega

/-- Word by word, the deltas rebuild the words after the first. -/
theorem deltaWords_wordDeltas {k : Nat} (hk : k ≤ 2) (a : Word) (ws : List Word) (hfit : deltasFit (2 ^ k) (wordDeltas (a :: ws)) = true)
    (rest : List Byte) :
    deltaWords (2 ^ k) ws.length a ((wordDeltas (a :: ws)).flatMap (intLe (2 ^ k)) ++ rest) = ws.flatMap wordBytes := by
  induction ws generalizing a with
  | nil => rfl
  | cons b t ih =>
    simp only [wordDeltas, deltasFit, List.all_cons, Bool.and_eq_true, decide_eq_true_eq] at hfit
    obtain ⟨⟨hlow, hhigh⟩, htail⟩ := hfit
    have hnext : a + BitVec.ofInt 64 (b - a).toInt = b := by rw [BitVec.ofInt_toInt]; bv_omega
    rw [wordDeltas, List.flatMap_cons, List.append_assoc, List.length_cons, deltaWords, signedLe_intLe hk hlow hhigh, hnext,
      List.drop_left' (length_intLe _ _), ih b htail, List.flatMap_cons]

/-! ### The last non-zero byte (R153, R158) -/

theorem padBlock_take_usedLength {l : List Byte} (h : l.length = 1024) : padBlock (l.take (usedLength l)) = l := by
  set kept := (l.reverse.dropWhile (· = 0)).reverse with hkept
  set zeros := (l.reverse.takeWhile (· = 0)).reverse with hzeros
  have hsplit : l = kept ++ zeros := by
    rw [hkept, hzeros, ← List.reverse_append, List.takeWhile_append_dropWhile, List.reverse_reverse]
  have hlen : usedLength l = kept.length := by rw [hkept, List.length_reverse, usedLength]
  have hall : zeros = List.replicate zeros.length 0 := by
    refine List.eq_replicate_of_mem fun b hb => ?_
    simpa using List.mem_takeWhile_imp (List.mem_reverse.mp hb)
  have htotal : kept.length + zeros.length = 1024 := by rw [← h, hsplit, List.length_append]
  have htake : l.take (usedLength l) = kept := by rw [hlen, hsplit]; exact List.take_left' rfl
  rw [padBlock, htake, show 1024 - kept.length = zeros.length by omega, ← hall, ← hsplit]

theorem usedLength_eq_zero_iff (l : List Byte) : usedLength l = 0 ↔ ∀ b ∈ l, b = 0 := by
  rw [usedLength, List.length_eq_zero_iff, List.dropWhile_eq_nil_iff]
  simp

theorem usedLength_le (l : List Byte) : usedLength l ≤ l.length := by
  simpa [usedLength] using (List.dropWhile_sublist (· = 0) (l := l.reverse)).length_le

/-! ### The header (R151) -/

theorem leValue_blockHeader {m len : Nat} (hm : m < 3) (hlen : len ≤ 960) (rest : List Byte) :
    leValue ((blockHeader m len ++ rest).take 2) = m + 4 + 64 * len := by
  simp only [blockHeader, List.cons_append, List.take_succ_cons, List.take_zero, leValue, BitVec.toNat_ofNat]
  omega

/-- A well-formed encoding of a block: it fits 15 slots, and decodes to the block from its slots, whatever fills the last of them. -/
def Encodes (blk l : List Byte) : Prop :=
  3 ≤ l.length ∧ l.length ≤ 960 ∧ ∀ rest, decodeEncoded (slotsOf l) (l ++ rest) = .data blk

/-- The decoder of an encoding's method gets its body. -/
theorem decodeEncoded_blockHeader {m : Nat} {body : List Byte} (hm : m < 3) (hbody : body ≠ []) (hlen : body.length + 2 ≤ 960) (rest : List Byte) :
    decodeEncoded (slotsOf (blockHeader m (body.length + 2) ++ body)) (blockHeader m (body.length + 2) ++ body ++ rest) =
      if m = 0 then .data (padBlock body) else if m = 1 then decodeTokens 1024 body []
      else decodeDelta (body.length + 2) (blockHeader m (body.length + 2) ++ body ++ rest) := by
  have hpos : 0 < body.length := List.length_pos_iff.mpr hbody
  have hh := leValue_blockHeader hm hlen (body ++ rest)
  rw [← List.append_assoc] at hh
  have hslots : slotsOf (blockHeader m (body.length + 2) ++ body) = (body.length + 2 + 63) / 64 := by
    simp only [slotsOf, blockHeader, List.cons_append, List.nil_append, List.length_cons]
  have htake : ((blockHeader m (body.length + 2) ++ body ++ rest).take (body.length + 2)).drop 2 = body := by
    simp [blockHeader]
  have hlen' : (m + 4 + 64 * (body.length + 2)) / 64 = body.length + 2 := by omega
  have hmethod : (m + 4 + 64 * (body.length + 2)) % 4 = m := by omega
  have hversion : (m + 4 + 64 * (body.length + 2)) / 4 % 16 = 1 := by omega
  simp only [decodeEncoded, hh, hlen', hmethod, hversion, hslots, htake]
  rw [if_neg (by simp), if_neg (by omega), if_neg (by omega)]

theorem length_blockHeader_append (m : Nat) (body : List Byte) :
    (blockHeader m (body.length + 2) ++ body).length = body.length + 2 := rfl

theorem encodes_blockHeader {blk : List Byte} {m : Nat} {body : List Byte} (hm : m < 3) (hbody : body ≠ []) (hlen : body.length + 2 ≤ 960)
    (hdec : ∀ rest, (if m = 0 then Decoded.data (padBlock body) else if m = 1 then decodeTokens 1024 body []
      else decodeDelta (body.length + 2) (blockHeader m (body.length + 2) ++ body ++ rest)) = .data blk) :
    Encodes blk (blockHeader m (body.length + 2) ++ body) := by
  have hpos : 0 < body.length := List.length_pos_iff.mpr hbody
  rw [Encodes, length_blockHeader_append]
  exact ⟨by omega, hlen, fun rest => (decodeEncoded_blockHeader hm hbody hlen rest).trans (hdec rest)⟩

/-! ### Methods 0 and 2 (R153, R156) -/

theorem encodes_of_encodePrefix {blk l : List Byte} (hblk : blk.length = 1024) (hused : usedLength blk ≠ 0) (h : encodePrefix blk = some l) :
    Encodes blk l := by
  have hle := usedLength_le blk
  have hlen : (blk.take (usedLength blk)).length = usedLength blk := by rw [List.length_take]; omega
  simp only [encodePrefix] at h
  split at h
  case isTrue hfits =>
    obtain rfl := Option.some.inj h
    have hdec := encodes_blockHeader (blk := blk) (m := 0) (body := blk.take (usedLength blk)) (by decide)
      (fun hnil => hused (by rw [← hlen, hnil]; rfl)) (by rw [hlen]; exact hfits) fun _ => by
        rw [if_pos rfl, padBlock_take_usedLength hblk]
    rwa [hlen] at hdec
  case isFalse => exact absurd h (by simp)

theorem encodes_of_encodeDelta {blk l : List Byte} (hblk : blk.length = 1024) (h : encodeDelta blk = some l) : Encodes blk l := by
  obtain ⟨a, ws, hws⟩ : ∃ a ws, blockWords 128 blk = a :: ws := ⟨_, _, rfl⟩
  have hcount : ws.length = 127 := by
    have := length_blockWords 128 blk
    rw [hws, List.length_cons] at this
    omega
  have hbytes : blk = wordBytes a ++ ws.flatMap wordBytes := by
    rw [← List.flatMap_cons, ← hws, flatMap_blockWords hblk]
  have hfirst : blk.take 8 = wordBytes a := by rw [hbytes]; exact List.take_left' rfl
  simp only [encodeDelta, hws] at h
  split at h
  case h_1 => exact absurd h (by simp)
  case h_2 k hfind =>
    obtain rfl := Option.some.inj h
    have hk : k ≤ 2 := by have := List.mem_of_find?_eq_some hfind; simp at this; omega
    have hfit : deltasFit (2 ^ k) (wordDeltas (a :: ws)) = true := by simpa using List.find?_some hfind
    set body := [BitVec.ofNat 8 k] ++ blk.take 8 ++ (wordDeltas (a :: ws)).flatMap (intLe (2 ^ k)) with hbody
    have hlen : body.length + 2 = 11 + 127 * 2 ^ k := by
      simp only [hbody, List.length_append, List.length_singleton, List.length_take, hblk, length_flatMap_intLe, length_wordDeltas, hcount]
      omega
    have hcap : 127 * 2 ^ k ≤ 508 := by interval_cases k <;> decide
    have hdec := encodes_blockHeader (blk := blk) (m := 2) (body := body) (by decide) (by simp [hbody]) (by omega) fun rest => ?_
    · rw [hlen, hbody, ← List.append_assoc, ← List.append_assoc] at hdec
      exact hdec
    · have hword : BitVec.ofNat 64 (leValue (wordBytes a)) = a := by
        rw [wordBytes, leValue_lowBytes]
        exact BitVec.eq_of_toNat_eq (by rw [BitVec.toNat_ofNat]; omega)
      have hk8 : k % 256 = k := by omega
      have hk4 : k % 4 = k := by omega
      rw [if_neg (by decide), if_neg (by decide)]
      have hlist : blockHeader 2 (body.length + 2) ++ body ++ rest = BitVec.ofNat 8 (2 + 4 + 64 * (body.length + 2)) ::
          BitVec.ofNat 8 ((2 + 4 + 64 * (body.length + 2)) / 256) :: BitVec.ofNat 8 k ::
            (wordBytes a ++ ((wordDeltas (a :: ws)).flatMap (intLe (2 ^ k)) ++ rest)) := by
        simp [blockHeader, hbody, hfirst]
      have hwlen : (wordBytes a).length = 8 := by simp [wordBytes]
      simp only [decodeDelta, hlist, List.getD_cons_succ, List.getD_cons_zero, BitVec.toNat_ofNat, List.drop_succ_cons, List.drop_zero,
        Nat.reducePow, hk8, hk4, List.take_left' hwlen, List.drop_left' hwlen, hword]
      rw [if_neg (by omega), ← hcount, deltaWords_wordDeltas hk a ws hfit, ← hbytes]

/-! ### Method 1: what the tokens of the search say (R154, R155, R158) -/

theorem commonPrefix_le (fuel : Nat) (a b : List Byte) : commonPrefix fuel a b ≤ fuel ∧ commonPrefix fuel a b ≤ b.length := by
  induction fuel generalizing a b with
  | zero => exact ⟨le_refl 0, Nat.zero_le _⟩
  | succ n ih =>
    cases a with
    | nil => exact ⟨Nat.zero_le _, Nat.zero_le _⟩
    | cons x s =>
      cases b with
      | nil => exact ⟨Nat.zero_le _, Nat.zero_le _⟩
      | cons y t =>
        obtain ⟨hfuel, hlen⟩ := ih s t
        rw [commonPrefix]
        split
        · rw [List.length_cons]; omega
        · exact ⟨Nat.zero_le _, Nat.zero_le _⟩

/-- As far as their common beginning goes two lists agree. -/
theorem getElem?_commonPrefix (fuel : Nat) (a b : List Byte) {j : Nat} (h : j < commonPrefix fuel a b) : a[j]? = b[j]? := by
  induction fuel generalizing a b j with
  | zero => exact absurd h (Nat.not_lt_zero _)
  | succ n ih =>
    cases a with
    | nil => exact absurd h (Nat.not_lt_zero _)
    | cons x s =>
      cases b with
      | nil => exact absurd h (Nat.not_lt_zero _)
      | cons y t =>
        rw [commonPrefix] at h
        split at h
        case isTrue hxy =>
          cases j with
          | zero => rw [hxy]; rfl
          | succ j => exact ih s t (by omega)
        case isFalse => exact absurd h (Nat.not_lt_zero _)

/-- A match of a length at an offset: the bytes from `pos` on repeat those `off` before them, within the data and the format's ranges. -/
structure IsMatch (data : List Byte) (pos n off : Nat) : Prop where
  positive : 0 < off
  back : off ≤ pos
  near : off ≤ 1024
  short : n ≤ 259
  within : pos + n ≤ data.length
  same : ∀ j < n, data[pos - off + j]? = data[pos + j]?

/-- A common beginning of the data from an earlier place and from here is a match. -/
theorem commonPrefix_isMatch (data : List Byte) {pos i : Nat} (hpos : pos ≤ data.length) (hi : i < min 1024 pos) :
    IsMatch data pos (commonPrefix 259 (data.drop (pos - (i + 1))) (data.drop pos)) (i + 1) := by
  obtain ⟨hshort, hlen⟩ := commonPrefix_le 259 (data.drop (pos - (i + 1))) (data.drop pos)
  rw [List.length_drop] at hlen
  refine ⟨Nat.succ_pos i, by omega, by omega, hshort, by omega, fun j hj => ?_⟩
  have hsame := getElem?_commonPrefix _ _ _ hj
  rwa [List.getElem?_drop, List.getElem?_drop] at hsame

/-- What the search finds is a match. -/
theorem bestMatch_isMatch (data : List Byte) {pos : Nat} (hpos : pos ≤ data.length) (h : (bestMatch data pos).1 ≠ 0) :
    IsMatch data pos (bestMatch data pos).1 (bestMatch data pos).2 := by
  refine List.foldlRecOn (motive := fun (best : Nat × Nat) => best.1 ≠ 0 → IsMatch data pos best.1 best.2) _ _ (fun h => absurd rfl h)
    (fun best hbest i hi _ => ?_) h
  dsimp only at *
  split
  · exact commonPrefix_isMatch data hpos (List.mem_range.mp hi)
  · rename_i hold
    rw [if_neg hold] at *
    exact hbest ‹_›

/-- The decoder's copy of a match lengthens its output by the match. -/
theorem copyBack_match {data : List Byte} {pos n off : Nat} (h : IsMatch data pos n off) :
    copyBack off n (data.take pos).reverse = (data.take (pos + n)).reverse := by
  induction n generalizing pos with
  | zero => rfl
  | succ n ih =>
    obtain ⟨hpositive, hback, hnear, hshort, hwithin, hsame⟩ := h
    have hbyte : (data.take pos).reverse.getD (off - 1) 0 = data[pos] := by
      have hfirst := hsame 0 (Nat.succ_pos n)
      have hplace : pos - 1 - (off - 1) = pos - off + 0 := by omega
      rw [List.getD, List.getElem?_reverse (by rw [List.length_take]; omega), List.length_take, min_eq_left (by omega), hplace,
        List.getElem?_take_of_lt (by omega), hfirst, Nat.add_zero, List.getElem?_eq_getElem (by omega)]
      rfl
    have hnext : data[pos] :: (data.take pos).reverse = (data.take (pos + 1)).reverse := by
      rw [List.take_succ_eq_append_getElem (by omega), List.reverse_append]
      rfl
    rw [copyBack, hbyte, hnext, ih ⟨hpositive, by omega, hnear, by omega, by omega, fun j hj => ?_⟩, show pos + 1 + n = pos + (n + 1) by omega]
    have hj := hsame (j + 1) (by omega)
    rwa [show pos - off + (j + 1) = pos + 1 - off + j by omega, show pos + (j + 1) = pos + 1 + j by omega] at hj

theorem decodeTokens_nil (fuel : Nat) (out : List Byte) : decodeTokens fuel [] out = .data (padBlock out.reverse) := by
  cases fuel <;> rfl

/-- The decoder appends the bytes of a literal token. -/
theorem decodeTokens_literal {lit : List Byte} (hpos : 0 < lit.length) (hlit : lit.length ≤ 64) (fuel : Nat) (rest out : List Byte)
    (hout : out.length + lit.length ≤ 1024) :
    decodeTokens (fuel + 1) (literalToken lit ++ rest) out = decodeTokens fuel rest (lit.reverse ++ out) := by
  have htoken : literalToken lit = BitVec.ofNat 8 (lit.length - 1) :: lit := by
    rw [literalToken, if_neg (by simpa using List.length_pos_iff.mp hpos)]
  have hval : (BitVec.ofNat 8 (lit.length - 1)).toNat + 1 = lit.length := by rw [BitVec.toNat_ofNat]; omega
  rw [htoken, List.cons_append, decodeTokens]
  simp only [hval, List.length_append]
  rw [if_pos (by omega), if_neg (by omega), List.take_left' rfl, List.drop_left' rfl]

/-- The decoder copies back what a match token names. -/
theorem decodeTokens_match {n off : Nat} (hlow : 4 ≤ n) (hhigh : n ≤ 259) (hpos : 0 < off) (hnear : off ≤ 1024) (fuel : Nat)
    (rest out : List Byte) (hback : off ≤ out.length) (hout : out.length + n ≤ 1024) :
    decodeTokens (fuel + 1) (matchToken n off ++ rest) out = decodeTokens fuel rest (copyBack off n out) := by
  have hhigh2 : (off - 1) / 256 < 4 := by omega
  have hoff : (off - 1) / 256 * 256 + (off - 1) % 256 + 1 = off := by omega
  rw [matchToken]
  split
  · have hval : (BitVec.ofNat 8 (0x40 + 4 * (n - 4) + (off - 1) / 256)).toNat = 0x40 + 4 * (n - 4) + (off - 1) / 256 := by
      rw [BitVec.toNat_ofNat]; omega
    have hfirst : 0x40 + 4 * (n - 4) + (off - 1) / 256 < 0x80 := by omega
    have hmod : (0x40 + 4 * (n - 4) + (off - 1) / 256) % 4 = (off - 1) / 256 := by omega
    have hlen : (0x40 + 4 * (n - 4) + (off - 1) / 256) / 4 % 16 + 4 = n := by omega
    simp only [List.cons_append, List.nil_append, decodeTokens, hval, hmod, hlen, List.getD_cons_zero, BitVec.toNat_ofNat, Nat.reducePow,
      List.length_cons]
    rw [if_neg (by omega), if_pos (by omega), if_pos hfirst, if_neg (by omega), hoff, if_neg (by omega), if_pos hfirst, if_neg (by omega)]
    rfl
  · have hval : (BitVec.ofNat 8 (0x80 + (off - 1) / 256)).toNat = 0x80 + (off - 1) / 256 := by rw [BitVec.toNat_ofNat]; omega
    have hmod : (0x80 + (off - 1) / 256) % 4 = (off - 1) / 256 := by omega
    have hlen : (n - 4) % 256 + 4 = n := by omega
    simp only [List.cons_append, List.nil_append, decodeTokens, hval, hmod, List.getD_cons_zero, List.getD_cons_succ, BitVec.toNat_ofNat,
      Nat.reducePow, List.length_cons, hlen]
    have hfirst : ¬ 0x80 + (off - 1) / 256 < 0x80 := by omega
    rw [if_neg (by omega), if_pos (by omega), if_neg hfirst, if_neg (by omega), hoff, if_neg (by omega), if_neg hfirst, if_neg (by omega)]
    rfl

/-- The pending literal, when it goes out, uses no more of the decoder's fuel than it has bytes. -/
theorem decodeTokens_pending {lit : List Byte} (hlit : lit.length ≤ 64) {fuel : Nat} (hfuel : lit.length ≤ fuel) (rest out : List Byte)
    (hout : out.length + lit.length ≤ 1024) :
    ∃ k, fuel ≤ k + lit.length ∧ decodeTokens fuel (literalToken lit ++ rest) out = decodeTokens k rest (lit.reverse ++ out) := by
  cases hlen : lit.length with
  | zero =>
    obtain rfl := List.eq_nil_of_length_eq_zero hlen
    exact ⟨fuel, le_refl _, rfl⟩
  | succ m =>
    obtain ⟨k, rfl⟩ : ∃ k, fuel = k + 1 := ⟨fuel - 1, by omega⟩
    exact ⟨k, by omega, decodeTokens_literal (by omega) hlit k rest out hout⟩

/-- The literal that waits for its token: the bytes from `start` up to the position. -/
def pendingLit (data : List Byte) (start pos : Nat) : List Byte := (data.take pos).drop start

theorem length_pendingLit {data : List Byte} {start pos : Nat} (hpos : pos ≤ data.length) : (pendingLit data start pos).length = pos - start := by
  rw [pendingLit, List.length_drop, List.length_take, min_eq_left hpos]

theorem pendingLit_self (data : List Byte) (pos : Nat) : pendingLit data pos pos = [] :=
  List.drop_eq_nil_of_le (List.length_take_le _ _)

theorem pendingLit_succ {data : List Byte} {start pos : Nat} (hstart : start ≤ pos) (hpos : pos < data.length) :
    pendingLit data start pos ++ [data.getD pos 0] = pendingLit data start (pos + 1) := by
  have hget : data.getD pos 0 = data[pos] := by rw [List.getD, List.getElem?_eq_getElem hpos]; rfl
  rw [pendingLit, pendingLit, List.take_succ_eq_append_getElem hpos, List.drop_append_of_le_length (by rw [List.length_take]; omega), hget]

theorem pendingLit_output {data : List Byte} {start pos : Nat} (hstart : start ≤ pos) :
    (pendingLit data start pos).reverse ++ (data.take start).reverse = (data.take pos).reverse := by
  have hsplit : data.take pos = data.take start ++ pendingLit data start pos := by
    conv_lhs => rw [← List.take_append_drop start (data.take pos), List.take_take, min_eq_left hstart]
    rfl
  rw [hsplit, List.reverse_append]

/-- Past the last byte, the literal that still waits completes the data. -/
theorem decodeTokens_lastLiteral {data : List Byte} (hdata : data.length ≤ 1024) {start pos k : Nat} (hstart : start ≤ pos)
    (hpos : pos ≤ data.length) (hlit : pos - start < 64) (hk : data.length ≤ k + start) (hall : data.length ≤ pos) :
    decodeTokens k (literalToken (pendingLit data start pos)) (data.take start).reverse = .data (padBlock data) := by
  have hlength := length_pendingLit (start := start) hpos
  have hout : (data.take start).reverse.length = start := by rw [List.length_reverse, List.length_take]; omega
  obtain ⟨m, _, hdec⟩ := decodeTokens_pending (lit := pendingLit data start pos) (fuel := k) (by omega) (by omega) []
    (data.take start).reverse (by omega)
  rw [List.append_nil] at hdec
  rw [hdec, decodeTokens_nil, pendingLit_output hstart, List.reverse_reverse, List.take_of_length_le hall]

/-- The search's tokens, from a position with its pending literal on, decode to the data: the decoder's output stands where that literal
starts, and its fuel covers the bytes still to come. -/
theorem decodeTokens_encodeTokens {data : List Byte} (hdata : data.length ≤ 1024) (fuel : Nat) {start pos k : Nat} (hstart : start ≤ pos)
    (hpos : pos ≤ data.length) (hlit : pos - start < 64) (hend : data.length ≤ pos + fuel) (hk : data.length ≤ k + start) :
    decodeTokens k (encodeTokens data fuel pos (pendingLit data start pos)) (data.take start).reverse = .data (padBlock data) := by
  induction fuel generalizing start pos k with
  | zero => exact decodeTokens_lastLiteral hdata hstart hpos hlit hk hend
  | succ fuel ih =>
    have hlength (p : Nat) (hp : p ≤ data.length) : (pendingLit data start p).length = p - start := length_pendingLit hp
    have hout (p : Nat) (hp : p ≤ data.length) : (data.take p).reverse.length = p := by rw [List.length_reverse, List.length_take]; omega
    rw [encodeTokens]
    split
    case isTrue hall => exact decodeTokens_lastLiteral hdata hstart hpos hlit hk hall
    case isFalse hmore =>
      dsimp only
      split
      case isTrue hmatch =>
        have hm := bestMatch_isMatch data hpos (by omega)
        have hwithin := hm.within
        obtain ⟨m, hm', hdec⟩ := decodeTokens_pending (lit := pendingLit data start pos) (fuel := k) (by rw [hlength pos hpos]; omega)
          (by rw [hlength pos hpos]; omega)
          (matchToken (bestMatch data pos).1 (bestMatch data pos).2 ++ encodeTokens data fuel (pos + (bestMatch data pos).1) [])
          (data.take start).reverse (by rw [hlength pos hpos, hout start (by omega)]; omega)
        rw [hlength pos hpos] at hm'
        obtain ⟨m, rfl⟩ : ∃ j, m = j + 1 := ⟨m - 1, by omega⟩
        have hrest := ih (start := pos + (bestMatch data pos).1) (pos := pos + (bestMatch data pos).1) (k := m) (le_refl _) hwithin
          (by omega) (by omega) (by omega)
        rw [pendingLit_self] at hrest
        rw [List.append_assoc, hdec, pendingLit_output hstart, decodeTokens_match hmatch hm.short hm.positive hm.near m _ _
          (by rw [hout pos hpos]; exact hm.back) (by rw [hout pos hpos]; omega), copyBack_match hm]
        exact hrest
      case isFalse =>
        have hlen := hlength (pos + 1) (by omega)
        rw [pendingLit_succ hstart (by omega), hlen]
        split
        case isTrue hfull =>
          obtain ⟨m, hm, hdec⟩ := decodeTokens_pending (lit := pendingLit data start (pos + 1)) (fuel := k) (by omega) (by omega)
            (encodeTokens data fuel (pos + 1) []) (data.take start).reverse (by rw [hout start (by omega)]; omega)
          have hrest := ih (start := pos + 1) (pos := pos + 1) (k := m) (le_refl _) (by omega) (by omega) (by omega) (by omega)
          rw [pendingLit_self] at hrest
          rw [hdec, pendingLit_output (by omega)]
          exact hrest
        case isFalse => exact ih (by omega) (by omega) (by omega) (by omega) hk

theorem literalToken_ne_nil {lit : List Byte} (h : lit ≠ []) : literalToken lit ≠ [] := by
  rw [literalToken, if_neg (by simpa using h)]
  exact List.cons_ne_nil _ _

theorem matchToken_ne_nil (n off : Nat) : matchToken n off ≠ [] := by
  rw [matchToken]
  split <;> exact List.cons_ne_nil _ _

/-- Where bytes are left, or a literal waits, the search writes a token. -/
theorem encodeTokens_ne_nil (data : List Byte) (fuel pos : Nat) (lit : List Byte) (h : lit ≠ [] ∨ pos < data.length ∧ fuel ≠ 0) :
    encodeTokens data fuel pos lit ≠ [] := by
  induction fuel generalizing pos lit with
  | zero => exact literalToken_ne_nil (h.resolve_right fun h => h.2 rfl)
  | succ fuel ih =>
    have happend (a : List Byte) : lit ++ [data.getD pos 0] ≠ [] := by simp
    rw [encodeTokens]
    split
    · exact literalToken_ne_nil (h.resolve_right fun h => by omega)
    · dsimp only
      split
      · simp [matchToken_ne_nil]
      · split
        · simp [literalToken_ne_nil]
        · exact ih _ _ (.inl (by simp))

theorem encodes_of_encodeToken {blk l : List Byte} (hblk : blk.length = 1024) (hused : usedLength blk ≠ 0) (h : encodeToken blk = some l) :
    Encodes blk l := by
  have hle := usedLength_le blk
  have hlen : (blk.take (usedLength blk)).length = usedLength blk := by rw [List.length_take]; omega
  simp only [encodeToken] at h
  split at h
  case isTrue hfits =>
    obtain rfl := Option.some.inj h
    refine encodes_blockHeader (by decide) (encodeTokens_ne_nil _ _ _ _ (.inr ⟨by omega, by decide⟩)) hfits fun _ => ?_
    have hdec := decodeTokens_encodeTokens (data := blk.take (usedLength blk)) (by omega) 1024 (start := 0) (pos := 0) (k := 1024) (le_refl 0)
      (by omega) (by omega) (by omega) (by omega)
    rw [pendingLit_self] at hdec
    rw [if_neg (by decide), if_pos rfl]
    exact hdec.trans (congrArg _ (padBlock_take_usedLength hblk))
  case isFalse => exact absurd h (by simp)

/-! ### The choice among the methods (R158) -/

/-- The better of two encodings is one of them. -/
theorem fewer_eq_some {a b : Option (List Byte)} {l : List Byte} (h : fewer a b = some l) : a = some l ∨ b = some l := by
  cases a with
  | none => exact .inr h
  | some x =>
    cases b with
    | none => exact .inl h
    | some y =>
      rw [fewer] at h
      split at h
      · exact .inr h
      · exact .inl h

theorem slotsOf_encodes {blk l : List Byte} (h : Encodes blk l) : slotsOf l ≠ 0 ∧ slotsOf l ≤ 15 ∧ l.length ≤ 64 * slotsOf l := by
  obtain ⟨hlow, hhigh, -⟩ := h
  unfold slotsOf
  omega

/-- What the chosen method writes is a well-formed encoding of the block. -/
theorem encodes_of_chosen {m0 m1 m2 : Bool} {blk l : List Byte} (hblk : blk.length = 1024) (hused : usedLength blk ≠ 0)
    (h : fewer (fewer (if m0 then encodePrefix blk else none) (if m2 then encodeDelta blk else none))
      (if m1 then encodeToken blk else none) = some l) : Encodes blk l := by
  have henabled {m : Bool} {o : Option (List Byte)} (h : (if m then o else none) = some l) : o = some l := by
    split at h
    · exact h
    · exact absurd h (by simp)
  obtain h | h := fewer_eq_some h
  · obtain h | h := fewer_eq_some h
    · exact encodes_of_encodePrefix hblk hused (henabled h)
    · exact encodes_of_encodeDelta hblk (henabled h)
  · exact encodes_of_encodeToken hblk hused (henabled h)

/-- Every block decodes from its slots to itself, and takes none exactly when it is zero. -/
theorem decodeBlock_encodeBlock (m0 m1 m2 : Bool) {blk : List Byte} (hblk : blk.length = 1024) :
    let r := encodeBlock m0 m1 m2 blk
    decodeBlock r.1 r.2 = .data blk ∧ r.2.length = 64 * r.1 ∧ r.1 ≤ 16 ∧ (r.1 = 0 ↔ ∀ b ∈ blk, b = 0) := by
  have hzero := usedLength_eq_zero_iff blk
  by_cases hused : usedLength blk = 0
  · have hall : blk = List.replicate 1024 0 := hblk ▸ List.eq_replicate_of_mem (hzero.mp hused)
    simp only [encodeBlock, if_pos hused, decodeBlock]
    exact ⟨by rw [if_pos trivial, ← hall], rfl, by decide, fun _ => hzero.mp hused, fun _ => trivial⟩
  · have hnot : ¬ ∀ b ∈ blk, b = 0 := fun h => hused (hzero.mpr h)
    simp only [encodeBlock, if_neg hused]
    split
    case h_1 => exact ⟨rfl, hblk, le_refl 16, fun h => absurd h (Nat.succ_ne_zero 15), fun h => absurd h hnot⟩
    case h_2 l hchosen =>
      have henc := encodes_of_chosen hblk hused hchosen
      obtain ⟨hsome, hfew, hroom⟩ := slotsOf_encodes henc
      refine ⟨?_, ?_, by omega, fun h => absurd h hsome, fun h => absurd h hnot⟩
      · rw [decodeBlock, if_neg hsome, if_neg (by omega)]
        exact henc.2.2 _
      · rw [List.length_append, List.length_replicate]
        omega

/-! ### The descriptor (R120, R122) -/

theorem stateOf_code (st : PageState) : stateOf st.code = st := by cases st <;> rfl

/-- Bits [111:0] of an encoded descriptor are its fields, and bits [127:112] their CRC. -/
theorem extractLsb'_encodeDesc (d : Desc) (start len : Nat) (h : start + len ≤ 112) :
    (encodeDesc d).extractLsb' start len = (descBits d).extractLsb' start len := by
  refine BitVec.eq_of_getLsbD_eq fun i hi => ?_
  rw [BitVec.getLsbD_extractLsb', BitVec.getLsbD_extractLsb', encodeDesc, BitVec.getLsbD_append]
  simp [show start + i < 112 by omega]

theorem encodeDesc_crc (d : Desc) :
    (encodeDesc d).extractLsb' 112 16 = crc16 ((List.range 14).map fun i => (encodeDesc d).extractLsb' (8 * i) 8) := by
  have hbytes : ((List.range 14).map fun i => (encodeDesc d).extractLsb' (8 * i) 8) =
      (List.range 14).map fun i => (descBits d).extractLsb' (8 * i) 8 := by
    refine List.map_congr_left fun i hi => extractLsb'_encodeDesc d _ _ ?_
    have := List.mem_range.mp hi
    omega
  rw [hbytes]
  refine BitVec.eq_of_getLsbD_eq fun i hi => ?_
  rw [BitVec.getLsbD_extractLsb', encodeDesc, BitVec.getLsbD_append]
  simp [hi]

theorem PageState.code_lt (st : PageState) : st.code < 16 := by cases st <;> decide

theorem descBits_state (d : Desc) : ((descBits d).extractLsb' 0 4).toNat = d.state.code := by
  rw [descBits, BitVec.extractLsb'_append_eq_of_add_le (by decide), BitVec.extractLsb'_eq_self, BitVec.toNat_ofNat,
    Nat.mod_eq_of_lt d.state.code_lt]

theorem descBits_flags (d : Desc) : (descBits d).getLsbD 4 = d.lock ∧ (descBits d).getLsbD 5 = d.fixed := by
  simp only [descBits, BitVec.getLsbD_append]
  cases d.lock <;> cases d.fixed <;> exact ⟨rfl, rfl⟩

/-- The fields above the flags, each where the concatenation leaves it once the fields below are passed over. -/
theorem descBits_fields (d : Desc) : (descBits d).extractLsb' 6 2 = 0#2 ∧ (descBits d).extractLsb' 8 12 = d.keySlot ∧
    (descBits d).extractLsb' 20 44 = d.location ∧ (descBits d).extractLsb' 64 20 = d.blockLen ∧ (descBits d).extractLsb' 84 12 = d.wgen ∧
    (descBits d).extractLsb' 96 4 = d.bpoison ∧ (descBits d).extractLsb' 100 12 = 0#12 := by
  have htake {w n : Nat} (x : BitVec n) (y : BitVec w) : (x ++ y).extractLsb' 0 w = y := by
    rw [BitVec.extractLsb'_append_eq_of_add_le (by omega), BitVec.extractLsb'_eq_self]
  unfold descBits
  refine ⟨?_, ?_, ?_, ?_, ?_, ?_, ?_⟩
  · iterate 3 rw [BitVec.extractLsb'_append_eq_of_le (by decide)]
    exact htake _ _
  · iterate 4 rw [BitVec.extractLsb'_append_eq_of_le (by decide)]
    exact htake _ _
  · iterate 5 rw [BitVec.extractLsb'_append_eq_of_le (by decide)]
    exact htake _ _
  · iterate 6 rw [BitVec.extractLsb'_append_eq_of_le (by decide)]
    exact htake _ _
  · iterate 7 rw [BitVec.extractLsb'_append_eq_of_le (by decide)]
    exact htake _ _
  · iterate 8 rw [BitVec.extractLsb'_append_eq_of_le (by decide)]
    exact htake _ _
  · iterate 9 rw [BitVec.extractLsb'_append_eq_of_le (by decide)]
    exact BitVec.extractLsb'_eq_self

theorem getLsbD_encodeDesc (d : Desc) {i : Nat} (h : i < 112) : (encodeDesc d).getLsbD i = (descBits d).getLsbD i := by
  rw [encodeDesc, BitVec.getLsbD_append, if_pos h]

/-- Each field of a stored descriptor at the place R120 gives it. -/
theorem encodeDesc_fields (d : Desc) : let w := encodeDesc d
    (w.extractLsb' 0 4).toNat = d.state.code ∧ w.getLsbD 4 = d.lock ∧ w.getLsbD 5 = d.fixed ∧ w.extractLsb' 6 2 = 0#2 ∧
      w.extractLsb' 8 12 = d.keySlot ∧ w.extractLsb' 20 44 = d.location ∧ w.extractLsb' 64 20 = d.blockLen ∧ w.extractLsb' 84 12 = d.wgen ∧
      w.extractLsb' 96 4 = d.bpoison ∧ w.extractLsb' 100 12 = 0#12 := by
  obtain ⟨hlock, hfixed⟩ := descBits_flags d
  obtain ⟨hlow, hkey, hloc, hlen, hgen, hpoison, hhigh⟩ := descBits_fields d
  have hextract (start len : Nat) (h : start + len ≤ 112) := extractLsb'_encodeDesc d start len h
  dsimp only
  rw [hextract 0 4 (by decide), getLsbD_encodeDesc d (by decide), getLsbD_encodeDesc d (by decide), hextract 6 2 (by decide), hextract 8 12 (by decide),
    hextract 20 44 (by decide), hextract 64 20 (by decide), hextract 84 12 (by decide), hextract 96 4 (by decide), hextract 100 12 (by decide)]
  exact ⟨descBits_state d, hlock, hfixed, hlow, hkey, hloc, hlen, hgen, hpoison, hhigh⟩

theorem decodeDesc_encodeDesc (d : Desc) : decodeDesc (encodeDesc d) = d := by
  obtain ⟨hstate, hlock, hfixed, -, hkey, hloc, hlen, hgen, hpoison, -⟩ := encodeDesc_fields d
  rw [decodeDesc, hstate, hlock, hfixed, hkey, hloc, hlen, hgen, hpoison, stateOf_code]

/-- Settles O60: a descriptor's fields lie side by side below their CRC, and each method's decoder undoes what its encoder writes. -/
theorem storedFormsDecodeToWhatWasEncoded : Obligations.StoredFormsDecodeToWhatWasEncoded := by
  unfold Obligations.StoredFormsDecodeToWhatWasEncoded
  refine ⟨fun d => ?_, by decide +kernel, fun m0 m1 m2 block hlen => decodeBlock_encodeBlock m0 m1 m2 hlen⟩
  obtain ⟨hstate, hlock, hfixed, hlow, hkey, hloc, hblock, hgen, hpoison, hhigh⟩ := encodeDesc_fields d
  exact ⟨decodeDesc_encodeDesc d, hstate, hlock, hfixed, hlow, hkey, hloc, hblock, hgen, hpoison, hhigh, encodeDesc_crc d⟩

end Sys2Proof.Machine
end

section
namespace Sys2Proof.Machine

/-! ### What judging the account of capacity leaves as it is (R141, R144, R145) -/

/-- What follows a change of U is accounting, and of the account itself it changes only what R141, R144 and R145 name: extents asked back,
the list of those to ask, and the marks of distress, of shortfall and of an exhausted pool. No footprint and no mapping changes, no
link but by a TALLY that waits on it, and an extent only from ACTIVE to RELEASE_REQ. -/
structure State.Reckons (s r : State) : Prop where
  accounts : s.Accounts r
  figures : r.cap = { s.cap with
    extents := r.cap.extents, releaseList := r.cap.releaseList, distress := r.cap.distress, distressSeen := r.cap.distressSeen
    lastU := r.cap.lastU, lastRepeat := r.cap.lastRepeat, poolExhausted := r.cap.poolExhausted, shortfall := r.cap.shortfall }
  links : ∀ u, r.uli u = { s.uli u with tx := (r.uli u).tx }
  members : r.const = { s.const with opened := r.const.opened, nextTag := r.const.nextTag }
  asked : ∀ e, (r.extent e).state = (s.extent e).state ∨ (s.extent e).state = .active ∧ (r.extent e).state = .releaseReq

theorem State.Reckons.refl (s : State) : s.Reckons s := ⟨.refl s, rfl, fun _ => rfl, rfl, fun _ => .inl rfl⟩

theorem State.Reckons.trans {s r q : State} (h : s.Reckons r) (k : r.Reckons q) : s.Reckons q := by
  refine ⟨h.accounts.trans k.accounts, ?_, fun u => ?_, ?_, fun e => ?_⟩
  · rw [k.figures]; conv_lhs => rw [h.figures]
  · rw [k.links u]; conv_lhs => rw [h.links u]
  · rw [k.members]; conv_lhs => rw [h.members]
  · obtain hk | ⟨hactive, hk⟩ := k.asked e
    · rw [hk]; exact h.asked e
    · obtain hh | ⟨hactive', hh⟩ := h.asked e
      · exact .inr ⟨hh ▸ hactive, hk⟩
      · rw [hh] at hactive
        exact absurd hactive (by decide)

theorem State.Reckons.ite {p : Prop} [Decidable p] {s r q : State} (h : s.Reckons r) (k : s.Reckons q) : s.Reckons (if p then r else q) := by
  split
  · exact h
  · exact k

theorem State.Reports.reckons {s r : State} (h : s.Reports r) : s.Reckons r :=
  ⟨h.accounts, by rw [h.cap_eq], h.links, by rw [h.rest], fun e => .inl (by rw [h.rest]; rfl)⟩

/-- A change of the marks alone. -/
theorem modCap_reckons {f : Cap → Cap} {s : State} (hextents : (f s.cap).extents = s.cap.extents) (hfigures : f s.cap = { s.cap with
    extents := (f s.cap).extents, releaseList := (f s.cap).releaseList, distress := (f s.cap).distress
    distressSeen := (f s.cap).distressSeen, lastU := (f s.cap).lastU, lastRepeat := (f s.cap).lastRepeat
    poolExhausted := (f s.cap).poolExhausted, shortfall := (f s.cap).shortfall }) : s.Reckons (s.modCap f) := by
  have haccounts := modCap_accounts f s hextents
  refine ⟨haccounts, hfigures, fun _ => rfl, rfl, fun e => .inl ?_⟩
  simp [State.extent, hextents]

theorem postDevice_reckons (q : Nat) (a b c d : Word) (s : State) : s.Reckons (postDevice q a b c d s) := by
  have haccounts := postDevice_accounts q a b c d s
  rw [postDevice_rest] at haccounts ⊢
  exact ⟨haccounts, rfl, fun _ => rfl, rfl, fun _ => .inl rfl⟩

/-- The extent is on its way back. -/
def markReleaseReq (e : Nat) (s : State) : State :=
  (s.modExtent e fun x => { x with state := .releaseReq }).modCap fun c => { c with releaseList := c.releaseList.erase e }

theorem extent_markReleaseReq (e i : Nat) (s : State) :
    (markReleaseReq e s).extent i = if i = e then { s.extent e with state := .releaseReq } else s.extent i :=
  State.modExtent_at s e (fun x => { x with state := .releaseReq }) i

theorem requestRelease_active {e : Nat} {s : State} (h : (s.extent e).state = .active) :
    (markReleaseReq e s).Reports (requestRelease e s) := by
  rw [requestRelease, if_pos h]
  exact forEach_reports _ _ _ fun _ _ => placeRecord_reports ..

theorem markReleaseReq_reckons {e : Nat} {s : State} (h : (s.extent e).state = .active) : s.Reckons (markReleaseReq e s) := by
  refine ⟨⟨rfl, fun i => ?_⟩, rfl, fun _ => rfl, rfl, fun i => ?_⟩
  · rw [extent_markReleaseReq]
    split
    · rename_i hi; rw [hi]
    · rfl
  · rw [extent_markReleaseReq]
    split
    · rename_i hi; exact .inr ⟨hi ▸ h, rfl⟩
    · exact .inl rfl

theorem requestRelease_reckons (e : Nat) (s : State) : s.Reckons (requestRelease e s) := by
  by_cases h : (s.extent e).state = .active
  · exact (markReleaseReq_reckons h).trans (requestRelease_active h).reckons
  · rw [requestRelease, if_neg h]
    exact .refl s

theorem requestUntil_reckons (want : Int) (l : List Nat) (s : State) : s.Reckons (requestUntil want l s) := by
  induction l generalizing s with
  | nil => exact .refl s
  | cons e l ih => exact .ite (.refl s) ((requestRelease_reckons e s).trans (ih _))

theorem requestReleases_reckons (s : State) : s.Reckons (requestReleases s) := (modCap_reckons rfl rfl).trans (requestUntil_reckons ..)

theorem reportDistress_reckons (entered : Bool) (s : State) : s.Reckons (reportDistress entered s) :=
  (placeAll_reports ..).reckons.trans (postDevice_reckons ..)

theorem enterDistress_reckons (s : State) : s.Reckons (enterDistress s) :=
  ((modCap_reckons rfl rfl).trans (requestReleases_reckons _)).trans
    ((reportDistress_reckons ..).trans (condStart_reports 64 _ (by decide)).reckons)

theorem endExhaustion_reckons (s : State) : s.Reckons (endExhaustion s) := .ite (modCap_reckons rfl rfl) (.refl s)

theorem endShortfall_reckons (u : Int) (s : State) : s.Reckons (endShortfall u s) :=
  .ite ((modCap_reckons rfl rfl).trans (condEnd_reports ..).reckons) (.refl s)

theorem judgeDistress_reckons (u : Int) (s : State) : s.Reckons (judgeDistress u s) :=
  .ite (enterDistress_reckons s)
    (.ite (((modCap_reckons rfl rfl).trans (reportDistress_reckons ..)).trans (condEnd_reports ..).reckons) (.refl s))

theorem updateCapacity_reckons (s : State) : s.Reckons (updateCapacity s) := by
  rw [updateCapacity_eq]
  exact .ite (.refl s) (((endExhaustion_reckons s).trans (endShortfall_reckons ..)).trans (judgeDistress_reckons ..))

/-! #### What stands after it -/

section
variable {s r : State}

theorem State.Reckons.footprint_eq (h : s.Reckons r) (e : Nat) : r.footprint e = s.footprint e := by
  rw [State.footprint, State.footprint, h.figures]

theorem State.Reckons.z_eq (h : s.Reckons r) : r.cap.z = s.cap.z := by rw [h.figures]
theorem State.Reckons.g_eq (h : s.Reckons r) : r.cap.g = s.cap.g := by rw [h.figures]

theorem State.Reckons.remotes_eq (h : s.Reckons r) : r.const.remotes = s.const.remotes := by rw [h.members]
theorem State.Reckons.remote_eq (h : s.Reckons r) (i : Nat) : r.remote i = s.remote i := by
  rw [State.remote, State.remote, h.remotes_eq]

theorem State.Reckons.allocs_eq (h : s.Reckons r) : r.allocs = s.allocs := by rw [h.accounts.rest]
theorem State.Reckons.alloc_eq (h : s.Reckons r) (c : Nat) : r.alloc c = s.alloc c := by rw [State.alloc, State.alloc, h.allocs_eq]

theorem State.KeepsPages.lineNow_eq (h : s.KeepsPages r) (l : Nat) : r.lineNow l = s.lineNow l := by
  rw [State.lineNow, State.lineNow, State.chan, State.chan, h.chans, h.dram]

theorem State.Reckons.lineNow_eq (h : s.Reckons r) (l : Nat) : r.lineNow l = s.lineNow l := h.accounts.keepsPages.lineNow_eq l

/-- An extent that is not ACTIVE is not asked back. -/
theorem State.Reckons.extent_eq (h : s.Reckons r) {e : Nat} (hstate : (s.extent e).state ≠ .active) : r.extent e = s.extent e := by
  have hsame := (h.asked e).resolve_right fun h => hstate h.1
  rw [h.accounts.extents e, hsame]

end

end Sys2Proof.Machine
end

section
namespace Sys2Proof.Machine

/-! ### Frames and lines (R162, R177) -/

/-- The lowest free frame of the first channel that has one is taken. -/
theorem takeFrameOn_some {o : Owner} {s : State} {l : List Nat} {c f : Nat} (hfind : l.find? (fun k => (s.lowestRun k 1 1 1).isSome) = some c)
    (hfree : s.lowestRun c 1 1 1 = some f) : takeFrameOn o s l = some (frameLine c f, useFrame c f o s) := by
  induction l with
  | nil => exact absurd hfind (by simp)
  | cons k l ih =>
    rw [takeFrameOn]
    cases hk : s.lowestRun k 1 1 1 with
    | some g =>
      rw [List.find?_cons_of_pos (by rw [hk]; rfl)] at hfind
      obtain rfl := Option.some.inj hfind
      obtain rfl := Option.some.inj (hk.symm.trans hfree)
      rfl
    | none =>
      rw [List.find?_cons_of_neg (by simp [hk])] at hfind
      exact ih hfind

theorem takeFrameOn_none {o : Owner} {s : State} {l : List Nat} (hfind : l.find? (fun k => (s.lowestRun k 1 1 1).isSome) = none) :
    takeFrameOn o s l = none := by
  induction l with
  | nil => rfl
  | cons k l ih =>
    rw [List.find?_cons] at hfind
    rw [takeFrameOn]
    cases hk : s.lowestRun k 1 1 1 with
    | some g => simp [hk] at hfind
    | none =>
      rw [hk] at hfind
      exact ih hfind

theorem useFrame_frames (c f : Nat) (o : Owner) (s : State) : Tab.get none ((useFrame c f o s).alloc c).frames f = some o := by
  rw [useFrame, State.modAlloc_self, Tab.get_set_self]

/-- Clearing lines changes DRAM and its channels alone, and the lines cleared are empty. -/
theorem clearLines_clears (l n : Nat) (s : State) :
    (∃ m c, clearLines l n s = { s with dram := m, chans := c }) ∧ (∀ i < n, (clearLines l n s).lineNow (l + i) = {}) := by
  have hsucc (n : Nat) : clearLines l (n + 1) s = putLine (l + n) {} (clearLines l n s) := by
    rw [clearLines, forEach, List.range_succ, List.foldl_append]
    rfl
  induction n with
  | zero => exact ⟨⟨s.dram, s.chans, rfl⟩, fun i hi => absurd hi (Nat.not_lt_zero i)⟩
  | succ n ih =>
    obtain ⟨⟨m, c, hrest⟩, hlines⟩ := ih
    rw [hsucc]
    refine ⟨?_, fun i hi => ?_⟩
    · rw [hrest]
      simp only [putLine, storeLine, State.modChan]
      exact ⟨_, _, rfl⟩
    · rw [lineNow_putLine]
      split
      · rfl
      · exact hlines i (by omega)

/-! ### The fill of FIXED extents (R126, R127) -/

/-- A page of zeros under its own cipher. -/
def State.zeroLines (s : State) (d : Nat) : List DLine := (List.range 64).map fun i => { cipher := s.cipherOf d 0 i 0 }

theorem getElem?_zeroLines (s : State) (d : Nat) {i : Nat} (hi : i < 64) : (s.zeroLines d)[i]? = some { cipher := s.cipherOf d 0 i 0 } := by
  simp [State.zeroLines, hi]

/-- No allocation for the extent's fill waits any more. -/
def endFillWait (e : Nat) (s : State) : State := { s with waiters := s.waiters.filter (· != .fill e) }

/-- The next page of an extent as its fill makes it: a frame of zeros under the page's cipher, and its descriptor. -/
def filledPage (d l : Nat) (s : State) : State :=
  modDesc d (fun y => { y with state := .plain, location := BitVec.ofNat 44 l }) (putLines l (s.zeroLines d) s)

/-- The page is counted: in the extent's progress and in its footprint. -/
def countFilled (e : Nat) (s : State) : State := addFootprint e 64 (s.modExtent e fun y => { y with filled := y.filled + 1 })

theorem putLines_keeps (l : Nat) (ds : List DLine) (s : State) : (putLines l ds s).cap = s.cap ∧ (putLines l ds s).mdata = s.mdata ∧
    (putLines l ds s).allocs = s.allocs := by
  obtain ⟨m, c, h⟩ := putLines_rest l ds s
  rw [h]
  exact ⟨rfl, rfl, rfl⟩

theorem lineNow_setDesc (d : Nat) (x : Desc) (s : State) (l : Nat) : (setDesc d x s).lineNow l = s.lineNow l := rfl

theorem filledPage_filled (d l : Nat) (s : State) : (∀ i < 64, (filledPage d l s).lineNow (l + i) = { cipher := s.cipherOf d 0 i 0 }) ∧
    (filledPage d l s).desc d = { s.desc d with state := .plain, location := BitVec.ofNat 44 l } ∧ (filledPage d l s).cap = s.cap ∧
    (filledPage d l s).allocs = s.allocs := by
  obtain ⟨hcap, hmeta, hallocs⟩ := putLines_keeps l (s.zeroLines d) s
  have hdesc : (putLines l (s.zeroLines d) s).desc d = s.desc d := by
    rw [State.desc, State.desc, State.descReset, State.descReset, State.extent, State.extent, hcap, hmeta]
  have hlines (i : Nat) (hi : i < 64) := lineNow_putLines l (s.zeroLines d) s i _ (getElem?_zeroLines s d hi)
  rw [filledPage, modDesc]
  generalize putLines l (s.zeroLines d) s = t at *
  exact ⟨hlines, by rw [desc_setDesc, hdesc], hcap, hallocs⟩

theorem countFilled_keepsPages (e : Nat) (s : State) : s.KeepsPages (countFilled e s) := by
  refine ⟨fun d => ?_, rfl, rfl, rfl⟩
  have hreset : (countFilled e s).descReset d = s.descReset d := by
    have hextent : (countFilled e s).extent (extentOf d) = (s.modExtent e fun y => { y with filled := y.filled + 1 }).extent (extentOf d) := rfl
    rw [State.descReset, State.descReset, hextent, State.modExtent_at]
    split
    · rename_i h; rw [h]
    · rfl
  rw [State.desc, State.desc, hreset]
  rfl

theorem countFilled_counts (e : Nat) (s : State) :
    ((countFilled e s).extent e).filled = (s.extent e).filled + 1 ∧ (countFilled e s).footprint e = s.footprint e + 64 :=
  ⟨congrArg Extent.filled (State.modExtent_self s e fun y => { y with filled := y.filled + 1 }),
    Tab.get_set_self 0 s.cap.footprint e (s.footprint e + 64)⟩

theorem State.extent_of_cap {s r : State} (h : r.cap = s.cap) (e : Nat) : r.extent e = s.extent e := by rw [State.extent, State.extent, h]
theorem State.footprint_of_cap {s r : State} (h : r.cap = s.cap) (e : Nat) : r.footprint e = s.footprint e := by
  rw [State.footprint, State.footprint, h]

section
variable {e : Nat} {s : State} (hstate : (s.extent e).state = .offered) (hfixed : (s.extent e).fixed = true) (hleft : (s.extent e).filled < 65536)
include hstate hfixed hleft

theorem fillNext_placed {c f : Nat} (hfind : (s.fillOrder (s.extent e).fillChannel.toNat).find? (fun k => (s.lowestRun k 1 1 1).isSome) = some c)
    (hfree : s.lowestRun c 1 1 1 = some f) :
    fillNext e s = updateCapacity (countFilled e (filledPage (e * 65536 + (s.extent e).filled) (frameLine c f)
      (endFillWait e (useFrame c f (.page (e * 65536 + (s.extent e).filled)) s)))) := by
  rw [fillNext]
  dsimp only
  rw [if_neg (by simp [hstate, hfixed, hleft]), takeFrameOn_some hfind hfree]
  rfl

theorem fillNext_waits (hfind : (s.fillOrder (s.extent e).fillChannel.toNat).find? (fun k => (s.lowestRun k 1 1 1).isSome) = none) :
    fillNext e s = waitFor (.fill e) (chanQuad (s.extent e).fillChannel.toNat) 0 s := by
  rw [fillNext]
  dsimp only
  rw [if_neg (by simp [hstate, hfixed, hleft]), takeFrameOn_none hfind]

/-- The next page of a FIXED extent, filled. -/
theorem fillNext_fills {c f : Nat} (hfind : (s.fillOrder (s.extent e).fillChannel.toNat).find? (fun k => (s.lowestRun k 1 1 1).isSome) = some c)
    (hfree : s.lowestRun c 1 1 1 = some f) : let d := e * 65536 + (s.extent e).filled
    let r := fillNext e s
    (∀ i < 64, r.lineNow (frameLine c f + i) = { cipher := s.cipherOf d 0 i 0 }) ∧
      r.desc d = { s.desc d with state := .plain, location := BitVec.ofNat 44 (frameLine c f) } ∧
      Tab.get none (r.alloc c).frames f = some (.page d) ∧ (r.extent e).filled = (s.extent e).filled + 1 ∧ r.footprint e = s.footprint e + 64 := by
  dsimp only
  rw [fillNext_placed hstate hfixed hleft hfind hfree]
  generalize e * 65536 + (s.extent e).filled = d
  generalize hu : endFillWait e (useFrame c f (.page d) s) = u
  have hframe : Tab.get none (u.alloc c).frames f = some (.page d) := hu ▸ useFrame_frames c f (.page d) s
  have hcap : u.cap = s.cap := by rw [← hu]; rfl
  have hcipher (i : Nat) : u.cipherOf d 0 i 0 = s.cipherOf d 0 i 0 := by rw [← hu]; rfl
  have hdesc : u.desc d = s.desc d := by rw [← hu]; rfl
  obtain ⟨hlines, hfilled, hcap', hallocs⟩ := filledPage_filled d (frameLine c f) u
  generalize filledPage d (frameLine c f) u = v at *
  have hcount := countFilled_keepsPages e v
  obtain ⟨hprogress, hfoot⟩ := countFilled_counts e v
  have hreckons := updateCapacity_reckons (countFilled e v)
  refine ⟨fun i hi => ?_, ?_, ?_, ?_, ?_⟩
  · rw [hreckons.lineNow_eq, hcount.lineNow_eq, hlines i hi, hcipher]
  · rw [hreckons.accounts.desc, hcount.desc, hfilled, hdesc]
  · rw [hreckons.alloc_eq, State.alloc]
    exact (congrArg (fun t => Tab.get none (Tab.get ({} : Alloc) t c).frames f) hallocs).trans hframe
  · rw [hreckons.accounts.extents]
    exact hprogress.trans (by rw [State.extent_of_cap (hcap'.trans hcap)])
  · rw [hreckons.footprint_eq, hfoot, State.footprint_of_cap (hcap'.trans hcap)]

end

/-- Waiting for a place changes neither DRAM nor the extents. -/
theorem waitFor_keeps (w : Waiter) (q slots : Nat) (s : State) : (waitFor w q slots s).dram = s.dram ∧ (waitFor w q slots s).cap = s.cap := by
  have hshort (t : State) : (slabShortage q slots t).dram = t.dram ∧ (slabShortage q slots t).cap = t.cap := by
    unfold slabShortage
    split
    · rw [(fireEvent_reports 69 _ (by decide)).rest, postDevice_rest]
      exact ⟨rfl, rfl⟩
    · exact ⟨rfl, rfl⟩
  obtain ⟨hdram, hcap⟩ := hshort (if s.waiters.contains w then s else { s with waiters := s.waiters ++ [w] })
  rw [waitFor, hdram, hcap]
  split <;> exact ⟨rfl, rfl⟩

theorem exec_fixedExtentFillWrite {eb : BitVec 18} {s : State} (hrun : s.running = true) (hlive : s.start.phase9Done = true) :
    exec (.fixedExtentFillWrite eb) s = .next (fillNext eb.toNat s) := congrArg Host.Outcome.next (if_pos (by rw [hrun, hlive]; rfl))

/-! #### The extent is announced (R78, R127) -/

theorem placeRecord_dynCap (i : Nat) (b : RecBody) (s : State) : ((placeRecord i .dynamicCapacity b s).ld i).dynCap =
    (s.ld i).dynCap.place (s.time.tb + (s.ld i).timeOffset) b := by
  have hplaced : ((s.modLd i fun l => l.setLog .dynamicCapacity ((l.log .dynamicCapacity).place (s.time.tb + l.timeOffset) b)).ld i).dynCap =
      (s.ld i).dynCap.place (s.time.tb + (s.ld i).timeOffset) b := by
    rw [State.modLd_self]
    rfl
  unfold placeRecord notifyLog
  split <;> exact hplaced

theorem grantDone_keeps (first : Nat) (s : State) : (grantDone first s).cap = s.cap ∧ (grantDone first s).lds = s.lds := by
  unfold grantDone
  dsimp only
  split
  · split
    · rw [postDevice_rest]
      exact ⟨rfl, rfl⟩
    · exact ⟨rfl, rfl⟩
  · exact ⟨rfl, rfl⟩

/-- A filled extent is announced in the Dynamic Capacity log of its LD. -/
theorem fillDone_announces (e : Nat) (s : State) : let x := s.extent e
    let r := fillDone e s
    (r.extent e).announced = true ∧ (r.ld x.ld.toNat).dynCap = (s.ld x.ld.toNat).dynCap.place (s.time.tb + (s.ld x.ld.toNat).timeOffset)
      (.dynamicCapacity 0 (BitVec.ofNat 64 (x.block.toNat * 2 ^ 28)) x.tag) := by
  dsimp only
  obtain ⟨hcap, hlds⟩ := grantDone_keeps (s.extent e).grantFirst (announce e s)
  have hannounced : ((announce e s).extent e).announced = true := by
    rw [State.extent, announce, (placeRecord_reports ..).cap_eq]
    exact congrArg Extent.announced (State.modExtent_self ..)
  rw [fillDone, State.extent, hcap, State.ld, hlds]
  exact ⟨hannounced, placeRecord_dynCap ..⟩

theorem exec_fixedExtentFillDone {eb : BitVec 18} {s : State} (hrun : s.running = true) (hstate : (s.extent eb.toNat).state = .offered)
    (hfixed : (s.extent eb.toNat).fixed = true) (hnew : (s.extent eb.toNat).announced = false) (hfull : (s.extent eb.toNat).filled = 65536) :
    exec (.fixedExtentFillDone eb) s = .next (fillDone eb.toNat s) :=
  congrArg Host.Outcome.next (if_pos (by simp [hrun, hstate, hfixed, hnew, hfull]))

/-! ### Zeroing (R136, R218) -/

theorem exec_zeroingWrite {eb : BitVec 18} {s : State} (hrun : s.running = true) (hlive : s.start.phase9Done = true)
    (hstate : (s.extent eb.toNat).state = .erasing) : exec (.zeroingWrite eb) s = .next (zeroNext eb.toNat s) :=
  congrArg Host.Outcome.next (if_pos (by simp [hrun, hlive, hstate]))

/-- A page's storage is cleared and its descriptor gives it up, to be freed once both copies say so. -/
def zeroedPage (d l : Nat) (s : State) : State :=
  let x := s.desc d
  let n := pageLines x.state x.blockLen
  let s := clearLines l n s
  freeAfter d l (if x.state = .packed then n else 0) (setDesc d { s.descReset d with wgen := x.wgen } s)

theorem zeroNext_some {e d l : Nat} {s : State} (h : s.nextToZero e = some (d, l)) :
    zeroNext e s = lowerZ e (pageLines (s.desc d).state (s.desc d).blockLen) (zeroedPage d l s) := by
  rw [zeroNext, h]
  rfl

theorem zeroedPage_zeroed (d l : Nat) (s : State) : (∀ i < pageLines (s.desc d).state (s.desc d).blockLen, (zeroedPage d l s).lineNow (l + i) = {}) ∧
    ((zeroedPage d l s).desc d).state = .unmapped ∧ (zeroedPage d l s).cap = s.cap := by
  obtain ⟨⟨m, c, hrest⟩, hlines⟩ := clearLines_clears l (pageLines (s.desc d).state (s.desc d).blockLen) s
  refine ⟨hlines, ?_, ?_⟩
  · exact congrArg Desc.state ((freeAfter_keepsPages ..).desc d |>.trans (desc_setDesc ..))
  · rw [zeroedPage]
    dsimp only
    rw [hrest]
    rfl

theorem lowerZ_lowers (e n : Nat) (s : State) : let r := lowerZ e n s
    s.KeepsPages r ∧ r.cap.z = s.cap.z - n ∧ r.footprint e = s.footprint e - n := by
  have hreckons := updateCapacity_reckons ((addFootprint e (-(n : Int)) s).modCap fun c => { c with z := c.z - n })
  have hpages : s.KeepsPages ((addFootprint e (-(n : Int)) s).modCap fun c => { c with z := c.z - n }) := ⟨fun _ => rfl, rfl, rfl, rfl⟩
  dsimp only
  rw [lowerZ]
  refine ⟨hpages.trans hreckons.accounts.keepsPages, hreckons.z_eq, ?_⟩
  rw [hreckons.footprint_eq, State.footprint, addFootprint]
  exact (Tab.get_set_self ..).trans (by omega)

/-- The next storage of an erasing extent is zeroed. -/
theorem zeroNext_zeroes {e d l : Nat} {s : State} (h : s.nextToZero e = some (d, l)) : let n := pageLines (s.desc d).state (s.desc d).blockLen
    let r := zeroNext e s
    (∀ i < n, r.lineNow (l + i) = {}) ∧ (r.desc d).state = .unmapped ∧ r.cap.z = s.cap.z - n ∧ r.footprint e = s.footprint e - n := by
  obtain ⟨hlines, hdesc, hcap⟩ := zeroedPage_zeroed d l s
  obtain ⟨hpages, hz, hfoot⟩ := lowerZ_lowers e (pageLines (s.desc d).state (s.desc d).blockLen) (zeroedPage d l s)
  dsimp only
  rw [zeroNext_some h]
  refine ⟨fun i hi => by rw [hpages.lineNow_eq, hlines i hi], by rw [hpages.desc, hdesc], by rw [hz, hcap], ?_⟩
  rw [hfoot, State.footprint, State.footprint, hcap]

/-- A table without the keys of a kind reads as the default there. -/
theorem Tab.get_filter_out {α : Type} (d : α) (t : Tab α) (p : Nat → Bool) {k : Nat} (h : p k = false) :
    Tab.get d (t.filter fun e => p e.1) k = d := by
  induction t with
  | nil => rfl
  | cons e t ih =>
    obtain ⟨j, v⟩ := e
    rw [List.filter_cons]
    split
    · rename_i hj
      rw [Tab.get, if_neg (fun heq => by simp [heq, h] at hj), ih]
    · exact ih

/-- A FREE extent has no descriptor left. -/
theorem freeExtent_free {e : Nat} {s : State} (hclean : s.dirtyLines e = []) :
    ((freeExtent e s).extent e).state = .free ∧ ∀ d, extentOf d = e → (freeExtent e s).desc d = {} := by
  have hextent : (freeExtent e s).extent e = {} := State.modExtent_self ..
  refine ⟨by rw [hextent], fun d hd => ?_⟩
  have hreset : (freeExtent e s).descReset d = {} := by rw [State.descReset, hd, hextent]
  rw [State.desc, hreset]
  have hsettled : forEach (s.dirtyLines e) settleLine s = s := by rw [hclean]; rfl
  have hmeta : (freeExtent e s).mdata.desc = s.mdata.desc.filter fun x => extentOf x.1 != e := by
    rw [freeExtent]
    dsimp only
    rw [hsettled]
    rfl
  rw [hmeta]
  exact Tab.get_filter_out _ s.mdata.desc (fun k => extentOf k != e) (by simp [hd])

theorem zeroNext_last {e : Nat} {s : State} (hstate : (s.extent e).state = .erasing) (hnext : s.nextToZero e = none) (hfar : s.farPages e = [])
    (hclean : s.dirtyLines e = []) : zeroNext e s = freeExtent e s := by
  rw [zeroNext, hnext, hfar]
  exact if_pos ⟨hstate, by rw [hnext]; rfl, by rw [hfar]; rfl, by rw [hclean]; rfl⟩

/-! ### Distress asks again (R141) -/

theorem mem_insertBySize {e n : Nat} {l : List (Nat × Nat)} {x : Nat × Nat} : x ∈ insertBySize e n l ↔ x = (e, n) ∨ x ∈ l := by
  induction l with
  | nil => simp [insertBySize]
  | cons y l ih =>
    rw [insertBySize]
    split
    · simp
    · simp only [List.mem_cons, ih]
      tauto

/-- Whatever is in the order of release is ACTIVE. -/
theorem releaseOrder_active {s : State} {e : Nat} (h : e ∈ s.releaseOrder) : (s.extent e).state = .active := by
  have hloaned {e : Nat} (h : ((s.extent e).loaned && decide ((s.extent e).state = .active)) = true) : (s.extent e).state = .active :=
    of_decide_eq_true (Bool.and_eq_true_iff.mp h).2
  obtain h | h := List.mem_append.mp h
  · exact hloaned (List.mem_filter.mp h).2
  · obtain ⟨x, hx, rfl⟩ := List.mem_map.mp (List.mem_filter.mp h).1
    refine List.foldlRecOn (motive := fun (l : List (Nat × Nat)) => ∀ x ∈ l, (s.extent x.1).state = .active) s.cap.extents _
      (fun x h => absurd h (by simp)) (fun l hl y _ => ?_) x hx
    dsimp only
    split
    · rename_i hy
      intro z hz
      obtain rfl | hz := mem_insertBySize.mp hz
      · exact hloaned hy
      · exact hl z hz
    · exact hl

theorem requestRelease_marks (e : Nat) (s : State) : (requestRelease e s).cap.lastU = s.cap.lastU ∧
    (requestRelease e s).cap.lastRepeat = s.cap.lastRepeat := by
  by_cases h : (s.extent e).state = .active
  · rw [(requestRelease_active h).cap_eq]
    exact ⟨rfl, rfl⟩
  · rw [requestRelease, if_neg h]
    exact ⟨rfl, rfl⟩

theorem requestUntil_marks (want : Int) (l : List Nat) (s : State) : (requestUntil want l s).cap.lastU = s.cap.lastU ∧
    (requestUntil want l s).cap.lastRepeat = s.cap.lastRepeat := by
  induction l generalizing s with
  | nil => exact ⟨rfl, rfl⟩
  | cons e l ih =>
    rw [requestUntil]
    split
    · exact ⟨rfl, rfl⟩
    · obtain ⟨hu, hrepeat⟩ := requestRelease_marks e s
      obtain ⟨hu', hrepeat'⟩ := ih (requestRelease e s)
      exact ⟨hu'.trans hu, hrepeat'.trans hrepeat⟩

/-- An ACTIVE extent that is asked back is in RELEASE_REQ, and stays there. -/
theorem requestUntil_first {want : Int} {e : Nat} {l : List Nat} {s : State} (h : (s.extent e).state = .active) (hwant : (s.requested : Int) < want) :
    ((requestUntil want (e :: l) s).extent e).state = .releaseReq := by
  have hasked : ((requestRelease e s).extent e).state = .releaseReq := by
    rw [State.extent_of_cap (requestRelease_active h).cap_eq, extent_markReleaseReq, if_pos rfl]
  rw [requestUntil, if_neg (by omega), (requestUntil_reckons want l _).extent_eq (by rw [hasked]; decide), hasked]

theorem requestUntil_enough {want : Int} {l : List Nat} {s : State} (hwant : want ≤ (s.requested : Int)) : requestUntil want l s = s := by
  cases l with
  | nil => rfl
  | cons e l => rw [requestUntil, if_pos hwant]

/-- U and the time as this repetition finds them. -/
def noteRepeat (s : State) : State := s.modCap fun c => { c with lastU := s.capU, lastRepeat := s.now }

theorem requestReleases_eq (s : State) :
    requestReleases s = requestUntil ((s.capF : Int) + s.capHyst - s.capU) s.releaseOrder (noteRepeat s) := rfl

theorem exec_distressRepeat_early {s : State} (h : s.now < s.cap.lastRepeat + 100 * msNs ∨ s.cap.distress = false) :
    exec .distressRepeat s = .next s := by
  refine congrArg Host.Outcome.next (if_neg ?_)
  simp only [Bool.and_eq_true, decide_eq_true_eq]
  rintro ⟨⟨-, hdistress⟩, hdue⟩
  obtain h | h := h
  · omega
  · exact Bool.false_ne_true (h.symm.trans hdistress)

theorem exec_distressRepeat_due {s : State} (hrun : s.running = true) (hdistress : s.cap.distress = true)
    (hdue : s.cap.lastRepeat + 100 * msNs ≤ s.now) :
    exec .distressRepeat s = .next (if s.cap.lastU < s.capU then noteRepeat s else requestReleases s) :=
  congrArg Host.Outcome.next (if_pos (by simp [hrun, hdistress, hdue]))

/-- Where U has not risen, extents are asked back in their order, unless those asked for hold enough. -/
theorem requestReleases_asks (s : State) : let r := requestReleases s
    r.cap.lastRepeat = s.now ∧ r.cap.lastU = s.capU ∧ r.dram = s.dram ∧
      (∀ e l, s.releaseOrder = e :: l → (s.requested : Int) < (s.capF : Int) + s.capHyst - s.capU → (r.extent e).state = .releaseReq) ∧
      ((s.capF : Int) + s.capHyst - s.capU ≤ s.requested → r.cap.extents = s.cap.extents) := by
  dsimp only
  obtain ⟨hu, hrepeat⟩ := requestUntil_marks ((s.capF : Int) + s.capHyst - s.capU) s.releaseOrder (noteRepeat s)
  have hdram : (requestReleases s).dram = s.dram := by rw [(requestReleases_reckons s).accounts.rest]
  refine ⟨hrepeat, hu, hdram, fun e l horder hwant => ?_, fun hwant => ?_⟩
  · have hactive := releaseOrder_active (s := s) (e := e) (by rw [horder]; exact List.mem_cons_self)
    rw [requestReleases_eq, horder]
    exact requestUntil_first hactive hwant
  · rw [requestReleases_eq, requestUntil_enough (s := noteRepeat s) hwant]
    rfl

/-! ### Scale changes are reported (R393) -/

/-- A time that lies a window back, or was never. -/
theorem someDue_iff (o : Option Nat) (n window : Nat) :
    (∀ t, o = some t → t + window ≤ n) ↔ (o.map fun t => decide (t + window ≤ n)).getD true = true := by
  cases o <;> simp

/-- A report of a scope's scale is due: it is owed, and the last one lies 10 ms back. -/
def State.scaleDue (s : State) (k : Nat) : Prop := k ∈ s.qos.owed ∧ ∀ t, Tab.get none s.qos.reported k = some t → t + 10 * msNs ≤ s.now

theorem scaleDue_iff (s : State) (k : Nat) : s.scaleDue k ↔
    (s.qos.owed.contains k && ((Tab.get none s.qos.reported k).map fun t => decide (t + 10 * msNs ≤ s.now)).getD true) = true := by
  rw [State.scaleDue, Bool.and_eq_true, List.contains_iff_mem, someDue_iff]

/-- The report is noted: owed no more, and its time. -/
def noteReport (k : Nat) (s : State) : State :=
  s.modQos fun q => { q with owed := q.owed.erase k, reported := Tab.set none q.reported k (some s.now) }

/-- The records of a scale change: of the device in every LD's Warning log, of a head in its LDs'. -/
def recordScale (k : Nat) (s : State) : State :=
  let arg := BitVec.ofNat 64 (s.qos.dHost * 2 ^ 32 + (if k = 16 then 0xFF else k) * 2 ^ 24 + s.scale k)
  if k = 16 then placeAll .warning (.vendor 3 arg) s else placeHead k .warning (.vendor 3 arg) s

theorem recordScale_reports (k : Nat) (s : State) : s.Reports (recordScale k s) := by
  unfold recordScale
  dsimp only
  split
  · exact placeAll_reports ..
  · exact placeHead_reports ..

theorem exec_guaranteeScaleReport_not {k : Fin 17} {s : State} (h : ¬ s.scaleDue k) : exec (.guaranteeScaleReport k) s = .next s := by
  rw [scaleDue_iff] at h
  refine congrArg Host.Outcome.next (if_neg ?_)
  rw [Bool.and_assoc, Bool.and_eq_true]
  exact fun hboth => h hboth.2

theorem exec_guaranteeScaleReport_due {k : Fin 17} {s : State} (hrun : s.running = true) (h : s.scaleDue k) :
    exec (.guaranteeScaleReport k) s = .next (postDevice 9 (BitVec.ofNat 64 (s.scale k)) (BitVec.ofNat 64 s.qos.dHost) (BitVec.ofNat 64 s.guarSum)
      (BitVec.ofNat 64 (if k.val = 16 then 0xFF else k.val)) (recordScale k (noteReport k s))) := by
  have hreports := recordScale_reports k (noteReport k s)
  have hscale : (recordScale k (noteReport k s)).scale k = s.scale k := by rw [hreports.rest]; rfl
  have hhost : (recordScale k (noteReport k s)).qos.dHost = s.qos.dHost := by rw [hreports.rest]; rfl
  have hsum : (recordScale k (noteReport k s)).guarSum = s.guarSum := by rw [hreports.rest]; rfl
  rw [← hscale, ← hhost, ← hsum]
  rw [scaleDue_iff] at h
  exact congrArg Host.Outcome.next (if_pos (by rw [Bool.and_assoc, hrun, h]; rfl))

/-- A due report is posted in queue 9, and is owed no more. -/
theorem guaranteeScaleReport_reports {k : Fin 17} {s : State} (hrun : s.running = true) (h : s.scaleDue k) :
    ∃ r, exec (.guaranteeScaleReport k) s = .next r ∧ r.qos.owed = s.qos.owed.erase k ∧ Tab.get none r.qos.reported k = some s.now ∧
      ((s.queue 9).entries.length < 64 → (r.queue 9).entries = (s.queue 9).entries ++
        [{ g1 := BitVec.ofNat 64 (s.scale k), g2 := BitVec.ofNat 64 s.qos.dHost, g3 := BitVec.ofNat 64 s.guarSum
           g4 := BitVec.ofNat 64 (if k.val = 16 then 0xFF else k.val), timebase := s.time.tb }]) := by
  have hreports := recordScale_reports k (noteReport k s)
  have hqos : (recordScale k (noteReport k s)).qos = (noteReport k s).qos := by rw [hreports.rest]
  have hqueue : (recordScale k (noteReport k s)).queue 9 = s.queue 9 := by rw [hreports.rest]; rfl
  have htime : (recordScale k (noteReport k s)).time = s.time := by rw [hreports.rest]; rfl
  refine ⟨_, exec_guaranteeScaleReport_due hrun h, ?_, ?_, fun hroom => ?_⟩
  · rw [postDevice_rest]
    exact congrArg Qos.owed hqos
  · rw [postDevice_rest]
    exact (congrArg (fun q => Tab.get none q.reported k.val) hqos).trans (Tab.get_set_self none s.qos.reported k.val (some s.now))
  · rw [postDevice_entries (by rw [hqueue]; exact hroom), hqueue, htime]

/-! ### The statement -/

/-- Settles O46: each command of the capacity engine makes the change its own lemma names, and whatever judging the account of capacity
sets off behind it (`State.Reckons`) leaves that change as it is. -/
theorem capacityIsFilledZeroedAskedBackAndReported : Obligations.CapacityIsFilledZeroedAskedBackAndReported := by
  unfold Obligations.CapacityIsFilledZeroedAskedBackAndReported
  intro eb s hrun
  refine ⟨fun hlive hoffered hfixed hleft => ⟨fun c f hfind hfree => ?_, fun hfind => ?_⟩, fun hoffered hfixed hnew hfull => ?_,
    fun hlive herasing => ⟨fun d l hnext => ?_, fun hnext hfar hclean => ?_⟩, exec_distressRepeat_early, fun hdistress hdue => ⟨fun hrisen => ?_,
    fun hnot => ?_⟩, fun k => ⟨exec_guaranteeScaleReport_not, guaranteeScaleReport_reports hrun⟩⟩
  · exact ⟨_, exec_fixedExtentFillWrite hrun hlive, fillNext_fills hoffered hfixed hleft hfind hfree⟩
  · obtain ⟨hwaits, hmeta, -⟩ := waitFor_waits (.fill eb.toNat) (chanQuad (s.extent eb.toNat).fillChannel.toNat) 0 s
    obtain ⟨hdram, hcap⟩ := waitFor_keeps (.fill eb.toNat) (chanQuad (s.extent eb.toNat).fillChannel.toNat) 0 s
    refine ⟨_, exec_fixedExtentFillWrite hrun hlive, ?_⟩
    rw [fillNext_waits hoffered hfixed hleft hfind]
    exact ⟨hwaits, hdram, hmeta, State.extent_of_cap hcap _⟩
  · exact ⟨_, exec_fixedExtentFillDone hrun hoffered hfixed hnew hfull, fillDone_announces eb.toNat s⟩
  · exact ⟨_, exec_zeroingWrite hrun hlive herasing, zeroNext_zeroes hnext⟩
  · refine ⟨_, exec_zeroingWrite hrun hlive herasing, ?_⟩
    rw [zeroNext_last herasing hnext hfar hclean]
    exact freeExtent_free hclean
  · rw [exec_distressRepeat_due hrun hdistress hdue, if_pos hrisen]
    rfl
  · refine ⟨_, exec_distressRepeat_due hrun hdistress hdue, ?_⟩
    rw [if_neg (by omega)]
    exact requestReleases_asks s

end Sys2Proof.Machine
end

section
namespace Sys2Proof.Machine

/-! ### Who is reached over which link (R445, R446) -/

/-- What a link says about whom it reaches. -/
def Uli.reaches (p : Uli) : LState × BitVec 2 × Bool := (p.lstate, p.peerId, p.foreign)

/-- This device, its links as far as they name a member, and the members' relays stand: every route stands. -/
structure State.KeepsRoutes (s r : State) : Prop where
  ident : r.ident = s.ident
  relays : ∀ d, (r.member d).relay = (s.member d).relay
  links : ∀ u, (r.uli u).reaches = (s.uli u).reaches

theorem State.KeepsRoutes.refl (s : State) : s.KeepsRoutes s := ⟨rfl, fun _ => rfl, fun _ => rfl⟩

theorem State.KeepsRoutes.trans {s r q : State} (h : s.KeepsRoutes r) (k : r.KeepsRoutes q) : s.KeepsRoutes q :=
  ⟨k.ident.trans h.ident, fun d => (k.relays d).trans (h.relays d), fun u => (k.links u).trans (h.links u)⟩

/-- A change of other parts of the state than these. -/
theorem State.KeepsRoutes.of_eq {s r : State} (hident : r.ident = s.ident) (hmembers : r.const.members = s.const.members)
    (hulis : r.ulis = s.ulis) : s.KeepsRoutes r :=
  ⟨hident, fun d => by rw [State.member, State.member, hmembers], fun u => by rw [State.uli, State.uli, hulis]⟩

theorem State.KeepsRoutes.self_eq {s r : State} (h : s.KeepsRoutes r) : r.self = s.self := by rw [State.self, State.self, h.ident]

theorem State.KeepsRoutes.directPort_eq {s r : State} (h : s.KeepsRoutes r) (d : Nat) : r.directPort d = s.directPort d := by
  have hlink (u : Nat) : (r.uli u).lstate = (s.uli u).lstate ∧ (r.uli u).peerId = (s.uli u).peerId ∧ (r.uli u).foreign = (s.uli u).foreign := by
    simpa only [Uli.reaches, Prod.mk.injEq] using h.links u
  unfold State.directPort
  congr 1
  funext u
  obtain ⟨hstate, hpeer, hforeign⟩ := hlink u
  rw [hstate, hpeer, hforeign]

theorem State.KeepsRoutes.route_eq {s r : State} (h : s.KeepsRoutes r) (d : Nat) : r.route d = s.route d := by
  have hport : r.directPort = s.directPort := funext h.directPort_eq
  rw [State.route, State.route, hport, h.relays]

/-- A change of a link that leaves whom it reaches. -/
theorem modUli_keepsRoutes (u : Nat) (f : Uli → Uli) (s : State) (hf : (f (s.uli u)).reaches = (s.uli u).reaches) :
    s.KeepsRoutes (s.modUli u f) := by
  refine ⟨rfl, fun _ => rfl, fun v => ?_⟩
  rw [State.modUli_at]
  split
  · rename_i hv; rw [hv, hf]
  · rfl

theorem State.Reckons.keepsRoutes {s r : State} (h : s.Reckons r) : s.KeepsRoutes r :=
  ⟨by rw [h.accounts.rest], fun d => by rw [State.member, State.member, h.members], fun u => by rw [h.links u]; rfl⟩

theorem State.Reports.keepsRoutes {s r : State} (h : s.Reports r) : s.KeepsRoutes r := h.reckons.keepsRoutes

/-! ### A request is taken out of its buffer (R411, R413, R432) -/

theorem Uli.takeAck_reaches (p : Uli) (now : Nat) (h : Header) : (p.takeAck now h).reaches = p.reaches := by
  unfold Uli.takeAck
  dsimp only
  split <;> rfl

theorem Uli.accepted_reaches (p : Uli) (now ty : Nat) (h : Header) : (p.accepted now ty h).reaches = p.reaches := by
  unfold Uli.accepted
  extract_lets acked credited
  have hcredited : credited.reaches = p.reaches := by
    unfold credited
    split
    · exact p.takeAck_reaches now h
    · rfl
  rw [← hcredited]
  split
  · rfl
  · split <;> rfl

/-- What a request's packet does on its link: it is counted, and its ACK and its credits are taken. -/
def received (u : Nat) (h : Header) (s : State) : State :=
  (countEvent (40 + u) 0x202 none s).modUli u fun p => p.accepted s.now 1 h

/-- The packet has left its buffer too. -/
def admitted (u : Nat) (h : Header) (s : State) : State := freeUnits u h.vc (h.len + 1) (received u h s)

/-- The links and the counters change, and no route. -/
structure State.Receives (s r : State) : Prop where
  rest : r = { s with ulis := r.ulis, ctrs := r.ctrs }
  routes : s.KeepsRoutes r

theorem received_receives (u : Nat) (h : Header) (s : State) : s.Receives (received u h s) :=
  ⟨rfl, .trans (r := countEvent (40 + u) 0x202 none s) (.of_eq rfl rfl rfl) (modUli_keepsRoutes _ _ _ (Uli.accepted_reaches ..))⟩

theorem freeUnits_keepsRoutes (u vc n : Nat) (s : State) : s.KeepsRoutes (freeUnits u vc n s) := modUli_keepsRoutes _ _ _ rfl

theorem admitted_receives (u : Nat) (h : Header) (s : State) : s.Receives (admitted u h s) :=
  ⟨rfl, (received_receives u h s).routes.trans (freeUnits_keepsRoutes ..)⟩

theorem receive_takes {u ty : Nat} {h : Header} {s : State} (htakes : s.takes u ty h) (hty : numbered ty = true) (body : State → State) :
    receive u ty h body s = body ((countEvent (40 + u) 0x202 none s).modUli u fun p => p.accepted s.now ty h) := by
  obtain ⟨hrun, htype, hcheck⟩ := htakes
  simp only [receive, hrun, htype, hcheck, hty, Bool.not_true, Bool.or_self, Bool.false_eq_true, if_false, if_true]
  rfl

theorem State.KeepsRoutes.foreign_eq {s r : State} (h : s.KeepsRoutes r) (u : Nat) : (r.uli u).foreign = (s.uli u).foreign := by
  have hu := h.links u
  simp only [Uli.reaches, Prod.mk.injEq] at hu
  exact hu.2.2

theorem request_asked {u op : Nat} {h : Header} {s : State} (hasked : s.asked u h) (x : Txn) (run : Nat → State → State) :
    request u op h x run s = run h.src.toNat (admitted u h s) := by
  obtain ⟨htakes, hdst, hown⟩ := hasked
  have hself : (admitted u h s).self = h.dst.toNat := by rw [(admitted_receives u h s).routes.self_eq, State.self, hdst]
  have hforeign : ((admitted u h s).uli u).foreign = false := by rw [(admitted_receives u h s).routes.foreign_eq, hown]
  unfold request
  rw [receive_takes htakes rfl]
  change (if h.dst.toNat = (admitted u h s).self then if ((admitted u h s).uli u).foreign && decide (op ≠ 13) then admitted u h s
    else run h.src.toNat (admitted u h s) else _) = _
  rw [if_pos hself.symm, hforeign]
  rfl

/-! ### The answer on the route (R432) -/

theorem sendResponse_routed {d v op : Nat} {tag : BitVec 16} {status : Nat} {lines : List Line} {ws : List Nat} {s : State}
    (h : s.route d = some v) : (sendResponse d op tag status lines ws s).replied v d op tag status lines ws ∧
      sendResponse d op tag status lines ws s = { s with ulis := (sendResponse d op tag status lines ws s).ulis } := by
  have hsend : sendResponse d op tag status lines ws s = s.modUli v fun l => { l with tx := l.tx ++
      [{ type := 2, vc := 0, len := if !lines.isEmpty then 2 else if ws.isEmpty then 0 else 1, dst := d, src := s.self
         txn := { op, tag, status, lines, words := ws } }] } := by
    simp only [sendResponse, sendPkt, h]
  rw [hsend]
  refine ⟨⟨if !lines.isEmpty then 2 else if ws.isEmpty then 0 else 1, ?_⟩, rfl⟩
  rw [State.modUli_self]
  simp [State.self, State.modUli]

/-- A command leads to a state that answers device d on port v, and in which more holds. -/
def State.Replies (s : State) (c : Instr) (v d op : Nat) (tag : BitVec 16) (status : Nat) (lines : List Line) (ws : List Nat)
    (q : State → Prop) : Prop := ∃ r, exec c s = .next r ∧ r.replied v d op tag status lines ws ∧ q r

/-- Another state of the links. -/
def State.withLinks (s : State) (l : Tab Uli) : State := { s with ulis := l }

/-- A state in which a packet has been taken from its link and counted. -/
def State.heard (s : State) (l : Tab Uli) (c : Tab CtrBlock) : State := { s with ulis := l, ctrs := c }

section
variable (s : State) (l : Tab Uli) (c : Tab CtrBlock)

@[simp] theorem State.withLinks_dram : (s.withLinks l).dram = s.dram := rfl
@[simp] theorem State.withLinks_cap : (s.withLinks l).cap = s.cap := rfl
@[simp] theorem State.withLinks_const : (s.withLinks l).const = s.const := rfl
@[simp] theorem State.withLinks_path : (s.withLinks l).path = s.path := rfl
@[simp] theorem State.withLinks_gather : (s.withLinks l).gather = s.gather := rfl
@[simp] theorem State.withLinks_rec_ : (s.withLinks l).rec_ = s.rec_ := rfl
@[simp] theorem State.withLinks_out : (s.withLinks l).out = s.out := rfl
@[simp] theorem State.withLinks_remote (i : Nat) : (s.withLinks l).remote i = s.remote i := rfl
@[simp] theorem State.withLinks_lineNow (a : Nat) : (s.withLinks l).lineNow a = s.lineNow a := rfl
@[simp] theorem State.withLinks_alloc (i : Nat) : (s.withLinks l).alloc i = s.alloc i := rfl
@[simp] theorem State.withLinks_extent (e : Nat) : (s.withLinks l).extent e = s.extent e := rfl
@[simp] theorem State.withLinks_appliedOf (d : Nat) : (s.withLinks l).appliedOf d = s.appliedOf d := rfl
@[simp] theorem State.withLinks_overlay (d n : Nat) : (s.withLinks l).overlay d n = s.overlay d n := rfl

@[simp] theorem State.heard_ident : (s.heard l c).ident = s.ident := rfl
@[simp] theorem State.heard_dram : (s.heard l c).dram = s.dram := rfl
@[simp] theorem State.heard_cap : (s.heard l c).cap = s.cap := rfl
@[simp] theorem State.heard_const : (s.heard l c).const = s.const := rfl
@[simp] theorem State.heard_path : (s.heard l c).path = s.path := rfl
@[simp] theorem State.heard_gather : (s.heard l c).gather = s.gather := rfl
@[simp] theorem State.heard_rec_ : (s.heard l c).rec_ = s.rec_ := rfl
@[simp] theorem State.heard_remote (i : Nat) : (s.heard l c).remote i = s.remote i := rfl
@[simp] theorem State.heard_lineNow (a : Nat) : (s.heard l c).lineNow a = s.lineNow a := rfl
@[simp] theorem State.heard_extent (e : Nat) : (s.heard l c).extent e = s.extent e := rfl
@[simp] theorem State.heard_dirEntry (k : Nat) : (s.heard l c).dirEntry k = s.dirEntry k := rfl
@[simp] theorem State.heard_unitGood (r : Remote) (n : Nat) : (s.heard l c).unitGood r n = s.unitGood r n := rfl
@[simp] theorem State.heard_moverOk (n : Nat) : (s.heard l c).moverOk n = s.moverOk n := rfl
@[simp] theorem State.heard_freeRemote : (s.heard l c).freeRemote = s.freeRemote := rfl
@[simp] theorem State.heard_placeOrder (n : Nat) (b : Bool) : (s.heard l c).placeOrder n b = s.placeOrder n b := rfl
@[simp] theorem State.heard_lowestRun (n a b d : Nat) : (s.heard l c).lowestRun n a b d = s.lowestRun n a b d := rfl

end

/-- A command that ends with its answer replies, whatever holds then beside the links. -/
theorem State.replies_of_send {s t : State} {c : Instr} {v d op : Nat} {tag : BitVec 16} {status : Nat} {lines : List Line} {ws : List Nat}
    {q : State → Prop} (hexec : exec c s = .next (sendResponse d op tag status lines ws t)) (hroutes : s.KeepsRoutes t)
    (hroute : s.route d = some v) (hq : ∀ l, q (t.withLinks l)) : s.Replies c v d op tag status lines ws q := by
  obtain ⟨hreplied, hrest⟩ := sendResponse_routed (op := op) (tag := tag) (status := status) (lines := lines) (ws := ws)
    ((hroutes.route_eq d).trans hroute)
  refine ⟨_, hexec, hreplied, ?_⟩
  rw [hrest]
  exact hq _

/-- A request that is answered in the end, when what it does before leaves every route. -/
theorem State.asked_replies {u v : Nat} {h : Header} {s : State} (hasked : s.asked u h) (hroute : s.route h.src.toNat = some v) {x : Txn} {c : Instr}
    {op status : Nat} {lines : List Line} {ws : List Nat} {q : State → Prop} {run : Nat → State → State} {t : Tab Uli → Tab CtrBlock → State}
    (hexec : exec c s = .next (request u op h x run s))
    (hrun : ∀ a b, run h.src.toNat (s.heard a b) = sendResponse h.src.toNat op x.tag status lines ws (t a b))
    (hroutes : ∀ a b, (s.heard a b).KeepsRoutes (t a b)) (hq : ∀ a b l, q ((t a b).withLinks l)) :
    s.Replies c v h.src.toNat op x.tag status lines ws q := by
  have hheard : admitted u h s = s.heard (admitted u h s).ulis (admitted u h s).ctrs := rfl
  have hkeeps := hroutes (admitted u h s).ulis (admitted u h s).ctrs
  rw [← hheard] at hkeeps
  refine State.replies_of_send (t := t (admitted u h s).ulis (admitted u h s).ctrs) ?_ ((admitted_receives u h s).routes.trans hkeeps) hroute
    fun l => hq _ _ l
  rw [hexec, request_asked hasked, ← hrun _ _, ← hheard]

end Sys2Proof.Machine
end

section
namespace Sys2Proof.Machine

/-! ### The far tier at its guest (R142, R162, R177, R218, R436, R439, R440) -/

/-- The run that an earlier FAR_ALLOC for the same page gave. -/
def State.farTwin (s : State) (home dlpn st : Nat) (len : BitVec 20) : Option (Nat × Remote) :=
  s.const.remotes.find? fun r => decide (r.2.home = home) && decide (r.2.homeDlpn = dlpn) && !r.2.committed &&
    decide (r.2.state = st) && decide (r.2.blockLen = len)

/-- A far page of a frame that is new under an index. -/
def placeFar (i n : Nat) (r : Remote) (s : State) : State :=
  updateCapacity ((s.modCap fun c => { c with g := c.g + n }).modRemote i fun _ => r)

section
variable {u home dlpn st units : Nat} {len : BitVec 20} {s : State}

theorem farAlloc_repeated {e : Nat × Remote} (h : s.farTwin home dlpn st len = some e) : farAlloc u home dlpn st len units s = (0, e.1, s) := by
  rw [State.farTwin] at h
  rw [farAlloc, h]

/-- A first FAR_ALLOC for a page of a frame, under an index whose descriptor block exists. -/
theorem farAlloc_first (hnew : s.farTwin home dlpn 1 len = none) (hblock : s.hasRemoteBlock (s.freeRemote / 65536) = true) :
    farAlloc u home dlpn 1 len units s = if !s.moverOk units then (2, 0, s) else
      match takeFrameOn (.guest s.freeRemote) s (s.placeOrder (6 * u) false) with
      | none => (3, 0, s)
      | some (l, t) => (0, s.freeRemote, placeFar s.freeRemote units { state := 1, home, homeDlpn := dlpn, blockLen := len, location := l, units } t) := by
  have hcharge : s.farCharge s.freeRemote units = units := by simp [State.farCharge, hblock]
  have hplace : placeRemoteBlock (s.freeRemote / 65536) (6 * u) s = some s := by simp [placeRemoteBlock, hblock]
  rw [State.farTwin] at hnew
  simp only [farAlloc, hnew, hcharge, hplace, takeOn]
  rfl

theorem placeFar_places (i n : Nat) (r : Remote) (t : State) : t.KeepsRoutes (placeFar i n r t) ∧ (placeFar i n r t).remote i = r ∧
    (∀ c, (placeFar i n r t).alloc c = t.alloc c) ∧ (placeFar i n r t).cap.g = t.cap.g + n := by
  have hreckons := updateCapacity_reckons ((t.modCap fun c => { c with g := c.g + n }).modRemote i fun _ => r)
  refine ⟨.trans (r := (t.modCap fun c => { c with g := c.g + n }).modRemote i fun _ => r) (.of_eq rfl rfl rfl) hreckons.keepsRoutes, ?_,
    fun c => hreckons.alloc_eq c, hreckons.g_eq⟩
  exact (hreckons.remote_eq i).trans (State.modRemote_self ..)

end

/-! #### Units of a run -/

theorem putLine_keepsRoutes (l : Nat) (d : DLine) (s : State) : s.KeepsRoutes (putLine l d s) := by
  obtain ⟨m, c, h⟩ := putLines_rest l [d] s
  rw [putLines, putLines] at h
  rw [h]
  exact .of_eq rfl rfl rfl

theorem forEach_keepsRoutes {α : Type} (l : List α) (f : α → State → State) (h : ∀ a s, State.KeepsRoutes s (f a s)) (s : State) :
    s.KeepsRoutes (forEach l f s) := forEach_keeps .refl .trans l f h s

theorem modRemote_keepsRoutes (i : Nat) (f : Remote → Remote) (s : State) : s.KeepsRoutes (s.modRemote i f) := .of_eq rfl rfl rfl

theorem putUnits_keepsRoutes (i unit : Nat) (lines : List Line) (s : State) : s.KeepsRoutes (putUnits i unit lines s) := by
  unfold putUnits
  dsimp only
  split
  · exact modRemote_keepsRoutes ..
  · exact forEach_keepsRoutes _ _ (fun _ _ => putLine_keepsRoutes ..) s

/-- Units written in turn: the place of one holds its data when every unit written there has the same. -/
theorem lineNow_forEach_putLine {base k : Nat} {w : Line} (l : List (Nat × Line)) (s : State) (hdata : ∀ e ∈ l, e.1 = k → e.2 = w)
    (hput : s.lineNow (base + k) = { data := w } ∨ ∃ e ∈ l, e.1 = k) :
    (forEach l (fun e s => putLine (base + e.1) { data := e.2 } s) s).lineNow (base + k) = { data := w } := by
  induction l generalizing s with
  | nil => exact hput.resolve_right (by simp)
  | cons e l ih =>
    have hline : (putLine (base + e.1) { data := e.2 } s).lineNow (base + k) = if k = e.1 then { data := e.2 } else s.lineNow (base + k) := by
      rw [lineNow_putLine]
      simp
    refine ih _ (fun y hy => hdata y (List.mem_cons_of_mem _ hy)) ?_
    rw [hline]
    split
    · rename_i hk; exact .inl (by rw [hdata e List.mem_cons_self hk.symm])
    · rename_i hk
      refine hput.imp_right fun ⟨y, hy, hyk⟩ => ⟨y, (List.mem_cons.1 hy).resolve_left ?_, hyk⟩
      rintro rfl
      exact hk hyk.symm

/-- Before the first commit units are written at their places. -/
theorem putUnits_written {i unit j : Nat} {lines : List Line} {s : State} (hcommit : (s.remote i).committed = false) (hj : j < lines.length)
    (hunit : unit + j < (s.remote i).units) :
    (putUnits i unit lines s).lineNow ((s.remote i).location + (unit + j)) = { data := lines.getD j 0 } := by
  simp only [putUnits, hcommit, Bool.false_eq_true, if_false]
  refine lineNow_forEach_putLine _ s ?_ (.inr ⟨(unit + j, lines.getD j 0), ?_, rfl⟩)
  · simp only [List.mem_filter, List.mem_map, List.mem_range]
    rintro e ⟨⟨k, -, rfl⟩, -⟩ hk
    rw [show k = j by simpa using hk]
  · simp only [List.mem_filter, List.mem_map, List.mem_range, decide_eq_true_iff]
    exact ⟨⟨j, hj, rfl⟩, hunit⟩

/-- After it they are staged. -/
theorem putUnits_staged {i unit : Nat} {lines : List Line} {s : State} (hcommit : (s.remote i).committed = true) :
    (putUnits i unit lines s).dram = s.dram ∧
      ∀ j < lines.length, (unit + j, lines.getD j 0) ∈ ((putUnits i unit lines s).remote i).staged := by
  simp only [putUnits, hcommit, if_true]
  refine ⟨rfl, fun j hj => ?_⟩
  rw [State.modRemote_self]
  exact List.mem_append_right _ (List.mem_map.2 ⟨j, List.mem_range.2 hj, rfl⟩)

/-! #### A run is freed -/

theorem freeStorage_rest (l n : Nat) (s : State) : ∃ a, freeStorage l n s = { s with allocs := a } := by
  unfold freeStorage
  dsimp only
  split
  · exact ⟨_, rfl⟩
  · split
    · exact ⟨s.allocs, rfl⟩
    · exact ⟨_, rfl⟩

theorem farFree_frees {i : Nat} {s : State} (h : (s.remote i).state ≠ 0) : s.KeepsRoutes (farFree i s) ∧ (farFree i s).remote i = {} ∧
    (∀ j < (s.remote i).units, (farFree i s).lineNow ((s.remote i).location + j) = {}) ∧ (farFree i s).cap.g = s.cap.g - (s.remote i).units := by
  obtain ⟨⟨m, c, hclear⟩, hlines⟩ := clearLines_clears (s.remote i).location (s.remote i).units s
  obtain ⟨a, hfree⟩ := freeStorage_rest (s.remote i).location
    (if (s.remote i).blockLen ≠ 0 ∨ (s.remote i).state = 2 then (s.remote i).units else 0)
    (clearLines (s.remote i).location (s.remote i).units s)
  have hrun : farFree i s = updateCapacity (((freeStorage (s.remote i).location
      (if (s.remote i).blockLen ≠ 0 ∨ (s.remote i).state = 2 then (s.remote i).units else 0)
      (clearLines (s.remote i).location (s.remote i).units s)).modCap fun c => { c with g := c.g - (s.remote i).units }).modRemote i fun _ => {}) := by
    simp only [farFree, h, if_false]
  rw [hfree] at hrun
  generalize clearLines (s.remote i).location (s.remote i).units s = t at *
  have hreckons := updateCapacity_reckons ((({ t with allocs := a } : State).modCap fun c =>
    { c with g := c.g - (s.remote i).units }).modRemote i fun _ => {})
  rw [hrun]
  refine ⟨.trans ?_ hreckons.keepsRoutes, (hreckons.remote_eq i).trans (State.modRemote_self ..), fun j hj => ?_, ?_⟩
  · rw [hclear]; exact .of_eq rfl rfl rfl
  · rw [hreckons.lineNow_eq]; exact hlines j hj
  · rw [hreckons.g_eq, hclear]; rfl

end Sys2Proof.Machine
end

section
namespace Sys2Proof.Machine

/-! #### The answers of the far tier -/

section
variable (u : Fin 3) (h : Header) (x : Txn) (ue : Bool) (s : State)

theorem exec_farAlloc : exec (.farAlloc u h x) s = execFarAlloc u h x s := rfl
theorem exec_farRd : exec (.farRd u h x ue) s = execFarRd u h x ue s := rfl
theorem exec_farWr : exec (.farWr u h x) s = execFarWr u h x s := rfl
theorem exec_farPut : exec (.farPut u h x) s = execFarPut u h x s := rfl
theorem exec_farCommit : exec (.farCommit u h x) s = execFarCommit u h x s := rfl
theorem exec_farFree : exec (.farFree u h x) s = execFarFree u h x s := rfl
theorem exec_snoop : exec (.snoop u h x) s = execSnoop u h x s := rfl
theorem exec_xmap : exec (.xmap u h x) s = execXmap u h x s := rfl
theorem exec_admitReq : exec (.admitReq u h x) s = execAdmitReq u h x s := rfl
theorem exec_uliletTally : exec (.uliletTally u h x) s = execUliletTally u h x s := rfl
theorem exec_fwdRd : exec (.fwdRd u h x) s = execFwdRd u h x s := rfl
theorem exec_fwdWr : exec (.fwdWr u h x) s = execFwdWr u h x s := rfl

end

theorem useFrame_keepsRoutes (c f : Nat) (o : Owner) (s : State) : s.KeepsRoutes (useFrame c f o s) := .of_eq rfl rfl rfl

section
variable {u v : Fin 3} {h : Header} {x : Txn} {s : State} (hasked : s.asked u h) (hroute : s.route h.src.toNat = some v.val)
include hasked hroute

theorem farAlloc_repeats {e : Nat × Remote} (hst : x.words.getD 0 1 = 1)
    (hsame : s.farTwin h.src.toNat x.index 1 (BitVec.ofNat 20 (x.words.getD 1 0)) = some e) :
    s.Replies (.farAlloc u h x) v h.src.toNat 3 x.tag 0 [] [e.1] fun r => r.const.remotes = s.const.remotes ∧ r.cap = s.cap := by
  refine State.asked_replies hasked hroute (t := s.heard) (exec_farAlloc u h x s) (fun a b => ?_) (fun _ _ => .refl _) fun _ _ _ => ⟨rfl, rfl⟩
  rw [hst, farAlloc_repeated (s := s.heard a b) hsame]
  rfl

section
variable (hst : x.words.getD 0 1 = 1) (hblock : s.hasRemoteBlock (s.freeRemote / 65536) = true)
  (hnew : s.farTwin h.src.toNat x.index 1 (BitVec.ofNat 20 (x.words.getD 1 0)) = none)
include hst hblock hnew

theorem farAlloc_refuses (hroom : s.moverOk (x.words.getD 2 64) = false) :
    s.Replies (.farAlloc u h x) v h.src.toNat 3 x.tag 2 [] [] fun r => r.const.remotes = s.const.remotes := by
  refine State.asked_replies hasked hroute (t := s.heard) (exec_farAlloc u h x s) (fun a b => ?_) (fun _ _ => .refl _) fun _ _ _ => rfl
  rw [hst, farAlloc_first (s := s.heard a b) hnew hblock, State.heard_moverOk, hroom]
  rfl

theorem farAlloc_full (hroom : s.moverOk (x.words.getD 2 64) = true)
    (hfull : (s.placeOrder (6 * u.val) false).find? (fun c => (s.lowestRun c 1 1 1).isSome) = none) :
    s.Replies (.farAlloc u h x) v h.src.toNat 3 x.tag 3 [] [] fun r => r.const.remotes = s.const.remotes := by
  refine State.asked_replies hasked hroute (t := s.heard) (exec_farAlloc u h x s) (fun a b => ?_) (fun _ _ => .refl _) fun _ _ _ => rfl
  have htake : takeFrameOn (.guest (s.heard a b).freeRemote) (s.heard a b) ((s.heard a b).placeOrder (6 * u.val) false) = none :=
    takeFrameOn_none hfull
  rw [hst, farAlloc_first (s := s.heard a b) hnew hblock, State.heard_moverOk, hroom, htake]
  rfl

theorem farAlloc_places (hroom : s.moverOk (x.words.getD 2 64) = true) {c f : Nat}
    (hdest : (s.placeOrder (6 * u.val) false).find? (fun c => (s.lowestRun c 1 1 1).isSome) = some c) (hfree : s.lowestRun c 1 1 1 = some f) :
    s.Replies (.farAlloc u h x) v h.src.toNat 3 x.tag 0 [] [s.freeRemote] fun r =>
      r.remote s.freeRemote = { state := 1, home := h.src.toNat, homeDlpn := x.index, blockLen := BitVec.ofNat 20 (x.words.getD 1 0)
                                location := frameLine c f, units := x.words.getD 2 64 } ∧
        Tab.get none (r.alloc c).frames f = some (.guest s.freeRemote) ∧ r.cap.g = s.cap.g + x.words.getD 2 64 := by
  let w : Remote := { state := 1, home := h.src.toNat, homeDlpn := x.index, blockLen := BitVec.ofNat 20 (x.words.getD 1 0)
                      location := frameLine c f, units := x.words.getD 2 64 }
  have hplaced (a b) := placeFar_places s.freeRemote (x.words.getD 2 64) w (useFrame c f (.guest s.freeRemote) (s.heard a b))
  refine State.asked_replies hasked hroute (exec_farAlloc u h x s)
    (t := fun a b => placeFar s.freeRemote (x.words.getD 2 64) w (useFrame c f (.guest s.freeRemote) (s.heard a b)))
    (fun a b => ?_) (fun a b => ?_) fun a b l => ?_
  · have htake : takeFrameOn (.guest (s.heard a b).freeRemote) (s.heard a b) ((s.heard a b).placeOrder (6 * u.val) false) =
      some (frameLine c f, useFrame c f (.guest (s.heard a b).freeRemote) (s.heard a b)) := takeFrameOn_some hdest hfree
    rw [hst, farAlloc_first (s := s.heard a b) hnew hblock, State.heard_moverOk, hroom, htake]
    rfl
  · exact State.KeepsRoutes.trans (useFrame_keepsRoutes ..) (hplaced a b).1
  · obtain ⟨-, hremote, halloc, hcharge⟩ := hplaced a b
    rw [State.withLinks_remote, State.withLinks_alloc, State.withLinks_cap, halloc, hcharge]
    exact ⟨hremote, useFrame_frames .., rfl⟩

end

theorem farRd_reads (hstate : (s.remote x.index).state ≠ 0) (hhome : (s.remote x.index).home = h.src.toNat)
    (hgood : s.unitGood (s.remote x.index) x.unit = true) :
    s.Replies (.farRd u h x false) v h.src.toNat 4 x.tag 0 [(s.lineNow ((s.remote x.index).location + x.unit)).data] [] fun r => r.dram = s.dram := by
  refine State.asked_replies hasked hroute (t := s.heard) (exec_farRd u h x false s) (fun a b => ?_) (fun _ _ => .refl _) fun _ _ _ => rfl
  simp [hstate, hhome, hgood]

theorem farRd_poisons (hbad : ¬ ((s.remote x.index).state ≠ 0 ∧ (s.remote x.index).home = h.src.toNat) ∨
    s.unitGood (s.remote x.index) x.unit = false) (ue : Bool) :
    s.Replies (.farRd u h x ue) v h.src.toNat 4 x.tag 1 [0] [] fun r => r.dram = s.dram := by
  refine State.asked_replies hasked hroute (t := s.heard) (exec_farRd u h x ue s) (fun a b => if_neg ?_) (fun _ _ => .refl _) fun _ _ _ => rfl
  simp only [State.heard_remote, State.heard_unitGood, Bool.and_eq_true]
  rintro ⟨⟨hstate, hhome⟩, hgood⟩
  exact hbad.elim (fun hnot => hnot ⟨of_decide_eq_true hstate, of_decide_eq_true hhome⟩) fun hnot => absurd (hgood.symm.trans hnot) (by decide)

theorem farWr_writes (hstate : (s.remote x.index).state = 1) (hhome : (s.remote x.index).home = h.src.toNat)
    (hunit : x.unit < (s.remote x.index).units) : s.Replies (.farWr u h x) v h.src.toNat 5 x.tag 0 [] [] fun r =>
      r.lineNow ((s.remote x.index).location + x.unit) = { data := x.lines.headD 0 } := by
  refine State.asked_replies hasked hroute (exec_farWr u h x s) (fun _ _ => if_pos ⟨hstate, hhome, hunit⟩) (fun _ _ => putLine_keepsRoutes ..)
    fun _ _ _ => ?_
  rw [State.withLinks_lineNow, State.heard_remote, lineNow_putLine, if_pos rfl]

section
variable (hother : ¬ ((s.remote x.index).state ≠ 0 ∧ (s.remote x.index).home = h.src.toNat))
include hother

theorem farWr_refuses : s.Replies (.farWr u h x) v h.src.toNat 5 x.tag 2 [] [] fun r => r.dram = s.dram := by
  refine State.asked_replies hasked hroute (t := s.heard) (exec_farWr u h x s) (fun _ _ => if_neg ?_) (fun _ _ => .refl _) fun _ _ _ => rfl
  rintro ⟨hstate, hhome, -⟩
  exact hother ⟨fun hzero => absurd (hstate.symm.trans hzero) (by decide), hhome⟩

theorem farPut_refuses : s.Replies (.farPut u h x) v h.src.toNat 6 x.tag 2 [] [] fun r => r.dram = s.dram :=
  State.asked_replies hasked hroute (t := s.heard) (exec_farPut u h x s) (fun _ _ => if_neg fun hmine => hother ⟨hmine.2, hmine.1⟩)
    (fun _ _ => .refl _) fun _ _ _ => rfl

theorem farCommit_refuses : s.Replies (.farCommit u h x) v h.src.toNat 7 x.tag 2 [] [] fun r => r.const.remotes = s.const.remotes := by
  refine State.asked_replies hasked hroute (t := s.heard) (exec_farCommit u h x s) (fun _ _ => if_pos ?_) (fun _ _ => .refl _) fun _ _ _ => rfl
  by_cases hstate : (s.remote x.index).state = 0
  · exact .inl hstate
  · exact .inr fun hhome => hother ⟨hstate, hhome⟩

end

section
variable (hstate : (s.remote x.index).state ≠ 0) (hhome : (s.remote x.index).home = h.src.toNat)
include hstate hhome

theorem farPut_replies {q : State → Prop} (hq : ∀ a b l, q ((putUnits x.index x.unit x.lines (s.heard a b)).withLinks l)) :
    s.Replies (.farPut u h x) v h.src.toNat 6 x.tag 0 [] [] q :=
  State.asked_replies hasked hroute (exec_farPut u h x s) (fun _ _ => if_pos ⟨hhome, hstate⟩) (fun _ _ => putUnits_keepsRoutes ..) hq

theorem farPut_writes (hcommit : (s.remote x.index).committed = false) : s.Replies (.farPut u h x) v h.src.toNat 6 x.tag 0 [] [] fun r =>
    ∀ j < x.lines.length, x.unit + j < (s.remote x.index).units →
      r.lineNow ((s.remote x.index).location + (x.unit + j)) = { data := x.lines.getD j 0 } :=
  farPut_replies hasked hroute hstate hhome fun a b _ _ hj hunit => putUnits_written (s := s.heard a b) hcommit hj hunit

theorem farPut_stages (hcommit : (s.remote x.index).committed = true) : s.Replies (.farPut u h x) v h.src.toNat 6 x.tag 0 [] [] fun r =>
    r.dram = s.dram ∧ ∀ j < x.lines.length, (x.unit + j, x.lines.getD j 0) ∈ (r.remote x.index).staged :=
  farPut_replies hasked hroute hstate hhome fun a b _ => putUnits_staged (s := s.heard a b) hcommit

theorem farCommit_commits (hdone : (s.remote x.index).committed = false ∨ (s.remote x.index).staged = []) :
    s.Replies (.farCommit u h x) v h.src.toNat 7 x.tag 0 [] [] fun r => r.remote x.index =
      { s.remote x.index with state := x.words.getD 0 1, blockLen := BitVec.ofNat 20 (x.words.getD 1 0), committed := true } := by
  have hdone' : (!(s.remote x.index).committed) = true ∨ (s.remote x.index).staged.isEmpty = true :=
    hdone.imp (fun hc => by rw [hc]; rfl) fun hs => by rw [hs]; rfl
  have hmine : ¬ ((s.remote x.index).state = 0 ∨ (s.remote x.index).home ≠ h.src.toNat) := fun hno => hno.elim hstate fun hne => hne hhome
  refine State.asked_replies hasked hroute (exec_farCommit u h x s) (fun a b => (if_neg hmine).trans (if_pos hdone'))
    (fun _ _ => modRemote_keepsRoutes ..) fun _ _ _ => ?_
  rw [State.withLinks_remote, State.modRemote_self, State.heard_remote]

theorem farFree_replies : s.Replies (.farFree u h x) v h.src.toNat 8 x.tag 0 [] [] fun r => r.remote x.index = {} ∧
    (∀ j < (s.remote x.index).units, r.lineNow ((s.remote x.index).location + j) = {}) ∧ r.cap.g = s.cap.g - (s.remote x.index).units := by
  have hfreed (a b) := farFree_frees (i := x.index) (s := s.heard a b) hstate
  exact State.asked_replies hasked hroute (exec_farFree u h x s) (fun _ _ => congrArg _ (if_pos hhome)) (fun a b => (hfreed a b).1)
    fun a b _ => (hfreed a b).2

end

theorem farFree_keeps (hhome : (s.remote x.index).home ≠ h.src.toNat) :
    s.Replies (.farFree u h x) v h.src.toNat 8 x.tag 0 [] [] fun r => r.const.remotes = s.const.remotes ∧ r.dram = s.dram :=
  State.asked_replies hasked hroute (t := s.heard) (exec_farFree u h x s) (fun _ _ => congrArg _ (if_neg hhome)) (fun _ _ => .refl _)
    fun _ _ _ => ⟨rfl, rfl⟩

end

end Sys2Proof.Machine
end

section
namespace Sys2Proof.Machine

/-! ### An uncorrectable line of far storage (R263, R274, R277 to R281)

What the count of an uncorrectable line may lead to, down to the loss of its channel, leaves every route, and every far page its home. -/

/-- Every route stands, and every far page keeps its home. -/
structure State.KeepsGuests (s r : State) : Prop where
  routes : s.KeepsRoutes r
  homes : ∀ i, (r.remote i).home = (s.remote i).home ∧ (r.remote i).homeDlpn = (s.remote i).homeDlpn

theorem State.KeepsGuests.refl (s : State) : s.KeepsGuests s := ⟨.refl s, fun _ => ⟨rfl, rfl⟩⟩

theorem State.KeepsGuests.trans {s r q : State} (h : s.KeepsGuests r) (k : r.KeepsGuests q) : s.KeepsGuests q :=
  ⟨h.routes.trans k.routes, fun i => ⟨(k.homes i).1.trans (h.homes i).1, (k.homes i).2.trans (h.homes i).2⟩⟩

theorem State.KeepsGuests.ite {p : Prop} [Decidable p] {s r q : State} (h : s.KeepsGuests r) (k : s.KeepsGuests q) :
    s.KeepsGuests (if p then r else q) := by
  split
  · exact h
  · exact k

theorem forEach_keepsGuests {α : Type} (l : List α) (f : α → State → State) (h : ∀ a s, State.KeepsGuests s (f a s)) (s : State) :
    s.KeepsGuests (forEach l f s) := forEach_keeps .refl .trans l f h s

/-- A change of other parts of the state than this device, its links and what it knows of the others. -/
theorem State.KeepsGuests.of_eq {s r : State} (hident : r.ident = s.ident) (hconst : r.const = s.const) (hulis : r.ulis = s.ulis) :
    s.KeepsGuests r :=
  ⟨.of_eq hident (by rw [hconst]) hulis, fun i => by rw [State.remote, State.remote, hconst]; exact ⟨rfl, rfl⟩⟩

theorem State.Reckons.keepsGuests {s r : State} (h : s.Reckons r) : s.KeepsGuests r :=
  ⟨h.keepsRoutes, fun i => by rw [h.remote_eq]; exact ⟨rfl, rfl⟩⟩

theorem State.Reports.keepsGuests {s r : State} (h : s.Reports r) : s.KeepsGuests r := h.reckons.keepsGuests

theorem modRemote_keepsGuests (i : Nat) (f : Remote → Remote) (s : State)
    (hf : ∀ r, (f r).home = r.home ∧ (f r).homeDlpn = r.homeDlpn) : s.KeepsGuests (s.modRemote i f) := by
  refine ⟨modRemote_keepsRoutes .., fun k => ?_⟩
  rw [State.modRemote_at]
  split
  · rename_i hk; rw [hk]; exact hf _
  · exact ⟨rfl, rfl⟩

/-! #### Accounts and reports -/

theorem postDevice_keepsGuests (q : Nat) (a b c d : Word) (s : State) : s.KeepsGuests (postDevice q a b c d s) :=
  (postDevice_reckons q a b c d s).keepsGuests

theorem updateCapacity_keepsGuests (s : State) : s.KeepsGuests (updateCapacity s) := (updateCapacity_reckons s).keepsGuests

theorem fireEvent_keepsGuests {n : Nat} (hn : sourceClass n < 3) (s : State) : s.KeepsGuests (fireEvent n s) :=
  (fireEvent_reports n s hn).keepsGuests

theorem condStart_keepsGuests {n : Nat} (hn : sourceClass n < 3) (s : State) : s.KeepsGuests (condStart n s) :=
  (condStart_reports n s hn).keepsGuests

theorem sourceClass_srcChannel (c k : Nat) : sourceClass (srcChannel c k) < 3 := sourceClass_low (by unfold srcChannel; omega)

theorem capacityFell_keepsGuests (s : State) : s.KeepsGuests (capacityFell s) := by
  unfold capacityFell
  refine .ite ?_ (updateCapacity_keepsGuests s)
  exact .trans (r := s.modCap _) (.of_eq rfl rfl rfl) ((condStart_keepsGuests (by decide) _).trans (updateCapacity_keepsGuests _))

theorem recomputeDelivery_keepsGuests (s : State) : s.KeepsGuests (recomputeDelivery s) := by
  unfold recomputeDelivery
  exact .trans (r := s.modQos _) (.of_eq rfl rfl rfl) (condSet_reports 68 _ _ (by decide)).keepsGuests

theorem giveBack_keepsGuests (e n : Nat) (s : State) : s.KeepsGuests (giveBack e n s) :=
  .trans (r := addFootprint e (-(n : Int)) s) (.of_eq rfl rfl rfl) (updateCapacity_keepsGuests _)

theorem listPoison_keepsGuests (d unit place source : Nat) (s : State) : s.KeepsGuests (listPoison d unit place source s) := by
  unfold listPoison
  refine .ite (.refl s) (.ite (.of_eq rfl rfl rfl) ?_)
  exact .trans (r := s.modInteg _) (.of_eq rfl rfl rfl) (condStart_keepsGuests (by decide) _)

theorem unlistPage_keepsGuests (d : Nat) (s : State) : s.KeepsGuests (unlistPage d s) := .of_eq rfl rfl rfl
theorem modRil_keepsGuests (f : Ril → Ril) (s : State) : s.KeepsGuests (s.modRil f) := .of_eq rfl rfl rfl
theorem freeAfter_keepsGuests (d l n : Nat) (s : State) : s.KeepsGuests (freeAfter d l n s) := .of_eq rfl rfl rfl
theorem modAlloc_keepsGuests (c : Nat) (f : Alloc → Alloc) (s : State) : s.KeepsGuests (s.modAlloc c f) := .of_eq rfl rfl rfl
theorem partLeaves_keepsGuests (i : Nat) (s : State) : s.KeepsGuests (partLeaves i s) := .of_eq rfl rfl rfl
theorem setDesc_keepsGuests (d : Nat) (x : Desc) (s : State) : s.KeepsGuests (setDesc d x s) := .of_eq rfl rfl rfl

/-! #### What moves to a channel aborts (R188) -/

theorem closeComet_keepsGuests (t : Nat) (l : List Nat) (s : State) : s.KeepsGuests (closeComet t l s) := by
  unfold closeComet
  split
  · exact .refl s
  · exact .of_eq rfl rfl rfl

theorem completeTicket_keepsGuests (t : BitVec 16) (code : Nat) (s : State) : s.KeepsGuests (completeTicket t code s) := by
  have hwait (n : Nat) (s : State) : s.KeepsGuests (mwaitDone n code s) :=
    .trans (r := s.modThread n _) (.of_eq rfl rfl rfl) (closeComet_keepsGuests ..)
  unfold completeTicket
  split
  · exact .refl s
  · refine .trans ?_ (forEach_keepsGuests _ _ hwait _)
    refine .trans ?_ (modRil_keepsGuests ..)
    split
    · exact postDevice_keepsGuests ..
    · exact .refl s

theorem finishOp_keepsGuests (q : Nat) (op : MoverOp) (t : Option (BitVec 16)) (code : Nat) (s : State) :
    s.KeepsGuests (finishOp q op t code s) := by
  unfold finishOp
  have hcount := State.KeepsGuests.trans (s := s) (r := s.modQuad q fun d =>
    { d with
      aborts := if code = 6 then satAdd d.aborts 1 else d.aborts
      promoted := if op = .heatUnpack ∧ code = 0 then satAdd d.promoted 1 else d.promoted
      suppressed := if op = .heatUnpack ∧ (code = 3 ∨ code = 4) then satAdd d.suppressed 1 else d.suppressed }) (.of_eq rfl rfl rfl)
    (.ite (p := code = 6) (fireEvent_keepsGuests (n := 782) (by decide) _) (.refl _))
  cases t with
  | none => exact hcount
  | some t => exact hcount.trans (completeTicket_keepsGuests ..)

theorem sendFarFree_keepsGuests (d i p : Nat) (s : State) : s.KeepsGuests (sendFarFree d i p s) := by
  refine .ite (openTxn_reports ..).keepsGuests ⟨⟨rfl, fun k => ?_, fun _ => rfl⟩, fun _ => ⟨rfl, rfl⟩⟩
  rw [State.modMember_at]
  split
  · rename_i hk; rw [hk]
  · rfl

theorem freeStorage_keepsGuests (l n : Nat) (s : State) : s.KeepsGuests (freeStorage l n s) := by
  obtain ⟨a, h⟩ := freeStorage_rest l n s
  rw [h]
  exact .of_eq rfl rfl rfl

theorem endRecord_keepsGuests (q : Nat) (r : MoverRec) (code : Nat) (s : State) : s.KeepsGuests (endRecord q r code s) := by
  have hcharge (n : Nat) (s : State) : s.KeepsGuests (releaseM n s) :=
    .ite (.refl s) (.trans (r := s.modCap _) (.of_eq rfl rfl rfl) (updateCapacity_keepsGuests _))
  unfold endRecord
  refine .trans ?_ (finishOp_keepsGuests ..)
  refine .trans ?_ (.ite (.refl _) (.ite (.of_eq rfl rfl rfl) (.of_eq rfl rfl rfl)))
  refine .trans ?_ (hcharge ..)
  refine .trans (r := (dropRecall r.dlpn s).modQuad q _) (.of_eq rfl rfl rfl) (.ite ?_ (.refl _))
  split
  · exact sendFarFree_keepsGuests ..
  · exact freeStorage_keepsGuests ..

theorem abortMove_keepsGuests (d : Nat) (s : State) : s.KeepsGuests (abortMove d s) := by
  unfold abortMove
  split
  · exact endRecord_keepsGuests ..
  · exact .refl s

theorem channelLeft_keepsGuests (c : Nat) (s : State) : s.KeepsGuests (channelLeft c s) :=
  ((capacityFell_keepsGuests s).trans (recomputeDelivery_keepsGuests _)).trans (forEach_keepsGuests _ _ (fun _ _ => abortMove_keepsGuests ..) _)

/-! #### A page that the channel held is POISONED (R264, R281) -/

theorem poisonPage_keepsGuests (d source : Nat) (s : State) : s.KeepsGuests (poisonPage d source s) := by
  unfold poisonPage
  generalize s.source d = stored
  obtain ⟨st, loc, len⟩ := stored
  refine .trans ?_ (listPoison_keepsGuests ..)
  refine .trans ?_ (unlistPage_keepsGuests ..)
  refine .trans ?_ (abortMove_keepsGuests ..)
  have hgone := (giveBack_keepsGuests (extentOf d) (pageLines st len) s).trans
    (setDesc_keepsGuests d { s.desc d with state := .poisoned, location := 0, blockLen := 0, lock := false, bpoison := 0 } _)
  cases st with
  | plain => exact hgone.trans (freeAfter_keepsGuests ..)
  | packed => exact hgone.trans (.ite (.refl _) (freeAfter_keepsGuests ..))
  | far => exact hgone.trans (sendFarFree_keepsGuests ..)
  | _ => exact hgone

theorem loseOwner_keepsGuests (s : State) (o : Owner) : s.KeepsGuests (loseOwner s o) := by
  cases o with
  | page d => exact .ite (.refl s) ((poisonPage_keepsGuests ..).trans (recordPoison_reports ..).keepsGuests)
  | dest d => exact abortMove_keepsGuests ..
  | guest i =>
    have hlost : s.KeepsGuests (s.modRemote i fun r => { r with state := 7 }) := modRemote_keepsGuests _ _ _ fun _ => ⟨rfl, rfl⟩
    exact hlost.trans (.of_eq rfl rfl rfl)
  | _ => exact .refl s

theorem loseOwners_keepsGuests (l : List Owner) (s : State) : s.KeepsGuests (l.foldl loseOwner s) := by
  induction l generalizing s with
  | nil => exact .refl s
  | cons o l ih => exact (loseOwner_keepsGuests s o).trans (ih _)

theorem loseSegments_keepsGuests (c : Nat) (s : State) : s.KeepsGuests (loseSegments c s) := .ite (.of_eq rfl rfl rfl) (.refl s)

theorem channelUnreadable_keepsGuests (c : Nat) (s : State) : s.KeepsGuests (channelUnreadable c s) := by
  unfold channelUnreadable
  refine .trans ?_ (partLeaves_keepsGuests ..)
  refine .trans ?_ (modAlloc_keepsGuests ..)
  refine .trans ?_ (loseSegments_keepsGuests ..)
  refine .trans ?_ (loseOwners_keepsGuests ..)
  refine .trans ?_ (postDevice_keepsGuests ..)
  refine .trans ?_ (channelLeft_keepsGuests ..)
  refine .trans ?_ (condStart_keepsGuests (sourceClass_srcChannel ..) _)
  exact .trans (r := s.modChan c _) (.of_eq rfl rfl rfl) (fireEvent_keepsGuests (sourceClass_srcChannel ..) _)

/-! #### The counts of an uncorrectable line (R277, R280) -/

theorem tryRetire_keepsGuests (c : Nat) (s : State) : s.KeepsGuests (tryRetire c s) := by
  unfold tryRetire
  split
  · exact .of_eq rfl rfl rfl
  · exact .ite (.trans (r := s.modChan c _) (.of_eq rfl rfl rfl) (channelLeft_keepsGuests ..)) (.of_eq rfl rfl rfl)
  · exact .refl s

theorem permanentFault_keepsGuests (c cause rank : Nat) (s : State) : s.KeepsGuests (permanentFault c cause rank s) := by
  unfold permanentFault
  refine .trans (postDevice_keepsGuests ..) (.ite ?_ (.refl _))
  exact .trans (r := State.modChan _ c _) (.of_eq rfl rfl rfl) (tryRetire_keepsGuests ..)

theorem countUeRow_keepsGuests (c r row : Nat) (s : State) : s.KeepsGuests (countUeRow c r row s) := by
  unfold countUeRow
  exact .trans (r := modRank c r _ s) (.of_eq rfl rfl rfl) (.ite (permanentFault_keepsGuests ..) (.refl _))

/-- No lane of the line is named, so no device is. -/
theorem countUe_keepsGuests (l source : Nat) (read : LineRead) (s : State) : s.KeepsGuests (countUe l source read 0 s) := by
  have hnone (b : Bool) : probeNames b 0 = none := by cases b <;> decide
  unfold countUe
  simp only [hnone, ite_self]
  refine .trans ?_ (.ite (channelUnreadable_keepsGuests ..) (.refl _))
  refine .trans ?_ (countUeRow_keepsGuests ..)
  exact .trans (r := s.modChan _ _) (.of_eq rfl rfl rfl) (fireEvent_keepsGuests (sourceClass_srcChannel ..) _)

/-- The unit's block is marked, and its home is told. -/
theorem poisonRemote_reports (i unit : Nat) (s : State) : s.KeepsGuests (poisonRemote i unit s) ∧
    Output.guestReport (s.remote i).home (s.remote i).homeDlpn ((s.remote i).blockOf unit) ∈ (poisonRemote i unit s).out :=
  ⟨.trans (r := s.modRemote i fun r => { r with bpoison := r.bpoison ||| BitVec.ofNat 4 (2 ^ (s.remote i).blockOf unit) })
    (modRemote_keepsGuests i _ s fun _ => ⟨rfl, rfl⟩) (.of_eq rfl rfl rfl), List.mem_cons_self⟩

theorem farRd_uncorrectable {u v : Fin 3} {h : Header} {x : Txn} {s : State} (hasked : s.asked u h) (hroute : s.route h.src.toNat = some v.val)
    (hstate : (s.remote x.index).state ≠ 0) (hhome : (s.remote x.index).home = h.src.toNat)
    (hgood : s.unitGood (s.remote x.index) x.unit = true) :
    s.Replies (.farRd u h x true) v h.src.toNat 4 x.tag 1 [0] [] fun r =>
      ∃ b, Output.guestReport (s.remote x.index).home (s.remote x.index).homeDlpn b ∈ r.out := by
  let lost (s : State) := countUe ((s.remote x.index).location + x.unit) 1 { out := .ue, corrected := false, data := 0, bad := 1, tagBad := false } 0 s
  have hlost (s : State) : s.KeepsGuests (lost s) := countUe_keepsGuests ..
  have hreport (s : State) := poisonRemote_reports x.index x.unit (lost s)
  refine State.asked_replies hasked hroute (exec_farRd u h x true s) (t := fun a b => poisonRemote x.index x.unit (lost (s.heard a b)))
    (fun a b => ?_) (fun a b => ((hlost _).trans (hreport _).1).routes) fun a b l => ?_
  · simp [hstate, hhome, hgood, lost]
  · obtain ⟨hto, hpage⟩ := (hlost (s.heard a b)).homes x.index
    have hout := (hreport (s.heard a b)).2
    rw [hto, hpage] at hout
    exact ⟨_, hout⟩

end Sys2Proof.Machine
end

section
namespace Sys2Proof.Machine

/-! ### Snoops of another device (R438) -/

theorem sendResponse_rest (d op : Nat) (tag : BitVec 16) (status : Nat) (lines : List Line) (ws : List Nat) (s : State) :
    sendResponse d op tag status lines ws s = { s with ulis := (sendResponse d op tag status lines ws s).ulis } := by
  unfold sendResponse sendPkt
  split <;> rfl

theorem sendResponse_keepsRoutes (d op : Nat) (tag : BitVec 16) (status : Nat) (lines : List Line) (ws : List Nat) (s : State) :
    s.KeepsRoutes (sendResponse d op tag status lines ws s) := (sendPkt_reports ..).keepsRoutes

/-- The answers of SNOOPs. -/
def answerEach (l : List (Nat × BitVec 16 × Nat)) (s : State) : State := forEach l (fun y s => sendResponse y.1 9 y.2.1 0 [] [] s) s

theorem answerEach_append (l : List (Nat × BitVec 16 × Nat)) (y : Nat × BitVec 16 × Nat) (s : State) :
    answerEach (l ++ [y]) s = sendResponse y.1 9 y.2.1 0 [] [] (answerEach l s) := by
  simp [answerEach, forEach, List.foldl_append]

theorem answerEach_rest (l : List (Nat × BitVec 16 × Nat)) (s : State) : ∃ a, answerEach l s = s.withLinks a := by
  induction l generalizing s with
  | nil => exact ⟨s.ulis, rfl⟩
  | cons y l ih =>
    obtain ⟨a, h⟩ := ih (sendResponse y.1 9 y.2.1 0 [] [] s)
    refine ⟨a, ?_⟩
    change answerEach l (sendResponse y.1 9 y.2.1 0 [] [] s) = _
    rw [h, sendResponse_rest]
    rfl

theorem answerEach_keepsRoutes (l : List (Nat × BitVec 16 × Nat)) (s : State) : s.KeepsRoutes (answerEach l s) :=
  forEach_keepsRoutes _ _ (fun _ _ => sendResponse_keepsRoutes ..) s

/-- A SNOOP is still waited for: a head's snoop of its line is out, or a write to it at its home. -/
def State.snoopBusy (s : State) (key : Nat) : Bool :=
  s.snooping key || s.const.journal.any fun j => decide (lineKey j.home j.dlpn j.lineNo = key)

/-- The SNOOPs that still wait are kept. -/
def keepBusy (s : State) : State := s.modConst fun c => { c with snooped := c.snooped.filter fun y => s.snoopBusy y.2.2 }

theorem answerSnoops_eq (s : State) :
    answerSnoops s = answerEach (s.const.snooped.filter fun y => !s.snoopBusy y.2.2) (keepBusy s) := rfl

theorem answerSnoops_keeps (s : State) : (answerSnoops s).out = s.out ∧
    (answerSnoops s).const.snooped = s.const.snooped.filter fun y => s.snoopBusy y.2.2 := by
  obtain ⟨a, h⟩ := answerEach_rest (s.const.snooped.filter fun y => !s.snoopBusy y.2.2) (keepBusy s)
  rw [answerSnoops_eq, h]
  exact ⟨rfl, rfl⟩

/-- A SNOOP is noted. -/
def noteSnoop (y : Nat × BitVec 16 × Nat) (s : State) : State :=
  s.modConst fun c => { c with snooped := c.snooped.filter (fun z => z != y) ++ [y] }

theorem emitEach_eq {α : Type} (f : α → Output) (l : List α) (s : State) :
    forEach l (fun y s => s.emit (f y)) s = { s with out := (l.map f).reverse ++ s.out } := by
  induction l generalizing s with
  | nil => rfl
  | cons y l ih =>
    change forEach l (fun y s => s.emit (f y)) (s.emit (f y)) = _
    rw [ih]
    simp [State.emit]

/-- With no snoop out, all go out. -/
theorem sendSnoops_idle {s : State} (h : s.path.snoops = []) (l : List Snoop) : sendSnoops l s =
    { s with path := { s.path with snoops := l }, out := (l.map fun n => Output.snoop n.head n.line n.inv).reverse ++ s.out } := by
  have hall : (l.filter fun n => !s.path.snoops.contains n) = l := by simp [h]
  rw [sendSnoops, hall]
  dsimp only
  rw [emitEach_eq]
  simp [State.modPath, h]

theorem mem_headsOf {m : BitVec 16} {p : Nat} (hp : p < 16) (hbit : m.getLsbD p = true) : p ∈ headsOf m :=
  List.mem_filter.2 ⟨List.mem_range.2 hp, hbit⟩

theorem headsOf_zero : headsOf 0 = [] := by decide

/-- The snoops that a line's holders get. -/
def headSnoops (key : Nat) (m : BitVec 16) (inv : Bool) : List Snoop := (headsOf m).map fun p => { head := p, line := key, inv }

theorem snoopHeads_idle {s : State} (h : s.path.snoops = []) (key : Nat) (m : BitVec 16) (inv : Bool) : snoopHeads key m inv s =
    { s with path := { s.path with snoops := headSnoops key m inv }
             out := ((headSnoops key m inv).map fun n => Output.snoop n.head n.line n.inv).reverse ++ s.out } :=
  sendSnoops_idle h _

/-- A line that no head holds is not snooped. -/
theorem snoopHeads_none {s : State} (h : s.path.snoops = []) (key : Nat) (inv : Bool) : snoopHeads key 0 inv s = s := by
  have hpath : { s.path with snoops := [] } = s.path := by rw [← h]
  rw [snoopHeads_idle h, headSnoops, headsOf_zero, List.map_nil, hpath]
  rfl

section
variable {u v : Fin 3} {h : Header} {x : Txn} {s : State} (hasked : s.asked u h) (hsnoops : s.path.snoops = [])
include hasked hsnoops

/-- With no snoop and no write under way every SNOOP is answered, the new one last. -/
theorem snoop_answers (hroute : s.route h.src.toNat = some v.val) (hjournal : s.const.journal = [])
    (hnone : s.dirEntry (lineKey h.src.toNat x.index (x.unit % 64)) = 0) :
    s.Replies (.snoop u h x) v h.src.toNat 9 x.tag 0 [] [] fun r => r.path = s.path := by
  let y := (h.src.toNat, x.tag, lineKey h.src.toNat x.index (x.unit % 64))
  let earlier := s.const.snooped.filter fun z => z != y
  refine State.asked_replies hasked hroute (exec_snoop u h x s) (t := fun a b => answerEach earlier (keepBusy (noteSnoop y (s.heard a b))))
    (fun a b => ?_) (fun a b => ?_) fun a b l => ?_
  · have hidle (k : Nat) : (noteSnoop y (s.heard a b)).snoopBusy k = false := by
      simp [State.snoopBusy, State.snooping, noteSnoop, State.modConst, hsnoops, hjournal]
    have hheads := snoopHeads_none (s := s.heard a b) hsnoops (lineKey h.src.toNat x.index (x.unit % 64)) (decide (x.words.getD 0 0 = 1))
    rw [← hnone] at hheads
    refine (congrArg (fun t => answerSnoops (noteSnoop y t)) hheads).trans ?_
    rw [answerSnoops_eq]
    simp only [hidle, Bool.not_false, List.filter_true]
    exact answerEach_append ..
  · exact State.KeepsRoutes.trans (r := keepBusy (noteSnoop y (s.heard a b))) (.of_eq rfl rfl rfl) (answerEach_keepsRoutes ..)
  · obtain ⟨c, hc⟩ := answerEach_rest earlier (keepBusy (noteSnoop y (s.heard a b)))
    rw [hc]
    rfl

/-- A line that heads hold is snooped there, and the answer waits. -/
theorem snoop_waits (hheld : s.dirEntry (lineKey h.src.toNat x.index (x.unit % 64)) ≠ 0) :
    let key := lineKey h.src.toNat x.index (x.unit % 64)
    ∃ r, exec (.snoop u h x) s = .next r ∧ (h.src.toNat, x.tag, key) ∈ r.const.snooped ∧
      ∀ p < 16, (s.dirEntry key).getLsbD p = true → Output.snoop p key (decide (x.words.getD 0 0 = 1)) ∈ r.out := by
  intro key
  let y := (h.src.toNat, x.tag, key)
  let inv := decide (x.words.getD 0 0 = 1)
  let w := noteSnoop y (snoopHeads key (s.dirEntry key) inv (admitted u h s))
  have hexec : exec (.snoop u h x) s = .next (answerSnoops w) := by
    rw [exec_snoop, execSnoop, request_asked hasked]
    rfl
  obtain ⟨hkeep, hwaits⟩ := answerSnoops_keeps w
  have hsent := snoopHeads_idle (s := admitted u h s) hsnoops key (s.dirEntry key) inv
  have hpath : w.path.snoops = headSnoops key (s.dirEntry key) inv := congrArg (fun t => t.path.snoops) hsent
  have hout : w.out = ((headSnoops key (s.dirEntry key) inv).map fun n => Output.snoop n.head n.line n.inv).reverse ++ (admitted u h s).out :=
    congrArg (fun t => t.out) hsent
  have hin (p : Nat) (hp : p < 16) (hbit : (s.dirEntry key).getLsbD p = true) :
      ({ head := p, line := key, inv } : Snoop) ∈ headSnoops key (s.dirEntry key) inv := List.mem_map.2 ⟨p, mem_headsOf hp hbit, rfl⟩
  have hbusy : w.snoopBusy key = true := by
    obtain ⟨p, hp, hbit⟩ : ∃ p, p < 16 ∧ (s.dirEntry key).getLsbD p = true := by
      by_contra hnone
      push Not at hnone
      exact hheld (BitVec.eq_of_getLsbD_eq fun p hp => by simpa using hnone p hp)
    rw [State.snoopBusy, State.snooping, hpath, List.any_eq_true.2 ⟨_, hin p hp hbit, by simp⟩, Bool.true_or]
  refine ⟨answerSnoops w, hexec, ?_, fun p hp hbit => ?_⟩
  · rw [hwaits]
    exact List.mem_filter.2 ⟨List.mem_append_right _ (List.mem_singleton.2 rfl), hbusy⟩
  · rw [hkeep, hout]
    exact List.mem_append_left _ (List.mem_reverse.2 (List.mem_map.2 ⟨_, hin p hp hbit, rfl⟩))

end

end Sys2Proof.Machine
end

section
namespace Sys2Proof.Machine

/-! ### Mappings of other devices (R83, R133, R437) -/

theorem mapRemote_full {e d : Nat} {s : State} (h : 64 ≤ (s.extent e).mappings) : mapRemote e d s = (3, s) := if_pos h

theorem mapRemote_refused {e d : Nat} {s : State} (hroom : (s.extent e).mappings < 64)
    (h : (s.extent e).shared = false ∨ (s.extent e).state ≠ .active) : mapRemote e d s = (2, s) := by
  have hshared : (!(s.extent e).shared) = true ∨ (s.extent e).state ≠ .active := h.imp_left fun hs => by rw [hs]; rfl
  exact (if_neg (Nat.not_le.2 hroom)).trans (if_pos hshared)

/-- One more device maps the extent. -/
def addRemoteMap (e d : Nat) (s : State) : State :=
  (s.modExtent e fun x => { x with mappings := x.mappings + 1 }).modConst fun c => { c with remoteMaps := c.remoteMaps ++ [(e, d)] }

theorem mapRemote_maps {e d : Nat} {s : State} (hroom : (s.extent e).mappings < 64) (hshared : (s.extent e).shared = true)
    (hactive : (s.extent e).state = .active) : mapRemote e d s = (0, addRemoteMap e d s) := by
  have hok : ¬ ((!(s.extent e).shared) = true ∨ (s.extent e).state ≠ .active) := by simp [hshared, hactive]
  exact (if_neg (Nat.not_le.2 hroom)).trans (if_neg hok)

theorem addRemoteMap_adds (e d : Nat) (s : State) : s.KeepsRoutes (addRemoteMap e d s) ∧
    ((addRemoteMap e d s).extent e).mappings = (s.extent e).mappings + 1 ∧
    (addRemoteMap e d s).const.remoteMaps = s.const.remoteMaps ++ [(e, d)] :=
  ⟨.of_eq rfl rfl rfl, congrArg Extent.mappings (State.modExtent_self s e fun x => { x with mappings := x.mappings + 1 }), rfl⟩

theorem unmapRemote_unknown {e d : Nat} {s : State} (h : (e, d) ∉ s.const.remoteMaps) : unmapRemote e d s = s := by
  simp [unmapRemote, h]

/-- A device's mapping is gone, and another's stands. -/
def dropRemoteMap (e d : Nat) (s : State) : State :=
  (s.modConst fun c => { c with remoteMaps := removeFirst (fun m => m = (e, d)) c.remoteMaps }).modExtent e fun x =>
    { x with mappings := x.mappings - 1 }

theorem unmapRemote_known {e d : Nat} {s : State} (h : (e, d) ∈ s.const.remoteMaps) (hmore : 1 < (s.extent e).mappings) :
    unmapRemote e d s = dropRemoteMap e d s := by
  have hin : ¬ ((!s.const.remoteMaps.contains (e, d)) = true) := by simp [h]
  exact (if_neg hin).trans (if_neg (Nat.not_le.2 hmore))

theorem length_removeFirst {α : Type} (p : α → Bool) {l : List α} (h : ∃ y ∈ l, p y = true) : (removeFirst p l).length + 1 = l.length := by
  induction l with
  | nil => simp at h
  | cons z l ih =>
    rw [removeFirst]
    split
    · rfl
    · rename_i hz
      obtain ⟨y, hy, hp⟩ := h
      rw [List.length_cons, ih ⟨y, (List.mem_cons.1 hy).resolve_left fun hyz => hz (hyz ▸ hp), hp⟩, List.length_cons]

theorem dropRemoteMap_drops {e d : Nat} {s : State} (h : (e, d) ∈ s.const.remoteMaps) : s.KeepsRoutes (dropRemoteMap e d s) ∧
    ((dropRemoteMap e d s).extent e).mappings = (s.extent e).mappings - 1 ∧
    (dropRemoteMap e d s).const.remoteMaps.length + 1 = s.const.remoteMaps.length := by
  refine ⟨.of_eq rfl rfl rfl, ?_, length_removeFirst _ ⟨(e, d), h, by simp⟩⟩
  exact congrArg Extent.mappings (State.modExtent_self (s.modConst _) e fun x => { x with mappings := x.mappings - 1 })

section
variable {u v : Fin 3} {h : Header} {x : Txn} {s : State} (hasked : s.asked u h) (hroute : s.route h.src.toNat = some v.val)
include hasked hroute

/-! #### A request to map -/

section
variable (hmap : x.words.getD 1 0 ≠ 1)
include hmap

theorem xmap_maps (hshared : (s.extent (x.words.getD 0 0)).shared = true) (hactive : (s.extent (x.words.getD 0 0)).state = .active)
    (hroom : (s.extent (x.words.getD 0 0)).mappings < 64) : s.Replies (.xmap u h x) v h.src.toNat 10 x.tag 0 [] [] fun r =>
      (r.extent (x.words.getD 0 0)).mappings = (s.extent (x.words.getD 0 0)).mappings + 1 ∧
      r.const.remoteMaps = s.const.remoteMaps ++ [(x.words.getD 0 0, h.src.toNat)] := by
  have hadds (a b) := addRemoteMap_adds (x.words.getD 0 0) h.src.toNat (s.heard a b)
  refine State.asked_replies hasked hroute (exec_xmap u h x s) (t := fun a b => addRemoteMap (x.words.getD 0 0) h.src.toNat (s.heard a b))
    (fun a b => (if_neg hmap).trans ?_) (fun a b => (hadds a b).1) fun a b _ => (hadds a b).2
  rw [mapRemote_maps (s := s.heard a b) hroom hshared hactive]

theorem xmap_refuses (hbad : (s.extent (x.words.getD 0 0)).shared = false ∨ (s.extent (x.words.getD 0 0)).state ≠ .active)
    (hroom : (s.extent (x.words.getD 0 0)).mappings < 64) :
    s.Replies (.xmap u h x) v h.src.toNat 10 x.tag 2 [] [] fun r => r.cap = s.cap := by
  refine State.asked_replies hasked hroute (exec_xmap u h x s) (t := s.heard) (fun a b => (if_neg hmap).trans ?_) (fun _ _ => .refl _)
    fun _ _ _ => rfl
  rw [mapRemote_refused (s := s.heard a b) hroom hbad]

theorem xmap_full (hfull : 64 ≤ (s.extent (x.words.getD 0 0)).mappings) :
    s.Replies (.xmap u h x) v h.src.toNat 10 x.tag 3 [] [] fun r => r.cap = s.cap := by
  refine State.asked_replies hasked hroute (exec_xmap u h x s) (t := s.heard) (fun a b => (if_neg hmap).trans ?_) (fun _ _ => .refl _)
    fun _ _ _ => rfl
  rw [mapRemote_full (s := s.heard a b) hfull]

end

/-! #### A release -/

section
variable (hrelease : x.words.getD 1 0 = 1)
include hrelease

theorem xmap_releasesNothing (hunknown : (x.words.getD 0 0, h.src.toNat) ∉ s.const.remoteMaps) :
    s.Replies (.xmap u h x) v h.src.toNat 10 x.tag 0 [] [] fun r => r.cap = s.cap := by
  refine State.asked_replies hasked hroute (exec_xmap u h x s) (t := s.heard) (fun a b => (if_pos hrelease).trans ?_) (fun _ _ => .refl _)
    fun _ _ _ => rfl
  rw [unmapRemote_unknown (s := s.heard a b) hunknown]

theorem xmap_releases (hknown : (x.words.getD 0 0, h.src.toNat) ∈ s.const.remoteMaps)
    (hmore : 1 < (s.extent (x.words.getD 0 0)).mappings) : s.Replies (.xmap u h x) v h.src.toNat 10 x.tag 0 [] [] fun r =>
      (r.extent (x.words.getD 0 0)).mappings = (s.extent (x.words.getD 0 0)).mappings - 1 ∧
      r.const.remoteMaps.length + 1 = s.const.remoteMaps.length := by
  have hdrops (a b) := dropRemoteMap_drops (e := x.words.getD 0 0) (d := h.src.toNat) (s := s.heard a b) hknown
  refine State.asked_replies hasked hroute (exec_xmap u h x s) (t := fun a b => dropRemoteMap (x.words.getD 0 0) h.src.toNat (s.heard a b))
    (fun a b => (if_pos hrelease).trans ?_) (fun a b => (hdrops a b).1) fun a b _ => (hdrops a b).2
  rw [unmapRemote_known (s := s.heard a b) hknown hmore]

end

end

/-! ### Admissions and tallies at the polestar (R431, R541) -/

theorem mem_insertNat_self (n : Nat) (l : List Nat) : n ∈ insertNat n l := by
  have h := contains_insertNat n n l
  simpa using h

/-- The register names the device for the key. -/
theorem recordMapping_records (key d : Nat) (s : State) : ∃ t, (key, t) ∈ (recordMapping key d s).const.register ∧ d ∈ t := by
  unfold recordMapping State.modConst
  dsimp only
  split
  · rename_i hany
    obtain ⟨r, hr, hkey⟩ := List.any_eq_true.1 hany
    have hkey : r.1 = key := of_decide_eq_true hkey
    refine ⟨insertNat d r.2, List.mem_map.2 ⟨r, hr, ?_⟩, mem_insertNat_self d r.2⟩
    rw [if_pos hkey, hkey]
  · exact ⟨[d], List.mem_append_right _ (List.mem_singleton.2 rfl), List.mem_singleton.2 rfl⟩

/-- The copy of a tally as the polestar stores it. -/
def Tally.copied (t : Tally) (seq : BitVec 64) : Tally := { t with seq, reason := 4, device := t.device ||| 0x80, copySeq := t.seq }

theorem storeCopy_stores {t : Tally} {s : State} (hroom : s.rec_.store.length < s.rec_.capacity) :
    (storeCopy t s).rec_.seq = s.rec_.seq + 1 ∧ (storeCopy t s).rec_.store = s.rec_.store ++ [t.copied s.rec_.seq] := by
  have hput : (storeCopy t s).rec_ = { s.rec_ with seq := s.rec_.seq + 1, store := s.rec_.store ++ [t.copied s.rec_.seq] } := if_pos hroom
  rw [hput]
  exact ⟨rfl, rfl⟩

section
variable {u v : Fin 3} {h : Header} {x : Txn} {s : State} (hasked : s.asked u h) (hroute : s.route h.src.toNat = some v.val)
include hasked hroute

section
variable (hrole : s.ident.role = true)
include hrole

theorem admitReq_records (hkind : x.words.getD 2 1 = 0) :
    s.Replies (.admitReq u h x) v h.src.toNat 11 x.tag 0 [] [] fun r => ∃ t, (x.words.getD 3 0, t) ∈ r.const.register ∧ h.src.toNat ∈ t := by
  refine State.asked_replies hasked hroute (exec_admitReq u h x s) (t := fun a b => recordMapping (x.words.getD 3 0) h.src.toNat (s.heard a b))
    (fun a b => ?_) (fun _ _ => .of_eq rfl rfl rfl) fun a b _ => recordMapping_records _ _ (s.heard a b)
  simp only [State.heard_ident, hrole, hkind, Bool.not_true, Bool.false_eq_true, if_false, if_true]

theorem admitReq_confirms (hkind : x.words.getD 2 1 ≠ 0) :
    s.Replies (.admitReq u h x) v h.src.toNat 11 x.tag 0 [] [] fun r => r.const.register = s.const.register := by
  refine State.asked_replies hasked hroute (exec_admitReq u h x s) (t := s.heard) (fun a b => ?_) (fun _ _ => .refl _) fun _ _ _ => rfl
  simp only [State.heard_ident, hrole, hkind, Bool.not_true, Bool.false_eq_true, if_false]

theorem uliletTally_stores (hroom : s.rec_.store.length < s.rec_.capacity) :
    s.Replies (.uliletTally u h x) v h.src.toNat 15 x.tag 0 [] [] fun r => r.rec_.seq = s.rec_.seq + 1 ∧
      ∃ t, r.rec_.store = s.rec_.store ++ [t] ∧ t.seq = s.rec_.seq ∧ t.copySeq = BitVec.ofNat 64 (x.words.getD 0 0) ∧ t.reason = 4 ∧
        t.count = BitVec.ofNat 64 (x.words.getD 9 0) ∧ t.device = BitVec.ofNat 8 (x.words.getD 7 0) ||| 0x80 := by
  have hstores (a b) := storeCopy_stores (t := tallyOf x.words) (s := s.heard a b) hroom
  refine State.asked_replies hasked hroute (exec_uliletTally u h x s) (t := fun a b => storeCopy (tallyOf x.words) (s.heard a b))
    (fun a b => congrArg _ (if_pos hrole)) (fun _ _ => .of_eq rfl rfl rfl) fun a b _ => ⟨(hstores a b).1, _, (hstores a b).2, ?_⟩
  exact ⟨rfl, rfl, rfl, rfl, rfl⟩

end

section
variable (hrole : s.ident.role = false)
include hrole

theorem admitReq_refuses : s.Replies (.admitReq u h x) v h.src.toNat 11 x.tag 2 [] [] fun r => r.const.register = s.const.register := by
  refine State.asked_replies hasked hroute (exec_admitReq u h x s) (t := s.heard) (fun a b => ?_) (fun _ _ => .refl _) fun _ _ _ => rfl
  simp [hrole]

theorem uliletTally_ignored : s.Replies (.uliletTally u h x) v h.src.toNat 15 x.tag 0 [] [] fun r => r.rec_ = s.rec_ := by
  refine State.asked_replies hasked hroute (exec_uliletTally u h x s) (t := s.heard) (fun a b => ?_) (fun _ _ => .refl _) fun _ _ _ => rfl
  simp [hrole]

end

end

end Sys2Proof.Machine
end

section
namespace Sys2Proof.Machine

/-! ### A forwarded request arrives (R434, R436) -/

/-- A forwarded request as its link hands it over. -/
def linkReq (u op : Nat) (h : Header) (x : Txn) : Req :=
  { id := 0, source := 16 + u, ld := h.src.toNat, tag := x.tag, write := decide (op = 2), dlpn := x.index, lineNo := x.unit % 64
    data := x.lines.headD 0, mask := (x.words.head?.map (BitVec.ofNat 64 ·)).getD (BitVec.allOnes 64)
    colour := h.colour.toNat, units := h.len + 1, linkVc := h.vc, stage := .tracker }

theorem forwarded_asked {u op : Nat} {h : Header} {s : State} (hasked : s.asked u h) (x : Txn) (run : Req → State → State) :
    forwarded u op h x run s = run (linkReq u op h x) (received u h s) := by
  obtain ⟨htakes, hdst, hown⟩ := hasked
  have hself : (received u h s).self = h.dst.toNat := by rw [(received_receives u h s).routes.self_eq, State.self, hdst]
  have hforeign : ((received u h s).uli u).foreign = false := by rw [(received_receives u h s).routes.foreign_eq, hown]
  have hmine : ¬ ((decide (h.dst.toNat ≠ (received u h s).self) || ((received u h s).uli u).foreign) = true) := by simp [hself, hforeign]
  unfold forwarded
  rw [receive_takes htakes rfl]
  exact if_neg hmine

/-- The request has a number of its own. -/
def Req.numbered (r : Req) (s : State) : Req := { r with id := s.path.nextReq, at_ := s.now, stage := .tracker }
def numberReq (r : Req) (s : State) : State := s.modPath fun p => { p with reqs := p.reqs ++ [r.numbered s], nextReq := p.nextReq + 1 }

theorem arriveForwarded_eq (r : Req) (s : State) : arriveForwarded r s =
    if s.mayClaim 0 r.source then startForwarded (r.numbered s) (numberReq r s) else numberReq r s := (rfl)

/-- It has its entry, and its link units are free. -/
def takeForward (r : Req) (s : State) : State :=
  (claimEntry 0 r.source s).modUli (r.source - 16) fun l => { l with freed := Tab.set 0 l.freed r.linkVc (Tab.get 0 l.freed r.linkVc + r.units) }

/-- It is coloured and classed. -/
def Req.entered (r : Req) (s : State) : Req :=
  let m := meterFlow (256 + (r.source - 16)) r.colour (takeForward r s)
  { r with tracked := true, stage := .gather, colour := m.1, cls := if m.1 = 2 then 7 else m.2.linkClass (r.source - 16), home := m.2.self
           units := 0 }
def enterReq (r : Req) (s : State) : State :=
  putReq (r.entered s) (meterFlow (256 + (r.source - 16)) r.colour (takeForward r s)).2

theorem startForwarded_eq (r : Req) (s : State) : startForwarded r s =
    if (enterReq r s).pageLive r.dlpn then admitLine (r.entered s) 0 0 (enterReq r s) else unmappedRequest (r.entered s) (enterReq r s) := (rfl)

/-- What a request's way to its page may change beside: no route, and not which writes were applied. -/
structure State.KeepsApplied (s r : State) : Prop where
  routes : s.KeepsRoutes r
  applied : r.const.applied = s.const.applied

theorem State.KeepsApplied.refl (s : State) : s.KeepsApplied s := ⟨.refl s, rfl⟩

theorem State.KeepsApplied.trans {s r q : State} (h : s.KeepsApplied r) (k : r.KeepsApplied q) : s.KeepsApplied q :=
  ⟨h.routes.trans k.routes, k.applied.trans h.applied⟩

theorem State.KeepsApplied.ite {p : Prop} [Decidable p] {s r q : State} (h : s.KeepsApplied r) (k : s.KeepsApplied q) :
    s.KeepsApplied (if p then r else q) := by
  split
  · exact h
  · exact k

theorem State.KeepsApplied.of_eq {s r : State} (hident : r.ident = s.ident) (hconst : r.const = s.const) (hulis : r.ulis = s.ulis) :
    s.KeepsApplied r := ⟨.of_eq hident (by rw [hconst]) hulis, by rw [hconst]⟩

theorem State.Reports.keepsApplied {s r : State} (h : s.Reports r) : s.KeepsApplied r := ⟨h.keepsRoutes, by rw [h.rest]⟩

theorem State.KeepsApplied.appliedOf_eq {s r : State} (h : s.KeepsApplied r) (d : Nat) : r.appliedOf d = s.appliedOf d := by
  rw [State.appliedOf, State.appliedOf, h.applied]

theorem forEach_keepsApplied {α : Type} (l : List α) (f : α → State → State) (h : ∀ a s, State.KeepsApplied s (f a s)) (s : State) :
    s.KeepsApplied (forEach l f s) := forEach_keeps .refl .trans l f h s

/-- What a request may change up to its lookup: its own record, its entry, its link's units, the meters and the counters. -/
structure State.ComesIn (s r : State) : Prop where
  rest : r = { s with path := r.path, qos := r.qos, ctrs := r.ctrs, ulis := r.ulis }
  held : ∀ p, r.heldOf 1 p = s.heldOf 1 p
  keeps : s.KeepsApplied r

theorem State.ComesIn.trans {s r q : State} (h : s.ComesIn r) (k : r.ComesIn q) : s.ComesIn q := by
  refine ⟨?_, fun p => (k.held p).trans (h.held p), h.keeps.trans k.keeps⟩
  rw [k.rest]; conv_lhs => rw [h.rest]

theorem State.ComesIn.reaches {s r : State} (h : s.ComesIn r) : s.Reaches r := by
  refine ⟨?_, fun q => ?_, .of_rec (by rw [h.rest]), h.held, fun hp => ?_⟩
  · rw [h.rest]
  · rw [h.rest]; rfl
  · rw [h.rest]; exact ⟨hp, rfl⟩

theorem received_comesIn (u : Nat) (h : Header) (s : State) : s.ComesIn (received u h s) :=
  ⟨rfl, fun _ => rfl, (received_receives u h s).routes, rfl⟩

theorem numberReq_comesIn (r : Req) (s : State) : s.ComesIn (numberReq r s) := ⟨rfl, fun _ => rfl, .of_eq rfl rfl rfl⟩

theorem takeForward_comesIn {r : Req} (h : r.source < 19) (s : State) : s.ComesIn (takeForward r s) := by
  have hheld (p : Nat) : (claimEntry 0 r.source s).heldOf 1 p = s.heldOf 1 p := by
    have hkey : 1 * 32 + p ≠ 0 * 32 + r.source := by omega
    simp only [State.heldOf, claimEntry, State.modPath]
    exact Tab.get_set_other _ _ _ hkey
  refine ⟨rfl, hheld, ?_⟩
  have hunits : (claimEntry 0 r.source s).KeepsRoutes (takeForward r s) := modUli_keepsRoutes _ _ _ rfl
  exact State.KeepsApplied.trans (r := claimEntry 0 r.source s) (.of_eq rfl rfl rfl) ⟨hunits, rfl⟩

theorem meterFlow_comesIn (flow colour : Nat) (s : State) : s.ComesIn (meterFlow flow colour s).2 := ⟨rfl, fun _ => rfl, .of_eq rfl rfl rfl⟩
theorem putReq_comesIn (r : Req) (s : State) : s.ComesIn (putReq r s) := ⟨rfl, fun _ => rfl, .of_eq rfl rfl rfl⟩

theorem enterReq_comesIn {r : Req} (h : r.source < 19) (s : State) : s.ComesIn (enterReq r s) :=
  ((takeForward_comesIn h s).trans (meterFlow_comesIn ..)).trans (putReq_comesIn ..)

theorem State.ComesIn.pageLive_eq {s r : State} (h : s.ComesIn r) (d : Nat) : r.pageLive d = s.pageLive d := by rw [h.rest]; rfl

/-- A page's descriptor line is in the metadata cache. -/
def State.lineCached (s : State) (d : Nat) : Prop :=
  ∃ w, w < 16 ∧ (s.metaSet (d / 4 % s.metaSets)).ways.getD w none = some (d / 4)

theorem State.ComesIn.lineCached {s r : State} (h : s.ComesIn r) {d : Nat} (hd : s.lineCached d) : r.lineCached d := by
  rw [h.rest]; exact hd

/-! ### The answer to a forwarded request (R434) -/

/-- A verified request of another device. -/
structure Req.FromLink (q : Req) : Prop where
  low : 16 ≤ q.source
  high : q.source < 19
  verified : q.verified = true

/-- Its answer goes out. -/
def answerLink (q : Req) (data : Line) (poison : Bool) (s : State) : State :=
  if q.write then sendResponse q.ld 2 q.tag 0 [] [] s else sendResponse q.ld 1 q.tag (if poison then 1 else 0) [data] [] s

theorem respond_link {q : Req} (h : q.FromLink) (data : Line) (poison : Bool) (s : State) :
    respond q data poison s = freeEntries 0 q.requester 1 (dropReq q.id (endComet q poison (answerLink q data poison s))) := by
  obtain ⟨hlow, hhigh, hverified⟩ := h
  simp [respond, finishReq, hverified, Nat.not_lt.2 hlow, hhigh, answerLink]

/-- What follows the answer. -/
def closeReq (q : Req) (poison : Bool) (s : State) : State := freeEntries 0 q.requester 1 (dropReq q.id (endComet q poison s))

/-- The request's end touches links, comets, requests and pools. -/
def State.Ends (s r : State) : Prop := r = { s with ulis := r.ulis, comets := r.comets, path := r.path }

theorem closeReq_ends (q : Req) (poison : Bool) (s : State) :
    closeReq q poison s = { s with comets := (closeReq q poison s).comets, path := (closeReq q poison s).path } := by
  rw [closeReq, endComet_rest]
  rfl

section
variable {s t : State} {c : Instr} {v d : Nat} {tag : BitVec 16} {q : Req} {data : Line} {poison : Bool} {P : State → Prop}
  (hexec : exec c s = .next (respond q data poison t)) (hlink : q.FromLink) (hld : q.ld = d) (htag : q.tag = tag)
  (hroutes : s.KeepsRoutes t) (hroute : s.route d = some v)
include hexec hlink hld htag hroutes hroute

/-- A read of another device that ends with its answer. -/
theorem replies_of_read (hread : q.write = false) (hP : ∀ r, t.Ends r → P r) :
    s.Replies c v d 1 tag (if poison then 1 else 0) [data] [] P := by
  obtain ⟨hreplied, hrest⟩ := sendResponse_routed (op := 1) (tag := q.tag) (status := if poison then 1 else 0) (lines := [data]) (ws := [])
    ((hroutes.route_eq d).trans hroute)
  have hanswer : answerLink q data poison t = sendResponse d 1 q.tag (if poison then 1 else 0) [data] [] t := by
    rw [answerLink, if_neg (by simp [hread]), hld]
  rw [respond_link hlink, hanswer] at hexec
  refine ⟨_, hexec, ?_, hP _ ?_⟩
  · change (closeReq q poison _).replied ..
    rw [closeReq_ends, ← htag]
    exact hreplied
  · change State.Ends t (closeReq q poison _)
    rw [closeReq_ends, hrest]
    rfl

/-- A write of another device that ends with its answer. -/
theorem replies_of_write (hwrite : q.write = true) (hP : ∀ r, t.Ends r → P r) : s.Replies c v d 2 tag 0 [] [] P := by
  obtain ⟨hreplied, hrest⟩ := sendResponse_routed (op := 2) (tag := q.tag) (status := 0) (lines := []) (ws := [])
    ((hroutes.route_eq d).trans hroute)
  have hanswer : answerLink q data poison t = sendResponse d 2 q.tag 0 [] [] t := by rw [answerLink, if_pos hwrite, hld]
  rw [respond_link hlink, hanswer] at hexec
  refine ⟨_, hexec, ?_, hP _ ?_⟩
  · change (closeReq q poison _).replied ..
    rw [closeReq_ends, ← htag]
    exact hreplied
  · change State.Ends t (closeReq q poison _)
    rw [closeReq_ends, hrest]
    rfl

end

end Sys2Proof.Machine
end

section
namespace Sys2Proof.Machine

/-! ### A forwarded request at its page (R118, R434, R435) -/

/-- A request that asks the same of the same page for the same sender. -/
structure Req.AsksAs (q r : Req) : Prop where
  source : q.source = r.source
  ld : q.ld = r.ld
  tag : q.tag = r.tag
  write : q.write = r.write
  verified : q.verified = r.verified
  dlpn : q.dlpn = r.dlpn
  lineNo : q.lineNo = r.lineNo
  data : q.data = r.data
  mask : q.mask = r.mask
  poisonIn : q.poisonIn = r.poisonIn
  overlay : q.overlay = r.overlay
  scratch : q.scratch = r.scratch

theorem Req.AsksAs.trans {q r u : Req} (h : q.AsksAs r) (k : r.AsksAs u) : q.AsksAs u :=
  ⟨h.source.trans k.source, h.ld.trans k.ld, h.tag.trans k.tag, h.write.trans k.write, h.verified.trans k.verified, h.dlpn.trans k.dlpn,
    h.lineNo.trans k.lineNo, h.data.trans k.data, h.mask.trans k.mask, h.poisonIn.trans k.poisonIn, h.overlay.trans k.overlay,
    h.scratch.trans k.scratch⟩

theorem Req.AsksAs.fromLink {q r : Req} (h : q.AsksAs r) (hr : r.FromLink) : q.FromLink :=
  ⟨by rw [h.source]; exact hr.low, by rw [h.source]; exact hr.high, by rw [h.verified]; exact hr.verified⟩

theorem Req.numbered_asksAs (r : Req) (s : State) : (r.numbered s).AsksAs r := ⟨rfl, rfl, rfl, rfl, rfl, rfl, rfl, rfl, rfl, rfl, rfl, rfl⟩
theorem Req.entered_asksAs (r : Req) (s : State) : (r.entered s).AsksAs r := ⟨rfl, rfl, rfl, rfl, rfl, rfl, rfl, rfl, rfl, rfl, rfl, rfl⟩
theorem Req.cometFlag_asksAs (r : Req) (n : Nat) : (r.cometFlag n).AsksAs r := ⟨rfl, rfl, rfl, rfl, rfl, rfl, rfl, rfl, rfl, rfl, rfl, rfl⟩
theorem Req.found_asksAs (r : Req) (s : State) : (r.found s).AsksAs r := ⟨rfl, rfl, rfl, rfl, rfl, rfl, rfl, rfl, rfl, rfl, rfl, rfl⟩

section
variable {r : Req} {s : State} (hlink : r.FromLink) (hclaim : s.mayClaim 0 r.source = true)
include hlink hclaim

/-- The request and the state at its page. -/
theorem arriveForwarded_enters : ∃ q t, s.ComesIn t ∧ q.AsksAs r ∧ q.stage = .gather ∧
    arriveForwarded r s = if t.pageLive r.dlpn then admitLine q 0 0 t else unmappedRequest q t := by
  have hcome := (numberReq_comesIn r s).trans (enterReq_comesIn (r := r.numbered s) hlink.high _)
  have hasks := (Req.entered_asksAs (r.numbered s) (numberReq r s)).trans (Req.numbered_asksAs r s)
  have harrive : arriveForwarded r s = startForwarded (r.numbered s) (numberReq r s) := by rw [arriveForwarded_eq, if_pos hclaim]
  rw [startForwarded_eq] at harrive
  exact ⟨_, _, hcome, hasks, rfl, harrive⟩

/-- A page that is not live answers as unmapped. -/
theorem arriveForwarded_unmapped (hlive : s.pageLive r.dlpn = false) : ∃ q t, arriveForwarded r s = respond q 0 (!r.write) t ∧
    q.AsksAs r ∧ s.KeepsApplied t ∧ t.cap.noMapping = s.cap.noMapping + 1 := by
  obtain ⟨q, w, hcome, hq, -, harrive⟩ := arriveForwarded_enters hlink hclaim
  have hcap : w.cap = s.cap := by rw [hcome.rest]
  have hsource : ¬ q.source < 16 := by rw [hq.source]; exact Nat.not_lt.2 hlink.low
  refine ⟨if q.write then q else q.cometFlag 4, w.modCap fun c => { c with noMapping := c.noMapping + 1 }, ?_, ?_,
    hcome.keeps.trans (.of_eq rfl rfl rfl), by rw [State.modCap_cap, hcap]⟩
  · rw [harrive, hcome.pageLive_eq, hlive, if_neg (by decide), ← hq.write, unmappedRequest]
    simp only [hsource, if_false]
  · split
    · exact hq
    · exact (Req.cometFlag_asksAs ..).trans hq

end

/-! #### The lookup -/

theorem modSketch_keepsApplied (f : Sketch → Sketch) (s : State) : s.KeepsApplied (s.modSketch f) := .of_eq rfl rfl rfl
theorem modQuad_keepsApplied (q : Nat) (f : Quad → Quad) (s : State) : s.KeepsApplied (s.modQuad q f) := .of_eq rfl rfl rfl

theorem countAccess_keepsApplied (d : Nat) (s : State) : s.KeepsApplied (countAccess d s) := by
  have hfix (i : Nat) (s : State) : s.KeepsApplied (fixParity i s) :=
    .ite ((modSketch_keepsApplied ..).trans (fireEvent_reports 13 _ (by decide)).keepsApplied) (.refl s)
  unfold countAccess
  dsimp only
  refine .ite (.refl s) (.ite (modSketch_keepsApplied ..) ?_)
  refine .trans ?_ (forEach_keepsApplied _ _ (fun _ _ => modSketch_keepsApplied ..) _)
  exact (modSketch_keepsApplied ..).trans (forEach_keepsApplied _ _ hfix _)

theorem writeHeat_keepsApplied (d : Nat) (s : State) : s.KeepsApplied (writeHeat d s) := by
  unfold writeHeat
  dsimp only
  refine .ite (.refl s) (.ite (.ite ?_ ?_) (modQuad_keepsApplied ..))
  · exact (modQuad_keepsApplied ..).trans (modQuad_keepsApplied ..)
  · exact (modQuad_keepsApplied ..).trans (modQuad_keepsApplied ..)

/-- The state in which a cached page's access is counted. -/
def accessed (q : Req) (w : Nat) (s : State) : State :=
  heated q (countAccess q.dlpn (putReq (q.found (setWay (q.dlpn / 4) w s)) (setWay (q.dlpn / 4) w s)))

theorem accessed_reaches (q : Req) (w : Nat) (s : State) : s.Reaches (accessed q w s) := by
  have hcount := ((setWay_reaches (q.dlpn / 4) w s).trans (putReq_enters (q.found (setWay (q.dlpn / 4) w s)) _).reaches).trans
    (countAccess_reaches q.dlpn _)
  unfold accessed heated
  split
  · exact hcount.trans (writeHeat_reaches ..)
  · exact hcount

theorem accessed_keepsApplied (q : Req) (w : Nat) (s : State) : s.KeepsApplied (accessed q w s) := by
  have hway : s.KeepsApplied (setWay (q.dlpn / 4) w s) := .of_eq rfl rfl rfl
  have hput (r : Req) (s : State) : s.KeepsApplied (putReq r s) := .of_eq rfl rfl rfl
  have hcount := (hway.trans (hput (q.found (setWay (q.dlpn / 4) w s)) _)).trans (countAccess_keepsApplied q.dlpn _)
  exact .ite (hcount.trans (writeHeat_keepsApplied ..)) hcount

/-- A request whose page is live and whose descriptor line is cached goes on to its service, over standing routes. -/
theorem lookup_serves (q : Req) (a b : BitVec 2) (s : State) (hlive : s.pageLive q.dlpn = true) (hstage : q.stage = .gather)
    (hcached : s.lineCached q.dlpn) : ∃ u t, lookup q a b s = serve u t ∧ u.AsksAs q ∧ s.Reaches t ∧ s.KeepsApplied t := by
  obtain ⟨w, hhit⟩ := lookupMeta_cached q.dlpn a b s hcached
  have hserve : lookup q a b s = serve (q.found (setWay (q.dlpn / 4) w s)) (accessed q w s) := by
    simp [lookup, hlive, hhit, hstage]
    rfl
  exact ⟨_, _, hserve, q.found_asksAs _, accessed_reaches q w s, accessed_keepsApplied q w s⟩

/-- A forwarded request to a live page that is not shared and whose descriptor line is cached is served at its line. -/
theorem arriveForwarded_serves {r : Req} {s : State} (hlink : r.FromLink) (hclaim : s.mayClaim 0 r.source = true) (hlive : s.pageLive r.dlpn = true)
    (halone : (s.extent (extentOf r.dlpn)).shared = false) (hcached : s.lineCached r.dlpn) :
    ∃ u t, arriveForwarded r s = serve u t ∧ u.AsksAs r ∧ s.Reaches t ∧ s.KeepsApplied t := by
  obtain ⟨q, w, hcome, hq, hstage, harrive⟩ := arriveForwarded_enters hlink hclaim
  obtain ⟨u, t, hserve, hu, hreach, hkeep⟩ := lookup_serves q 0 0 w (by rw [hq.dlpn, hcome.pageLive_eq, hlive]) hstage
    (by rw [hq.dlpn]; exact hcome.lineCached hcached)
  have hshared : (w.extent (extentOf q.dlpn)).shared = false := by rw [hq.dlpn, hcome.reaches.extent_eq, halone]
  refine ⟨u, t, ?_, hu.trans hq, hcome.reaches.trans hreach, hcome.keeps.trans hkeep⟩
  rw [harrive, hcome.pageLive_eq, if_pos hlive, admitLine_eq, hshared, ← hserve]
  rfl

/-! #### The services (R29, R31, R125) -/

/-- A page of zeros of which nothing is gathered. -/
structure State.BlankPage (s : State) (d : Nat) : Prop where
  zero : (s.desc d).state = .zero
  sound : (s.desc d).bpoison = 0
  ungathered : s.gathered d = false

theorem State.Reaches.blankPage {s t : State} (h : s.Reaches t) {d : Nat} (hd : s.BlankPage d) : t.BlankPage d :=
  ⟨by rw [h.desc_eq, hd.zero], by rw [h.desc_eq, hd.sound], by rw [State.gathered, h.gather_eq]; exact hd.ungathered⟩

theorem serveRead_blank {u : Req} {t : State} (hover : u.overlay = none) (hscratch : u.scratch = none) (hpage : t.BlankPage u.dlpn) :
    serveRead u t = respond u 0 false t := by
  obtain ⟨hzero, hsound, hungathered⟩ := hpage
  have hnone : ∀ g ∈ t.gather.entries, g.dlpn ≠ u.dlpn := by simpa [State.gathered] using hungathered
  have hreadable : t.Readable u := by
    refine ⟨.inr (by rw [hsound]; exact BitVec.getLsbD_zero), ?_⟩
    simp only [State.unverifiedFor, List.any_eq_false]
    intro g hg
    simp [hnone g hg]
  have hoverlay : t.overlay u.dlpn u.lineNo = (0, 0, false) := by
    have hempty : t.lineEntries u.dlpn u.lineNo = [] := by
      rw [State.lineEntries, List.filter_eq_nil_iff]
      intro g hg
      simp [hnone g hg]
    rw [overlay_eq, hempty]
    rfl
  have hsource : (t.source u.dlpn).1 = .zero := by simp [State.source, hzero]
  rw [(serveRead_stored hreadable hover hoverlay).1 (.inr hsource)]
  simp [answerRead, hover, hscratch]

/-- The state in which a write's bytes are gathered. -/
def gatherWrite (u : Req) (s : State) : State := packedTriggers u.dlpn (storeEntry u s)

theorem serveWrite_gathers {u : Req} {t : State} (hclean : u.poisonIn = false) (hmove : t.record u.dlpn = none) (hentry : t.mayClaim 1 u.source = true)
    (hdue : t.chargeDue u.dlpn (u.lineNo / 16) = none) (hhints : t.ril.hints = []) :
    serveWrite u t = respond (u.stamp 5 (gatherWrite u t).now) 0 false (gatherWrite u t) := by
  have hhint : hintEvent u (storeEntry u t) = storeEntry u t := hintEvent_none u _ (by rw [(storeEntry_rest u t).1, hhints])
  have hdone : serveWrite u t = serveWrite.done u t := by simp [serveWrite, hmove, hentry, hdue]
  rw [hdone]
  simp [serveWrite.done, hclean, hhint, gatherWrite]

theorem startEviction_keepsApplied (d : Nat) (s : State) : s.KeepsApplied (startEviction d s) := .ite (.refl s) (.of_eq rfl rfl rfl)

theorem relievePressure_keepsApplied (q fuel : Nat) (s : State) : s.KeepsApplied (relievePressure q fuel s) := by
  induction fuel generalizing s with
  | zero => exact .refl s
  | succ fuel ih =>
    unfold relievePressure
    refine .ite (.refl s) ?_
    split
    · exact .refl s
    · exact (startEviction_keepsApplied ..).trans (ih _)

theorem storeEntry_keepsApplied (u : Req) (s : State) : s.KeepsApplied (storeEntry u s) := by
  obtain ⟨g, -, hstore⟩ | hstore := storeEntry_cases u s <;> rw [hstore]
  · exact .of_eq rfl rfl rfl
  · exact .of_eq rfl rfl rfl

theorem gatherWrite_keepsApplied (u : Req) (s : State) : s.KeepsApplied (gatherWrite u s) := by
  have htriggers (s : State) : s.KeepsApplied (packedTriggers u.dlpn s) :=
    .ite (.refl s) (.ite (startEviction_keepsApplied ..) (relievePressure_keepsApplied ..))
  exact (storeEntry_keepsApplied u s).trans (htriggers _)

theorem gatherWrite_overlay (u : Req) (s : State) :
    ((gatherWrite u s).overlay u.dlpn u.lineNo).1 = mergeLine (s.overlay u.dlpn u.lineNo).1 u.data u.mask := by
  rw [gatherWrite, (packedTriggers_sameLines ..).overlay]
  exact (storeEntry_gathers u s).1

/-! ### Reads and writes of another device at their home (R434 to R436) -/

theorem heard_mayClaim (s : State) (l : Tab Uli) (c : Tab CtrBlock) (p n : Nat) : (s.heard l c).mayClaim p n = s.mayClaim p n := rfl

theorem markApplied_mayClaim (d n : Nat) (s : State) (p k : Nat) : (markApplied d n s).mayClaim p k = s.mayClaim p k := rfl

/-- What a packet does on its link is no claim. -/
theorem received_mayClaim (u : Nat) (h : Header) (s : State) (p k : Nat) : (received u h s).mayClaim p k = s.mayClaim p k :=
  heard_mayClaim s (received u h s).ulis (received u h s).ctrs p k

theorem numberReq_reqs (r : Req) (s : State) : (numberReq r s).path.reqs = s.path.reqs ++ [r.numbered s] := rfl
theorem received_path (u : Nat) (h : Header) (s : State) : (received u h s).path = s.path := rfl
theorem admitted_path (u : Nat) (h : Header) (s : State) : (admitted u h s).path = s.path ∧ (admitted u h s).gather = s.gather :=
  ⟨State.heard_path s (admitted u h s).ulis (admitted u h s).ctrs, State.heard_gather s (admitted u h s).ulis (admitted u h s).ctrs⟩

theorem linkReq_fromLink (u : Fin 3) (op : Nat) (h : Header) (x : Txn) : (linkReq u op h x).FromLink :=
  ⟨Nat.le_add_right .., by have := u.isLt; exact Nat.add_lt_add_left this 16, rfl⟩

theorem appliedOf_markApplied (d n : Nat) (s : State) : n ∈ (markApplied d n s).appliedOf d := by
  have hget : (markApplied d n s).appliedOf d = (n :: s.appliedOf d).take 32768 :=
    Tab.get_set_self [] s.const.applied d ((n :: s.appliedOf d).take 32768)
  rw [hget, List.take_succ_cons]
  exact List.mem_cons_self

theorem markApplied_reaches (d n : Nat) (s : State) : s.Reaches (markApplied d n s) := ⟨rfl, fun _ => rfl, .of_rec rfl, fun _ => rfl, fun h => ⟨h, rfl⟩⟩
theorem markApplied_keepsRoutes (d n : Nat) (s : State) : s.KeepsRoutes (markApplied d n s) := .of_eq rfl rfl rfl

theorem markApplied_lineCached {d n k : Nat} {s : State} (h : s.lineCached k) : (markApplied d n s).lineCached k := h

theorem State.Reaches.pageLive_eq {s t : State} (h : s.Reaches t) (d : Nat) : t.pageLive d = s.pageLive d := by
  rw [State.pageLive, State.pageLive, h.extent_eq]

/-- The state in which a new write's sequence is marked. -/
def marked (u : Nat) (h : Header) (x : Txn) (s : State) : State := markApplied h.src.toNat x.tag.toNat (received u h s)

section
variable (u : Nat) (h : Header) (x : Txn) (s : State)

theorem marked_mayClaim (p k : Nat) : (marked u h x s).mayClaim p k = s.mayClaim p k := (markApplied_mayClaim ..).trans (received_mayClaim ..)
theorem marked_reaches : s.Reaches (marked u h x s) := (received_comesIn u h s).reaches.trans (markApplied_reaches ..)
theorem marked_keepsRoutes : s.KeepsRoutes (marked u h x s) := (received_comesIn u h s).keeps.routes.trans (markApplied_keepsRoutes ..)
theorem mem_appliedOf_marked : x.tag.toNat ∈ (marked u h x s).appliedOf h.src.toNat := appliedOf_markApplied ..
theorem marked_noMapping : (marked u h x s).cap.noMapping = s.cap.noMapping := by rw [(marked_reaches u h x s).rest]

end

section
variable {u v : Fin 3} {h : Header} {x : Txn} {s : State} (hasked : s.asked u h)
include hasked

theorem exec_fwdRd_asked : exec (.fwdRd u h x) s = .next (arriveForwarded (linkReq u 1 h x) (received u h s)) := by
  rw [exec_fwdRd, execFwdRd, forwarded_asked hasked]

theorem exec_fwdWr_new (hnew : x.tag.toNat ∉ s.appliedOf h.src.toNat) :
    exec (.fwdWr u h x) s = .next (arriveForwarded (linkReq u 2 h x) (marked u h x s)) := by
  have hno : ¬ (((received u h s).appliedOf (linkReq u 2 h x).ld).contains (linkReq u 2 h x).tag.toNat = true) := by
    rw [List.contains_iff_mem]
    exact hnew
  rw [exec_fwdWr, execFwdWr, forwarded_asked hasked]
  exact congrArg _ (if_neg hno)

theorem fwdRd_waits (hfull : s.mayClaim 0 (16 + u) = false) : ∃ r q, exec (.fwdRd u h x) s = .next r ∧ r.path.reqs = s.path.reqs ++ [q] ∧
    q.stage = .tracker ∧ q.units = h.len + 1 ∧ q.tag = x.tag ∧ q.write = false := by
  have hfull' : ¬ ((received u h s).mayClaim 0 (linkReq u 1 h x).source = true) := by
    rw [received_mayClaim]
    exact fun hyes => absurd (hfull.symm.trans hyes) (by decide)
  refine ⟨_, (linkReq u 1 h x).numbered (received u h s), exec_fwdRd_asked hasked, ?_, rfl, rfl, rfl, rfl⟩
  rw [arriveForwarded_eq, if_neg hfull', numberReq_reqs, received_path]

section
variable (hroute : s.route h.src.toNat = some v.val)
include hroute

theorem fwdWr_repeated (hdone : x.tag.toNat ∈ s.appliedOf h.src.toNat) (hreqs : s.path.reqs = []) :
    s.Replies (.fwdWr u h x) v h.src.toNat 2 x.tag 0 [] [] fun r => r.gather = s.gather ∧ r.path.reqs = [] := by
  have hyes : ((received u h s).appliedOf (linkReq u 2 h x).ld).contains (linkReq u 2 h x).tag.toNat = true := by
    rw [List.contains_iff_mem]
    exact hdone
  obtain ⟨hpath, hgather⟩ := admitted_path u h s
  have hidle : (admitted u h s).path.reqs = [] := by rw [hpath, hreqs]
  refine State.replies_of_send (t := admitted u h s) ?_ (admitted_receives u h s).routes hroute fun l => ?_
  rotate_left
  · rw [State.withLinks_gather, State.withLinks_path]
    exact ⟨hgather, hidle⟩
  rw [exec_fwdWr, execFwdWr, forwarded_asked hasked]
  refine congrArg _ ((if_pos hyes).trans (if_neg ?_))
  change ¬ ((admitted u h s).path.reqs.any _ = true)
  rw [hidle]
  exact Bool.false_ne_true

section
variable (hclaim : s.mayClaim 0 (16 + u) = true)
include hclaim

theorem fwdRd_unmapped (hlive : s.pageLive x.index = false) :
    s.Replies (.fwdRd u h x) v h.src.toNat 1 x.tag 1 [0] [] fun r => r.cap.noMapping = s.cap.noMapping + 1 := by
  have hcome := received_comesIn u h s
  obtain ⟨q, t, harrive, hq, hkeep, hcount⟩ := arriveForwarded_unmapped (r := linkReq u 1 h x) (linkReq_fromLink ..)
    ((received_mayClaim ..).trans hclaim) ((hcome.pageLive_eq _).trans hlive)
  have hexec := exec_fwdRd_asked (x := x) hasked
  rw [harrive] at hexec
  refine replies_of_read hexec (hq.fromLink (linkReq_fromLink ..)) hq.ld hq.tag (hcome.keeps.trans hkeep).routes hroute hq.write fun r hr => ?_
  rw [hr, hcount]
  rfl

theorem fwdWr_unmapped (hlive : s.pageLive x.index = false) (hnew : x.tag.toNat ∉ s.appliedOf h.src.toNat) :
    s.Replies (.fwdWr u h x) v h.src.toNat 2 x.tag 0 [] [] fun r => r.cap.noMapping = s.cap.noMapping + 1 ∧ x.tag.toNat ∈ r.appliedOf h.src.toNat := by
  obtain ⟨q, t, harrive, hq, hkeep, hcount⟩ := arriveForwarded_unmapped (r := linkReq u 2 h x) (s := marked u h x s) (linkReq_fromLink ..)
    ((marked_mayClaim ..).trans hclaim) (((marked_reaches ..).pageLive_eq _).trans hlive)
  have hexec := exec_fwdWr_new hasked hnew
  rw [harrive] at hexec
  refine replies_of_write hexec (hq.fromLink (linkReq_fromLink ..)) hq.ld hq.tag ((marked_keepsRoutes ..).trans hkeep.routes) hroute hq.write
    fun r hr => ⟨?_, ?_⟩
  · rw [hr, ← marked_noMapping u h x s]
    exact hcount
  · have happlied : r.appliedOf h.src.toNat = t.appliedOf h.src.toNat := by rw [hr]; rfl
    rw [happlied, hkeep.appliedOf_eq]
    exact mem_appliedOf_marked ..

section
variable (hlive : s.pageLive x.index = true) (halone : (s.extent (extentOf x.index)).shared = false) (hcached : s.lineCached x.index)
include hlive halone hcached

theorem fwdRd_zero (hpage : s.BlankPage x.index) : s.Replies (.fwdRd u h x) v h.src.toNat 1 x.tag 0 [0] [] fun _ => True := by
  have hcome := received_comesIn u h s
  obtain ⟨q, t, harrive, hq, hreach, hkeep⟩ := arriveForwarded_serves (r := linkReq u 1 h x) (linkReq_fromLink ..)
    ((received_mayClaim ..).trans hclaim) ((hcome.pageLive_eq _).trans hlive) halone (hcome.lineCached hcached)
  have hblank : t.BlankPage q.dlpn := by rw [hq.dlpn]; exact (hcome.reaches.trans hreach).blankPage hpage
  have hread : q.write = false := hq.write
  have hexec := exec_fwdRd_asked (x := x) hasked
  rw [harrive, serve, hread, if_neg (by decide), serveRead_blank hq.overlay hq.scratch hblank] at hexec
  exact replies_of_read hexec (hq.fromLink (linkReq_fromLink ..)) hq.ld hq.tag (hcome.keeps.trans hkeep).routes hroute hread fun _ _ => trivial

theorem fwdWr_gathers (hmove : s.record x.index = none) (hentry : s.mayClaim 1 (16 + u) = true)
    (hdue : s.chargeDue x.index (x.unit % 64 / 16) = none) (hhints : s.ril.hints = []) (hnew : x.tag.toNat ∉ s.appliedOf h.src.toNat) :
    s.Replies (.fwdWr u h x) v h.src.toNat 2 x.tag 0 [] [] fun r => x.tag.toNat ∈ r.appliedOf h.src.toNat ∧
      (r.overlay x.index (x.unit % 64)).1 = mergeLine (s.overlay x.index (x.unit % 64)).1 (x.lines.headD 0)
        ((x.words.head?.map (BitVec.ofNat 64 ·)).getD (BitVec.allOnes 64)) := by
  obtain ⟨q, t, harrive, hq, hreach, hkeep⟩ := arriveForwarded_serves (r := linkReq u 2 h x) (s := marked u h x s) (linkReq_fromLink ..)
    ((marked_mayClaim ..).trans hclaim) (((marked_reaches ..).pageLive_eq _).trans hlive)
    ((congrArg Extent.shared ((marked_reaches ..).extent_eq _)).trans halone)
    (markApplied_lineCached ((received_comesIn u h s).lineCached hcached))
  have hall : s.Reaches t := (marked_reaches u h x s).trans hreach
  have hwrite : q.write = true := hq.write
  have hpage : q.dlpn = x.index := hq.dlpn
  have hline : q.lineNo = x.unit % 64 := hq.lineNo
  have hsource : q.source = 16 + u := hq.source
  have hlink := hq.fromLink (linkReq_fromLink ..)
  have hserve := serveWrite_gathers (u := q) (t := t) hq.poisonIn (by rw [hall.record_eq, hpage, hmove]) (by rw [hall.mayClaim_eq, hsource, hentry])
    (by rw [hall.chargeDue_eq, hpage, hline, hdue]) (by rw [hall.rest]; exact hhints)
  have hexec := exec_fwdWr_new hasked hnew
  rw [harrive, serve, if_pos hwrite, hserve] at hexec
  have hkept := gatherWrite_keepsApplied q t
  have hroutes := ((marked_keepsRoutes u h x s).trans hkeep.routes).trans hkept.routes
  have hover := gatherWrite_overlay q t
  rw [hall.overlay_eq, hpage, hline, hq.data, hq.mask] at hover
  refine replies_of_write hexec ⟨hlink.low, hlink.high, hlink.verified⟩ hq.ld hq.tag hroutes hroute hwrite fun r hr => ⟨?_, ?_⟩
  · have happlied : r.appliedOf h.src.toNat = (gatherWrite q t).appliedOf h.src.toNat := by rw [hr]; rfl
    rw [happlied, hkept.appliedOf_eq, hkeep.appliedOf_eq]
    exact mem_appliedOf_marked ..
  · have hoverlay : r.overlay x.index (x.unit % 64) = (gatherWrite q t).overlay x.index (x.unit % 64) := by rw [hr]; rfl
    rw [hoverlay, hover]
    rfl

end

end

end

end

end Sys2Proof.Machine
end

section
namespace Sys2Proof.Machine

/-- Settles O55: a packet that passes its port's checks leaves the routes, so each request ends with its answer on the sender's route; what it
does before is stated function by function. -/
theorem requestsOfOtherMembersAreServed : Obligations.RequestsOfOtherMembersAreServed := by
  intro u v h x s hasked hroute d words answers k n cached quiet g l mine
  refine ⟨fwdRd_waits hasked, fun hclaim => ⟨fun hlive => ?_, ?_⟩, fwdWr_repeated hasked hroute, ?_, ?_, ?_, ?_, ?_, ?_, ?_, ?_, ?_, ?_, ?_⟩
  · exact ⟨fwdRd_unmapped hasked hroute hclaim hlive, fwdWr_unmapped hasked hroute hclaim hlive⟩
  · rintro hlive ⟨-, halone, hcached⟩
    refine ⟨fun hzero hsound hungathered => ?_, fun hmove hentry hdue hhints hnew => ?_⟩
    · exact fwdRd_zero hasked hroute hclaim hlive halone hcached ⟨hzero, hsound, hungathered⟩
    · exact fwdWr_gathers hasked hroute hclaim hlive halone hcached hmove hentry hdue hhints hnew
  · intro same i units hst hblock
    have htwin : s.farTwin h.src.toNat x.index 1 (BitVec.ofNat 20 (words 1)) = same := rfl
    refine ⟨fun e hsame => ?_, fun hnew hroom => ?_, fun hnew hroom => ⟨fun hfull => ?_, fun c f hdest hfree => ?_⟩⟩
    · exact farAlloc_repeats hasked hroute hst (htwin.trans hsame)
    · exact farAlloc_refuses hasked hroute hst hblock (htwin.trans hnew) hroom
    · exact farAlloc_full hasked hroute hst hblock (htwin.trans hnew) hroom hfull
    · exact farAlloc_places hasked hroute hst hblock (htwin.trans hnew) hroom hdest hfree
  · rintro ⟨hstate, hhome⟩ hgood
    exact ⟨farRd_reads hasked hroute hstate hhome hgood, farRd_uncorrectable hasked hroute hstate hhome hgood⟩
  · exact farRd_poisons hasked hroute
  · exact farWr_writes hasked hroute
  · exact fun hother => ⟨farWr_refuses hasked hroute hother, farPut_refuses hasked hroute hother, farCommit_refuses hasked hroute hother⟩
  · rintro ⟨hstate, hhome⟩
    exact ⟨farPut_writes hasked hroute hstate hhome, farPut_stages hasked hroute hstate hhome, farCommit_commits hasked hroute hstate hhome,
      farFree_replies hasked hroute hstate hhome⟩
  · exact farFree_keeps hasked hroute
  · intro key hsnoops hjournal
    exact ⟨snoop_answers hasked hsnoops hroute hjournal, snoop_waits hasked hsnoops⟩
  · intro e y
    exact ⟨fun hmap hshared hactive hroom => xmap_maps hasked hroute hmap hshared hactive hroom, xmap_refuses hasked hroute, xmap_full hasked hroute,
      xmap_releasesNothing hasked hroute, xmap_releases hasked hroute⟩
  · exact fun hrole => ⟨admitReq_records hasked hroute hrole, admitReq_confirms hasked hroute hrole, uliletTally_stores hasked hroute hrole⟩
  · exact fun hrole => ⟨admitReq_refuses hasked hroute hrole, uliletTally_ignored hasked hroute hrole⟩

end Sys2Proof.Machine
end
